-- ==== Sys2Proof/Word.lean ====
section
/-! DEFINITION. Word.lean: the word types of the BW7256 and their plainest arithmetic (R3, R245). -/

namespace Sys2Proof

/-- A 64-bit register value (R245). -/
abbrev Word := BitVec 64

/-- One byte (R3: memory is addressed in bytes). -/
abbrev Byte := BitVec 8

/-- A byte string, lowest address first (R3: little-endian). -/
abbrev Bytes := List Byte

/-- A pavilion-relative address as instructions compute it: 38 bits (R257, R421). -/
abbrev Addr := BitVec 38

/-- The low bits of a natural number as a word. -/
def Word.ofNat (n : Nat) : Word := BitVec.ofNat 64 n

end Sys2Proof
end

