-- ==== Sys2Proof/Syntax.lean ====
section
/-! DEFINITION. Syntax.lean: the commands of the BW7256, one constructor per row of the table of operations and
events, with their operands.

Three kinds of command share the table:
* instructions of the logical cores: the operand record holds the logical core that executes the instruction at its
  pcc, and the fields of the 32-bit instruction word (Tables 9.1 to 9.18);
* messages and blocks that reach the device at its pins (Amnor messages, channel blocks, I2C and TAP transfers);
* events inside the device (a timer, a record that completes, a coherence message that arrives). Where a physical
  process outside the spec's logic decides an event's outcome (a compare that fails, a measured pace), the operand
  carries that outcome. An operand `t` is the timebase, in ns, at the moment of the event.
-/

namespace Sys2Proof

/-- Format A of ALU and MULDIV (Table 9.1, R283, R285): FN [6] F, FN [5] W. -/
structure OpA where
  core : Fin 256
  rd : BitVec 5
  ra : BitVec 5
  rb : BitVec 5
  w : Bool
  f : Bool
deriving DecidableEq, Repr

/-- Format A, compare (Table 9.1, R287). -/
structure OpCmp where
  core : Fin 256
  bd : BitVec 12
  ra : BitVec 5
  rb : BitVec 5
  cond : BitVec 4
deriving DecidableEq, Repr

/-- Format A, floating point, FP (R296): `p` is FN [5], 1 for binary64. -/
structure OpF where
  core : Fin 256
  fd : BitVec 5
  fa : BitVec 5
  fb : BitVec 5
  p : Bool
deriving DecidableEq, Repr

/-- Format A, floating point, FMA (R297). -/
structure OpFma where
  core : Fin 256
  fd : BitVec 5
  fa : BitVec 5
  fb : BitVec 5
  fc : BitVec 5
  p : Bool
deriving DecidableEq, Repr

/-- An event of one core that has no other operand. -/
structure OpCore where
  core : Fin 256
deriving DecidableEq, Repr

/-- An event of one core at timebase `t`. -/
structure OpCoreT where
  core : Fin 256
  t : Nat
deriving DecidableEq, Repr

/-- A twin that gives up at timebase `t`; `midFrame` says that its partner is then writing the frame of a trap (R342, R476). -/
structure OpGiveUp extends OpCoreT where
  midFrame : Bool
deriving DecidableEq, Repr

/-- Format A of CAP (R295). -/
structure OpCap where
  core : Fin 256
  rd : BitVec 5
  ra : BitVec 5
  rb : BitVec 5
  cx : BitVec 4
deriving DecidableEq, Repr

/-- Format A of DEC (R299): `l` is FN [3:0], L − 1; `back` and `backB` as in `OpLd`, for the operands at RA and RB. -/
structure OpDec where
  core : Fin 256
  rd : BitVec 5
  ra : BitVec 5
  rb : BitVec 5
  cx : BitVec 4
  l : BitVec 4
  back : List Nat
  backB : List Nat
deriving DecidableEq, Repr

/-- Format A of BLK (R300). `stop` is the number of bytes after which an interrupt or a machine check that is due is
taken at a 64-byte destination boundary (R301, R451); none when the instruction runs to its end. `back` as in `OpLd`. -/
structure OpBlk where
  core : Fin 256
  rd : BitVec 5
  ra : BitVec 5
  rb : BitVec 5
  cx : BitVec 4
  stop : Option Nat
  back : List Nat
deriving DecidableEq, Repr

/-- Format B, bit operation (R288). -/
structure OpBop where
  core : Fin 256
  bd : BitVec 12
  ba : BitVec 12
  bfn : BitVec 2
deriving DecidableEq, Repr

/-- Format I (Table 9.1). -/
structure OpI where
  core : Fin 256
  rd : BitVec 5
  ra : BitVec 5
  imm : BitVec 16
deriving DecidableEq, Repr

/-- Format I of PBIT (R289): the RD field's [25] A and [24] R marks; its operation is the constructor. -/
structure OpPbit where
  core : Fin 256
  acq : Bool
  rel : Bool
  ra : BitVec 5
  imm : BitVec 16
deriving DecidableEq, Repr

/-- Format M (R290). -/
structure OpM where
  core : Fin 256
  rd : BitVec 5
  cs : BitVec 4
  rb : BitVec 5
  off : BitVec 12
deriving DecidableEq, Repr

/-- What a read of memory or scratchpad finds (R426, R427, R434). -/
inductive EccFinding where
  | good | corrected | uncorrectable
deriving DecidableEq, Repr

/-- Format M of a load. `back` gives, for each of its 8-byte accesses, how many of the stores that the core need not see yet it is
performed ahead of (R358, R359); missing ones count as 0. `ecc` is what the read finds at its address (R434). -/
structure OpLd extends OpM where
  back : List Nat
  ecc : EccFinding
deriving DecidableEq, Repr

/-- Format I of BLD (R289): `back` as in `OpLd`, and what its read of the bit store finds. -/
structure OpBld extends OpPbit where
  back : List Nat
  ecc : EccFinding
deriving DecidableEq, Repr

/-- Format M, marked (R291). -/
structure OpMx where
  core : Fin 256
  rd : BitVec 5
  cs : BitVec 4
  rb : BitVec 5
  off : BitVec 8
deriving DecidableEq, Repr

/-- Format M of a marked load, with `back` as in `OpLd`. -/
structure OpMxLd extends OpMx where
  back : List Nat
deriving DecidableEq, Repr

/-- Format M, atomic (R292): MK [2] acquire, MK [1] release, SZ. -/
structure OpAtom where
  core : Fin 256
  rd : BitVec 5
  cs : BitVec 4
  rb : BitVec 5
  rs : BitVec 5
  acq : Bool
  rel : Bool
  sz : Bool
deriving DecidableEq, Repr

/-- Format B (R293). -/
structure OpB where
  core : Fin 256
  ba : BitVec 12
  off : BitVec 14
deriving DecidableEq, Repr

/-- Format T of SYS (R302). -/
structure OpT where
  core : Fin 256
  rd : BitVec 5
  cx : BitVec 4
  n12 : BitVec 12
deriving DecidableEq, Repr

/-- Format A of DEV (R304). -/
structure OpDev where
  core : Fin 256
  rd : BitVec 5
  ra : BitVec 5
  rb : BitVec 5
  cx : BitVec 4
deriving DecidableEq, Repr

/-- A fetched instruction word (R277, R279). -/
structure OpWord where
  core : Fin 256
  word : BitVec 32
deriving DecidableEq, Repr

/-- A cipher engine's slot ends (R494); `mismatch` tells that the two datapaths disagreed (R497). -/
structure OpCipherChunk where
  engine : Fin 24
  mismatch : Bool
  t : Nat
deriving DecidableEq, Repr

/-- A cipher engine's self-check ends, with its finding (R497). -/
structure OpCipherCheck where
  engine : Fin 24
  passed : Bool
  t : Nat
deriving DecidableEq, Repr

/-- A compression engine's slot ends (R517); `mismatch` tells that a verification of the block disagreed (R506). -/
structure OpCompChunk where
  engine : Fin 16
  mismatch : Bool
  t : Nat
deriving DecidableEq, Repr

/-- A compression engine's self-check ends, with its finding (R506). -/
structure OpCompCheck where
  engine : Fin 16
  passed : Bool
  t : Nat
deriving DecidableEq, Repr

/-- An event of one pavilion at timebase `t`. -/
structure OpPavT where
  pav : Fin 64
  t : Nat
deriving DecidableEq, Repr

/-- The DMA port's write that is requested in the bank cycle of a core's write to the same scratchpad word (R439): none, the
cluster mover's, or another device agent's. -/
inductive Collide where
  | none | mover | device
deriving DecidableEq, Repr

/-- The merging-buffer entry at place `idx` leaves core's buffer (R380), with what its writes collide with (R439). -/
structure OpDrain where
  core : Fin 256
  idx : Fin 16
  collide : Collide
deriving DecidableEq, Repr

/-- What starts an instruction retry (R461). -/
inductive RetryEvent where
  | compare
  | microcode (pipelineB : Bool) (addr : BitVec 13)
  | registerEcc
  | cacheParity (line : BitVec 32)
deriving DecidableEq, Repr

/-- An instruction retry and whether it succeeds (R462, R463). -/
structure OpRetry where
  core : Fin 256
  event : RetryEvent
  success : Bool
  t : Nat
deriving DecidableEq, Repr

/-- A core self-test ends, with its finding (R465). -/
structure OpSelfTest where
  core : Fin 256
  confirmed : Bool
  t : Nat
deriving DecidableEq, Repr

/-- An event of one cluster at timebase `t`. -/
structure OpClusterT where
  cluster : Fin 16
  t : Nat
deriving DecidableEq, Repr

/-- A coherence message about one line of one pavilion: `agent` is the agent that sends or receives it (Table 13.3:
0 to 15 clusters, 16 the hub engines, 17 the movers' shared agent), `line` the pavilion-relative line address. -/
structure OpLine where
  agent : Fin 18
  pav : Fin 64
  line : BitVec 32
deriving DecidableEq, Repr

/-- As `OpLine`, at timebase `t`. -/
structure OpLineT where
  agent : Fin 18
  pav : Fin 64
  line : BitVec 32
  t : Nat
deriving DecidableEq, Repr

/-- A writeback, or its acknowledgement, named by agent and transaction id (R400). -/
structure OpWb where
  agent : Fin 18
  id : Nat
deriving DecidableEq, Repr

/-- The operation of an atomic (Table 9.12). -/
inductive AtomKind where
  | swap | cas | add | and | or | xor | max | min | maxu | minu
deriving DecidableEq, Repr

/-- A far atomic's request (R404): the pavilion-relative byte address, the width and the operands. -/
structure OpFatom where
  agent : Fin 18
  pav : Fin 64
  addr : Addr
  kind : AtomKind
  four : Bool
  operand : Word
  compare : Word
deriving DecidableEq, Repr

/-- An uncached partial write (Table 13.6): bytes of one line from offset `off`. -/
structure OpWru where
  agent : Fin 18
  pav : Fin 64
  line : BitVec 32
  off : Fin 64
  bytes : Bytes
deriving DecidableEq, Repr

/-- An event of one memory stack at timebase `t`. -/
structure OpStackT where
  stack : Fin 8
  t : Nat
deriving DecidableEq, Repr

/-- The patrol of `stack` reads the line at byte offset 64 × `line` of the stack (R429). -/
structure OpPatrol where
  stack : Fin 8
  line : Nat
  finding : EccFinding
  upper : Bool
  t : Nat
deriving DecidableEq, Repr

/-- An event of one scratchpad bank (R436). -/
structure OpBank where
  cluster : Fin 16
  bank : Fin 32
deriving DecidableEq, Repr

/-- An event of a pavilion's ring at one cluster's mover (R440). -/
structure OpMover where
  cluster : Fin 16
  pav : Fin 64
  t : Nat
deriving DecidableEq, Repr

/-- An event about one request of one session (R146, R94). -/
structure OpSeqT where
  session : BitVec 32
  seq : Nat
  t : Nat
deriving DecidableEq, Repr

/-- An event about one operation of one endpoint (R203, R228). -/
structure OpOpnumT where
  ep : Fin 4096
  opnum : BitVec 64
  t : Nat
deriving DecidableEq, Repr

/-- An event of one hearth ring: 0 to 63 the pavilions' rings, 64 the device ring (R140). -/
structure OpRing where
  ring : Fin 65
  t : Nat
deriving DecidableEq, Repr

/-- A 64-byte line of a pavilion's durable window is written to MRAM (R157). -/
structure OpWinLine where
  pav : Fin 64
  line : Nat
  t : Nat
deriving DecidableEq, Repr

/-- Where the hearth's background read finds something (R159). -/
inductive HearthPlace where
  | ring (ring : Fin 65) (line : Nat)
  | window (pav : Fin 64) (line : Nat)
  | deviceArea
deriving DecidableEq, Repr

/-- What it finds there (R159). -/
inductive HearthFinding where
  | corrected | rebuilt | lost
deriving DecidableEq, Repr

/-- The daily background read of the hearth, or the read of all of it at replay, with its findings (R151, R159). -/
structure OpScrub where
  findings : List (HearthPlace × HearthFinding)
  t : Nat
deriving DecidableEq, Repr

/-- An event at timebase `t`; for a step of start-up, `t` is the µs from step 1, or from the RESET_L release
(0x1100.2C STARTUP_STEPS). -/
structure OpT0 where
  t : Nat
deriving DecidableEq, Repr

/-- The four reference rings' beat counts of one cluster over the 1 µs sample that ends at `t` (R129). -/
structure OpPace where
  cluster : Fin 16
  r0 : Nat
  r1 : Nat
  r2 : Nat
  r3 : Nat
  t : Nat
deriving DecidableEq, Repr

/-- The governor's evaluation of one cluster (R131, R132), with what the silicon does at its present temperature and load: `pace`
gives the measured pace, in beats/µs, at each VCORE from 600 mV in steps of 10 mV; `loadMv` the least VCORE that meets the measured
load; `draw` the input power, in W, with no step of R132 taken and after each of its steps 1 to 4 as far as that step goes. `partMv`
and `pct` say how far the step that brings the input within the cap has to go: to this VCORE, or to this per cent of beats with
issue. -/
structure OpGovern where
  cluster : Fin 16
  pace : List Nat
  loadMv : Nat
  draw : List Nat
  partMv : Nat
  pct : Nat
  t : Nat
deriving DecidableEq, Repr

/-- One 10 mV step of a cluster's VCORE, upward or downward (R130). -/
structure OpVcore where
  cluster : Fin 16
  up : Bool
  t : Nat
deriving DecidableEq, Repr

/-- The network place a host message came from (R69). -/
structure HostSrc where
  ip : BitVec 128
  udp : BitVec 16
deriving DecidableEq, Repr

/-- A received Ethernet frame from destination address to the end of its payload (R67), and how many FEC codewords the PCS has
corrected, and found uncorrectable, since the frame before (Table 3.12). -/
structure OpFrame where
  port : Fin 2
  bytes : Bytes
  fecGood : Nat
  fecBad : Nat
  t : Nat
deriving DecidableEq, Repr

/-- A received PFC frame (R63): the class-enable vector and the eight pause times. -/
structure OpPfc where
  port : Fin 2
  enable : BitVec 8
  times : List (BitVec 16)
deriving DecidableEq, Repr

/-- An ARP request or a neighbour solicitation for `target`, tagged with `vid` if tagged (R66). -/
structure OpResolve where
  port : Fin 2
  target : BitVec 128
  vid : Option (BitVec 12)
  sender : HostSrc
deriving DecidableEq, Repr

/-- An event of one host port. -/
structure OpPortT where
  port : Fin 2
  t : Nat
deriving DecidableEq, Repr

/-- The fields of an Amnor message (Tables 3.3 and 3.4); `payload` is plaintext once the tag and the CRC passed. -/
structure Msg where
  version : Byte
  type : Byte
  flags : BitVec 16
  session : BitVec 32
  seq : Nat
  ack : Nat
  cls : BitVec 16
  res0 : BitVec 32
  iv : Nat
  payload : Bytes
  crc : BitVec 32
  tag : BitVec 128
deriving DecidableEq, Repr

/-- An Amnor message as it reaches the transport: the port, the priority, the source, the pavilion and HOST_ADDR
entry that own the destination address (R65, R67), and the message. -/
structure Rx where
  port : Fin 2
  pcp : BitVec 3
  src : HostSrc
  pav : Fin 64
  addrSlot : Fin 4
  msg : Msg
  t : Nat
deriving DecidableEq, Repr

/-- A timer of one session (R88). -/
structure OpSessT where
  session : BitVec 32
  t : Nat
deriving DecidableEq, Repr

/-- The 2 µs of R106 end for a damaged twin copy of `seq` on the data (false) or control (true) stream. -/
structure OpNakT where
  session : BitVec 32
  control : Bool
  seq : Nat
  t : Nat
deriving DecidableEq, Repr

/-- An event of one dictionary block (R534). -/
structure OpBlockT where
  index : BitVec 16
  t : Nat
deriving DecidableEq, Repr

/-- The bytes of an I2C write transfer after the address: the offset, then data (R544). -/
structure OpI2cWrite where
  offset : Byte
  bytes : Bytes
  t : Nat
deriving DecidableEq, Repr

/-- An I2C read transfer of `count` bytes (R545). -/
structure OpI2cRead where
  count : Nat
  t : Nat
deriving DecidableEq, Repr

/-- The STOP of a transfer that wrote both bytes of POWER_CAP (R546). -/
structure OpI2cCap where
  watts : BitVec 16
  t : Nat
deriving DecidableEq, Repr

/-- An event of one channel link. -/
structure OpLinkT where
  link : Fin 96
  t : Nat
deriving DecidableEq, Repr

/-- A block received on a link: header, payload and trailer as they came (Table 6.2, R169); `opensRun` tells that it
is the first of its run, `broken` that a control codeword broke the run inside it (R168). `fecGood` and `fecBad` are the FEC
codewords corrected and uncorrectable since the block before (Table 6.8). -/
structure RxBlock where
  link : Fin 96
  bytes : Bytes
  opensRun : Bool
  broken : Bool
  fecGood : Nat
  fecBad : Nat
  t : Nat
deriving DecidableEq, Repr

/-- The acknowledge timer of one stream of one link (R179). -/
structure OpAckT where
  link : Fin 96
  control : Bool
  t : Nat
deriving DecidableEq, Repr

/-- An operation message, or a control reply, that the link layer passed up: the payload of its block (R212). -/
structure RxOp where
  link : Fin 96
  payload : Bytes
  t : Nat
deriving DecidableEq, Repr

/-- A clock input (Table 21.1). -/
inductive ClockIn where
  | xtal | refA | refB
deriving DecidableEq, Repr

/-- An event of one clock input. -/
structure OpClock where
  input : ClockIn
  t : Nat
deriving DecidableEq, Repr

/-- A PTP event of one port (R569): `offset` is the measured offset, timebase minus master, in ns. -/
structure OpPtp where
  port : Fin 2
  t : Nat
deriving DecidableEq, Repr

/-- A Sync of a port's master (R64, R569), with its domain and the master's time of its sending, ns, as its Follow_Up gives it; it
arrives at timebase `t`. -/
structure OpSync where
  port : Fin 2
  domain : BitVec 8
  sent : Nat
  t : Nat
deriving DecidableEq, Repr

/-- A Delay_Resp of a port's master that completes an exchange (R64, R570): its domain, the master's time of the Delay_Req's
arrival, ns, and the master's interval in µs. -/
structure OpDelayResp where
  port : Fin 2
  domain : BitVec 8
  got : Nat
  interval : Nat
  t : Nat
deriving DecidableEq, Repr

/-- Power-on reset releases and the straps are sampled (R561, R598). -/
structure OpStraps where
  oscDly : Fin 8
  i2cAddr : Fin 4
  bootSel : Fin 4
  t : Nat
deriving DecidableEq, Repr

/-- The check of XTAL at the end of the oscillator delay (R561, R581). -/
structure OpXtal where
  present : Bool
  t : Nat
deriving DecidableEq, Repr

/-- The two firmware copies' signature checks (R581). -/
structure OpBoot where
  copyA : Bool
  copyB : Bool
  t : Nat
deriving DecidableEq, Repr

/-- The microcode load and the physical slots (17 × cluster + slot) whose self-test failed (R457, R470). -/
structure OpUcode where
  failed : List (Fin 272)
  t : Nat
deriving DecidableEq, Repr

/-- Memory trained and quenched, with the stacks that failed the pattern test of BOOT_SEL 1 (R431, R584). -/
structure OpQuench where
  failed : List (Fin 8)
  t : Nat
deriving DecidableEq, Repr

/-- A die's junction temperature reading, in units of 0.1 °C (R585). -/
structure OpTherm where
  die : Fin 15
  tj : Int
  t : Nat
deriving DecidableEq, Repr

/-- The instructions a TAP can load (R600). -/
inductive TapInstr where
  | bypass | sample | preload | extest | clamp | highz | extestPulse | extestTrain | other
deriving DecidableEq, Repr

/-- An instruction loaded through the TAP (R600). -/
structure OpTap where
  instr : TapInstr
deriving DecidableEq, Repr

/-- The commands of the BW7256: one constructor per row of the table. -/
inductive Instr where
  /-- ADD (R283): ALU add of RA and RB into RD, optionally 32-bit and flag-setting. -/
  | add (o : OpA)
  /-- SUB (R283): ALU subtract RB from RA into RD. -/
  | sub (o : OpA)
  /-- AND (R283): ALU bitwise AND into RD. -/
  | andR (o : OpA)
  /-- OR (R283): ALU bitwise OR into RD. -/
  | orR (o : OpA)
  /-- XOR (R283): ALU bitwise XOR into RD. -/
  | xorR (o : OpA)
  /-- ANDN (R283): ALU RA AND NOT RB into RD. -/
  | andn (o : OpA)
  /-- SHL (R283): ALU logical left shift into RD. -/
  | shl (o : OpA)
  /-- SHR (R283): ALU logical right shift into RD. -/
  | shr (o : OpA)
  /-- SAR (R283): ALU arithmetic right shift into RD. -/
  | sar (o : OpA)
  /-- ROR (R283): ALU rotate right into RD. -/
  | ror (o : OpA)
  /-- MIN (R283): ALU signed minimum into RD. -/
  | minR (o : OpA)
  /-- MAX (R283): ALU signed maximum into RD. -/
  | maxR (o : OpA)
  /-- MINU (R283): ALU unsigned minimum into RD. -/
  | minu (o : OpA)
  /-- MAXU (R283): ALU unsigned maximum into RD. -/
  | maxu (o : OpA)
  /-- CLZ (R283): ALU count of leading zero bits of RA. -/
  | clz (o : OpA)
  /-- POPC (R283): ALU count of one bits of RA. -/
  | popc (o : OpA)
  /-- MUL (R285): Low half of the product into RD. -/
  | mul (o : OpA)
  /-- MULH (R285): High half of the signed product into RD. -/
  | mulh (o : OpA)
  /-- MULHU (R285): High half of the unsigned product into RD. -/
  | mulhu (o : OpA)
  /-- DIV (R309): Signed division truncated toward zero, trapping on a zero divisor. -/
  | div (o : OpA)
  /-- DIVU (R309): Unsigned division, trapping on a zero divisor. -/
  | divu (o : OpA)
  /-- REM (R309): Signed remainder with the dividend's sign. -/
  | rem (o : OpA)
  /-- REMU (R309): Unsigned remainder. -/
  | remu (o : OpA)
  /-- CMP (R287): Integer compare writing one core-local bit under COND. -/
  | cmp (o : OpCmp)
  /-- FCMP_S (R287): Binary32 compare writing one core-local bit. -/
  | fcmpS (o : OpCmp)
  /-- FCMP_D (R287): Binary64 compare writing one core-local bit. -/
  | fcmpD (o : OpCmp)
  /-- FADD (R296): Floating-point add. -/
  | fadd (o : OpF)
  /-- FSUB (R296): Floating-point subtract. -/
  | fsub (o : OpF)
  /-- FMUL (R296): Floating-point multiply. -/
  | fmul (o : OpF)
  /-- FDIV (R296): Floating-point divide. -/
  | fdiv (o : OpF)
  /-- FSQRT (R296): Floating-point square root. -/
  | fsqrt (o : OpF)
  /-- FMIN (R327): minimumNumber of two operands. -/
  | fmin (o : OpF)
  /-- FMAX (R327): maximumNumber of two operands. -/
  | fmax (o : OpF)
  /-- FNEG (R296): Invert the sign of FA without flags. -/
  | fneg (o : OpF)
  /-- FABS (R296): Clear the sign of FA without flags. -/
  | fabs (o : OpF)
  /-- FCPYS (R296): Magnitude of FA with the sign of FB. -/
  | fcpys (o : OpF)
  /-- FMOV (R296): Copy an f register. -/
  | fmov (o : OpF)
  /-- FCVT (R324): Convert between binary32 and binary64. -/
  | fcvt (o : OpF)
  /-- FCVT_L (R325): Convert to signed 64-bit integer in the RM mode. -/
  | fcvtL (o : OpF)
  /-- FCVT_LU (R325): Convert to unsigned 64-bit integer in the RM mode. -/
  | fcvtLu (o : OpF)
  /-- FCVT_FL (R326): Convert a signed integer register to floating point. -/
  | fcvtFl (o : OpF)
  /-- FCVT_FLU (R326): Convert an unsigned integer register to floating point. -/
  | fcvtFlu (o : OpF)
  /-- FRND (R326): roundToIntegralExact in the RM mode. -/
  | frnd (o : OpF)
  /-- FMVFG (R296): Move f register bits to a general register. -/
  | fmvfg (o : OpF)
  /-- FMVGF (R296): Move general register bits to an f register. -/
  | fmvgf (o : OpF)
  /-- FCVT_LZ (R325): Convert to signed integer rounding toward zero. -/
  | fcvtLz (o : OpF)
  /-- FCVT_LUZ (R325): Convert to unsigned integer rounding toward zero. -/
  | fcvtLuz (o : OpF)
  /-- FMADD (R297): Fused FA × FB + FC with one rounding. -/
  | fmadd (o : OpFma)
  /-- FMSUB (R297): Fused FA × FB − FC. -/
  | fmsub (o : OpFma)
  /-- FNMADD (R297): Fused −(FA × FB) − FC. -/
  | fnmadd (o : OpFma)
  /-- FNMSUB (R297): Fused −(FA × FB) + FC. -/
  | fnmsub (o : OpFma)
  /-- FP_SIGNAL (R329): An issued floating-point operation writes its result and flags, possibly raising a pending trap 0x0A. -/
  | fpSignal (o : OpCore)
  /-- FLOATING_POINT_TRAP (R330): A pending trap 0x0A is taken at a boundary with the earliest signalling operation as FAULT. -/
  | floatingPointTrap (o : OpCore)
  /-- CAPCPY (R295): Copy a capability with tag and OTYPE. -/
  | capcpy (o : OpCap)
  /-- CURADD (R295): Add a register to a capability cursor. -/
  | curadd (o : OpCap)
  /-- CURSET (R295): Set a capability cursor from a register. -/
  | curset (o : OpCap)
  /-- CURADDI (R295): Add an immediate to a capability cursor. -/
  | curaddi (o : OpI)
  /-- CDERIV (R295): Microcoded derivation of a narrower capability, writing Z with the tag. -/
  | cderiv (o : OpCap)
  /-- PERMCUT (R295): Clear permissions of a capability by mask. -/
  | permcut (o : OpCap)
  /-- SEALTO (R295): Seal a capability to a software type under a key. -/
  | sealto (o : OpCap)
  /-- SEALOFF (R295): Unseal a software-typed capability with a key capability. -/
  | sealoff (o : OpCap)
  /-- ENTRYMK (R295): Make an entry capability of OTYPE 1. -/
  | entrymk (o : OpCap)
  /-- TAGCLR (R295): Copy a capability with tag 0. -/
  | tagclr (o : OpCap)
  /-- RDTAG (R295): Read a capability's tag into a register. -/
  | rdtag (o : OpCap)
  /-- RDPERM (R295): Read a capability's PERMS into a register. -/
  | rdperm (o : OpCap)
  /-- RDTYPE (R295): Read a capability's OTYPE into a register. -/
  | rdtype (o : OpCap)
  /-- RDBASE (R295): Read a capability's BASE into a register. -/
  | rdbase (o : OpCap)
  /-- RDLEN (R295): Read a capability's LENGTH into a register. -/
  | rdlen (o : OpCap)
  /-- RDCUR (R295): Read a capability's CURSOR into a register. -/
  | rdcur (o : OpCap)
  /-- RDPCC (R295): Copy pcc with cursor at this instruction. -/
  | rdpcc (o : OpCap)
  /-- DADD (R315): Packed-decimal add in memory. -/
  | dadd (o : OpDec)
  /-- DSUB (R315): Packed-decimal subtract in memory. -/
  | dsub (o : OpDec)
  /-- DMUL (R315): Packed-decimal multiply in memory. -/
  | dmul (o : OpDec)
  /-- DDIV (R316): Packed-decimal divide storing quotient and remainder. -/
  | ddiv (o : OpDec)
  /-- DCVT_DB (R317): Convert packed decimal to a signed binary register. -/
  | dcvtDb (o : OpDec)
  /-- DCVT_BD (R317): Convert a signed register to packed decimal. -/
  | dcvtBd (o : OpDec)
  /-- MOVB (R301): Microcoded block copy, interruptible at 64-byte destination boundaries. -/
  | movb (o : OpBlk)
  /-- CRCM (R300): Microcoded CRC-32C update over a memory range. -/
  | crcm (o : OpBlk)
  /-- BOP (R288): Combine two core-local bits under BFN. -/
  | bop (o : OpBop)
  /-- BOPN (R288): Combine a core-local bit with the inverse of another under BFN. -/
  | bopn (o : OpBop)
  /-- ADDI (R286): Add a sign-extended immediate. -/
  | addi (o : OpI)
  /-- ANDI (R286): AND with a zero-extended immediate. -/
  | andi (o : OpI)
  /-- ORI (R286): OR with a zero-extended immediate. -/
  | ori (o : OpI)
  /-- XORI (R286): XOR with a zero-extended immediate. -/
  | xori (o : OpI)
  /-- SHI (R286): Shift or rotate by an immediate amount. -/
  | shi (o : OpI)
  /-- LDI (R286): Load a sign-extended immediate. -/
  | ldi (o : OpI)
  /-- SLO (R286): Shift left by 16 and OR an immediate. -/
  | slo (o : OpI)
  /-- CMPI (R286): Compare with an immediate writing Z, N, C and V. -/
  | cmpi (o : OpI)
  /-- JMP (R294): Jump within pcc to a PC- or register-relative target. -/
  | jmp (o : OpI)
  /-- CALL (R251): Move the window on by two groups and transfer control, trapping on overflow. -/
  | call (o : OpI)
  /-- BLD (R289): Load a pavilion bit into Z. -/
  | bld (o : OpBld)
  /-- BST (R289): Store Z into a pavilion bit. -/
  | bst (o : OpPbit)
  /-- BSET (R289): Set a pavilion bit. -/
  | bset (o : OpPbit)
  /-- BCLR (R289): Clear a pavilion bit. -/
  | bclr (o : OpPbit)
  /-- BTAS (R289): Atomically test and set a pavilion bit into Z. -/
  | btas (o : OpPbit)
  /-- BTAC (R289): Atomically test and clear a pavilion bit into Z. -/
  | btac (o : OpPbit)
  /-- LD_B (R290): Load one byte sign-extended. -/
  | ldB (o : OpLd)
  /-- LD_BU (R290): Load one byte zero-extended. -/
  | ldBu (o : OpLd)
  /-- LD_H (R290): Load two bytes sign-extended. -/
  | ldH (o : OpLd)
  /-- LD_HU (R290): Load two bytes zero-extended. -/
  | ldHu (o : OpLd)
  /-- LD_W (R290): Load four bytes sign-extended. -/
  | ldW (o : OpLd)
  /-- LD_WU (R290): Load four bytes zero-extended. -/
  | ldWu (o : OpLd)
  /-- LD_L (R290): Load eight bytes. -/
  | ldL (o : OpLd)
  /-- LDC (R290): Load a capability, keeping its tag only with LDC. -/
  | ldc (o : OpLd)
  /-- ST_B (R290): Store one byte. -/
  | stB (o : OpM)
  /-- ST_H (R290): Store two bytes. -/
  | stH (o : OpM)
  /-- ST_W (R290): Store four bytes. -/
  | stW (o : OpM)
  /-- ST_L (R290): Store eight bytes. -/
  | stL (o : OpM)
  /-- STC (R32): Store a capability with its tag. -/
  | stc (o : OpM)
  /-- FLD_S (R290): Load binary32 into an f register. -/
  | fldS (o : OpLd)
  /-- FLD_D (R290): Load binary64 into an f register. -/
  | fldD (o : OpLd)
  /-- FST_S (R290): Store binary32 from an f register. -/
  | fstS (o : OpM)
  /-- FST_D (R290): Store binary64 from an f register. -/
  | fstD (o : OpM)
  /-- LD_A_BU (R291): Load one byte with acquire mark. -/
  | ldABu (o : OpMxLd)
  /-- LD_A_HU (R291): Load two bytes with acquire mark. -/
  | ldAHu (o : OpMxLd)
  /-- LD_A_WU (R291): Load four bytes with acquire mark. -/
  | ldAWu (o : OpMxLd)
  /-- LD_A_L (R291): Load eight bytes with acquire mark. -/
  | ldAL (o : OpMxLd)
  /-- ST_R_B (R291): Store one byte with release mark. -/
  | stRB (o : OpMx)
  /-- ST_R_H (R291): Store two bytes with release mark. -/
  | stRH (o : OpMx)
  /-- ST_R_W (R291): Store four bytes with release mark. -/
  | stRW (o : OpMx)
  /-- ST_R_L (R291): Store eight bytes with release mark. -/
  | stRL (o : OpMx)
  /-- LDC_A (R291): Capability load with acquire mark. -/
  | ldcA (o : OpMxLd)
  /-- STC_R (R291): Capability store with release mark. -/
  | stcR (o : OpMx)
  /-- SWAP (R292): Atomic swap returning the old value. -/
  | swap (o : OpAtom)
  /-- CAS (R292): Atomic compare-and-swap writing Z. -/
  | cas (o : OpAtom)
  /-- AADD (R292): Atomic add. -/
  | aadd (o : OpAtom)
  /-- AAND (R292): Atomic AND. -/
  | aand (o : OpAtom)
  /-- AOR (R292): Atomic OR. -/
  | aor (o : OpAtom)
  /-- AXOR (R292): Atomic XOR. -/
  | axor (o : OpAtom)
  /-- AMAX (R292): Atomic signed maximum. -/
  | amax (o : OpAtom)
  /-- AMIN (R292): Atomic signed minimum. -/
  | amin (o : OpAtom)
  /-- AMAXU (R292): Atomic unsigned maximum. -/
  | amaxu (o : OpAtom)
  /-- AMINU (R292): Atomic unsigned minimum. -/
  | aminu (o : OpAtom)
  /-- SWAPC (R292): Atomic swap of a tagged capability. -/
  | swapc (o : OpAtom)
  /-- CASC (R292): Atomic compare-and-swap of a tagged capability. -/
  | casc (o : OpAtom)
  /-- WSPILL (R253): Store the oldest resident window and advance WOLD. -/
  | wspill (o : OpM)
  /-- WFILL (R253): Restore the most recently spilled window and lower WOLD. -/
  | wfill (o : OpLd)
  /-- BS (R293): Branch when a core-local bit is 1. -/
  | bs (o : OpB)
  /-- BC (R293): Branch when a core-local bit is 0. -/
  | bc (o : OpB)
  /-- TRAP (R302): System call taking trap n of 0x40 or above. -/
  | trap (o : OpT)
  /-- ERET (R347): Check and restore a trap frame and resume. -/
  | eret (o : OpT)
  /-- RET (R252): Return through w7, moving the window back. -/
  | ret (o : OpT)
  /-- RETC (R252): Return through c14, moving the window back. -/
  | retc (o : OpT)
  /-- JMPC (R256): Jump through a capability target. -/
  | jmpc (o : OpT)
  /-- CALLC (R256): Call through a capability target, writing a sealed link in c14. -/
  | callc (o : OpT)
  /-- FENCE (R365): Full barrier until earlier accesses are performed and visible. -/
  | fence (o : OpT)
  /-- CBAR (R366): Barrier that also waits for stores to complete at their endpoints, making window stores durable. -/
  | cbar (o : OpT)
  /-- FBAR (R332): Wait until every earlier floating-point instruction has signalled. -/
  | fbar (o : OpT)
  /-- WAIT (R303): Stop issue until an armed doorbell, timer, trap or 100 µs. -/
  | wait (o : OpT)
  /-- WAIT_END (R303): A waiting core commits WAIT on an armed doorbell, TIME ≥ TCMP or the 100 µs limit. -/
  | waitEnd (o : OpCoreT)
  /-- RSR (R302): Read a system or status register. -/
  | rsr (o : OpT)
  /-- WSR (R272): Write a system register, checking WRING values. -/
  | wsr (o : OpT)
  /-- RCR (R302): Read a system capability. -/
  | rcr (o : OpT)
  /-- WCR (R302): Write a system capability TTB or SHS. -/
  | wcr (o : OpT)
  /-- ARM (R265): Arm a doorbell in the core's arm set. -/
  | arm (o : OpT)
  /-- DISARM (R265): Disarm a doorbell. -/
  | disarm (o : OpT)
  /-- BGET (R302): Copy a core-local bit into a register. -/
  | bget (o : OpT)
  /-- BANKREL (R436): Release a held scratchpad bank into state releasing. -/
  | bankrel (o : OpT)
  /-- ISYNC (R382): Invalidate the core's L1I and fetch buffer. -/
  | isync (o : OpT)
  /-- CHST (R208): Check a command list and start a channel operation under an operation number. -/
  | chst (o : OpDev)
  /-- CHCTL_STOP (R233): Send STOP for one operation. -/
  | chctlStop (o : OpDev)
  /-- CHCTL_HALT (R233): Send HALT for one operation and move it to HALTING. -/
  | chctlHalt (o : OpDev)
  /-- CHCTL_STOPALL (R233): Send STOP with SCOPE 1 for every open operation of the key. -/
  | chctlStopall (o : OpDev)
  /-- CHCTL_HALTALL (R233): Send HALT with SCOPE 1 for every open operation of the key. -/
  | chctlHaltall (o : OpDev)
  /-- CHCTL_RELEASE (R238): Release posted completions up to L and write MARK CONSUMED. -/
  | chctlRelease (o : OpDev)
  /-- DLVR (R306): Check and post a DELIVER, copying its payload into the hub. -/
  | dlvr (o : OpDev)
  /-- GCM_ENC (R486): Cipher job encrypting with AES-GCM under an assigned counter. -/
  | gcmEnc (o : OpDev)
  /-- GCM_DEC (R492): Cipher job decrypting and verifying AES-GCM. -/
  | gcmDec (o : OpDev)
  /-- GMAC_GEN (R486): Cipher job generating a GMAC tag. -/
  | gmacGen (o : OpDev)
  /-- GMAC_VER (R481): Cipher job verifying a GMAC tag. -/
  | gmacVer (o : OpDev)
  /-- XTS_ENC (R481): Cipher job encrypting with XTS-AES. -/
  | xtsEnc (o : OpDev)
  /-- XTS_DEC (R481): Cipher job decrypting with XTS-AES. -/
  | xtsDec (o : OpDev)
  /-- KEYLOAD (R484): Cipher job loading a key record into a key slot. -/
  | keyload (o : OpDev)
  /-- KEYCLEAR (R485): Cipher job quenching a key slot to empty. -/
  | keyclear (o : OpDev)
  /-- CIPHER_CHUNK (R494): An engine slot ends with a cipher chunk processed and compared on both datapaths. -/
  | cipherChunk (o : OpCipherChunk)
  /-- CIPHER_COMPLETION (R490): A finished cipher job is posted to the cipher completion ring and its doorbell set. -/
  | cipherCompletion (o : OpPavT)
  /-- CIPHER_SELF_CHECK_END (R497): A cipher engine's self-check ends, reopening it or sending it to state 4. -/
  | cipherSelfCheckEnd (o : OpCipherCheck)
  /-- COMPRESS (R505): Compression job writing container blocks of SRC. -/
  | compress (o : OpDev)
  /-- DECOMPRESS (R512): Compression job checking and decoding container blocks. -/
  | decompress (o : OpDev)
  /-- STREAM (R508): Compression job appending to a stream context and writing completed blocks. -/
  | stream (o : OpDev)
  /-- COMPRESSION_CHUNK (R517): An engine slot ends with a compression chunk processed. -/
  | compressionChunk (o : OpCompChunk)
  /-- COMPRESSION_COMPLETION (R515): A finished compression job is posted to its completion ring. -/
  | compressionCompletion (o : OpPavT)
  /-- COMPRESSION_SELF_CHECK_END (R506): A compression engine's self-check ends, reopening it or sending it to state 4. -/
  | compressionSelfCheckEnd (o : OpCompCheck)
  /-- MERGING_BUFFER_DRAIN (R380): A compared merging-buffer entry drains into the L2. -/
  | mergingBufferDrain (o : OpDrain)
  /-- DOORBELL_INTERRUPT (R265): An armed doorbell that is 1 with IE set is taken as trap 0x10 at a boundary. -/
  | doorbellInterrupt (o : OpCoreT)
  /-- CORE_TIMER (R273): TIME reaching TCMP with IE set is taken as trap 0x11. -/
  | coreTimer (o : OpCoreT)
  /-- INSTRUCTION_RETRY (R462): A failed compare, microcode check, register ECC or cache parity failure restores the checkpoint and retries. -/
  | instructionRetry (o : OpRetry)
  /-- SELF_TEST_END (R465): The core self-test after three failed retries ends, confirming a fault or resuming. -/
  | selfTestEnd (o : OpSelfTest)
  /-- SPARE_AWAKE (R466): The cluster spare finishes waking and is quenched. -/
  | spareAwake (o : OpClusterT)
  /-- CHECKPOINT_TRANSFER (R466): The checkpoint arrives in the spare over the trellis and is checked. -/
  | checkpointTransfer (o : OpClusterT)
  /-- SPARE_FIRST_COMMIT (R467): The spare commits its first group and takes machine check class 0x03. -/
  | spareFirstCommit (o : OpClusterT)
  /-- TWIN_EXCHANGE (R473): Both twins' requests meet at the meeting point and the access is performed once. -/
  | twinExchange (o : OpCoreT)
  /-- IDLE_EXCHANGE (R474): A twin with no exchange for 256 beats makes an empty one. -/
  | idleExchange (o : OpCoreT)
  /-- TWIN_GIVE_UP (R476): A twin whose retries fail stops and the survivor carries on alone. -/
  | twinGiveUp (o : OpGiveUp)
  /-- TWIN_TIMEOUT (R477): A twin silent at an exchange for TWIN_TIMEOUT is stopped and its partner carries on. -/
  | twinTimeout (o : OpGiveUp)
  /-- RDS (R395): Home serves a read for sharing. -/
  | rds (o : OpLine)
  /-- RDX (R397): Home serves a read for ownership with early grant. -/
  | rdx (o : OpLine)
  /-- UPG (R395): Home serves an upgrade, as RDX. -/
  | upg (o : OpLine)
  /-- WB (R400): Home applies or discards a writeback and sends WBACK. -/
  | wb (o : OpWb)
  /-- FATOM (R404): Home performs a far atomic at the memory controller. -/
  | fatom (o : OpFatom)
  /-- RDU (R395): Home serves an uncached read. -/
  | rdu (o : OpLine)
  /-- WRU (R395): Home merges an uncached partial write. -/
  | wru (o : OpWru)
  /-- SNPS (R395): Holder supplies the line to the requester and keeps it in K. -/
  | snps (o : OpLine)
  /-- SNPI (R395): Holder gives the line up, supplying it if NEED_DATA. -/
  | snpi (o : OpLine)
  /-- FWD (R395): Keeper supplies the line and stays in K. -/
  | fwd (o : OpLine)
  /-- KILL (R410): Agent drops the line without answering. -/
  | kill (o : OpLine)
  /-- DATA (R397): Requester installs the line and state granted. -/
  | dataMsg (o : OpLine)
  /-- RSP (R400): Home takes a snoop answer, writing dirty data and recording a served WB id. -/
  | rsp (o : OpLine)
  /-- NP (R396): Home takes a not-present answer and corrects the directory. -/
  | np (o : OpLine)
  /-- IACK (R397): Home counts an invalidation acknowledgement toward COMPLETE. -/
  | iack (o : OpLine)
  /-- COMPLETE (R399): Requester learns every invalidation is acknowledged and sends DONE. -/
  | complete (o : OpLine)
  /-- DONE (R398): Home closes the transaction and clears PIN. -/
  | done (o : OpLine)
  /-- WBACK (R400): Agent frees its writeback buffer entry. -/
  | wback (o : OpWb)
  /-- REQUEST_RETRY (R406): An agent sends a turned-away request again after its age-based delay. -/
  | requestRetry (o : OpLineT)
  /-- HOME_TIMEOUT (R409): A snoop unanswered within HOME_TIMEOUT poisons the line and completes the transaction. -/
  | homeTimeout (o : OpLineT)
  /-- PATROL_PASS_END (R429): A stack's patrol pass ends and its next period is set. -/
  | patrolPassEnd (o : OpStackT)
  /-- BANK_CLEAR_DONE (R436): A newly assigned bank finishes waking and clearing. -/
  | bankClearDone (o : OpBank)
  /-- BANK_RELEASED (R436): A releasing bank becomes released once its accesses and jobs are done. -/
  | bankReleased (o : OpBank)
  /-- MOVER_DESCRIPTOR (R441): The mover takes and checks the next descriptor with OWN set. -/
  | moverDescriptor (o : OpMover)
  /-- MOVER_COMPLETION (R442): A finished COPY or FILL writes its descriptor status and sets the doorbell. -/
  | moverCompletion (o : OpMover)
  /-- REQ_RECORD_COMPLETE (R146): A REQ record and those before it are complete, so ACCEPT is sent and the request placed. -/
  | reqRecordComplete (o : OpSeqT)
  /-- OPST_COMPLETE (R203): An OPST record is complete, LAST_OPNUM is set and START leaves. -/
  | opstComplete (o : OpOpnumT)
  /-- OPDN_COMPLETE (R237): An OPDN record is complete and the completion is posted and RELEASE sent. -/
  | opdnComplete (o : OpOpnumT)
  /-- INBOUND_PLACEMENT (R102): A waiting request or cancel notice is placed once its inbound entry is free. -/
  | inboundPlacement (o : OpPavT)
  /-- CARRY_FORWARD (R150): An unsettled record at the tail of a more-than-half-full ring is copied to the head. -/
  | carryForward (o : OpRing)
  /-- CONTROL_BLOCK_REWRITE (R149): A ring control block is rewritten at least every 1 ms while the tail moves. -/
  | controlBlockRewrite (o : OpRing)
  /-- WINDOW_LINE_WRITE (R157): A durable-window line and its parity are written to MRAM, completing waiting CBARs. -/
  | windowLineWrite (o : OpWinLine)
  /-- HEARTH_SCRUB (R159): The daily background read corrects, rebuilds or loses hearth lines. -/
  | hearthScrub (o : OpScrub)
  /-- TIMEBASE_RECORD (R567): The timebase is recorded in the hearth device area every 1 ms. -/
  | timebaseRecord (o : OpT0)
  /-- PACE_SAMPLE (R129): A 1 µs pace sample ends and deficit rules are applied. -/
  | paceSample (o : OpPace)
  /-- PACE_REPORT (R129): The averaged PACE report is refreshed every 1 ms. -/
  | paceReport (o : OpT0)
  /-- GOVERNOR_EVALUATION (R131): The governor re-evaluates a cluster's VCORE every 10 µs within the cap. -/
  | governorEvaluation (o : OpGovern)
  /-- VCORE_STEP (R130): The governor moves a cluster's VCORE by one 10 mV step. -/
  | vcoreStep (o : OpVcore)
  /-- FRAME_RECEIVE (R67): A received Ethernet frame is classified, checked and passed or discarded. -/
  | frameReceive (o : OpFrame)
  /-- PFC_FRAME (R63): A received PFC frame pauses or resumes enabled priorities. -/
  | pfcFrame (o : OpPfc)
  /-- ARP_REQUEST (R66): Answer an ARP request for a configured address. -/
  | arpRequest (o : OpResolve)
  /-- NEIGHBOUR_SOLICITATION (R66): Answer an IPv6 neighbour solicitation. -/
  | neighbourSolicitation (o : OpResolve)
  /-- PORT_LINK_UP (R107): A host port reaches LINK_STATUS 2 and held DELIVERs are sent. -/
  | portLinkUp (o : OpPortT)
  /-- PORT_LINK_DOWN (R107): A host port leaves LINK_STATUS 2 and bound sessions hold their DELIVERs. -/
  | portLinkDown (o : OpPortT)
  /-- OPEN (R82): A new-session OPEN is authenticated, admitted or refused, and answered with OPEN_REPLY. -/
  | openNew (o : Rx)
  /-- OPEN_RESUME (R86): An OPEN with RESUME revives a suspended session under new keys. -/
  | openResume (o : Rx)
  /-- REQUEST (R91): A REQUEST is duplicate-checked, journaled or rejected, or answered from the window. -/
  | request (o : Rx)
  /-- ACK (R94): A host acknowledgement retires delivered requests. -/
  | ack (o : Rx)
  /-- NAK (R94): A host NAK prompts an immediate resend of the named DELIVER. -/
  | nak (o : Rx)
  /-- STOP (R112): CONTROL STOP moves sessions or the standing state to STOPPED. -/
  | stop (o : Rx)
  /-- RESUME (R112): CONTROL RESUME returns sessions or the standing state to OPEN. -/
  | resume (o : Rx)
  /-- DRAIN (R114): CONTROL DRAIN moves sessions to DRAINING. -/
  | drain (o : Rx)
  /-- CANCEL (R113): CONTROL CANCEL posts a cancel notice for an accepted request. -/
  | cancel (o : Rx)
  /-- CONTROL_UNDEFINED (R612): A malformed or undefined CONTROL is answered with 0x0107. -/
  | controlUndefined (o : Rx)
  /-- DRAINED_REPEAT (R114): DRAINED is repeated every KEEPALIVE_TIME. -/
  | drainedRepeat (o : OpSessT)
  /-- KEEPALIVE (R88): A received KEEPALIVE proves the host and keeps the session alive. -/
  | keepalive (o : Rx)
  /-- KEEPALIVE_SEND (R88): The device sends KEEPALIVE and CREDIT after KEEPALIVE_TIME of control silence. -/
  | keepaliveSend (o : OpSessT)
  /-- CLOSE (R89): A host CLOSE closes the session or moves it to CLOSING. -/
  | close (o : Rx)
  /-- SESSION_SUSPEND (R88): DEAD_TIME with no authenticated message suspends a session. -/
  | sessionSuspend (o : OpSessT)
  /-- OPENING_TIMEOUT (R84): An OPENING session with no proof in DEAD_TIME is discarded or re-suspended. -/
  | openingTimeout (o : OpSessT)
  /-- DELIVER_RESEND (R94): An unacknowledged DELIVER is resent with doubling interval. -/
  | deliverResend (o : OpSeqT)
  /-- CREDIT (R96): LIMIT rises at the class rate and CREDIT is sent. -/
  | credit (o : OpSessT)
  /-- TWIN_NAK_TIMER (R106): A damaged twin copy draws a NAK when no good copy arrives within 2 µs. -/
  | twinNakTimer (o : OpNakT)
  /-- DICT_READ (R530): A DICT READ returns a segment of an entry's value from a snapshot. -/
  | dictRead (o : Rx)
  /-- DICT_WRITE (R526): A DICT WRITE of an entry without its own row is checked, assembled and applied. -/
  | dictWrite (o : Rx)
  /-- DICT_DESCRIBE (R527): A DICT DESCRIBE returns an entry's type, access, scope and change class. -/
  | dictDescribe (o : Rx)
  /-- SEGMENT_TIMEOUT (R529): A write assembly with no segment for DEAD_TIME is discarded. -/
  | segmentTimeout (o : OpSessT)
  /-- BLOCK_ENABLE (R537): ENABLE 1 runs the block's consistency check and enters state 2 or 3. -/
  | blockEnable (o : Rx)
  /-- BLOCK_DISABLE (R534): ENABLE 0 sends a running block to stopping. -/
  | blockDisable (o : Rx)
  /-- BLOCK_STOPPED (R534): A stopping block's work ends and it enters state 0. -/
  | blockStopped (o : OpBlockT)
  /-- COMMIT (R538): COMMIT 1 checks staged values and applies all of them or none. -/
  | commit (o : Rx)
  /-- COMMIT_DISCARD (R538): COMMIT 0 discards the staged values. -/
  | commitDiscard (o : Rx)
  /-- RESOURCE_REMOVAL (R50): After jobs on a removed resource finish, it is reset or written back, quenched and freed. -/
  | resourceRemoval (o : OpPavT)
  /-- PAVILION_CREATE (R43): ENABLE 1 of a pavilion block checks, assigns, derives PCK and signs the receipt. -/
  | pavilionCreate (o : Rx)
  /-- PAVILION_DESTROY (R51): ENABLE 0 of a pavilion block begins orderly or forced destruction. -/
  | pavilionDestroy (o : Rx)
  /-- DESTROY_MODE (R52): A write of 1 turns a waiting orderly destruction into a forced one. -/
  | destroyMode (o : Rx)
  /-- DESTRUCTION_PROCEED (R54): Once requests are retired or halts answered, sessions close and resources are quenched in order. -/
  | destructionProceed (o : OpPavT)
  /-- DESTRUCTION_COMPLETE (R54): Every resource is in the free pool and the block enters state 0. -/
  | destructionComplete (o : OpPavT)
  /-- LOAD (R45): Owner writes program image bytes into pavilion memory. -/
  | loadImage (o : Rx)
  /-- START (R45): Owner starts or resets a pavilion core in the state of Table 8.10. -/
  | start (o : Rx)
  /-- KEY_WRITE (R483): A key record is loaded into a key slot over a PCK session. -/
  | keyWrite (o : Rx)
  /-- UCODE_IMAGE (R456): A microcode image is checked and kept as the staged image. -/
  | ucodeImage (o : Rx)
  /-- ECK (R80): Writing the estate control key sets ECK_SET and closes bootstrap sessions. -/
  | eck (o : Rx)
  /-- TWIN_PARTNER (R471): Form or dissolve a twin pair of logical cores. -/
  | twinPartner (o : Rx)
  /-- POWER_CAP (R126): Set the power cap, refused below P_ADMIT. -/
  | powerCap (o : Rx)
  /-- ALERT_ACK (R548): Acknowledge every estate alert raised so far. -/
  | alertAck (o : Rx)
  /-- RANGE_INVAL (R414): Write back and invalidate every cached line of a pavilion range. -/
  | rangeInval (o : Rx)
  /-- WAY_LOCK (R412): Lock or unlock an L2 way to a 1 MiB region. -/
  | wayLock (o : Rx)
  /-- RECLAIM (R436): Quench and free released scratchpad banks. -/
  | reclaim (o : Rx)
  /-- INBOUND_CONFIG (R100): Configure the inbound ring, resetting its device index. -/
  | inboundConfig (o : Rx)
  /-- CQ_CONFIG (R240): Configure an endpoint completion ring. -/
  | cqConfig (o : Rx)
  /-- MOVER_CONFIG (R443): Configure a pavilion's mover ring or kick bit. -/
  | moverConfig (o : Rx)
  /-- CIPHER_CQ_CONFIG (R491): Configure the cipher completion ring. -/
  | cipherCqConfig (o : Rx)
  /-- COMPRESSION_CQ_CONFIG (R515): Configure the compression completion ring. -/
  | compressionCqConfig (o : Rx)
  /-- DENSITY (R495): Set the folly-round density, refused beyond the engine share. -/
  | density (o : Rx)
  /-- I2C_WRITE_TRANSFER (R544): An I2C write sets the offset and writes bytes, ignoring non-writable offsets. -/
  | i2cWriteTransfer (o : OpI2cWrite)
  /-- I2C_READ_TRANSFER (R545): An I2C read returns window bytes from one copy. -/
  | i2cReadTransfer (o : OpI2cRead)
  /-- I2C_POWER_CAP (R546): Both POWER_CAP bytes written over I2C take effect at STOP. -/
  | i2cPowerCap (o : OpI2cCap)
  /-- I2C_ALERT_ACK (R546): 0x01 written to ALERT_ACK acknowledges estate alerts. -/
  | i2cAlertAck (o : OpT0)
  /-- I2C_WINDOW_REFRESH (R545): The I2C window copy is refreshed every 1 ms. -/
  | i2cWindowRefresh (o : OpT0)
  /-- LINK_TRAINING_DONE (R187): Both receivers trained moves a link to LOCKING. -/
  | linkTrainingDone (o : OpLinkT)
  /-- LOCK_GAINED (R187): Block lock moves a link to HELLO. -/
  | lockGained (o : OpLinkT)
  /-- LINK_STATE_TIMEOUT (R187): Training, lock or hello time limits send a link to FAILED. -/
  | linkStateTimeout (o : OpLinkT)
  /-- HELLO_SEND (R187): A link in HELLO sends HELLO every 10 µs. -/
  | helloSend (o : OpLinkT)
  /-- HELLO (R188): A received HELLO sets SEEN and may bring the link UP or MISWIRED. -/
  | hello (o : RxBlock)
  /-- RETRY_DELAY_END (R197): A FAILED or MISWIRED link retries TRAINING after RETRY_DELAY. -/
  | retryDelayEnd (o : OpLinkT)
  /-- DATA_BLOCK (R178): A received DATA block is passed on in order, dropped as duplicate, or NAKed. -/
  | dataBlock (o : RxBlock)
  /-- CONTROL_BLOCK (R178): A received CONTROL block is handled on the control stream. -/
  | controlBlock (o : RxBlock)
  /-- LINK_ACK_BLOCK (R174): A received ACK block releases acknowledged control blocks. -/
  | linkAckBlock (o : RxBlock)
  /-- LINK_NAK_BLOCK (R179): A received NAK may start a go-back round on its streams. -/
  | linkNakBlock (o : RxBlock)
  /-- ACK_TIMEOUT (R179): A stream's acknowledge timer fires and starts a go-back round. -/
  | ackTimeout (o : OpAckT)
  /-- LINK_DEAD_TIMEOUT (R190): No good block for LINK_DEAD sends the link to FAILED. -/
  | linkDeadTimeout (o : OpLinkT)
  /-- ACK_OWED (R177): An owed acknowledge or idle-link ACK block is sent on its deadline. -/
  | ackOwed (o : OpLinkT)
  /-- BLOCK_SENT (R182): At a block boundary the link picks the next block by priority and slot schedule. -/
  | blockSent (o : OpLinkT)
  /-- OPENED (R228): An endpoint OPENED returns a moving operation to RUNNING or answers a query. -/
  | opened (o : RxOp)
  /-- RDATA (R215): Endpoint read data is written to the READ buffer by MSEQ. -/
  | rdata (o : RxOp)
  /-- FINAL (R216): An endpoint FINAL ends the operation once all RDATA is held. -/
  | final (o : RxOp)
  /-- CONTROL_REPLY (R235): An endpoint's reply to STOP or HALT is taken and ignored. -/
  | controlReply (o : RxOp)
  /-- QUERY_TIMER (R229): A RUNNING operation silent for ENDPOINT_TIMEOUT/4 sends QUERY. -/
  | queryTimer (o : OpOpnumT)
  /-- OPERATION_TIMEOUT (R230): A RUNNING operation silent for ENDPOINT_TIMEOUT moves to HALTING. -/
  | operationTimeout (o : OpOpnumT)
  /-- MOVING_TIMEOUT (R231): A MOVING operation ends NOT_STARTED or UNCERTAIN after ENDPOINT_TIMEOUT. -/
  | movingTimeout (o : OpOpnumT)
  /-- HALTING_TIMEOUT (R228): A HALTING operation ends NOT_STARTED or UNCERTAIN after ENDPOINT_TIMEOUT. -/
  | haltingTimeout (o : OpOpnumT)
  /-- QUERYING_TIMEOUT (R242): A replayed operation with no answer ends UNCERTAIN. -/
  | queryingTimeout (o : OpOpnumT)
  /-- CLOCK_LOSS (R562): A clock input is found lost and its PLL coasts or switches. -/
  | clockLoss (o : OpClock)
  /-- CLOCK_PRESENT (R562): A clock input is present again after 1 ms within tolerance. -/
  | clockPresent (o : OpClock)
  /-- REF_RETURN (R563): The PLLs return to the preferred reference after it is present for 1 s. -/
  | refReturn (o : OpT0)
  /-- TB_COAST_CLEAR (R566): The timebase PLL locks to a returned XTAL and TB_COAST clears. -/
  | tbCoastClear (o : OpT0)
  /-- PTP_SYNC (R569): A received Sync is timestamped and advances the port's PTP state. -/
  | ptpSync (o : OpSync)
  /-- DELAY_REQ_SEND (R569): Delay_Req is sent at the master's interval. -/
  | delayReqSend (o : OpPtp)
  /-- DELAY_RESP (R570): A Delay_Resp completes an exchange and the timebase is stepped or slewed. -/
  | delayResp (o : OpDelayResp)
  /-- PTP_HOLDOVER (R569): Eight seconds without Sync moves a locked port to holdover. -/
  | ptpHoldover (o : OpPtp)
  /-- VIN_RISE (R576): VIN rising through 2.6 V arms power-on reset. -/
  | vinRise (o : OpT0)
  /-- POR_RELEASE (R576): Power-on reset releases 2 ms later and straps are sampled. -/
  | porRelease (o : OpStraps)
  /-- RESET_L_ASSERT (R576): RESET_L low resets the device, losing volatile state. -/
  | resetLAssert (o : OpT0)
  /-- RESET_L_RELEASE (R576): RESET_L release begins start-up at step 2. -/
  | resetLRelease (o : OpT0)
  /-- POR_REARM (R574): VIN below 1.2 V drops the standby regulator and re-arms reset. -/
  | porRearm (o : OpT0)
  /-- OSC_DELAY_END (R561): The oscillator delay ends and XTAL is checked. -/
  | oscDelayEnd (o : OpXtal)
  /-- XTAL_RECHECK (R581): XTAL absent at step 4 asserts FAULT_L and is checked again after OSC_DLY. -/
  | xtalRecheck (o : OpXtal)
  /-- STARTUP_CLOCKS_LOCKED (R579): PLLs lock and the timebase is set from the last record. -/
  | startupClocksLocked (o : OpT0)
  /-- STARTUP_RAMP_DONE (R579): Hub, memory, SerDes and cluster domains finish ramping. -/
  | startupRampDone (o : OpT0)
  /-- GROUNDSKEEPER_BOOT (R581): Groundskeeper firmware is verified and runs, or start-up stops with FAULT_L. -/
  | groundskeeperBoot (o : OpBoot)
  /-- MICROCODE_LOAD (R457): The staged or running microcode image is loaded into every store. -/
  | microcodeLoad (o : OpUcode)
  /-- MEMORY_QUENCH_DONE (R431): Memory PHYs are trained and all granules and banks quenched. -/
  | memoryQuenchDone (o : OpQuench)
  /-- HEARTH_REPLAY_SCAN (R151): Rings are scanned, DICT records and the pavilion table applied, blocks enabled. -/
  | hearthReplayScan (o : OpScrub)
  /-- IN_DOUBT_SETTLE (R242): Operations with OPST and no OPDN are queried and settled. -/
  | inDoubtSettle (o : OpT0)
  /-- REPLAY_PRESENT (R22): Completions posted, sessions suspended and unretired requests presented REPLAYED. -/
  | replayPresent (o : OpT0)
  /-- READY (R579): READY_L is asserted at the end of start-up. -/
  | ready (o : OpT0)
  /-- THERM_ASSERT (R585): TJ_MAX at 115 °C asserts THERM_L and raises the alert. -/
  | thermAssert (o : OpTherm)
  /-- THERM_RELEASE (R585): TJ_MAX falling to 110 °C releases THERM_L. -/
  | thermRelease (o : OpTherm)
  /-- THERMAL_STOP (R586): TJ_MAX at 125 °C stops issue, idles SerDes and holds FAULT_L and THERM_L. -/
  | thermalStop (o : OpTherm)
  /-- BLOCK_LOCK_LOST (R190): A link in UP loses block lock or gets the BER monitor's high-BER indication, and reception stops while UP continues. -/
  | blockLockLost (o : OpLinkT)
  /-- BLOCK_LOCK_REGAINED (R190): A link still in UP regains block lock and reception resumes. -/
  | blockLockRegained (o : OpLinkT)
  /-- PATROL_READ (R429): The stack patrol reads one line, corrects it or poisons it as a home transaction, and skips a pinned line for a later visit. -/
  | patrolRead (o : OpPatrol)
  /-- TAP_INSTRUCTION (R600): An instruction loaded through the IEEE 1149.1 TAP takes effect, with pin-controlling instructions accepted only while RESET_L is low and otherwise loading BYPASS. -/
  | tapInstruction (o : OpTap)
  /-- UNDEFINED_OPCODE_WORD (R279): A fetched word whose major opcode is marked “—”, such as the all-zero word, raises trap 0x01. -/
  | undefinedOpcodeWord (o : OpWord)
deriving DecidableEq, Repr

end Sys2Proof
end

