-- ==== Sys2Proof/Decode.lean ====
section
/-! DEFINITION. Decode.lean: the decoder and the encoder of instruction words (Tables 9.1 to 9.18), and the command that a
word of the table of operations spells. -/

namespace Sys2Proof

/-! ## Instruction words (R277 to R279)

A word is read into the constructor its fields select, for core `c`. A field of RES0 is ignored (R4). A word marked "—" or
reserved reads as none. DEV.CIPH and DEV.CMPR are read as `gcmEnc` and `compress`: the descriptor's OP selects the job. -/

/-- ALU (Table 9.3). -/
def decAlu (c : Fin 256) (w : BitVec 32) : Option Instr :=
  let o : OpA := { core := c, rd := w.extractLsb' 21 5, ra := w.extractLsb' 16 5, rb := w.extractLsb' 11 5, w := w.getLsbD 5, f := w.getLsbD 6 }
  match (w.extractLsb' 0 5).toNat with
  | 0x00 => some (.add o)
  | 0x01 => some (.sub o)
  | 0x02 => some (.andR o)
  | 0x03 => some (.orR o)
  | 0x04 => some (.xorR o)
  | 0x05 => some (.andn o)
  | 0x06 => some (.shl o)
  | 0x07 => some (.shr o)
  | 0x08 => some (.sar o)
  | 0x09 => some (.ror o)
  | 0x0A => some (.minR o)
  | 0x0B => some (.maxR o)
  | 0x0C => some (.minu o)
  | 0x0D => some (.maxu o)
  | 0x0E => some (.clz o)
  | 0x0F => some (.popc o)
  | _ => none

/-- MULDIV (Table 9.4). -/
def decMulDiv (c : Fin 256) (w : BitVec 32) : Option Instr :=
  let o : OpA := { core := c, rd := w.extractLsb' 21 5, ra := w.extractLsb' 16 5, rb := w.extractLsb' 11 5, w := w.getLsbD 5, f := w.getLsbD 6 }
  match (w.extractLsb' 0 5).toNat with
  | 0x00 => some (.mul o)
  | 0x01 => some (.mulh o)
  | 0x02 => some (.mulhu o)
  | 0x04 => some (.div o)
  | 0x05 => some (.divu o)
  | 0x06 => some (.rem o)
  | 0x07 => some (.remu o)
  | _ => none

/-- CMP (Table 9.6). -/
def decCmp (c : Fin 256) (w : BitVec 32) : Option Instr :=
  let o : OpCmp := { core := c, bd := w.extractLsb' 14 12, ra := w.extractLsb' 9 5, rb := w.extractLsb' 4 5, cond := w.extractLsb' 0 4 }
  if o.cond.toNat < 12 then some (.cmp o) else none

/-- FCMP.S (Table 9.7). -/
def decFcmpS (c : Fin 256) (w : BitVec 32) : Option Instr :=
  let o : OpCmp := { core := c, bd := w.extractLsb' 14 12, ra := w.extractLsb' 9 5, rb := w.extractLsb' 4 5, cond := w.extractLsb' 0 4 }
  if o.cond.toNat < 13 then some (.fcmpS o) else none

/-- FCMP.D (Table 9.7). -/
def decFcmpD (c : Fin 256) (w : BitVec 32) : Option Instr :=
  let o : OpCmp := { core := c, bd := w.extractLsb' 14 12, ra := w.extractLsb' 9 5, rb := w.extractLsb' 4 5, cond := w.extractLsb' 0 4 }
  if o.cond.toNat < 13 then some (.fcmpD o) else none

/-- FP (Table 9.14). -/
def decFp (c : Fin 256) (w : BitVec 32) : Option Instr :=
  let o : OpF := { core := c, fd := w.extractLsb' 21 5, fa := w.extractLsb' 16 5, fb := w.extractLsb' 11 5, p := w.getLsbD 5 }
  match (w.extractLsb' 0 5).toNat with
  | 0x00 => some (.fadd o)
  | 0x01 => some (.fsub o)
  | 0x02 => some (.fmul o)
  | 0x03 => some (.fdiv o)
  | 0x04 => some (.fsqrt o)
  | 0x05 => some (.fmin o)
  | 0x06 => some (.fmax o)
  | 0x07 => some (.fneg o)
  | 0x08 => some (.fabs o)
  | 0x09 => some (.fcpys o)
  | 0x0A => some (.fmov o)
  | 0x0B => some (.fcvt o)
  | 0x0C => some (.fcvtL o)
  | 0x0D => some (.fcvtLu o)
  | 0x0E => some (.fcvtFl o)
  | 0x0F => some (.fcvtFlu o)
  | 0x10 => some (.frnd o)
  | 0x11 => some (.fmvfg o)
  | 0x12 => some (.fmvgf o)
  | 0x13 => some (.fcvtLz o)
  | 0x14 => some (.fcvtLuz o)
  | _ => none

/-- FMA (R297). -/
def decFma (c : Fin 256) (w : BitVec 32) : Option Instr :=
  let o : OpFma := { core := c, fd := w.extractLsb' 21 5, fa := w.extractLsb' 16 5, fb := w.extractLsb' 11 5, fc := w.extractLsb' 6 5, p := w.getLsbD 5 }
  match (w.extractLsb' 0 5).toNat with
  | 0x00 => some (.fmadd o)
  | 0x01 => some (.fmsub o)
  | 0x02 => some (.fnmadd o)
  | 0x03 => some (.fnmsub o)
  | _ => none

/-- CAP (Table 9.13). -/
def decCap (c : Fin 256) (w : BitVec 32) : Option Instr :=
  let o : OpCap := { core := c, rd := w.extractLsb' 21 5, ra := w.extractLsb' 16 5, rb := w.extractLsb' 11 5, cx := w.extractLsb' 7 4 }
  match (w.extractLsb' 0 7).toNat with
  | 0x00 => some (.capcpy o)
  | 0x01 => some (.curadd o)
  | 0x02 => some (.curset o)
  | 0x03 => some (.cderiv o)
  | 0x04 => some (.permcut o)
  | 0x05 => some (.sealto o)
  | 0x06 => some (.sealoff o)
  | 0x07 => some (.entrymk o)
  | 0x08 => some (.tagclr o)
  | 0x09 => some (.rdtag o)
  | 0x0A => some (.rdperm o)
  | 0x0B => some (.rdtype o)
  | 0x0C => some (.rdbase o)
  | 0x0D => some (.rdlen o)
  | 0x0E => some (.rdcur o)
  | 0x0F => some (.rdpcc o)
  | _ => none

/-- DEC (Table 9.15). -/
def decDec (c : Fin 256) (w : BitVec 32) : Option Instr :=
  let o : OpDec := { core := c, rd := w.extractLsb' 21 5, ra := w.extractLsb' 16 5, rb := w.extractLsb' 11 5, cx := w.extractLsb' 7 4, l := w.extractLsb' 0 4, back := [], backB := [] }
  match (w.extractLsb' 4 3).toNat with
  | 0x00 => some (.dadd o)
  | 0x01 => some (.dsub o)
  | 0x02 => some (.dmul o)
  | 0x03 => some (.ddiv o)
  | 0x05 => some (.dcvtDb o)
  | 0x06 => some (.dcvtBd o)
  | _ => none

/-- BLK (R300). -/
def decBlk (c : Fin 256) (w : BitVec 32) : Option Instr :=
  let o : OpBlk := { core := c, rd := w.extractLsb' 21 5, ra := w.extractLsb' 16 5, rb := w.extractLsb' 11 5, cx := w.extractLsb' 7 4, stop := none, back := [] }
  match (w.extractLsb' 0 7).toNat with
  | 0x00 => some (.movb o)
  | 0x01 => some (.crcm o)
  | _ => none

/-- DEV (Table 9.18). -/
def decDev (c : Fin 256) (w : BitVec 32) : Option Instr :=
  let o : OpDev := { core := c, rd := w.extractLsb' 21 5, ra := w.extractLsb' 16 5, rb := w.extractLsb' 11 5, cx := w.extractLsb' 7 4 }
  match (w.extractLsb' 0 7).toNat with
  | 0x00 => some (.chst o)
  | 0x01 => some (.chctlStop o)
  | 0x02 => some (.chctlHalt o)
  | 0x03 => some (.chctlStopall o)
  | 0x04 => some (.chctlHaltall o)
  | 0x05 => some (.chctlRelease o)
  | 0x08 => some (.gcmEnc o)
  | 0x09 => some (.compress o)
  | 0x0C => some (.dlvr o)
  | _ => none

/-- BOP (Table 9.8). -/
def decBop (c : Fin 256) (w : BitVec 32) : Option Instr :=
  some (.bop { core := c, bd := w.extractLsb' 14 12, ba := w.extractLsb' 2 12, bfn := w.extractLsb' 0 2 })

/-- BOPN (Table 9.8). -/
def decBopn (c : Fin 256) (w : BitVec 32) : Option Instr :=
  some (.bopn { core := c, bd := w.extractLsb' 14 12, ba := w.extractLsb' 2 12, bfn := w.extractLsb' 0 2 })

/-- The operands of format I. -/
def opI (c : Fin 256) (w : BitVec 32) : OpI := { core := c, rd := w.extractLsb' 21 5, ra := w.extractLsb' 16 5, imm := w.extractLsb' 0 16 }

/-- PBIT (Table 9.9). -/
def decPbit (c : Fin 256) (w : BitVec 32) : Option Instr :=
  let o : OpPbit := { core := c, acq := w.getLsbD 25, rel := w.getLsbD 24, ra := w.extractLsb' 16 5, imm := w.extractLsb' 0 16 }
  match (w.extractLsb' 21 3).toNat with
  | 0x00 => some (.bld { o with back := [], ecc := .good })
  | 0x01 => some (.bst o)
  | 0x02 => some (.bset o)
  | 0x03 => some (.bclr o)
  | 0x04 => some (.btas o)
  | 0x05 => some (.btac o)
  | _ => none

/-- The operands of format M. -/
def opM (c : Fin 256) (w : BitVec 32) : OpM :=
  { core := c, rd := w.extractLsb' 21 5, cs := w.extractLsb' 17 4, rb := w.extractLsb' 12 5, off := w.extractLsb' 0 12 }

/-- The operands of a load in format M: the word says nothing of what its read meets. -/
def opLd (c : Fin 256) (w : BitVec 32) : OpLd := { opM c w with back := [], ecc := .good }

/-- MX (Table 9.11). -/
def decMx (c : Fin 256) (w : BitVec 32) : Option Instr :=
  let o : OpMx := { core := c, rd := w.extractLsb' 21 5, cs := w.extractLsb' 17 4, rb := w.extractLsb' 12 5, off := w.extractLsb' 0 8 }
  match (w.extractLsb' 8 4).toNat with
  | 0x00 => some (.ldABu { o with back := [] })
  | 0x01 => some (.ldAHu { o with back := [] })
  | 0x02 => some (.ldAWu { o with back := [] })
  | 0x03 => some (.ldAL { o with back := [] })
  | 0x04 => some (.stRB o)
  | 0x05 => some (.stRH o)
  | 0x06 => some (.stRW o)
  | 0x07 => some (.stRL o)
  | 0x08 => some (.ldcA { o with back := [] })
  | 0x09 => some (.stcR o)
  | _ => none

/-- ATOM (Table 9.12). -/
def decAtom (c : Fin 256) (w : BitVec 32) : Option Instr :=
  let o : OpAtom := { core := c, rd := w.extractLsb' 21 5, cs := w.extractLsb' 17 4, rb := w.extractLsb' 12 5, rs := w.extractLsb' 7 5, acq := w.getLsbD 2, rel := w.getLsbD 1, sz := w.getLsbD 0 }
  match (w.extractLsb' 3 4).toNat with
  | 0x00 => some (.swap o)
  | 0x01 => some (.cas o)
  | 0x02 => some (.aadd o)
  | 0x03 => some (.aand o)
  | 0x04 => some (.aor o)
  | 0x05 => some (.axor o)
  | 0x06 => some (.amax o)
  | 0x07 => some (.amin o)
  | 0x08 => some (.amaxu o)
  | 0x09 => some (.aminu o)
  | 0x0A => some (.swapc o)
  | 0x0B => some (.casc o)
  | _ => none

/-- The operands of BS and BC. -/
def opB (c : Fin 256) (w : BitVec 32) : OpB := { core := c, ba := w.extractLsb' 14 12, off := w.extractLsb' 0 14 }

/-- SYS (Table 9.16). -/
def decSys (c : Fin 256) (w : BitVec 32) : Option Instr :=
  let o : OpT := { core := c, rd := w.extractLsb' 21 5, cx := w.extractLsb' 17 4, n12 := w.extractLsb' 0 12 }
  match (w.extractLsb' 12 5).toNat with
  | 0x00 => some (.trap o)
  | 0x01 => some (.eret o)
  | 0x02 => some (.ret o)
  | 0x03 => some (.retc o)
  | 0x04 => some (.jmpc o)
  | 0x05 => some (.callc o)
  | 0x06 => some (.fence o)
  | 0x07 => some (.cbar o)
  | 0x08 => some (.fbar o)
  | 0x09 => some (.wait o)
  | 0x0A => some (.rsr o)
  | 0x0B => some (.wsr o)
  | 0x0C => some (.rcr o)
  | 0x0D => some (.wcr o)
  | 0x0E => some (.arm o)
  | 0x0F => some (.disarm o)
  | 0x10 => some (.bget o)
  | 0x11 => some (.bankrel o)
  | 0x12 => some (.isync o)
  | _ => none

/-- An instruction word read by its major opcode (Table 9.2). -/
def decodeWord (c : Fin 256) (w : BitVec 32) : Option Instr :=
  match (w.extractLsb' 26 6).toNat with
  | 0x01 => decAlu c w
  | 0x02 => decMulDiv c w
  | 0x03 => decCmp c w
  | 0x04 => decFcmpS c w
  | 0x05 => decFcmpD c w
  | 0x06 => decFp c w
  | 0x07 => decFma c w
  | 0x08 => decCap c w
  | 0x09 => decDec c w
  | 0x0A => decBlk c w
  | 0x0B => decDev c w
  | 0x0C => decBop c w
  | 0x0D => decBopn c w
  | 0x10 => some (.addi (opI c w))
  | 0x11 => some (.andi (opI c w))
  | 0x12 => some (.ori (opI c w))
  | 0x13 => some (.xori (opI c w))
  | 0x14 => some (.shi (opI c w))
  | 0x15 => some (.ldi (opI c w))
  | 0x16 => some (.slo (opI c w))
  | 0x17 => some (.cmpi (opI c w))
  | 0x18 => some (.curaddi (opI c w))
  | 0x19 => some (.jmp (opI c w))
  | 0x1A => some (.call (opI c w))
  | 0x1B => decPbit c w
  | 0x20 => some (.ldB (opLd c w))
  | 0x21 => some (.ldBu (opLd c w))
  | 0x22 => some (.ldH (opLd c w))
  | 0x23 => some (.ldHu (opLd c w))
  | 0x24 => some (.ldW (opLd c w))
  | 0x25 => some (.ldWu (opLd c w))
  | 0x26 => some (.ldL (opLd c w))
  | 0x27 => some (.ldc (opLd c w))
  | 0x28 => some (.stB (opM c w))
  | 0x29 => some (.stH (opM c w))
  | 0x2A => some (.stW (opM c w))
  | 0x2B => some (.stL (opM c w))
  | 0x2C => some (.stc (opM c w))
  | 0x2D => some (.fldS (opLd c w))
  | 0x2E => some (.fldD (opLd c w))
  | 0x2F => some (.fstS (opM c w))
  | 0x30 => some (.fstD (opM c w))
  | 0x31 => decMx c w
  | 0x32 => decAtom c w
  | 0x33 => some (.wspill (opM c w))
  | 0x34 => some (.wfill (opLd c w))
  | 0x38 => some (.bs (opB c w))
  | 0x39 => some (.bc (opB c w))
  | 0x3E => decSys c w
  | _ => none

/-! ## The encoder: RES0 fields are written as zero -/

/-- Format A with a 7-bit FN. -/
def encA (op : BitVec 6) (rd ra rb : BitVec 5) (cx : BitVec 4) (fn : BitVec 7) : BitVec 32 := op ++ rd ++ ra ++ rb ++ cx ++ fn

/-- ALU and MULDIV: FN [6] F, FN [5] W. -/
def encAlu (op : BitVec 6) (o : OpA) (fn : BitVec 5) : BitVec 32 :=
  encA op o.rd o.ra o.rb 0 (BitVec.ofBool o.f ++ BitVec.ofBool o.w ++ fn)

/-- Format A, compare. -/
def encCmp (op : BitVec 6) (o : OpCmp) : BitVec 32 := op ++ o.bd ++ o.ra ++ o.rb ++ o.cond

/-- FP. -/
def encFp (o : OpF) (fn : BitVec 5) : BitVec 32 :=
  (0x06 : BitVec 6) ++ o.fd ++ o.fa ++ o.fb ++ (0 : BitVec 5) ++ BitVec.ofBool o.p ++ fn

/-- FMA. -/
def encFma (o : OpFma) (fn : BitVec 5) : BitVec 32 :=
  (0x07 : BitVec 6) ++ o.fd ++ o.fa ++ o.fb ++ o.fc ++ BitVec.ofBool o.p ++ fn

/-- Format I. -/
def encI (op : BitVec 6) (o : OpI) : BitVec 32 := op ++ o.rd ++ o.ra ++ o.imm

/-- PBIT. -/
def encPbit (o : OpPbit) (k : BitVec 3) : BitVec 32 :=
  (0x1B : BitVec 6) ++ BitVec.ofBool o.acq ++ BitVec.ofBool o.rel ++ k ++ o.ra ++ o.imm

/-- Format M. -/
def encM (op : BitVec 6) (o : OpM) : BitVec 32 := op ++ o.rd ++ o.cs ++ o.rb ++ o.off

/-- MX. -/
def encMx (o : OpMx) (sub : BitVec 4) : BitVec 32 := (0x31 : BitVec 6) ++ o.rd ++ o.cs ++ o.rb ++ sub ++ o.off

/-- ATOM. -/
def encAtom (o : OpAtom) (sub : BitVec 4) : BitVec 32 :=
  (0x32 : BitVec 6) ++ o.rd ++ o.cs ++ o.rb ++ o.rs ++ sub ++ BitVec.ofBool o.acq ++ BitVec.ofBool o.rel ++ BitVec.ofBool o.sz

/-- Format B. -/
def encB (op : BitVec 6) (o : OpB) : BitVec 32 := op ++ o.ba ++ o.off

/-- Format B, bit operation. -/
def encBop (op : BitVec 6) (o : OpBop) : BitVec 32 := op ++ o.bd ++ o.ba ++ o.bfn

/-- SYS. -/
def encSys (o : OpT) (fn : BitVec 5) : BitVec 32 := (0x3E : BitVec 6) ++ o.rd ++ o.cx ++ fn ++ o.n12

/-- The word of an instruction; none for a command that is no instruction. -/
def encodeWord : Instr → Option (BitVec 32)
  | .add o => some (encAlu 0x01 o 0x00)
  | .sub o => some (encAlu 0x01 o 0x01)
  | .andR o => some (encAlu 0x01 o 0x02)
  | .orR o => some (encAlu 0x01 o 0x03)
  | .xorR o => some (encAlu 0x01 o 0x04)
  | .andn o => some (encAlu 0x01 o 0x05)
  | .shl o => some (encAlu 0x01 o 0x06)
  | .shr o => some (encAlu 0x01 o 0x07)
  | .sar o => some (encAlu 0x01 o 0x08)
  | .ror o => some (encAlu 0x01 o 0x09)
  | .minR o => some (encAlu 0x01 o 0x0A)
  | .maxR o => some (encAlu 0x01 o 0x0B)
  | .minu o => some (encAlu 0x01 o 0x0C)
  | .maxu o => some (encAlu 0x01 o 0x0D)
  | .clz o => some (encAlu 0x01 o 0x0E)
  | .popc o => some (encAlu 0x01 o 0x0F)
  | .mul o => some (encAlu 0x02 o 0x00)
  | .mulh o => some (encAlu 0x02 o 0x01)
  | .mulhu o => some (encAlu 0x02 o 0x02)
  | .div o => some (encAlu 0x02 o 0x04)
  | .divu o => some (encAlu 0x02 o 0x05)
  | .rem o => some (encAlu 0x02 o 0x06)
  | .remu o => some (encAlu 0x02 o 0x07)
  | .cmp o => some (encCmp 0x03 o)
  | .fcmpS o => some (encCmp 0x04 o)
  | .fcmpD o => some (encCmp 0x05 o)
  | .fadd o => some (encFp o 0x00)
  | .fsub o => some (encFp o 0x01)
  | .fmul o => some (encFp o 0x02)
  | .fdiv o => some (encFp o 0x03)
  | .fsqrt o => some (encFp o 0x04)
  | .fmin o => some (encFp o 0x05)
  | .fmax o => some (encFp o 0x06)
  | .fneg o => some (encFp o 0x07)
  | .fabs o => some (encFp o 0x08)
  | .fcpys o => some (encFp o 0x09)
  | .fmov o => some (encFp o 0x0A)
  | .fcvt o => some (encFp o 0x0B)
  | .fcvtL o => some (encFp o 0x0C)
  | .fcvtLu o => some (encFp o 0x0D)
  | .fcvtFl o => some (encFp o 0x0E)
  | .fcvtFlu o => some (encFp o 0x0F)
  | .frnd o => some (encFp o 0x10)
  | .fmvfg o => some (encFp o 0x11)
  | .fmvgf o => some (encFp o 0x12)
  | .fcvtLz o => some (encFp o 0x13)
  | .fcvtLuz o => some (encFp o 0x14)
  | .fmadd o => some (encFma o 0x00)
  | .fmsub o => some (encFma o 0x01)
  | .fnmadd o => some (encFma o 0x02)
  | .fnmsub o => some (encFma o 0x03)
  | .capcpy o => some (encA 0x08 o.rd o.ra o.rb o.cx 0x00)
  | .curadd o => some (encA 0x08 o.rd o.ra o.rb o.cx 0x01)
  | .curset o => some (encA 0x08 o.rd o.ra o.rb o.cx 0x02)
  | .cderiv o => some (encA 0x08 o.rd o.ra o.rb o.cx 0x03)
  | .permcut o => some (encA 0x08 o.rd o.ra o.rb o.cx 0x04)
  | .sealto o => some (encA 0x08 o.rd o.ra o.rb o.cx 0x05)
  | .sealoff o => some (encA 0x08 o.rd o.ra o.rb o.cx 0x06)
  | .entrymk o => some (encA 0x08 o.rd o.ra o.rb o.cx 0x07)
  | .tagclr o => some (encA 0x08 o.rd o.ra o.rb o.cx 0x08)
  | .rdtag o => some (encA 0x08 o.rd o.ra o.rb o.cx 0x09)
  | .rdperm o => some (encA 0x08 o.rd o.ra o.rb o.cx 0x0A)
  | .rdtype o => some (encA 0x08 o.rd o.ra o.rb o.cx 0x0B)
  | .rdbase o => some (encA 0x08 o.rd o.ra o.rb o.cx 0x0C)
  | .rdlen o => some (encA 0x08 o.rd o.ra o.rb o.cx 0x0D)
  | .rdcur o => some (encA 0x08 o.rd o.ra o.rb o.cx 0x0E)
  | .rdpcc o => some (encA 0x08 o.rd o.ra o.rb o.cx 0x0F)
  | .dadd o => some (encA 0x09 o.rd o.ra o.rb o.cx ((0 : BitVec 3) ++ o.l))
  | .dsub o => some (encA 0x09 o.rd o.ra o.rb o.cx ((1 : BitVec 3) ++ o.l))
  | .dmul o => some (encA 0x09 o.rd o.ra o.rb o.cx ((2 : BitVec 3) ++ o.l))
  | .ddiv o => some (encA 0x09 o.rd o.ra o.rb o.cx ((3 : BitVec 3) ++ o.l))
  | .dcvtDb o => some (encA 0x09 o.rd o.ra o.rb o.cx ((5 : BitVec 3) ++ o.l))
  | .dcvtBd o => some (encA 0x09 o.rd o.ra o.rb o.cx ((6 : BitVec 3) ++ o.l))
  | .movb o => some (encA 0x0A o.rd o.ra o.rb o.cx 0x00)
  | .crcm o => some (encA 0x0A o.rd o.ra o.rb o.cx 0x01)
  | .chst o => some (encA 0x0B o.rd o.ra o.rb o.cx 0x00)
  | .chctlStop o => some (encA 0x0B o.rd o.ra o.rb o.cx 0x01)
  | .chctlHalt o => some (encA 0x0B o.rd o.ra o.rb o.cx 0x02)
  | .chctlStopall o => some (encA 0x0B o.rd o.ra o.rb o.cx 0x03)
  | .chctlHaltall o => some (encA 0x0B o.rd o.ra o.rb o.cx 0x04)
  | .chctlRelease o => some (encA 0x0B o.rd o.ra o.rb o.cx 0x05)
  | .gcmEnc o => some (encA 0x0B o.rd o.ra o.rb o.cx 0x08)
  | .gcmDec o => some (encA 0x0B o.rd o.ra o.rb o.cx 0x08)
  | .gmacGen o => some (encA 0x0B o.rd o.ra o.rb o.cx 0x08)
  | .gmacVer o => some (encA 0x0B o.rd o.ra o.rb o.cx 0x08)
  | .xtsEnc o => some (encA 0x0B o.rd o.ra o.rb o.cx 0x08)
  | .xtsDec o => some (encA 0x0B o.rd o.ra o.rb o.cx 0x08)
  | .keyload o => some (encA 0x0B o.rd o.ra o.rb o.cx 0x08)
  | .keyclear o => some (encA 0x0B o.rd o.ra o.rb o.cx 0x08)
  | .compress o => some (encA 0x0B o.rd o.ra o.rb o.cx 0x09)
  | .decompress o => some (encA 0x0B o.rd o.ra o.rb o.cx 0x09)
  | .stream o => some (encA 0x0B o.rd o.ra o.rb o.cx 0x09)
  | .dlvr o => some (encA 0x0B o.rd o.ra o.rb o.cx 0x0C)
  | .bop o => some (encBop 0x0C o)
  | .bopn o => some (encBop 0x0D o)
  | .addi o => some (encI 0x10 o)
  | .andi o => some (encI 0x11 o)
  | .ori o => some (encI 0x12 o)
  | .xori o => some (encI 0x13 o)
  | .shi o => some (encI 0x14 o)
  | .ldi o => some (encI 0x15 o)
  | .slo o => some (encI 0x16 o)
  | .cmpi o => some (encI 0x17 o)
  | .curaddi o => some (encI 0x18 o)
  | .jmp o => some (encI 0x19 o)
  | .call o => some (encI 0x1A o)
  | .bld o => some (encPbit o.toOpPbit 0)
  | .bst o => some (encPbit o 1)
  | .bset o => some (encPbit o 2)
  | .bclr o => some (encPbit o 3)
  | .btas o => some (encPbit o 4)
  | .btac o => some (encPbit o 5)
  | .ldB o => some (encM 0x20 o.toOpM)
  | .ldBu o => some (encM 0x21 o.toOpM)
  | .ldH o => some (encM 0x22 o.toOpM)
  | .ldHu o => some (encM 0x23 o.toOpM)
  | .ldW o => some (encM 0x24 o.toOpM)
  | .ldWu o => some (encM 0x25 o.toOpM)
  | .ldL o => some (encM 0x26 o.toOpM)
  | .ldc o => some (encM 0x27 o.toOpM)
  | .stB o => some (encM 0x28 o)
  | .stH o => some (encM 0x29 o)
  | .stW o => some (encM 0x2A o)
  | .stL o => some (encM 0x2B o)
  | .stc o => some (encM 0x2C o)
  | .fldS o => some (encM 0x2D o.toOpM)
  | .fldD o => some (encM 0x2E o.toOpM)
  | .fstS o => some (encM 0x2F o)
  | .fstD o => some (encM 0x30 o)
  | .wspill o => some (encM 0x33 o)
  | .wfill o => some (encM 0x34 o.toOpM)
  | .ldABu o => some (encMx o.toOpMx 0)
  | .ldAHu o => some (encMx o.toOpMx 1)
  | .ldAWu o => some (encMx o.toOpMx 2)
  | .ldAL o => some (encMx o.toOpMx 3)
  | .stRB o => some (encMx o 4)
  | .stRH o => some (encMx o 5)
  | .stRW o => some (encMx o 6)
  | .stRL o => some (encMx o 7)
  | .ldcA o => some (encMx o.toOpMx 8)
  | .stcR o => some (encMx o 9)
  | .swap o => some (encAtom o 0)
  | .cas o => some (encAtom o 1)
  | .aadd o => some (encAtom o 2)
  | .aand o => some (encAtom o 3)
  | .aor o => some (encAtom o 4)
  | .axor o => some (encAtom o 5)
  | .amax o => some (encAtom o 6)
  | .amin o => some (encAtom o 7)
  | .amaxu o => some (encAtom o 8)
  | .aminu o => some (encAtom o 9)
  | .swapc o => some (encAtom o 10)
  | .casc o => some (encAtom o 11)
  | .bs o => some (encB 0x38 o)
  | .bc o => some (encB 0x39 o)
  | .trap o => some (encSys o 0x00)
  | .eret o => some (encSys o 0x01)
  | .ret o => some (encSys o 0x02)
  | .retc o => some (encSys o 0x03)
  | .jmpc o => some (encSys o 0x04)
  | .callc o => some (encSys o 0x05)
  | .fence o => some (encSys o 0x06)
  | .cbar o => some (encSys o 0x07)
  | .fbar o => some (encSys o 0x08)
  | .wait o => some (encSys o 0x09)
  | .rsr o => some (encSys o 0x0A)
  | .wsr o => some (encSys o 0x0B)
  | .rcr o => some (encSys o 0x0C)
  | .wcr o => some (encSys o 0x0D)
  | .arm o => some (encSys o 0x0E)
  | .disarm o => some (encSys o 0x0F)
  | .bget o => some (encSys o 0x10)
  | .bankrel o => some (encSys o 0x11)
  | .isync o => some (encSys o 0x12)
  | _ => none

/-- An instruction without what its accesses meet: only what its word and its core say. -/
def Instr.spelled : Instr → Instr
  | .ldB o => .ldB { o with back := [], ecc := .good }
  | .ldBu o => .ldBu { o with back := [], ecc := .good }
  | .ldH o => .ldH { o with back := [], ecc := .good }
  | .ldHu o => .ldHu { o with back := [], ecc := .good }
  | .ldW o => .ldW { o with back := [], ecc := .good }
  | .ldWu o => .ldWu { o with back := [], ecc := .good }
  | .ldL o => .ldL { o with back := [], ecc := .good }
  | .ldc o => .ldc { o with back := [], ecc := .good }
  | .fldS o => .fldS { o with back := [], ecc := .good }
  | .fldD o => .fldD { o with back := [], ecc := .good }
  | .wfill o => .wfill { o with back := [], ecc := .good }
  | .bld o => .bld { o with back := [], ecc := .good }
  | .ldABu o => .ldABu { o with back := [] }
  | .ldAHu o => .ldAHu { o with back := [] }
  | .ldAWu o => .ldAWu { o with back := [] }
  | .ldAL o => .ldAL { o with back := [] }
  | .ldcA o => .ldcA { o with back := [] }
  | .dadd o => .dadd { o with back := [], backB := [] }
  | .dsub o => .dsub { o with back := [], backB := [] }
  | .dmul o => .dmul { o with back := [], backB := [] }
  | .ddiv o => .ddiv { o with back := [], backB := [] }
  | .dcvtDb o => .dcvtDb { o with back := [], backB := [] }
  | .dcvtBd o => .dcvtBd { o with back := [], backB := [] }
  | .movb o => .movb { o with stop := none, back := [] }
  | .crcm o => .crcm { o with stop := none, back := [] }
  | i => i

/-! ## The table of operations -/

/-- The command that a word of the table spells. No row of the table gives bits, so no word spells one. -/
def decodeTableWord (_nbits _w : Nat) : Option Instr := none

end Sys2Proof
end

