-- ==== Sys2Proof/Machine/Table.lean ====
section
/-! DEFINITION. Machine/Table.lean: finite tables in one canonical form: keys strictly rising, and no entry equal to what
an unlisted key reads as. Memories, register files and dictionary values are such tables, so equal contents are equal
data. -/

namespace Sys2Proof.Machine

/-- A table: pairs of key and value. An unlisted key reads as the table's default, which each operation names. -/
abbrev Table (α : Type) := List (Nat × α)

/-- The value at key `k`, `d` where it is not listed. -/
def Table.get {α : Type} (d : α) : Table α → Nat → α
  | [], _ => d
  | e :: t, k => if e.1 = k then e.2 else Table.get d t k

/-- Key `k` no longer listed. -/
def Table.erase {α : Type} (t : Table α) (k : Nat) : Table α :=
  t.filter (fun e => decide (e.1 ≠ k))

/-- A pair at its place in rising order of keys. -/
def Table.insert {α : Type} (k : Nat) (v : α) : Table α → Table α
  | [] => [(k, v)]
  | e :: t => if k < e.1 then (k, v) :: e :: t else e :: Table.insert k v t

/-- Value `v` at key `k`; writing the default removes the entry. -/
def Table.set {α : Type} [DecidableEq α] (d : α) (t : Table α) (k : Nat) (v : α) : Table α :=
  if v = d then t.erase k else (t.erase k).insert k v

/-- The canonical form with default `d`. -/
abbrev Table.Wf {α : Type} (d : α) (t : Table α) : Prop :=
  t.Pairwise (fun a b => a.1 < b.1) ∧ ∀ e ∈ t, e.2 ≠ d

end Sys2Proof.Machine
end

