-- ==== Sys2Proof/Machine/Bytes.lean ====
section
/-! DEFINITION. Machine/Bytes.lean: byte strings and numbers (R3: little-endian, unless a published standard fixes another
order on the wire), and fields of numbers. -/

namespace Sys2Proof.Machine

/-- The number whose little-endian bytes are `b` (R3). -/
def leNat : Bytes → Nat
  | [] => 0
  | x :: b => x.toNat + 256 * leNat b

/-- The `n` little-endian bytes of `v` modulo 256^n (R3). -/
def leBytes : Nat → Nat → Bytes
  | 0, _ => []
  | n + 1, v => BitVec.ofNat 8 v :: leBytes n (v / 256)

/-- The number whose big-endian bytes are `b`. -/
def beNat (b : Bytes) : Nat := leNat b.reverse

/-- The `n` big-endian bytes of `v`. -/
def beBytes (n v : Nat) : Bytes := (leBytes n v).reverse

/-- `n` bytes of `b` from offset `o`, missing ones zero. -/
def slice (b : Bytes) (o n : Nat) : Bytes :=
  ((b.drop o).take n) ++ List.replicate (n - (b.drop o).length) 0

/-- The little-endian number of `n` bytes of `b` at offset `o`. -/
def fieldLE (b : Bytes) (o n : Nat) : Nat := leNat ((b.drop o).take n)

/-- The big-endian number of `n` bytes of `b` at offset `o`. -/
def fieldBE (b : Bytes) (o n : Nat) : Nat := beNat ((b.drop o).take n)

/-- `n` zero bytes. -/
def zeros (n : Nat) : Bytes := List.replicate n 0

/-- The bytes `b` cut or filled with zeros to `n` bytes. -/
def padTo (n : Nat) (b : Bytes) : Bytes := b.take n ++ zeros (n - b.length)

/-- Bits [hi:lo] of `v`. -/
def bitsOf (v hi lo : Nat) : Nat := (v / 2 ^ lo) % 2 ^ (hi + 1 - lo)

/-- Bit `i` of `v`. -/
def bitOf (v i : Nat) : Bool := v.testBit i

/-- `v` with bit `i` set to `b`. -/
def withBit (v i : Nat) (b : Bool) : Nat :=
  if v.testBit i = b then v else if b then v + 2 ^ i else v - 2 ^ i

/-- Element `i` of an array of `w`-byte little-endian elements held in one number (R551). -/
def elem (w v i : Nat) : Nat := (v / 256 ^ (w * i)) % 256 ^ w

/-- The array `v` with element `i` replaced by `x` (R551). -/
def withElem (w v i x : Nat) : Nat :=
  v - elem w v i * 256 ^ (w * i) + (x % 256 ^ w) * 256 ^ (w * i)

/-- The number whose `w`-byte elements are `xs`, element 0 first (R551). -/
def ofElems (w : Nat) (xs : List Nat) : Nat :=
  xs.foldr (fun x acc => x % 256 ^ w + 256 ^ w * acc) 0

/-- The bitmap of the numbers below `n` that satisfy `p` (R551). -/
def bitmap (n : Nat) (p : Nat → Bool) : Nat :=
  (List.range n).foldl (fun acc i => if p i then acc + 2 ^ i else acc) 0

/-- The numbers below `n` whose bit is set in `v`, rising. -/
def bitList (n v : Nat) : List Nat := (List.range n).filter (fun i => v.testBit i)

/-- The number of ones among the low `n` bits of `v`. -/
def countOnes (n v : Nat) : Nat := (bitList n v).length

/-- True for 1, 2, 4, 8, … -/
def isPow2 (v : Nat) : Bool := decide (0 < v) && decide (2 ^ v.log2 = v)

/-- Quotient rounded up. -/
def ceilDiv (a b : Nat) : Nat := (a + b - 1) / b

/-- XOR of byte strings, as long as the shorter. -/
def xorBytes (a b : Bytes) : Bytes := List.zipWith (· ^^^ ·) a b

/-- ASCII bytes of a string. -/
def ascii (s : String) : Bytes := s.toList.map (fun c => BitVec.ofNat 8 c.toNat)

/-! ## CRC-32C (R144) -/

/-- One bit of the CRC-32C state, reflected, with the polynomial 0x1EDC_6F41. -/
def crcBit (c : BitVec 32) : BitVec 32 := if c.getLsbD 0 then (c >>> 1) ^^^ 0x82F63B78 else c >>> 1

/-- One byte entered into the state. -/
def crcByte (c : BitVec 32) (b : Byte) : BitVec 32 :=
  (List.range 8).foldl (fun c _ => crcBit c) (c ^^^ b.setWidth 32)

/-- The CRC-32C state after bytes, with no final XOR (R300). -/
def crcState (c : BitVec 32) (b : Bytes) : BitVec 32 := b.foldl crcByte c

/-- CRC-32C of bytes (R144). -/
def crc32c (b : Bytes) : Nat := (crcState 0xFFFFFFFF b ^^^ 0xFFFFFFFF).toNat

end Sys2Proof.Machine
end

