-- ==== Sys2Proof/Config.lean ====
section
/-! DEFINITION. Config.lean: what the factory fixes in one device, and the values the spec leaves open. None of these
has a body: a statement about the model holds for every value of each (notes/assumptions 1 and 2). -/

namespace Sys2Proof

/-- R2, Table 0.1: true for the BW7256-288-LC, false for the BW7256-144-LC. -/
opaque Config.is288 : Bool

/-- 0x1000.05 SERIAL (R554). -/
opaque Config.serial : Nat

/-- 0x1000.06 FIRMWARE (R554). -/
opaque Config.firmware : Nat

/-- The device's Ed25519 private seed, made at manufacture; its public key is 0x1000.20 IDENTITY_KEY (R46). -/
opaque Config.identitySeed : Bytes

/-- 0x1000.21 IDENTITY_CERT (R47). -/
opaque Config.identityCert : Nat

/-- Plequin's firmware-signing public key, 32 bytes (R455). -/
opaque Config.plequinKey : Bytes

/-- The RELEASE of the microcode image the factory loads (0x1000.30, R457). -/
opaque Config.ucodeRelease : Nat

/-- 0x1100.12 FLOOR_POWER: U16 per cluster, units of 0.1 W (R125). -/
opaque Config.floorPower : Nat

/-- 0x6000+n.08 MAC_ADDR of port n. -/
opaque Config.macAddr : Nat → Nat

/-- The n-th random byte string of length len that the device draws: an ephemeral private key or a nonce. -/
opaque Config.random : Nat → Nat → Bytes

/-- The bytes a compression engine chooses for a DEFLATE stream of some data at the n-th use; R506 has each block decoded
and compared before it leaves the engine. -/
opaque Config.deflate : Nat → Bytes → Bytes

/-- A value the spec leaves open at the n-th use (notes/assumptions/2). -/
opaque Config.free : Nat → Nat

/-- The priority of the tags on ARP and neighbour-discovery answers and on PFC frames, which the spec leaves open below 7 (R62,
R108). -/
opaque Config.framePcp : Fin 7

/-- The TTL of IPv4 packets and the hop limit of IPv6 packets that the device sends. -/
opaque Config.ttl : Byte

/-- The IPv4 identification of a packet with a given UDP payload. -/
opaque Config.ipId : Bytes → BitVec 16

/-- The flow label of the IPv6 packets that the device sends. -/
opaque Config.flowLabel : BitVec 20

/-- R2, Table 0.1 and R554: 0x1000.03 ORDERING_CODE, the 13 ASCII bytes of "BW7256-288-LC" or "BW7256-144-LC" and three zero
bytes, as a little-endian number. The two differ in bytes 7 to 9. -/
def Config.orderingCode : Nat :=
  ((if Config.is288 then [0x32, 0x38, 0x38] else [0x31, 0x34, 0x34]) ++ [0x2D, 0x4C, 0x43]).foldr (fun x a => x + 256 * a) 0 * 256 ^ 7 +
    [0x42, 0x57, 0x37, 0x32, 0x35, 0x36, 0x2D].foldr (fun x a => x + 256 * a) 0

/-- R2: bitmap of fitted stacks, 0x1000.07 STACKS: 0xFF or 0x55. -/
def Config.stacks : Nat := if Config.is288 then 0xFF else 0x55

end Sys2Proof
end

