-- ==== Sys2Proof/Machine/Sha.lean ====
section
/-! DEFINITION. Machine/Sha.lean: SHA-256 and SHA-512 (FIPS 180-4), HMAC-SHA-256 (RFC 2104) and HKDF-SHA-256 (RFC 5869), which
R43, R77, R78 and the Ed25519 signatures use. -/

namespace Sys2Proof.Machine

/-! ## Constants: fractions of roots of the first primes -/

/-- The greatest r below 2^bits with r^k ≤ n. -/
def rootFloor (k bits n : Nat) : Nat :=
  (List.range bits).foldl (fun r i => let q := r + 2 ^ (bits - 1 - i); if q ^ k ≤ n then q else r) 0

/-- The first 80 primes. -/
def primes80 : List Nat :=
  ((List.range 410).filter fun n => decide (2 ≤ n) && (List.range n).all fun m => decide (m < 2) || decide (n % m ≠ 0)).take 80

/-- The first `w` bits of the fraction of the k-th root of `p`. -/
def rootFraction (k w p : Nat) : Nat := rootFloor k (w + 8) (p * 2 ^ (k * w)) % 2 ^ w

/-! ## The compression function at word width `w` -/

/-- The rotation and shift amounts of a SHA-2 function: Σ0, Σ1, σ0, σ1 (the last of each σ a shift), and its rounds. -/
structure ShaForm where
  w : Nat
  s0 : Nat × Nat × Nat
  s1 : Nat × Nat × Nat
  g0 : Nat × Nat × Nat
  g1 : Nat × Nat × Nat
  rounds : Nat

/-- SHA-256. -/
def sha256Form : ShaForm := ⟨32, (2, 13, 22), (6, 11, 25), (7, 18, 3), (17, 19, 10), 64⟩

/-- SHA-512. -/
def sha512Form : ShaForm := ⟨64, (28, 34, 39), (14, 18, 41), (1, 8, 7), (19, 61, 6), 80⟩

/-- The XOR of three rotations. -/
def rot3 {w : Nat} (x : BitVec w) (a : Nat × Nat × Nat) : BitVec w :=
  x.rotateRight a.1 ^^^ x.rotateRight a.2.1 ^^^ x.rotateRight a.2.2

/-- The XOR of two rotations and a shift. -/
def rot2shift {w : Nat} (x : BitVec w) (a : Nat × Nat × Nat) : BitVec w :=
  x.rotateRight a.1 ^^^ x.rotateRight a.2.1 ^^^ x >>> a.2.2

/-- One more word of the message schedule; the list is kept latest first. -/
def shaExtend (f : ShaForm) (ws : List (BitVec f.w)) : List (BitVec f.w) :=
  (rot2shift (ws.getD 1 0) f.g1 + ws.getD 6 0 + rot2shift (ws.getD 14 0) f.g0 + ws.getD 15 0) :: ws

/-- The message schedule of a block of 16 words. -/
def shaSchedule (f : ShaForm) (block : List (BitVec f.w)) : List (BitVec f.w) :=
  ((List.range (f.rounds - 16)).foldl (fun ws _ => shaExtend f ws) block.reverse).reverse

/-- One round on the eight working variables. -/
def shaRound (f : ShaForm) (v : List (BitVec f.w)) (kw : BitVec f.w) : List (BitVec f.w) :=
  match v with
  | [a, b, c, d, e, g, h, i] =>
    let t1 := i + rot3 e f.s1 + ((e &&& g) ^^^ (~~~e &&& h)) + kw
    let t2 := rot3 a f.s0 + ((a &&& b) ^^^ (a &&& c) ^^^ (b &&& c))
    [t1 + t2, a, b, c, d + t1, e, g, h]
  | _ => v

/-- A block entered into the state. -/
def shaBlock (f : ShaForm) (ks h block : List (BitVec f.w)) : List (BitVec f.w) :=
  List.zipWith (· + ·) h ((List.zipWith (· + ·) ks (shaSchedule f block)).foldl (shaRound f) h)

/-- Words of a byte string, big-endian. -/
def shaWords (f : ShaForm) : Nat → Bytes → List (BitVec f.w)
  | 0, _ => []
  | n + 1, b => BitVec.ofNat f.w (beNat (b.take (f.w / 8))) :: shaWords f n (b.drop (f.w / 8))

/-- Blocks of a padded message entered in turn. -/
def shaBlocks (f : ShaForm) (ks : List (BitVec f.w)) : Nat → List (BitVec f.w) → Bytes → List (BitVec f.w)
  | 0, h, _ => h
  | n + 1, h, b => shaBlocks f ks n (shaBlock f ks h (shaWords f 16 b)) (b.drop (2 * f.w))

/-- The digest of a message, `out` bytes. -/
def shaDigest (f : ShaForm) (m : Bytes) : Bytes :=
  let blk := 2 * f.w
  let pad := (2 * blk - 1 - f.w / 4 - m.length % blk) % blk
  let p := m ++ [0x80] ++ zeros pad ++ beBytes (f.w / 4) (8 * m.length)
  let ks := (primes80.take f.rounds).map fun q => BitVec.ofNat f.w (rootFraction 3 f.w q)
  let h := (primes80.take 8).map fun q => BitVec.ofNat f.w (rootFraction 2 f.w q)
  (shaBlocks f ks (p.length / blk) h p).flatMap fun x => beBytes (f.w / 8) x.toNat

/-- SHA-256 (FIPS 180-4). -/
def sha256 (m : Bytes) : Bytes := shaDigest sha256Form m

/-- SHA-512 (FIPS 180-4). -/
def sha512 (m : Bytes) : Bytes := shaDigest sha512Form m

/-! ## HMAC and HKDF -/

/-- HMAC-SHA-256 (RFC 2104). -/
def hmac (key m : Bytes) : Bytes :=
  let k := padTo 64 (if 64 < key.length then sha256 key else key)
  sha256 (k.map (· ^^^ 0x5C) ++ sha256 (k.map (· ^^^ 0x36) ++ m))

/-- HKDF's expansion: blocks from number `i`. -/
def hkdfBlocks (prk info : Bytes) : Nat → Nat → Bytes → Bytes
  | 0, _, _ => []
  | n + 1, i, t =>
    let t' := hmac prk (t ++ info ++ [BitVec.ofNat 8 i])
    t' ++ hkdfBlocks prk info n (i + 1) t'

/-- HKDF-SHA-256 (RFC 5869). -/
def hkdf (ikm salt info : Bytes) (len : Nat) : Bytes :=
  (hkdfBlocks (hmac salt ikm) info (ceilDiv len 32) 1 []).take len

end Sys2Proof.Machine
end

