-- ==== Sys2Proof/Machine/Curve.lean ====
section
/-! DEFINITION. Machine/Curve.lean: X25519 (RFC 7748) and Ed25519 (RFC 8032). -/

namespace Sys2Proof.Machine

/-- The field's prime, 2^255 − 19. -/
def p25519 : Nat := 2 ^ 255 - 19

/-- `b` to the `e` modulo `m`, by the bits of `e` from the highest of `n`. -/
def powMod (m b e n : Nat) : Nat :=
  (List.range n).foldl (fun r i => let r := r * r % m; if e.testBit (n - 1 - i) then r * b % m else r) 1

/-- The inverse in the field. -/
def invP (a : Nat) : Nat := powMod p25519 a (p25519 - 2) 255

/-- Subtraction in the field. -/
def subP (a b : Nat) : Nat := (a + p25519 - b % p25519) % p25519

/-! ## X25519 -/

/-- One step of the Montgomery ladder on (x2, z2, x3, z3). -/
def ladderStep (x1 : Nat) (s : Nat × Nat × Nat × Nat) : Nat × Nat × Nat × Nat :=
  let (x2, z2, x3, z3) := s
  let p := p25519
  let a := (x2 + z2) % p
  let aa := a * a % p
  let b := subP x2 z2
  let bb := b * b % p
  let e := subP aa bb
  let da := subP x3 z3 * a % p
  let cb := (x3 + z3) % p * b % p
  let t := (da + cb) % p
  let u := subP da cb
  (aa * bb % p, e * ((aa + 121665 * e) % p) % p, t * t % p, x1 * (u * u % p) % p)

/-- X25519 of a private key and a public key, 32 bytes each (RFC 7748). -/
def x25519 (priv pub : Bytes) : Bytes :=
  let k0 := leNat (padTo 32 priv)
  let k := k0 % 2 ^ 254 / 8 * 8 + 2 ^ 254
  let u := leNat (padTo 32 pub) % 2 ^ 255 % p25519
  let swap := fun (c : Bool) (s : Nat × Nat × Nat × Nat) => if c then (s.2.2.1, s.2.2.2, s.1, s.2.1) else s
  let s := (List.range 255).foldl (fun s i => let b := k.testBit (254 - i); swap b (ladderStep u (swap b s))) (1, 0, u, 1)
  leBytes 32 (s.1 * invP s.2.1 % p25519)

/-- The public key of a private key: the base point is u = 9. -/
def x25519Public (priv : Bytes) : Bytes := x25519 priv (leBytes 32 9)

/-! ## Ed25519 -/

/-- The curve's constant d. -/
def edD : Nat := subP 0 (121665 * invP 121666 % p25519)

/-- The group's order. -/
def edL : Nat := 2 ^ 252 + 27742317777372353535851937790883648493

/-- A point in extended coordinates (X, Y, Z, T). -/
abbrev EdPoint := Nat × Nat × Nat × Nat

/-- The sum of two points (RFC 8032, 5.1.4). -/
def edAdd (a b : EdPoint) : EdPoint :=
  let p := p25519
  let q := subP a.2.1 a.1 * subP b.2.1 b.1 % p
  let r := (a.2.1 + a.1) % p * ((b.2.1 + b.1) % p) % p
  let c := 2 * a.2.2.2 % p * edD % p * b.2.2.2 % p
  let d := 2 * a.2.2.1 * b.2.2.1 % p
  let e := subP r q
  let f := subP d c
  let g := (d + c) % p
  let h := (r + q) % p
  (e * f % p, g * h % p, f * g % p, e * h % p)

/-- The neutral point. -/
def edZero : EdPoint := (0, 1, 1, 0)

/-- A multiple of a point by an `n`-bit scalar. -/
def edMul (k n : Nat) (q : EdPoint) : EdPoint :=
  (List.range n).foldl (fun r i => let r := edAdd r r; if k.testBit (n - 1 - i) then edAdd r q else r) edZero

/-- The x of a point from its y and sign (RFC 8032, 5.1.3), where there is one. -/
def edRecoverX (y : Nat) (sign : Bool) : Option Nat :=
  let p := p25519
  if p ≤ y then none
  else
    let x2 := subP (y * y) 1 * invP ((edD * (y * y % p) + 1) % p) % p
    if x2 = 0 then (if sign then none else some 0)
    else
      let x := powMod p x2 ((p + 3) / 8) 253
      let x := if x * x % p = x2 then x else x * powMod p 2 ((p - 1) / 4) 255 % p
      if x * x % p ≠ x2 then none
      else some (if x.testBit 0 = sign then x else p - x)

/-- A point from its 32 bytes. -/
def edDecode (b : Bytes) : Option EdPoint :=
  let v := leNat b
  let y := v % 2 ^ 255
  (edRecoverX y (v.testBit 255)).map fun x => (x, y, 1, x * y % p25519)

/-- The 32 bytes of a point. -/
def edEncode (q : EdPoint) : Bytes :=
  let z := invP q.2.2.1
  let x := q.1 * z % p25519
  let y := q.2.1 * z % p25519
  leBytes 32 (y + x % 2 * 2 ^ 255)

/-- The base point: y = 4/5, x even. -/
def edBase : EdPoint :=
  let y := 4 * invP 5 % p25519
  let x := (edRecoverX y false).getD 0
  (x, y, 1, x * y % p25519)

/-- The secret scalar and prefix of a private seed. -/
def edExpand (seed : Bytes) : Nat × Bytes :=
  let h := sha512 seed
  (leNat (h.take 32) % 2 ^ 254 / 8 * 8 + 2 ^ 254, h.drop 32)

/-- The public key of a private seed (RFC 8032). -/
def edPublic (seed : Bytes) : Bytes := edEncode (edMul (edExpand seed).1 255 edBase)

/-- The 64-byte signature of a message (RFC 8032). -/
def edSign (seed m : Bytes) : Bytes :=
  let (a, pre) := edExpand seed
  let pub := edPublic seed
  let r := leNat (sha512 (pre ++ m)) % edL
  let rb := edEncode (edMul r 253 edBase)
  let k := leNat (sha512 (rb ++ pub ++ m)) % edL
  rb ++ leBytes 32 ((r + k * a) % edL)

/-- A signature verifies under a public key (RFC 8032). -/
def edVerify (pub m sig : Bytes) : Bool :=
  match edDecode (slice pub 0 32), edDecode (slice sig 0 32) with
  | some a, some r =>
    let s := fieldLE sig 32 32
    let k := leNat (sha512 (sig.take 32 ++ pub ++ m)) % edL
    decide (sig.length = 64) && decide (s < edL) &&
      decide (edEncode (edMul s 253 edBase) = edEncode (edAdd r (edMul k 253 a)))
  | _, _ => false

end Sys2Proof.Machine
end

