-- ==== Sys2Proof/Machine/Regs.lean ====
section
/-! DEFINITION. Machine/Regs.lean: the entries of the object dictionary (R519, R549), one row each, with the type,
access right, scope, default, change class and range that their tables give. -/

namespace Sys2Proof.Machine

/-- The types of Table 19.1. -/
inductive Ty where
  | bool | u8 | u16 | u32 | u64 | i32 | i64 | octets | capref | keyref | i16
deriving DecidableEq, Repr

/-- The TYPE codes of Table 19.1. -/
def Ty.code : Ty → Nat
  | .bool => 1 | .u8 => 2 | .u16 => 3 | .u32 => 4 | .u64 => 5 | .i32 => 6 | .i64 => 7 | .octets => 8
  | .capref => 9 | .keyref => 10 | .i16 => 11

/-- The access rights of Table 19.2. -/
inductive Access where
  | ro | rw | wo | rws
deriving DecidableEq, Repr

/-- ACCESS of a DESCRIBE reply (R527). -/
def Access.code : Access → Nat
  | .ro => 0 | .rw => 1 | .wo => 2 | .rws => 3

/-- The scopes of Table 19.3. -/
inductive Scope where
  | e | p | a
deriving DecidableEq, Repr

/-- SCOPE of a DESCRIBE reply (R527). -/
def Scope.code : Scope → Nat
  | .e => 0 | .p => 1 | .a => 2

/-- The change classes of R536. -/
inductive Change where
  | none | live | staged | locked
deriving DecidableEq, Repr

/-- CHANGE of a DESCRIBE reply (R527). -/
def Change.code : Change → Nat
  | .none => 0 | .live => 1 | .staged => 2 | .locked => 3

/-- Whose the value of an entry of scope P is (R523): the block's owner, the owner of each element, or the
pavilion that makes the access, which has a value of its own. -/
inductive Own where
  | none | block | element | caller
deriving DecidableEq, Repr

/-- The range an entry states, for check 6 of R526. `atLeast s hi`: from the value of subindex `s` of the same block
to `hi`; `pow2 z lo hi`: a power of two in the range, or zero where `z`. -/
inductive Range where
  | any | bool
  | between (lo hi : Nat)
  | atLeast (sub hi : Nat)
  | multiple (m : Nat)
  | pow2 (zero : Bool) (lo hi : Nat)
  | zeroOr (lo hi : Nat)
deriving DecidableEq, Repr

/-- One row of a dictionary table: a block's base index and number of instances, the subindex, and what the row
states. `size` is 0 where the length varies (Table 20.6); a default that is not a number is in `Entry.default`. -/
structure Entry where
  base : Nat
  count : Nat
  sub : Nat
  name : String
  ty : Ty
  size : Nat
  max : Nat
  access : Access
  scope : Scope
  change : Change
  own : Own
  pReads : Bool
  dflt : Nat
  rng : Range
deriving DecidableEq, Repr

namespace R

/-- 0x1000.00 STATE (U8, chapter 20). -/
def dev_STATE : Entry :=
  ⟨0x1000, 1, 0x00, "STATE", .u8, 1, 1, .ro, .a, .none, .none, false, 2, .any⟩

/-- 0x1000.03 ORDERING_CODE (OCTETS(16), chapter 20). -/
def dev_ORDERING_CODE : Entry :=
  ⟨0x1000, 1, 0x03, "ORDERING_CODE", .octets, 16, 16, .ro, .a, .none, .none, false, 0, .any⟩

/-- 0x1000.04 REVISION (U16, chapter 20). -/
def dev_REVISION : Entry :=
  ⟨0x1000, 1, 0x04, "REVISION", .u16, 2, 2, .ro, .a, .none, .none, false, 0x00B1, .any⟩

/-- 0x1000.05 SERIAL (U64, chapter 20). -/
def dev_SERIAL : Entry :=
  ⟨0x1000, 1, 0x05, "SERIAL", .u64, 8, 8, .ro, .a, .none, .none, false, 0, .any⟩

/-- 0x1000.06 FIRMWARE (U32, chapter 20). -/
def dev_FIRMWARE : Entry :=
  ⟨0x1000, 1, 0x06, "FIRMWARE", .u32, 4, 4, .ro, .a, .none, .none, false, 0, .any⟩

/-- 0x1000.07 STACKS (U8, chapter 20). -/
def dev_STACKS : Entry :=
  ⟨0x1000, 1, 0x07, "STACKS", .u8, 1, 1, .ro, .a, .none, .none, false, 0, .any⟩

/-- 0x1000.08 DEVICE_STATUS (U16, chapter 20). -/
def dev_DEVICE_STATUS : Entry :=
  ⟨0x1000, 1, 0x08, "DEVICE_STATUS", .u16, 2, 2, .ro, .a, .none, .none, false, 0, .any⟩

/-- 0x1000.09 FAULT_CAUSES (U16, chapter 20). -/
def dev_FAULT_CAUSES : Entry :=
  ⟨0x1000, 1, 0x09, "FAULT_CAUSES", .u16, 2, 2, .ro, .a, .none, .none, false, 0, .any⟩

/-- 0x1000.0A TJ (OCTETS(30), chapter 20). -/
def dev_TJ : Entry :=
  ⟨0x1000, 1, 0x0A, "TJ", .octets, 30, 30, .ro, .a, .none, .none, false, 0, .any⟩

/-- 0x1000.0B TJ_MAX (I16, chapter 20). -/
def dev_TJ_MAX : Entry :=
  ⟨0x1000, 1, 0x0B, "TJ_MAX", .i16, 2, 2, .ro, .a, .none, .none, false, 0, .any⟩

/-- 0x1000.0C THERM_EVENTS (U32, chapter 20). -/
def dev_THERM_EVENTS : Entry :=
  ⟨0x1000, 1, 0x0C, "THERM_EVENTS", .u32, 4, 4, .ro, .a, .none, .none, false, 0, .any⟩

/-- 0x1000.0D STARTUPS (U32, chapter 20). -/
def dev_STARTUPS : Entry :=
  ⟨0x1000, 1, 0x0D, "STARTUPS", .u32, 4, 4, .ro, .a, .none, .none, false, 0, .any⟩

/-- 0x1000.0E UPTIME (U64, chapter 20). -/
def dev_UPTIME : Entry :=
  ⟨0x1000, 1, 0x0E, "UPTIME", .u64, 8, 8, .ro, .a, .none, .none, false, 0, .any⟩

/-- 0x1000.20 IDENTITY_KEY (OCTETS(32), chapter 20). -/
def dev_IDENTITY_KEY : Entry :=
  ⟨0x1000, 1, 0x20, "IDENTITY_KEY", .octets, 32, 32, .ro, .a, .none, .none, false, 0, .any⟩

/-- 0x1000.21 IDENTITY_CERT (OCTETS(64), chapter 20). -/
def dev_IDENTITY_CERT : Entry :=
  ⟨0x1000, 1, 0x21, "IDENTITY_CERT", .octets, 64, 64, .ro, .a, .none, .none, false, 0, .any⟩

/-- 0x1000.30 UCODE_RELEASE (U32, chapter 15). -/
def dev_UCODE_RELEASE : Entry :=
  ⟨0x1000, 1, 0x30, "UCODE_RELEASE", .u32, 4, 4, .ro, .a, .none, .none, false, 0, .any⟩

/-- 0x1000.31 UCODE_IMAGE (OCTETS(32896), chapter 15). -/
def dev_UCODE_IMAGE : Entry :=
  ⟨0x1000, 1, 0x31, "UCODE_IMAGE", .octets, 32896, 32896, .wo, .e, .staged, .none, false, 0, .any⟩

/-- 0x1000.32 UCODE_STAGED (U32, chapter 15). -/
def dev_UCODE_STAGED : Entry :=
  ⟨0x1000, 1, 0x32, "UCODE_STAGED", .u32, 4, 4, .ro, .a, .none, .none, false, 0, .any⟩

/-- 0x1000.34 UCODE_CHECKS (U64, chapter 15). -/
def dev_UCODE_CHECKS : Entry :=
  ⟨0x1000, 1, 0x34, "UCODE_CHECKS", .u64, 8, 8, .ro, .a, .none, .none, false, 0, .any⟩

/-- 0x1100.00 STATE (U8, chapter 20). -/
def pow_STATE : Entry :=
  ⟨0x1100, 1, 0x00, "STATE", .u8, 1, 1, .ro, .a, .none, .none, false, 2, .any⟩

/-- 0x1100.03 POWER_CAP (U16, chapter 4). -/
def pow_POWER_CAP : Entry :=
  ⟨0x1100, 1, 0x03, "POWER_CAP", .u16, 2, 2, .rws, .e, .live, .none, false, 780, .between 350 780⟩

/-- 0x1100.04 INPUT_POWER (U16, chapter 4). -/
def pow_INPUT_POWER : Entry :=
  ⟨0x1100, 1, 0x04, "INPUT_POWER", .u16, 2, 2, .ro, .a, .none, .none, false, 0, .any⟩

/-- 0x1100.05 ADMITTED_POWER (U16, chapter 4). -/
def pow_ADMITTED_POWER : Entry :=
  ⟨0x1100, 1, 0x05, "ADMITTED_POWER", .u16, 2, 2, .ro, .a, .none, .none, false, 0, .any⟩

/-- 0x1100.06 ADMIT_CEILING (U8, chapter 4). -/
def pow_ADMIT_CEILING : Entry :=
  ⟨0x1100, 1, 0x06, "ADMIT_CEILING", .u8, 1, 1, .rws, .e, .live, .none, false, 90, .between 50 100⟩

/-- 0x1100.07 PACE_FLAGS (U8, chapter 4). -/
def pow_PACE_FLAGS : Entry :=
  ⟨0x1100, 1, 0x07, "PACE_FLAGS", .u8, 1, 1, .ro, .a, .none, .none, false, 0, .any⟩

/-- 0x1100.08 GUARD (U8, chapter 4). -/
def pow_GUARD : Entry :=
  ⟨0x1100, 1, 0x08, "GUARD", .u8, 1, 1, .rws, .e, .live, .none, false, 10, .between 0 25⟩

/-- 0x1100.09 LATE_COUNT (U64, chapter 4). -/
def pow_LATE_COUNT : Entry :=
  ⟨0x1100, 1, 0x09, "LATE_COUNT", .u64, 8, 8, .ro, .a, .none, .none, false, 0, .any⟩

/-- 0x1100.0A DEFICIT_EVENTS (U32, chapter 4). -/
def pow_DEFICIT_EVENTS : Entry :=
  ⟨0x1100, 1, 0x0A, "DEFICIT_EVENTS", .u32, 4, 4, .ro, .a, .none, .none, false, 0, .any⟩

/-- 0x1100.0B LATE_IN_DEFICIT (U64, chapter 4). -/
def pow_LATE_IN_DEFICIT : Entry :=
  ⟨0x1100, 1, 0x0B, "LATE_IN_DEFICIT", .u64, 8, 8, .ro, .a, .none, .none, false, 0, .any⟩

/-- 0x1100.0C OVERDUE_OPEN (U32, chapter 4). -/
def pow_OVERDUE_OPEN : Entry :=
  ⟨0x1100, 1, 0x0C, "OVERDUE_OPEN", .u32, 4, 4, .ro, .a, .none, .none, false, 0, .any⟩

/-- 0x1100.10 PACE (OCTETS(32), chapter 4). -/
def pow_PACE : Entry :=
  ⟨0x1100, 1, 0x10, "PACE", .octets, 32, 32, .ro, .a, .none, .none, false, 0, .any⟩

/-- 0x1100.11 VCORE (OCTETS(32), chapter 4). -/
def pow_VCORE : Entry :=
  ⟨0x1100, 1, 0x11, "VCORE", .octets, 32, 32, .ro, .a, .none, .none, false, 0, .any⟩

/-- 0x1100.12 FLOOR_POWER (OCTETS(32), chapter 4). -/
def pow_FLOOR_POWER : Entry :=
  ⟨0x1100, 1, 0x12, "FLOOR_POWER", .octets, 32, 32, .ro, .a, .none, .none, false, 0, .any⟩

/-- 0x1100.13 DEADLINE_CLUSTERS (U16, chapter 4). -/
def pow_DEADLINE_CLUSTERS : Entry :=
  ⟨0x1100, 1, 0x13, "DEADLINE_CLUSTERS", .u16, 2, 2, .ro, .a, .none, .none, false, 0, .any⟩

/-- 0x1100.14 LATE_BY_PAVILION (OCTETS(256), chapter 4). -/
def pow_LATE_BY_PAVILION : Entry :=
  ⟨0x1100, 1, 0x14, "LATE_BY_PAVILION", .octets, 256, 256, .ro, .e, .none, .none, false, 0, .any⟩

/-- 0x1100.20 CLOCK_STATUS (U8, chapter 21). -/
def pow_CLOCK_STATUS : Entry :=
  ⟨0x1100, 1, 0x20, "CLOCK_STATUS", .u8, 1, 1, .ro, .a, .none, .none, false, 0, .any⟩

/-- 0x1100.21 REF_PREFER (U8, chapter 21). -/
def pow_REF_PREFER : Entry :=
  ⟨0x1100, 1, 0x21, "REF_PREFER", .u8, 1, 1, .rws, .e, .live, .none, false, 0, .between 0 2⟩

/-- 0x1100.22 STRAPS (U8, chapter 21). -/
def pow_STRAPS : Entry :=
  ⟨0x1100, 1, 0x22, "STRAPS", .u8, 1, 1, .ro, .a, .none, .none, false, 0, .any⟩

/-- 0x1100.23 REF_SWITCHES (U32, chapter 21). -/
def pow_REF_SWITCHES : Entry :=
  ⟨0x1100, 1, 0x23, "REF_SWITCHES", .u32, 4, 4, .ro, .a, .none, .none, false, 0, .any⟩

/-- 0x1100.24 XTAL_LOSSES (U32, chapter 21). -/
def pow_XTAL_LOSSES : Entry :=
  ⟨0x1100, 1, 0x24, "XTAL_LOSSES", .u32, 4, 4, .ro, .a, .none, .none, false, 0, .any⟩

/-- 0x1100.25 COAST_TIME (U64, chapter 21). -/
def pow_COAST_TIME : Entry :=
  ⟨0x1100, 1, 0x25, "COAST_TIME", .u64, 8, 8, .ro, .a, .none, .none, false, 0, .any⟩

/-- 0x1100.26 TB_SOURCE (U8, chapter 21). -/
def pow_TB_SOURCE : Entry :=
  ⟨0x1100, 1, 0x26, "TB_SOURCE", .u8, 1, 1, .ro, .a, .none, .none, false, 0, .any⟩

/-- 0x1100.27 PTP_STATE (OCTETS(2), chapter 21). -/
def pow_PTP_STATE : Entry :=
  ⟨0x1100, 1, 0x27, "PTP_STATE", .octets, 2, 2, .ro, .a, .none, .none, false, 0, .any⟩

/-- 0x1100.28 PTP_OFFSET (I64, chapter 21). -/
def pow_PTP_OFFSET : Entry :=
  ⟨0x1100, 1, 0x28, "PTP_OFFSET", .i64, 8, 8, .ro, .a, .none, .none, false, 0, .any⟩

/-- 0x1100.29 PTP_STEPS (U32, chapter 21). -/
def pow_PTP_STEPS : Entry :=
  ⟨0x1100, 1, 0x29, "PTP_STEPS", .u32, 4, 4, .ro, .a, .none, .none, false, 0, .any⟩

/-- 0x1100.2A PTP_STEP_LIMIT (U32, chapter 21). -/
def pow_PTP_STEP_LIMIT : Entry :=
  ⟨0x1100, 1, 0x2A, "PTP_STEP_LIMIT", .u32, 4, 4, .rws, .e, .live, .none, false, 100000, .between 1000 1000000000⟩

/-- 0x1100.2B RESET_CAUSE (U8, chapter 21). -/
def pow_RESET_CAUSE : Entry :=
  ⟨0x1100, 1, 0x2B, "RESET_CAUSE", .u8, 1, 1, .ro, .a, .none, .none, false, 1, .any⟩

/-- 0x1100.2C STARTUP_STEPS (OCTETS(48), chapter 21). -/
def pow_STARTUP_STEPS : Entry :=
  ⟨0x1100, 1, 0x2C, "STARTUP_STEPS", .octets, 48, 48, .ro, .a, .none, .none, false, 0, .any⟩

/-- 0x1200.00 STATE (U8, chapter 20). -/
def est_STATE : Entry :=
  ⟨0x1200, 1, 0x00, "STATE", .u8, 1, 1, .ro, .a, .none, .none, false, 2, .any⟩

/-- 0x1200.03 PAVILIONS (U64, chapter 20). -/
def est_PAVILIONS : Entry :=
  ⟨0x1200, 1, 0x03, "PAVILIONS", .u64, 8, 8, .ro, .a, .none, .none, false, 0x0000000000000001, .any⟩

/-- 0x1200.04 FREE_CORES (OCTETS(32), chapter 20). -/
def est_FREE_CORES : Entry :=
  ⟨0x1200, 1, 0x04, "FREE_CORES", .octets, 32, 32, .ro, .e, .none, .none, false, 0, .any⟩

/-- 0x1200.05 FREE_GRANULES (OCTETS(36), chapter 20). -/
def est_FREE_GRANULES : Entry :=
  ⟨0x1200, 1, 0x05, "FREE_GRANULES", .octets, 36, 36, .ro, .e, .none, .none, false, 0, .any⟩

/-- 0x1200.06 FREE_BANKS (OCTETS(64), chapter 20). -/
def est_FREE_BANKS : Entry :=
  ⟨0x1200, 1, 0x06, "FREE_BANKS", .octets, 64, 64, .ro, .e, .none, .none, false, 0, .any⟩

/-- 0x1200.07 FREE_ENDPOINTS (OCTETS(512), chapter 20). -/
def est_FREE_ENDPOINTS : Entry :=
  ⟨0x1200, 1, 0x07, "FREE_ENDPOINTS", .octets, 512, 512, .ro, .e, .none, .none, false, 0, .any⟩

/-- 0x1200.08 DISCARDED_AT_DESTROY (U32, chapter 20). -/
def est_DISCARDED_AT_DESTROY : Entry :=
  ⟨0x1200, 1, 0x08, "DISCARDED_AT_DESTROY", .u32, 4, 4, .ro, .e, .none, .none, false, 0, .any⟩

/-- 0x1200.09 FREE_WAY_GROUPS (OCTETS(16), chapter 20). -/
def est_FREE_WAY_GROUPS : Entry :=
  ⟨0x1200, 1, 0x09, "FREE_WAY_GROUPS", .octets, 16, 16, .ro, .e, .none, .none, false, 0, .any⟩

/-- 0x1200.0A FREE_SHARES (OCTETS(16), chapter 20). -/
def est_FREE_SHARES : Entry :=
  ⟨0x1200, 1, 0x0A, "FREE_SHARES", .octets, 16, 16, .ro, .e, .none, .none, false, 0, .any⟩

/-- 0x1200.0B FREE_KEY_SLOTS (U16, chapter 20). -/
def est_FREE_KEY_SLOTS : Entry :=
  ⟨0x1200, 1, 0x0B, "FREE_KEY_SLOTS", .u16, 2, 2, .ro, .e, .none, .none, false, 1024, .any⟩

/-- 0x1200.0C CREATIONS (U32, chapter 20). -/
def est_CREATIONS : Entry :=
  ⟨0x1200, 1, 0x0C, "CREATIONS", .u32, 4, 4, .ro, .e, .none, .none, false, 0, .any⟩

/-- 0x1200.0D DESTRUCTIONS (U32, chapter 20). -/
def est_DESTRUCTIONS : Entry :=
  ⟨0x1200, 1, 0x0D, "DESTRUCTIONS", .u32, 4, 4, .ro, .e, .none, .none, false, 0, .any⟩

/-- 0x1200.0E ADMITTED_CLASSES (OCTETS(128), chapter 20). -/
def est_ADMITTED_CLASSES : Entry :=
  ⟨0x1200, 1, 0x0E, "ADMITTED_CLASSES", .octets, 128, 128, .ro, .e, .none, .none, false, 0, .any⟩

/-- 0x1200.0F ADMITTED_CORES (OCTETS(128), chapter 20). -/
def est_ADMITTED_CORES : Entry :=
  ⟨0x1200, 1, 0x0F, "ADMITTED_CORES", .octets, 128, 128, .ro, .e, .none, .none, false, 0, .any⟩

/-- 0x1200.10 ALERT_LOG (OCTETS(256), chapter 20). -/
def est_ALERT_LOG : Entry :=
  ⟨0x1200, 1, 0x10, "ALERT_LOG", .octets, 256, 256, .ro, .e, .none, .none, false, 0, .any⟩

/-- 0x1200.11 LOST_CORES (OCTETS(32), chapter 20). -/
def est_LOST_CORES : Entry :=
  ⟨0x1200, 1, 0x11, "LOST_CORES", .octets, 32, 32, .ro, .a, .none, .none, false, 0, .any⟩

/-- 0x2000+n.00 STATE (U8, chapter 2). -/
def pav_STATE : Entry :=
  ⟨0x2000, 64, 0x00, "STATE", .u8, 1, 1, .ro, .a, .none, .none, false, 0, .any⟩

/-- 0x2000+n.01 ENABLE (BOOL, chapter 2). -/
def pav_ENABLE : Entry :=
  ⟨0x2000, 64, 0x01, "ENABLE", .bool, 1, 1, .rw, .e, .live, .none, false, 0, .bool⟩

/-- 0x2000+n.02 COMMIT (BOOL, chapter 2). -/
def pav_COMMIT : Entry :=
  ⟨0x2000, 64, 0x02, "COMMIT", .bool, 1, 1, .wo, .e, .live, .none, false, 0, .bool⟩

/-- 0x2000+n.03 MODE (U8, chapter 2). -/
def pav_MODE : Entry :=
  ⟨0x2000, 64, 0x03, "MODE", .u8, 1, 1, .rw, .e, .locked, .none, false, 0, .between 0 1⟩

/-- 0x2000+n.04 OWNER_KEY (OCTETS(32), chapter 2). -/
def pav_OWNER_KEY : Entry :=
  ⟨0x2000, 64, 0x04, "OWNER_KEY", .octets, 32, 32, .wo, .e, .locked, .none, false, 0, .any⟩

/-- 0x2000+n.05 CORES (OCTETS(32), chapter 2). -/
def pav_CORES : Entry :=
  ⟨0x2000, 64, 0x05, "CORES", .octets, 32, 32, .rw, .e, .staged, .none, true, 0, .any⟩

/-- 0x2000+n.06 GRANULES (OCTETS(36), chapter 2). -/
def pav_GRANULES : Entry :=
  ⟨0x2000, 64, 0x06, "GRANULES", .octets, 36, 36, .rw, .e, .staged, .none, true, 0, .any⟩

/-- 0x2000+n.07 BANKS (OCTETS(64), chapter 2). -/
def pav_BANKS : Entry :=
  ⟨0x2000, 64, 0x07, "BANKS", .octets, 64, 64, .rw, .e, .staged, .none, true, 0, .any⟩

/-- 0x2000+n.08 ENDPOINTS (OCTETS(512), chapter 2). -/
def pav_ENDPOINTS : Entry :=
  ⟨0x2000, 64, 0x08, "ENDPOINTS", .octets, 512, 512, .rw, .e, .staged, .none, true, 0, .any⟩

/-- 0x2000+n.09 WAY_GROUPS (OCTETS(16), chapter 2). -/
def pav_WAY_GROUPS : Entry :=
  ⟨0x2000, 64, 0x09, "WAY_GROUPS", .octets, 16, 16, .rw, .e, .staged, .none, true, 0, .any⟩

/-- 0x2000+n.0A SHARES (OCTETS(8), chapter 2). -/
def pav_SHARES : Entry :=
  ⟨0x2000, 64, 0x0A, "SHARES", .octets, 8, 8, .rw, .e, .staged, .none, true, 0, .any⟩

/-- 0x2000+n.0B HEARTH_QUOTA (U32, chapter 2). -/
def pav_HEARTH_QUOTA : Entry :=
  ⟨0x2000, 64, 0x0B, "HEARTH_QUOTA", .u32, 4, 4, .rw, .e, .staged, .none, true, 0, .any⟩

/-- 0x2000+n.0C KEY_SLOTS (U16, chapter 2). -/
def pav_KEY_SLOTS : Entry :=
  ⟨0x2000, 64, 0x0C, "KEY_SLOTS", .u16, 2, 2, .rw, .e, .staged, .none, true, 0, .any⟩

/-- 0x2000+n.0D SPARING (BOOL, chapter 2). -/
def pav_SPARING : Entry :=
  ⟨0x2000, 64, 0x0D, "SPARING", .bool, 1, 1, .rw, .e, .locked, .none, false, 1, .bool⟩

/-- 0x2000+n.0E TWIN_PERMIT (BOOL, chapter 2). -/
def pav_TWIN_PERMIT : Entry :=
  ⟨0x2000, 64, 0x0E, "TWIN_PERMIT", .bool, 1, 1, .rw, .e, .locked, .none, false, 0, .bool⟩

/-- 0x2000+n.0F HOST_ADDR (OCTETS(160), chapter 2). -/
def pav_HOST_ADDR : Entry :=
  ⟨0x2000, 64, 0x0F, "HOST_ADDR", .octets, 160, 160, .rw, .e, .staged, .none, false, 0, .any⟩

/-- 0x2000+n.10 RECEIPT (OCTETS(208), chapter 2). -/
def pav_RECEIPT : Entry :=
  ⟨0x2000, 64, 0x10, "RECEIPT", .octets, 208, 208, .ro, .a, .none, .none, false, 0, .any⟩

/-- 0x2000+n.11 GENERATION (U32, chapter 2). -/
def pav_GENERATION : Entry :=
  ⟨0x2000, 64, 0x11, "GENERATION", .u32, 4, 4, .ro, .a, .none, .none, false, 0, .any⟩

/-- 0x2000+n.12 DESTROY_MODE (U8, chapter 2). -/
def pav_DESTROY_MODE : Entry :=
  ⟨0x2000, 64, 0x12, "DESTROY_MODE", .u8, 1, 1, .rw, .e, .live, .none, false, 0, .between 0 1⟩

/-- 0x2000+n.20 LOAD (OCTETS(n), chapter 2). -/
def pav_LOAD : Entry :=
  ⟨0x2000, 64, 0x20, "LOAD", .octets, 0, 65536, .wo, .p, .live, .block, false, 0, .any⟩

/-- 0x2000+n.21 START (U16, chapter 2). -/
def pav_START : Entry :=
  ⟨0x2000, 64, 0x21, "START", .u16, 2, 2, .wo, .p, .live, .block, false, 0, .any⟩

/-- 0x2000+n.22 ENTRY (U64, chapter 2). -/
def pav_ENTRY : Entry :=
  ⟨0x2000, 64, 0x22, "ENTRY", .u64, 8, 8, .rw, .p, .live, .block, false, 0, .any⟩

/-- 0x3000+n.00 STATE (U8, chapter 16). -/
def clu_STATE : Entry :=
  ⟨0x3000, 16, 0x00, "STATE", .u8, 1, 1, .ro, .a, .none, .none, false, 2, .any⟩

/-- 0x3000+n.03 SLOT_OWNER (OCTETS(16), chapter 20). -/
def clu_SLOT_OWNER : Entry :=
  ⟨0x3000, 16, 0x03, "SLOT_OWNER", .octets, 16, 16, .ro, .e, .none, .none, false, 2 ^ 128 - 1, .any⟩

/-- 0x3000+n.04 CORE_STATE (OCTETS(16), chapter 16). -/
def clu_CORE_STATE : Entry :=
  ⟨0x3000, 16, 0x04, "CORE_STATE", .octets, 16, 16, .ro, .a, .none, .none, false, 0, .any⟩

/-- 0x3000+n.05 SPARE (U8, chapter 16). -/
def clu_SPARE : Entry :=
  ⟨0x3000, 16, 0x05, "SPARE", .u8, 1, 1, .ro, .a, .none, .none, false, 0xFF, .any⟩

/-- 0x3000+n.06 RETIRED (U32, chapter 16). -/
def clu_RETIRED : Entry :=
  ⟨0x3000, 16, 0x06, "RETIRED", .u32, 4, 4, .ro, .a, .none, .none, false, 0, .any⟩

/-- 0x3000+n.07 TJ (I16, chapter 20). -/
def clu_TJ : Entry :=
  ⟨0x3000, 16, 0x07, "TJ", .i16, 2, 2, .ro, .a, .none, .none, false, 0, .any⟩

/-- 0x3000+n.08 PACE_MEASURED (U16, chapter 20). -/
def clu_PACE_MEASURED : Entry :=
  ⟨0x3000, 16, 0x08, "PACE_MEASURED", .u16, 2, 2, .ro, .a, .none, .none, false, 0, .any⟩

/-- 0x3000+n.09 PACE_MIN (U16, chapter 20). -/
def clu_PACE_MIN : Entry :=
  ⟨0x3000, 16, 0x09, "PACE_MIN", .u16, 2, 2, .ro, .a, .none, .none, false, 0xFFFF, .any⟩

/-- 0x3000+n.0A BELOW_FLOOR (U64, chapter 20). -/
def clu_BELOW_FLOOR : Entry :=
  ⟨0x3000, 16, 0x0A, "BELOW_FLOOR", .u64, 8, 8, .ro, .a, .none, .none, false, 0, .any⟩

/-- 0x3000+n.0B ISSUE_FRACTION (U8, chapter 20). -/
def clu_ISSUE_FRACTION : Entry :=
  ⟨0x3000, 16, 0x0B, "ISSUE_FRACTION", .u8, 1, 1, .ro, .a, .none, .none, false, 100, .any⟩

/-- 0x3000+n.10 MISMATCHES (U64, chapter 16). -/
def clu_MISMATCHES : Entry :=
  ⟨0x3000, 16, 0x10, "MISMATCHES", .u64, 8, 8, .ro, .a, .none, .none, false, 0, .any⟩

/-- 0x3000+n.11 REG_ECC (U64, chapter 16). -/
def clu_REG_ECC : Entry :=
  ⟨0x3000, 16, 0x11, "REG_ECC", .u64, 8, 8, .ro, .a, .none, .none, false, 0, .any⟩

/-- 0x3000+n.12 RETRIES (U64, chapter 16). -/
def clu_RETRIES : Entry :=
  ⟨0x3000, 16, 0x12, "RETRIES", .u64, 8, 8, .ro, .a, .none, .none, false, 0, .any⟩

/-- 0x3000+n.13 SELFTESTS (U32, chapter 16). -/
def clu_SELFTESTS : Entry :=
  ⟨0x3000, 16, 0x13, "SELFTESTS", .u32, 4, 4, .ro, .a, .none, .none, false, 0, .any⟩

/-- 0x3000+n.14 SELFTEST_PASSED (U32, chapter 16). -/
def clu_SELFTEST_PASSED : Entry :=
  ⟨0x3000, 16, 0x14, "SELFTEST_PASSED", .u32, 4, 4, .ro, .a, .none, .none, false, 0, .any⟩

/-- 0x3000+n.15 SPARINGS (U32, chapter 16). -/
def clu_SPARINGS : Entry :=
  ⟨0x3000, 16, 0x15, "SPARINGS", .u32, 4, 4, .ro, .a, .none, .none, false, 0, .any⟩

/-- 0x3000+n.16 LOST (U32, chapter 16). -/
def clu_LOST : Entry :=
  ⟨0x3000, 16, 0x16, "LOST", .u32, 4, 4, .ro, .a, .none, .none, false, 0, .any⟩

/-- 0x3000+n.17 LAST_SPARE_TIME (U32, chapter 16). -/
def clu_LAST_SPARE_TIME : Entry :=
  ⟨0x3000, 16, 0x17, "LAST_SPARE_TIME", .u32, 4, 4, .ro, .a, .none, .none, false, 0, .any⟩

/-- 0x3000+n.20 TWIN_PARTNER (OCTETS(32), chapter 16). -/
def clu_TWIN_PARTNER : Entry :=
  ⟨0x3000, 16, 0x20, "TWIN_PARTNER", .octets, 32, 32, .rw, .p, .live, .element, false, 2 ^ 256 - 1, .any⟩

/-- 0x3000+n.22 TWIN_TIMEOUT (U32, chapter 16). -/
def clu_TWIN_TIMEOUT : Entry :=
  ⟨0x3000, 16, 0x22, "TWIN_TIMEOUT", .u32, 4, 4, .rws, .e, .live, .none, false, 20, .between 2 1000⟩

/-- 0x3000+n.23 TWIN_DISAGREE (U64, chapter 16). -/
def clu_TWIN_DISAGREE : Entry :=
  ⟨0x3000, 16, 0x23, "TWIN_DISAGREE", .u64, 8, 8, .ro, .a, .none, .none, false, 0, .any⟩

/-- 0x3000+n.24 TWIN_GIVEUPS (U32, chapter 16). -/
def clu_TWIN_GIVEUPS : Entry :=
  ⟨0x3000, 16, 0x24, "TWIN_GIVEUPS", .u32, 4, 4, .ro, .a, .none, .none, false, 0, .any⟩

/-- 0x3400.00 STATE (U8, chapter 13). -/
def coh_STATE : Entry :=
  ⟨0x3400, 1, 0x00, "STATE", .u8, 1, 1, .ro, .a, .none, .none, false, 2, .any⟩

/-- 0x3400.03 HOME_TIMEOUT (U32, chapter 13). -/
def coh_HOME_TIMEOUT : Entry :=
  ⟨0x3400, 1, 0x03, "HOME_TIMEOUT", .u32, 4, 4, .rws, .e, .live, .none, false, 5, .between 1 100⟩

/-- 0x3400.04 BELLOWS_AFTER (U8, chapter 13). -/
def coh_BELLOWS_AFTER : Entry :=
  ⟨0x3400, 1, 0x04, "BELLOWS_AFTER", .u8, 1, 1, .rws, .e, .live, .none, false, 8, .between 2 64⟩

/-- 0x3400.05 ATOMIC_MODE (U8, chapter 13). -/
def coh_ATOMIC_MODE : Entry :=
  ⟨0x3400, 1, 0x05, "ATOMIC_MODE", .u8, 1, 1, .rws, .e, .live, .none, false, 0, .between 0 2⟩

/-- 0x3400.08 BELLOWS_COUNT (U64, chapter 13). -/
def coh_BELLOWS_COUNT : Entry :=
  ⟨0x3400, 1, 0x08, "BELLOWS_COUNT", .u64, 8, 8, .ro, .a, .none, .none, false, 0, .any⟩

/-- 0x3400.09 STALE_SNOOPS (U64, chapter 13). -/
def coh_STALE_SNOOPS : Entry :=
  ⟨0x3400, 1, 0x09, "STALE_SNOOPS", .u64, 8, 8, .ro, .a, .none, .none, false, 0, .any⟩

/-- 0x3400.0A CROSSED_WB (U64, chapter 13). -/
def coh_CROSSED_WB : Entry :=
  ⟨0x3400, 1, 0x0A, "CROSSED_WB", .u64, 8, 8, .ro, .a, .none, .none, false, 0, .any⟩

/-- 0x3400.0B TIMEOUTS (U32, chapter 13). -/
def coh_TIMEOUTS : Entry :=
  ⟨0x3400, 1, 0x0B, "TIMEOUTS", .u32, 4, 4, .ro, .a, .none, .none, false, 0, .any⟩

/-- 0x3400.0C PIN_WAITS (U64, chapter 13). -/
def coh_PIN_WAITS : Entry :=
  ⟨0x3400, 1, 0x0C, "PIN_WAITS", .u64, 8, 8, .ro, .a, .none, .none, false, 0, .any⟩

/-- 0x3400.0D LOCKED_INVAL (U64, chapter 13). -/
def coh_LOCKED_INVAL : Entry :=
  ⟨0x3400, 1, 0x0D, "LOCKED_INVAL", .u64, 8, 8, .ro, .a, .none, .none, false, 0, .any⟩

/-- 0x3400.0E LATE_RESPONSES (U32, chapter 13). -/
def coh_LATE_RESPONSES : Entry :=
  ⟨0x3400, 1, 0x0E, "LATE_RESPONSES", .u32, 4, 4, .ro, .a, .none, .none, false, 0, .any⟩

/-- 0x3400.0F DIR_EVICTIONS (U64, chapter 13). -/
def coh_DIR_EVICTIONS : Entry :=
  ⟨0x3400, 1, 0x0F, "DIR_EVICTIONS", .u64, 8, 8, .ro, .a, .none, .none, false, 0, .any⟩

/-- 0x3400.10 POISON_LOG (OCTETS(128), chapter 13). -/
def coh_POISON_LOG : Entry :=
  ⟨0x3400, 1, 0x10, "POISON_LOG", .octets, 128, 128, .ro, .p, .none, .caller, false, 0, .any⟩

/-- 0x3400.11 RANGE_INVAL (OCTETS(16), chapter 13). -/
def coh_RANGE_INVAL : Entry :=
  ⟨0x3400, 1, 0x11, "RANGE_INVAL", .octets, 16, 16, .wo, .p, .live, .caller, false, 0, .any⟩

/-- 0x3410+n.00 STATE (U8, chapter 13). -/
def l2_STATE : Entry :=
  ⟨0x3410, 16, 0x00, "STATE", .u8, 1, 1, .ro, .a, .none, .none, false, 2, .any⟩

/-- 0x3410+n.01 ENABLE (BOOL, chapter 13). -/
def l2_ENABLE : Entry :=
  ⟨0x3410, 16, 0x01, "ENABLE", .bool, 1, 1, .rws, .e, .live, .none, false, 1, .bool⟩

/-- 0x3410+n.03 WAY_LOCK (OCTETS(128), chapter 13). -/
def l2_WAY_LOCK : Entry :=
  ⟨0x3410, 16, 0x03, "WAY_LOCK", .octets, 128, 128, .rw, .p, .live, .element, false, 0, .any⟩

/-- 0x3410+n.04 LOCKED_WAYS (U16, chapter 13). -/
def l2_LOCKED_WAYS : Entry :=
  ⟨0x3410, 16, 0x04, "LOCKED_WAYS", .u16, 2, 2, .ro, .a, .none, .none, false, 0, .any⟩

/-- 0x3410+n.05 STRICT_GROUPS (U8, chapter 13). -/
def l2_STRICT_GROUPS : Entry :=
  ⟨0x3410, 16, 0x05, "STRICT_GROUPS", .u8, 1, 1, .ro, .a, .none, .none, false, 0, .any⟩

/-- 0x3410+n.08 L2_HITS (U64, chapter 13). -/
def l2_L2_HITS : Entry :=
  ⟨0x3410, 16, 0x08, "L2_HITS", .u64, 8, 8, .ro, .a, .none, .none, false, 0, .any⟩

/-- 0x3410+n.09 L2_MISSES (U64, chapter 13). -/
def l2_L2_MISSES : Entry :=
  ⟨0x3410, 16, 0x09, "L2_MISSES", .u64, 8, 8, .ro, .a, .none, .none, false, 0, .any⟩

/-- 0x3410+n.0A WRITEBACKS (U64, chapter 13). -/
def l2_WRITEBACKS : Entry :=
  ⟨0x3410, 16, 0x0A, "WRITEBACKS", .u64, 8, 8, .ro, .a, .none, .none, false, 0, .any⟩

/-- 0x3410+n.0B VICTIM_RECALLS (U64, chapter 13). -/
def l2_VICTIM_RECALLS : Entry :=
  ⟨0x3410, 16, 0x0B, "VICTIM_RECALLS", .u64, 8, 8, .ro, .a, .none, .none, false, 0, .any⟩

/-- 0x3410+n.0C STREAM_FILLS (U64, chapter 13). -/
def l2_STREAM_FILLS : Entry :=
  ⟨0x3410, 16, 0x0C, "STREAM_FILLS", .u64, 8, 8, .ro, .a, .none, .none, false, 0, .any⟩

/-- 0x3800+n.00 STATE (U8, chapter 14). -/
def spad_STATE : Entry :=
  ⟨0x3800, 16, 0x00, "STATE", .u8, 1, 1, .ro, .a, .none, .none, false, 2, .any⟩

/-- 0x3800+n.03 OWNERS (OCTETS(32), chapter 14). -/
def spad_OWNERS : Entry :=
  ⟨0x3800, 16, 0x03, "OWNERS", .octets, 32, 32, .ro, .a, .none, .none, false, 2 ^ 256 - 1, .any⟩

/-- 0x3800+n.04 RELEASED_BY (OCTETS(32), chapter 14). -/
def spad_RELEASED_BY : Entry :=
  ⟨0x3800, 16, 0x04, "RELEASED_BY", .octets, 32, 32, .ro, .e, .none, .none, false, 2 ^ 256 - 1, .any⟩

/-- 0x3800+n.05 RECLAIM (U32, chapter 14). -/
def spad_RECLAIM : Entry :=
  ⟨0x3800, 16, 0x05, "RECLAIM", .u32, 4, 4, .wo, .e, .live, .none, false, 0, .any⟩

/-- 0x3800+n.06 WAKES (U64, chapter 14). -/
def spad_WAKES : Entry :=
  ⟨0x3800, 16, 0x06, "WAKES", .u64, 8, 8, .ro, .a, .none, .none, false, 0, .any⟩

/-- 0x3800+n.07 DEFERRALS (U64, chapter 14). -/
def spad_DEFERRALS : Entry :=
  ⟨0x3800, 16, 0x07, "DEFERRALS", .u64, 8, 8, .ro, .a, .none, .none, false, 0, .any⟩

/-- 0x3800+n.08 WORDS_LOST (U64, chapter 14). -/
def spad_WORDS_LOST : Entry :=
  ⟨0x3800, 16, 0x08, "WORDS_LOST", .u64, 8, 8, .ro, .e, .none, .none, false, 0, .any⟩

/-- 0x3800+n.09 OWN_WORDS_LOST (U64, chapter 14). -/
def spad_OWN_WORDS_LOST : Entry :=
  ⟨0x3800, 16, 0x09, "OWN_WORDS_LOST", .u64, 8, 8, .ro, .p, .none, .caller, false, 0, .any⟩

/-- 0x3800+n.0A CORRECTED (U64, chapter 14). -/
def spad_CORRECTED : Entry :=
  ⟨0x3800, 16, 0x0A, "CORRECTED", .u64, 8, 8, .ro, .a, .none, .none, false, 0, .any⟩

/-- 0x3800+n.0B UNCORRECTABLE (U32, chapter 14). -/
def spad_UNCORRECTABLE : Entry :=
  ⟨0x3800, 16, 0x0B, "UNCORRECTABLE", .u32, 4, 4, .ro, .a, .none, .none, false, 0, .any⟩

/-- 0x3800+n.10 MOVER_RING (U64, chapter 14). -/
def spad_MOVER_RING : Entry :=
  ⟨0x3800, 16, 0x10, "MOVER_RING", .u64, 8, 8, .rw, .p, .live, .caller, false, 0, .multiple 64⟩

/-- 0x3800+n.11 MOVER_ENTRIES (U16, chapter 14). -/
def spad_MOVER_ENTRIES : Entry :=
  ⟨0x3800, 16, 0x11, "MOVER_ENTRIES", .u16, 2, 2, .rw, .p, .live, .caller, false, 0, .pow2 true 16 4096⟩

/-- 0x3800+n.12 MOVER_KICK (U32, chapter 14). -/
def spad_MOVER_KICK : Entry :=
  ⟨0x3800, 16, 0x12, "MOVER_KICK", .u32, 4, 4, .rw, .p, .live, .caller, false, 0, .zeroOr 0x2000 0x3FFFF⟩

/-- 0x3800+n.13 MOVER_DOORBELL (U16, chapter 14). -/
def spad_MOVER_DOORBELL : Entry :=
  ⟨0x3800, 16, 0x13, "MOVER_DOORBELL", .u16, 2, 2, .rw, .p, .live, .caller, false, 0x1FFC, .between 0x1000 0x1FFC⟩

/-- 0x3810.00 STATE (U8, chapter 14). -/
def mem_STATE : Entry :=
  ⟨0x3810, 1, 0x00, "STATE", .u8, 1, 1, .ro, .a, .none, .none, false, 2, .any⟩

/-- 0x3810.03 SEGMENT_MAP (OCTETS(494), chapter 14). -/
def mem_SEGMENT_MAP : Entry :=
  ⟨0x3810, 1, 0x03, "SEGMENT_MAP", .octets, 494, 494, .ro, .p, .none, .caller, false, 0, .any⟩

/-- 0x3810.04 SCRUB_PERIOD (U16, chapter 14). -/
def mem_SCRUB_PERIOD : Entry :=
  ⟨0x3810, 1, 0x04, "SCRUB_PERIOD", .u16, 2, 2, .rws, .e, .live, .none, false, 24, .between 1 168⟩

/-- 0x3810.05 SCRUB_THRESHOLD (U32, chapter 14). -/
def mem_SCRUB_THRESHOLD : Entry :=
  ⟨0x3810, 1, 0x05, "SCRUB_THRESHOLD", .u32, 4, 4, .rws, .e, .live, .none, false, 64, .between 4 1000000⟩

/-- 0x3810.06 SCRUB_CURRENT (OCTETS(8), chapter 14). -/
def mem_SCRUB_CURRENT : Entry :=
  ⟨0x3810, 1, 0x06, "SCRUB_CURRENT", .octets, 8, 8, .ro, .a, .none, .none, false, 0, .any⟩

/-- 0x3810.07 CORRECTED (U64, chapter 14). -/
def mem_CORRECTED : Entry :=
  ⟨0x3810, 1, 0x07, "CORRECTED", .u64, 8, 8, .ro, .a, .none, .none, false, 0, .any⟩

/-- 0x3810.08 UNCORRECTABLE (U32, chapter 14). -/
def mem_UNCORRECTABLE : Entry :=
  ⟨0x3810, 1, 0x08, "UNCORRECTABLE", .u32, 4, 4, .ro, .a, .none, .none, false, 0, .any⟩

/-- 0x3810.09 POISON_LOG (OCTETS(128), chapter 14). -/
def mem_POISON_LOG : Entry :=
  ⟨0x3810, 1, 0x09, "POISON_LOG", .octets, 128, 128, .ro, .p, .none, .caller, false, 0, .any⟩

/-- 0x3810.0A QUENCHES (U64, chapter 14). -/
def mem_QUENCHES : Entry :=
  ⟨0x3810, 1, 0x0A, "QUENCHES", .u64, 8, 8, .ro, .a, .none, .none, false, 0, .any⟩

/-- 0x4000+n.00 STATE (U8, chapter 6). -/
def link_STATE : Entry :=
  ⟨0x4000, 96, 0x00, "STATE", .u8, 1, 1, .ro, .a, .none, .none, false, 0, .any⟩

/-- 0x4000+n.01 ENABLE (BOOL, chapter 6). -/
def link_ENABLE : Entry :=
  ⟨0x4000, 96, 0x01, "ENABLE", .bool, 1, 1, .rws, .e, .live, .none, false, 1, .bool⟩

/-- 0x4000+n.02 COMMIT (BOOL, chapter 6). -/
def link_COMMIT : Entry :=
  ⟨0x4000, 96, 0x02, "COMMIT", .bool, 1, 1, .wo, .e, .live, .none, false, 0, .bool⟩

/-- 0x4000+n.03 MEDIUM (U8, chapter 6). -/
def link_MEDIUM : Entry :=
  ⟨0x4000, 96, 0x03, "MEDIUM", .u8, 1, 1, .rws, .e, .staged, .none, false, 0, .between 0 1⟩

/-- 0x4000+n.04 FEC (BOOL, chapter 6). -/
def link_FEC : Entry :=
  ⟨0x4000, 96, 0x04, "FEC", .bool, 1, 1, .rws, .e, .staged, .none, false, 1, .bool⟩

/-- 0x4000+n.05 LINK_STATUS (U8, chapter 6). -/
def link_LINK_STATUS : Entry :=
  ⟨0x4000, 96, 0x05, "LINK_STATUS", .u8, 1, 1, .ro, .a, .none, .none, false, 0, .any⟩

/-- 0x4000+n.06 TWIN (BOOL, chapter 6). -/
def link_TWIN : Entry :=
  ⟨0x4000, 96, 0x06, "TWIN", .bool, 1, 1, .rws, .e, .staged, .none, false, 0, .bool⟩

/-- 0x4000+n.07 ACK_TIMEOUT (U32, chapter 6). -/
def link_ACK_TIMEOUT : Entry :=
  ⟨0x4000, 96, 0x07, "ACK_TIMEOUT", .u32, 4, 4, .rws, .e, .live, .none, false, 2000, .between 1000 100000⟩

/-- 0x4000+n.08 LINK_DEAD (U32, chapter 6). -/
def link_LINK_DEAD : Entry :=
  ⟨0x4000, 96, 0x08, "LINK_DEAD", .u32, 4, 4, .rws, .e, .live, .none, false, 100, .between 20 10000⟩

/-- 0x4000+n.09 RETRY_DELAY (U32, chapter 6). -/
def link_RETRY_DELAY : Entry :=
  ⟨0x4000, 96, 0x09, "RETRY_DELAY", .u32, 4, 4, .rws, .e, .live, .none, false, 10, .between 1 10000⟩

/-- 0x4000+n.0A EXPECTED_UNIT (U64, chapter 6). -/
def link_EXPECTED_UNIT : Entry :=
  ⟨0x4000, 96, 0x0A, "EXPECTED_UNIT", .u64, 8, 8, .rws, .e, .staged, .none, false, 0, .any⟩

/-- 0x4000+n.0B PEER_UNIT (U64, chapter 6). -/
def link_PEER_UNIT : Entry :=
  ⟨0x4000, 96, 0x0B, "PEER_UNIT", .u64, 8, 8, .ro, .a, .none, .none, false, 0, .any⟩

/-- 0x4000+n.0C PEER_PORT (U16, chapter 6). -/
def link_PEER_PORT : Entry :=
  ⟨0x4000, 96, 0x0C, "PEER_PORT", .u16, 2, 2, .ro, .a, .none, .none, false, 0, .any⟩

/-- 0x4000+n.0D BRINGUPS (U32, chapter 6). -/
def link_BRINGUPS : Entry :=
  ⟨0x4000, 96, 0x0D, "BRINGUPS", .u32, 4, 4, .ro, .a, .none, .none, false, 0, .any⟩

/-- 0x4000+n.10 BLOCKS_TX (U64, chapter 6). -/
def link_BLOCKS_TX : Entry :=
  ⟨0x4000, 96, 0x10, "BLOCKS_TX", .u64, 8, 8, .ro, .a, .none, .none, false, 0, .any⟩

/-- 0x4000+n.11 BLOCKS_RX (U64, chapter 6). -/
def link_BLOCKS_RX : Entry :=
  ⟨0x4000, 96, 0x11, "BLOCKS_RX", .u64, 8, 8, .ro, .a, .none, .none, false, 0, .any⟩

/-- 0x4000+n.12 CRC_ERRORS (U64, chapter 6). -/
def link_CRC_ERRORS : Entry :=
  ⟨0x4000, 96, 0x12, "CRC_ERRORS", .u64, 8, 8, .ro, .a, .none, .none, false, 0, .any⟩

/-- 0x4000+n.13 NAKS_SENT (U64, chapter 6). -/
def link_NAKS_SENT : Entry :=
  ⟨0x4000, 96, 0x13, "NAKS_SENT", .u64, 8, 8, .ro, .a, .none, .none, false, 0, .any⟩

/-- 0x4000+n.14 GO_BACKS (U64, chapter 6). -/
def link_GO_BACKS : Entry :=
  ⟨0x4000, 96, 0x14, "GO_BACKS", .u64, 8, 8, .ro, .a, .none, .none, false, 0, .any⟩

/-- 0x4000+n.15 FAILURES (U32, chapter 6). -/
def link_FAILURES : Entry :=
  ⟨0x4000, 96, 0x15, "FAILURES", .u32, 4, 4, .ro, .a, .none, .none, false, 0, .any⟩

/-- 0x4000+n.16 FEC_CORRECTED (U64, chapter 6). -/
def link_FEC_CORRECTED : Entry :=
  ⟨0x4000, 96, 0x16, "FEC_CORRECTED", .u64, 8, 8, .ro, .a, .none, .none, false, 0, .any⟩

/-- 0x4000+n.17 FEC_UNCORRECTED (U64, chapter 6). -/
def link_FEC_UNCORRECTED : Entry :=
  ⟨0x4000, 96, 0x17, "FEC_UNCORRECTED", .u64, 8, 8, .ro, .a, .none, .none, false, 0, .any⟩

/-- 0x4000+n.18 FAIL_CAUSE (U8, chapter 6). -/
def link_FAIL_CAUSE : Entry :=
  ⟨0x4000, 96, 0x18, "FAIL_CAUSE", .u8, 1, 1, .ro, .a, .none, .none, false, 0, .any⟩

/-- 0x4000+n.19 PAIR_STATUS (U8, chapter 6). -/
def link_PAIR_STATUS : Entry :=
  ⟨0x4000, 96, 0x19, "PAIR_STATUS", .u8, 1, 1, .ro, .a, .none, .none, false, 0, .any⟩

/-- 0x4000+n.1A STRICT_SLOTS (U16, chapter 6). -/
def link_STRICT_SLOTS : Entry :=
  ⟨0x4000, 96, 0x1A, "STRICT_SLOTS", .u16, 2, 2, .ro, .e, .none, .none, false, 0, .any⟩

/-- 0x4000+n.1B STRAY_MESSAGES (U64, chapter 6). -/
def link_STRAY_MESSAGES : Entry :=
  ⟨0x4000, 96, 0x1B, "STRAY_MESSAGES", .u64, 8, 8, .ro, .e, .none, .none, false, 0, .any⟩

/-- 0x5000+n.00 STATE (U8, chapter 7). -/
def ep_STATE : Entry :=
  ⟨0x5000, 4096, 0x00, "STATE", .u8, 1, 1, .ro, .a, .none, .none, false, 0, .any⟩

/-- 0x5000+n.01 ENABLE (BOOL, chapter 7). -/
def ep_ENABLE : Entry :=
  ⟨0x5000, 4096, 0x01, "ENABLE", .bool, 1, 1, .rws, .e, .live, .none, false, 0, .bool⟩

/-- 0x5000+n.02 COMMIT (BOOL, chapter 7). -/
def ep_COMMIT : Entry :=
  ⟨0x5000, 4096, 0x02, "COMMIT", .bool, 1, 1, .wo, .e, .live, .none, false, 0, .bool⟩

/-- 0x5000+n.03 UNIT_ADDR (U16, chapter 7). -/
def ep_UNIT_ADDR : Entry :=
  ⟨0x5000, 4096, 0x03, "UNIT_ADDR", .u16, 2, 2, .rws, .e, .locked, .none, false, 0, .any⟩

/-- 0x5000+n.04 UNIT_ID (U64, chapter 7). -/
def ep_UNIT_ID : Entry :=
  ⟨0x5000, 4096, 0x04, "UNIT_ID", .u64, 8, 8, .rws, .e, .staged, .none, false, 0, .any⟩

/-- 0x5000+n.05 PATHS (OCTETS(16), chapter 7). -/
def ep_PATHS : Entry :=
  ⟨0x5000, 4096, 0x05, "PATHS", .octets, 16, 16, .rws, .e, .staged, .none, false, 0, .any⟩

/-- 0x5000+n.06 PATH_POLICY (U8, chapter 7). -/
def ep_PATH_POLICY : Entry :=
  ⟨0x5000, 4096, 0x06, "PATH_POLICY", .u8, 1, 1, .rws, .e, .staged, .none, false, 0, .between 0 1⟩

/-- 0x5000+n.07 SERVICE_TIME (U32, chapter 7). -/
def ep_SERVICE_TIME : Entry :=
  ⟨0x5000, 4096, 0x07, "SERVICE_TIME", .u32, 4, 4, .rws, .e, .live, .none, false, 1000, .between 1 10000000⟩

/-- 0x5000+n.08 ENDPOINT_TIMEOUT (U32, chapter 7). -/
def ep_ENDPOINT_TIMEOUT : Entry :=
  ⟨0x5000, 4096, 0x08, "ENDPOINT_TIMEOUT", .u32, 4, 4, .rws, .e, .live, .none, false, 1000, .between 10 60000⟩

/-- 0x5000+n.09 LAST_OPNUM (U64, chapter 7). -/
def ep_LAST_OPNUM : Entry :=
  ⟨0x5000, 4096, 0x09, "LAST_OPNUM", .u64, 8, 8, .ro, .p, .none, .block, false, 0, .any⟩

/-- 0x5000+n.0A OPEN_OPS (U16, chapter 7). -/
def ep_OPEN_OPS : Entry :=
  ⟨0x5000, 4096, 0x0A, "OPEN_OPS", .u16, 2, 2, .ro, .p, .none, .block, false, 0, .any⟩

/-- 0x5000+n.0B POSTED (U32, chapter 7). -/
def ep_POSTED : Entry :=
  ⟨0x5000, 4096, 0x0B, "POSTED", .u32, 4, 4, .ro, .p, .none, .block, false, 0, .any⟩

/-- 0x5000+n.0C OWNER (U8, chapter 7). -/
def ep_OWNER : Entry :=
  ⟨0x5000, 4096, 0x0C, "OWNER", .u8, 1, 1, .ro, .e, .none, .none, false, 0xFF, .any⟩

/-- 0x5000+n.10 STARTED (U64, chapter 7). -/
def ep_STARTED : Entry :=
  ⟨0x5000, 4096, 0x10, "STARTED", .u64, 8, 8, .ro, .e, .none, .none, false, 0, .any⟩

/-- 0x5000+n.11 FAILOVERS (U32, chapter 7). -/
def ep_FAILOVERS : Entry :=
  ⟨0x5000, 4096, 0x11, "FAILOVERS", .u32, 4, 4, .ro, .e, .none, .none, false, 0, .any⟩

/-- 0x5000+n.12 QUERIES (U32, chapter 7). -/
def ep_QUERIES : Entry :=
  ⟨0x5000, 4096, 0x12, "QUERIES", .u32, 4, 4, .ro, .e, .none, .none, false, 0, .any⟩

/-- 0x5000+n.13 HALTS (U32, chapter 7). -/
def ep_HALTS : Entry :=
  ⟨0x5000, 4096, 0x13, "HALTS", .u32, 4, 4, .ro, .e, .none, .none, false, 0, .any⟩

/-- 0x5000+n.14 UNCERTAIN (U32, chapter 7). -/
def ep_UNCERTAIN : Entry :=
  ⟨0x5000, 4096, 0x14, "UNCERTAIN", .u32, 4, 4, .ro, .e, .none, .none, false, 0, .any⟩

/-- 0x5000+n.15 PROTOCOL_ERRORS (U32, chapter 7). -/
def ep_PROTOCOL_ERRORS : Entry :=
  ⟨0x5000, 4096, 0x15, "PROTOCOL_ERRORS", .u32, 4, 4, .ro, .e, .none, .none, false, 0, .any⟩

/-- 0x5000+n.16 DUPLICATE_FINALS (U32, chapter 7). -/
def ep_DUPLICATE_FINALS : Entry :=
  ⟨0x5000, 4096, 0x16, "DUPLICATE_FINALS", .u32, 4, 4, .ro, .e, .none, .none, false, 0, .any⟩

/-- 0x5000+n.20 CQ_BASE (U64, chapter 7). -/
def ep_CQ_BASE : Entry :=
  ⟨0x5000, 4096, 0x20, "CQ_BASE", .u64, 8, 8, .rws, .p, .live, .block, false, 0, .multiple 64⟩

/-- 0x5000+n.21 CQ_ENTRIES (U32, chapter 7). -/
def ep_CQ_ENTRIES : Entry :=
  ⟨0x5000, 4096, 0x21, "CQ_ENTRIES", .u32, 4, 4, .rws, .p, .live, .block, false, 0, .pow2 true 16 65536⟩

/-- 0x5000+n.22 DOORBELL (U16, chapter 7). -/
def ep_DOORBELL : Entry :=
  ⟨0x5000, 4096, 0x22, "DOORBELL", .u16, 2, 2, .rws, .p, .live, .block, false, 0x1010, .between 0x1000 0x1FFC⟩

/-- 0x6000+n.00 STATE (U8, chapter 3). -/
def port_STATE : Entry :=
  ⟨0x6000, 2, 0x00, "STATE", .u8, 1, 1, .ro, .a, .none, .none, false, 0, .any⟩

/-- 0x6000+n.01 ENABLE (BOOL, chapter 3). -/
def port_ENABLE : Entry :=
  ⟨0x6000, 2, 0x01, "ENABLE", .bool, 1, 1, .rw, .e, .live, .none, false, 1, .bool⟩

/-- 0x6000+n.02 COMMIT (BOOL, chapter 3). -/
def port_COMMIT : Entry :=
  ⟨0x6000, 2, 0x02, "COMMIT", .bool, 1, 1, .wo, .e, .live, .none, false, 0, .bool⟩

/-- 0x6000+n.03 PHY_MODE (U8, chapter 3). -/
def port_PHY_MODE : Entry :=
  ⟨0x6000, 2, 0x03, "PHY_MODE", .u8, 1, 1, .rws, .e, .locked, .none, false, 0, .between 0 2⟩

/-- 0x6000+n.04 LINK_STATUS (U8, chapter 3). -/
def port_LINK_STATUS : Entry :=
  ⟨0x6000, 2, 0x04, "LINK_STATUS", .u8, 1, 1, .ro, .a, .none, .none, false, 0, .any⟩

/-- 0x6000+n.05 MTU (U16, chapter 3). -/
def port_MTU : Entry :=
  ⟨0x6000, 2, 0x05, "MTU", .u16, 2, 2, .rws, .e, .staged, .none, false, 9194, .between 1500 9194⟩

/-- 0x6000+n.06 PFC_ENABLE (U8, chapter 3). -/
def port_PFC_ENABLE : Entry :=
  ⟨0x6000, 2, 0x06, "PFC_ENABLE", .u8, 1, 1, .rws, .e, .staged, .none, false, 0x7F, .any⟩

/-- 0x6000+n.07 PFC_XOFF (U32, chapter 3). -/
def port_PFC_XOFF : Entry :=
  ⟨0x6000, 2, 0x07, "PFC_XOFF", .u32, 4, 4, .rws, .e, .staged, .none, false, 4194304, .between 262144 6291456⟩

/-- 0x6000+n.08 MAC_ADDR (OCTETS(6), chapter 3). -/
def port_MAC_ADDR : Entry :=
  ⟨0x6000, 2, 0x08, "MAC_ADDR", .octets, 6, 6, .ro, .a, .none, .none, false, 0, .any⟩

/-- 0x6000+n.09 FEC_CORRECTED (U64, chapter 3). -/
def port_FEC_CORRECTED : Entry :=
  ⟨0x6000, 2, 0x09, "FEC_CORRECTED", .u64, 8, 8, .ro, .a, .none, .none, false, 0, .any⟩

/-- 0x6000+n.0A FEC_UNCORRECTED (U64, chapter 3). -/
def port_FEC_UNCORRECTED : Entry :=
  ⟨0x6000, 2, 0x0A, "FEC_UNCORRECTED", .u64, 8, 8, .ro, .a, .none, .none, false, 0, .any⟩

/-- 0x6000+n.0B RX_DROPPED (U64, chapter 3). -/
def port_RX_DROPPED : Entry :=
  ⟨0x6000, 2, 0x0B, "RX_DROPPED", .u64, 8, 8, .ro, .a, .none, .none, false, 0, .any⟩

/-- 0x6000+n.0C CTL_DROPPED (U64, chapter 3). -/
def port_CTL_DROPPED : Entry :=
  ⟨0x6000, 2, 0x0C, "CTL_DROPPED", .u64, 8, 8, .ro, .a, .none, .none, false, 0, .any⟩

/-- 0x6000+n.0D PTP_ENABLE (BOOL, chapter 3). -/
def port_PTP_ENABLE : Entry :=
  ⟨0x6000, 2, 0x0D, "PTP_ENABLE", .bool, 1, 1, .rws, .e, .staged, .none, false, 0, .bool⟩

/-- 0x6000+n.0E PTP_DOMAIN (U8, chapter 3). -/
def port_PTP_DOMAIN : Entry :=
  ⟨0x6000, 2, 0x0E, "PTP_DOMAIN", .u8, 1, 1, .rws, .e, .staged, .none, false, 0, .any⟩

/-- 0x6100.00 STATE (U8, chapter 3). -/
def amn_STATE : Entry :=
  ⟨0x6100, 1, 0x00, "STATE", .u8, 1, 1, .ro, .a, .none, .none, false, 2, .any⟩

/-- 0x6100.03 UDP_PORT (U16, chapter 3). -/
def amn_UDP_PORT : Entry :=
  ⟨0x6100, 1, 0x03, "UDP_PORT", .u16, 2, 2, .rws, .e, .staged, .none, false, 51730, .any⟩

/-- 0x6100.04 DATA_PCP (U8, chapter 3). -/
def amn_DATA_PCP : Entry :=
  ⟨0x6100, 1, 0x04, "DATA_PCP", .u8, 1, 1, .rw, .e, .live, .none, false, 4, .between 0 6⟩

/-- 0x6100.05 RESEND_TIME (U32, chapter 3). -/
def amn_RESEND_TIME : Entry :=
  ⟨0x6100, 1, 0x05, "RESEND_TIME", .u32, 4, 4, .rw, .e, .live, .none, false, 50, .between 5 10000⟩

/-- 0x6100.06 RESEND_CAP (U32, chapter 3). -/
def amn_RESEND_CAP : Entry :=
  ⟨0x6100, 1, 0x06, "RESEND_CAP", .u32, 4, 4, .rw, .e, .live, .none, false, 10000, .atLeast 0x05 1000000⟩

/-- 0x6100.07 KEEPALIVE_TIME (U32, chapter 3). -/
def amn_KEEPALIVE_TIME : Entry :=
  ⟨0x6100, 1, 0x07, "KEEPALIVE_TIME", .u32, 4, 4, .rw, .e, .live, .none, false, 1000, .between 100 1000000⟩

/-- 0x6100.08 DEAD_TIME (U32, chapter 3). -/
def amn_DEAD_TIME : Entry :=
  ⟨0x6100, 1, 0x08, "DEAD_TIME", .u32, 4, 4, .rw, .e, .live, .none, false, 10000, .between 1000 60000000⟩

/-- 0x6100.09 SESSIONS (OCTETS(28), chapter 3). -/
def amn_SESSIONS : Entry :=
  ⟨0x6100, 1, 0x09, "SESSIONS", .octets, 28, 28, .ro, .a, .none, .none, false, 0, .any⟩

/-- 0x6100.0A ECK (KEYREF, chapter 3). -/
def amn_ECK : Entry :=
  ⟨0x6100, 1, 0x0A, "ECK", .keyref, 32, 32, .wo, .e, .live, .none, false, 0, .any⟩

/-- 0x6100.0B ECK_SET (BOOL, chapter 3). -/
def amn_ECK_SET : Entry :=
  ⟨0x6100, 1, 0x0B, "ECK_SET", .bool, 1, 1, .ro, .a, .none, .none, false, 0, .bool⟩

/-- 0x6100.0C INVOCATION_LIMIT (U64, chapter 3). -/
def amn_INVOCATION_LIMIT : Entry :=
  ⟨0x6100, 1, 0x0C, "INVOCATION_LIMIT", .u64, 8, 8, .rw, .e, .live, .none, false, 2 ^ 40, .between (2 ^ 20) (2 ^ 40)⟩

/-- 0x6100.20 INBOUND_BASE (U64, chapter 3). -/
def amn_INBOUND_BASE : Entry :=
  ⟨0x6100, 1, 0x20, "INBOUND_BASE", .u64, 8, 8, .rws, .p, .live, .caller, false, 0, .multiple 64⟩

/-- 0x6100.21 INBOUND_ENTRIES (U32, chapter 3). -/
def amn_INBOUND_ENTRIES : Entry :=
  ⟨0x6100, 1, 0x21, "INBOUND_ENTRIES", .u32, 4, 4, .rws, .p, .live, .caller, false, 0, .pow2 true 16 65536⟩

/-- 0x6100.22 INBOUND_SLOT (U32, chapter 3). -/
def amn_INBOUND_SLOT : Entry :=
  ⟨0x6100, 1, 0x22, "INBOUND_SLOT", .u32, 4, 4, .rws, .p, .live, .caller, false, 16384, .pow2 false 128 16384⟩

/-- 0x6100.23 INBOUND_DOORBELL (U16, chapter 3). -/
def amn_INBOUND_DOORBELL : Entry :=
  ⟨0x6100, 1, 0x23, "INBOUND_DOORBELL", .u16, 2, 2, .rws, .p, .live, .caller, false, 0x1000, .between 0x1000 0x1FFC⟩

/-- 0x6100.24 INBOUND_WAITING (U32, chapter 3). -/
def amn_INBOUND_WAITING : Entry :=
  ⟨0x6100, 1, 0x24, "INBOUND_WAITING", .u32, 4, 4, .ro, .p, .none, .caller, false, 0, .any⟩

/-- 0x6100.25 INBOUND_WAITS (U64, chapter 3). -/
def amn_INBOUND_WAITS : Entry :=
  ⟨0x6100, 1, 0x25, "INBOUND_WAITS", .u64, 8, 8, .ro, .p, .none, .caller, false, 0, .any⟩

/-- 0x7000.00 STATE (U8, chapter 5). -/
def hearth_STATE : Entry :=
  ⟨0x7000, 1, 0x00, "STATE", .u8, 1, 1, .ro, .a, .none, .none, false, 2, .any⟩

/-- 0x7000.03 DEVICE_AREA (U32, chapter 5). -/
def hearth_DEVICE_AREA : Entry :=
  ⟨0x7000, 1, 0x03, "DEVICE_AREA", .u32, 4, 4, .ro, .a, .none, .none, false, 65536, .any⟩

/-- 0x7000.04 FREE_QUOTA (U32, chapter 5). -/
def hearth_FREE_QUOTA : Entry :=
  ⟨0x7000, 1, 0x04, "FREE_QUOTA", .u32, 4, 4, .ro, .e, .none, .none, false, 2030592, .any⟩

/-- 0x7000.05 BYTES_WRITTEN (U64, chapter 5). -/
def hearth_BYTES_WRITTEN : Entry :=
  ⟨0x7000, 1, 0x05, "BYTES_WRITTEN", .u64, 8, 8, .ro, .a, .none, .none, false, 0, .any⟩

/-- 0x7000.06 DISCARDED (U32, chapter 5). -/
def hearth_DISCARDED : Entry :=
  ⟨0x7000, 1, 0x06, "DISCARDED", .u32, 4, 4, .ro, .e, .none, .none, false, 0, .any⟩

/-- 0x7000.07 REPLAY_TIME (U32, chapter 5). -/
def hearth_REPLAY_TIME : Entry :=
  ⟨0x7000, 1, 0x07, "REPLAY_TIME", .u32, 4, 4, .ro, .a, .none, .none, false, 0, .any⟩

/-- 0x7000.08 CORRECTED (U64, chapter 5). -/
def hearth_CORRECTED : Entry :=
  ⟨0x7000, 1, 0x08, "CORRECTED", .u64, 8, 8, .ro, .a, .none, .none, false, 0, .any⟩

/-- 0x7000.09 UNCORRECTABLE (U32, chapter 5). -/
def hearth_UNCORRECTABLE : Entry :=
  ⟨0x7000, 1, 0x09, "UNCORRECTABLE", .u32, 4, 4, .ro, .a, .none, .none, false, 0, .any⟩

/-- 0x7000.0A CARRIED (U64, chapter 5). -/
def hearth_CARRIED : Entry :=
  ⟨0x7000, 1, 0x0A, "CARRIED", .u64, 8, 8, .ro, .e, .none, .none, false, 0, .any⟩

/-- 0x7000.0B LINE_WAITS (U64, chapter 5). -/
def hearth_LINE_WAITS : Entry :=
  ⟨0x7000, 1, 0x0B, "LINE_WAITS", .u64, 8, 8, .ro, .e, .none, .none, false, 0, .any⟩

/-- 0x7000.0C LOST_RECORDS (U32, chapter 5). -/
def hearth_LOST_RECORDS : Entry :=
  ⟨0x7000, 1, 0x0C, "LOST_RECORDS", .u32, 4, 4, .ro, .e, .none, .none, false, 0, .any⟩

/-- 0x7000.0D RECONSTRUCTED (U64, chapter 5). -/
def hearth_RECONSTRUCTED : Entry :=
  ⟨0x7000, 1, 0x0D, "RECONSTRUCTED", .u64, 8, 8, .ro, .a, .none, .none, false, 0, .any⟩

/-- 0x7000.0E RESERVE_WAITS (U64, chapter 5). -/
def hearth_RESERVE_WAITS : Entry :=
  ⟨0x7000, 1, 0x0E, "RESERVE_WAITS", .u64, 8, 8, .ro, .e, .none, .none, false, 0, .any⟩

/-- 0x7000.10 WINDOW_SIZE (OCTETS(256), chapter 5). -/
def hearth_WINDOW_SIZE : Entry :=
  ⟨0x7000, 1, 0x10, "WINDOW_SIZE", .octets, 256, 256, .rws, .e, .staged, .none, false, 0, .any⟩

/-- 0x7000.11 RING_USE (OCTETS(256), chapter 5). -/
def hearth_RING_USE : Entry :=
  ⟨0x7000, 1, 0x11, "RING_USE", .octets, 256, 256, .ro, .e, .none, .none, false, 0, .any⟩

/-- 0x7000.12 OWN_RING_USE (U32, chapter 5). -/
def hearth_OWN_RING_USE : Entry :=
  ⟨0x7000, 1, 0x12, "OWN_RING_USE", .u32, 4, 4, .ro, .p, .none, .caller, false, 0, .any⟩

/-- 0x7000.13 OWN_WINDOW (U32, chapter 5). -/
def hearth_OWN_WINDOW : Entry :=
  ⟨0x7000, 1, 0x13, "OWN_WINDOW", .u32, 4, 4, .ro, .p, .none, .caller, false, 0, .any⟩

/-- 0x7100+n.00 STATE (U8, chapter 17). -/
def cie_STATE : Entry :=
  ⟨0x7100, 24, 0x00, "STATE", .u8, 1, 1, .ro, .a, .none, .none, false, 2, .any⟩

/-- 0x7100+n.01 ENABLE (BOOL, chapter 17). -/
def cie_ENABLE : Entry :=
  ⟨0x7100, 24, 0x01, "ENABLE", .bool, 1, 1, .rws, .e, .live, .none, false, 1, .bool⟩

/-- 0x7100+n.03 JOBS (U64, chapter 17). -/
def cie_JOBS : Entry :=
  ⟨0x7100, 24, 0x03, "JOBS", .u64, 8, 8, .ro, .a, .none, .none, false, 0, .any⟩

/-- 0x7100+n.04 BYTES (U64, chapter 17). -/
def cie_BYTES : Entry :=
  ⟨0x7100, 24, 0x04, "BYTES", .u64, 8, 8, .ro, .a, .none, .none, false, 0, .any⟩

/-- 0x7100+n.05 MISMATCHES (U64, chapter 17). -/
def cie_MISMATCHES : Entry :=
  ⟨0x7100, 24, 0x05, "MISMATCHES", .u64, 8, 8, .ro, .a, .none, .none, false, 0, .any⟩

/-- 0x7100+n.06 ENGINE_FAULTS (U32, chapter 17). -/
def cie_ENGINE_FAULTS : Entry :=
  ⟨0x7100, 24, 0x06, "ENGINE_FAULTS", .u32, 4, 4, .ro, .a, .none, .none, false, 0, .any⟩

/-- 0x7100+n.07 STRICT_SLOTS (U16, chapter 17). -/
def cie_STRICT_SLOTS : Entry :=
  ⟨0x7100, 24, 0x07, "STRICT_SLOTS", .u16, 2, 2, .ro, .e, .none, .none, false, 0, .any⟩

/-- 0x7180.00 STATE (U8, chapter 17). -/
def cip_STATE : Entry :=
  ⟨0x7180, 1, 0x00, "STATE", .u8, 1, 1, .ro, .a, .none, .none, false, 2, .any⟩

/-- 0x7180.05 DENSITY (U8, chapter 17). -/
def cip_DENSITY : Entry :=
  ⟨0x7180, 1, 0x05, "DENSITY", .u8, 1, 1, .rw, .p, .live, .caller, false, 4, .between 0 7⟩

/-- 0x7180.10 KEY_INFO (OCTETS(n), chapter 17). -/
def cip_KEY_INFO : Entry :=
  ⟨0x7180, 1, 0x10, "KEY_INFO", .octets, 0, 24576, .ro, .p, .none, .caller, false, 0, .any⟩

/-- 0x7180.11 KEY_WRITE (OCTETS(82), chapter 17). -/
def cip_KEY_WRITE : Entry :=
  ⟨0x7180, 1, 0x11, "KEY_WRITE", .octets, 82, 82, .wo, .p, .live, .caller, false, 0, .any⟩

/-- 0x7180.20 CQ_BASE (U64, chapter 17). -/
def cip_CQ_BASE : Entry :=
  ⟨0x7180, 1, 0x20, "CQ_BASE", .u64, 8, 8, .rw, .p, .live, .caller, false, 0, .multiple 64⟩

/-- 0x7180.21 CQ_ENTRIES (U32, chapter 17). -/
def cip_CQ_ENTRIES : Entry :=
  ⟨0x7180, 1, 0x21, "CQ_ENTRIES", .u32, 4, 4, .rw, .p, .live, .caller, false, 0, .pow2 true 16 65536⟩

/-- 0x7180.22 DOORBELL (U16, chapter 17). -/
def cip_DOORBELL : Entry :=
  ⟨0x7180, 1, 0x22, "DOORBELL", .u16, 2, 2, .rw, .p, .live, .caller, false, 0x1FFB, .between 0x1000 0x1FFC⟩

/-- 0x7180.23 AUTH_FAILS (U64, chapter 17). -/
def cip_AUTH_FAILS : Entry :=
  ⟨0x7180, 1, 0x23, "AUTH_FAILS", .u64, 8, 8, .ro, .p, .none, .caller, false, 0, .any⟩

/-- 0x7180.24 KEYS_SPENT (U32, chapter 17). -/
def cip_KEYS_SPENT : Entry :=
  ⟨0x7180, 1, 0x24, "KEYS_SPENT", .u32, 4, 4, .ro, .p, .none, .caller, false, 0, .any⟩

/-- 0x7200+n.00 STATE (U8, chapter 18). -/
def cpe_STATE : Entry :=
  ⟨0x7200, 16, 0x00, "STATE", .u8, 1, 1, .ro, .a, .none, .none, false, 2, .any⟩

/-- 0x7200+n.01 ENABLE (BOOL, chapter 18). -/
def cpe_ENABLE : Entry :=
  ⟨0x7200, 16, 0x01, "ENABLE", .bool, 1, 1, .rws, .e, .live, .none, false, 1, .bool⟩

/-- 0x7200+n.03 CHUNKS (U64, chapter 18). -/
def cpe_CHUNKS : Entry :=
  ⟨0x7200, 16, 0x03, "CHUNKS", .u64, 8, 8, .ro, .a, .none, .none, false, 0, .any⟩

/-- 0x7200+n.04 BYTES (U64, chapter 18). -/
def cpe_BYTES : Entry :=
  ⟨0x7200, 16, 0x04, "BYTES", .u64, 8, 8, .ro, .a, .none, .none, false, 0, .any⟩

/-- 0x7200+n.05 VERIFY_MISMATCHES (U64, chapter 18). -/
def cpe_VERIFY_MISMATCHES : Entry :=
  ⟨0x7200, 16, 0x05, "VERIFY_MISMATCHES", .u64, 8, 8, .ro, .a, .none, .none, false, 0, .any⟩

/-- 0x7200+n.06 RAW_FALLBACKS (U64, chapter 18). -/
def cpe_RAW_FALLBACKS : Entry :=
  ⟨0x7200, 16, 0x06, "RAW_FALLBACKS", .u64, 8, 8, .ro, .a, .none, .none, false, 0, .any⟩

/-- 0x7200+n.07 ENGINE_FAULTS (U32, chapter 18). -/
def cpe_ENGINE_FAULTS : Entry :=
  ⟨0x7200, 16, 0x07, "ENGINE_FAULTS", .u32, 4, 4, .ro, .a, .none, .none, false, 0, .any⟩

/-- 0x7200+n.08 STRICT_SLOTS (U16, chapter 18). -/
def cpe_STRICT_SLOTS : Entry :=
  ⟨0x7200, 16, 0x08, "STRICT_SLOTS", .u16, 2, 2, .ro, .e, .none, .none, false, 0, .any⟩

/-- 0x7280.00 STATE (U8, chapter 18). -/
def cpr_STATE : Entry :=
  ⟨0x7280, 1, 0x00, "STATE", .u8, 1, 1, .ro, .a, .none, .none, false, 2, .any⟩

/-- 0x7280.20 CQ_BASE (U64, chapter 18). -/
def cpr_CQ_BASE : Entry :=
  ⟨0x7280, 1, 0x20, "CQ_BASE", .u64, 8, 8, .rw, .p, .live, .caller, false, 0, .multiple 64⟩

/-- 0x7280.21 CQ_ENTRIES (U32, chapter 18). -/
def cpr_CQ_ENTRIES : Entry :=
  ⟨0x7280, 1, 0x21, "CQ_ENTRIES", .u32, 4, 4, .rw, .p, .live, .caller, false, 0, .pow2 true 16 65536⟩

/-- 0x7280.22 DOORBELL (U16, chapter 18). -/
def cpr_DOORBELL : Entry :=
  ⟨0x7280, 1, 0x22, "DOORBELL", .u16, 2, 2, .rw, .p, .live, .caller, false, 0x1FFA, .between 0x1000 0x1FFC⟩

/-- 0x7280.23 CHECK_FAILS (U64, chapter 18). -/
def cpr_CHECK_FAILS : Entry :=
  ⟨0x7280, 1, 0x23, "CHECK_FAILS", .u64, 8, 8, .ro, .p, .none, .caller, false, 0, .any⟩

/-- 0x7280.24 FORMAT_FAILS (U64, chapter 18). -/
def cpr_FORMAT_FAILS : Entry :=
  ⟨0x7280, 1, 0x24, "FORMAT_FAILS", .u64, 8, 8, .ro, .p, .none, .caller, false, 0, .any⟩

/-- 0x7F00.00 REASON (U16, chapter 19). -/
def refusal_REASON : Entry :=
  ⟨0x7F00, 1, 0x00, "REASON", .u16, 2, 2, .ro, .p, .none, .caller, false, 0, .any⟩

/-- 0x7F00.01 INDEX (U16, chapter 19). -/
def refusal_INDEX : Entry :=
  ⟨0x7F00, 1, 0x01, "INDEX", .u16, 2, 2, .ro, .p, .none, .caller, false, 0, .any⟩

/-- 0x7F00.02 SUB (U8, chapter 19). -/
def refusal_SUB : Entry :=
  ⟨0x7F00, 1, 0x02, "SUB", .u8, 1, 1, .ro, .p, .none, .caller, false, 0, .any⟩

/-- 0x7F00.03 OFFENDING_INDEX (U16, chapter 19). -/
def refusal_OFFENDING_INDEX : Entry :=
  ⟨0x7F00, 1, 0x03, "OFFENDING_INDEX", .u16, 2, 2, .ro, .p, .none, .caller, false, 0, .any⟩

/-- 0x7F00.04 OFFENDING_SUB (U8, chapter 19). -/
def refusal_OFFENDING_SUB : Entry :=
  ⟨0x7F00, 1, 0x04, "OFFENDING_SUB", .u8, 1, 1, .ro, .p, .none, .caller, false, 0, .any⟩

/-- 0x7F00.05 TIME (U64, chapter 19). -/
def refusal_TIME : Entry :=
  ⟨0x7F00, 1, 0x05, "TIME", .u64, 8, 8, .ro, .p, .none, .caller, false, 0, .any⟩

/-- 0x7F00.06 SOURCE (U8, chapter 19). -/
def refusal_SOURCE : Entry :=
  ⟨0x7F00, 1, 0x06, "SOURCE", .u8, 1, 1, .ro, .p, .none, .caller, false, 0, .any⟩

/-- 0x7F00.07 SESSION (U32, chapter 19). -/
def refusal_SESSION : Entry :=
  ⟨0x7F00, 1, 0x07, "SESSION", .u32, 4, 4, .ro, .p, .none, .caller, false, 0, .any⟩

/-- 0x7F00.08 COUNT (U32, chapter 19). -/
def refusal_COUNT : Entry :=
  ⟨0x7F00, 1, 0x08, "COUNT", .u32, 4, 4, .ro, .p, .none, .caller, false, 0, .any⟩

/-- 0xF000.00 STATE (U8, chapter 19). -/
def i2c_STATE : Entry :=
  ⟨0xF000, 1, 0x00, "STATE", .u8, 1, 1, .ro, .a, .none, .none, false, 2, .any⟩

/-- 0xF000.01 I2C_WRITES (BOOL, chapter 19). -/
def i2c_I2C_WRITES : Entry :=
  ⟨0xF000, 1, 0x01, "I2C_WRITES", .bool, 1, 1, .rws, .e, .live, .none, false, 1, .bool⟩

/-- 0xF000.02 ALERT_ACK (BOOL, chapter 19). -/
def i2c_ALERT_ACK : Entry :=
  ⟨0xF000, 1, 0x02, "ALERT_ACK", .bool, 1, 1, .wo, .e, .live, .none, false, 0, .bool⟩

/-- 0xF000.03 LAST_ALERT (OCTETS(16), chapter 19). -/
def i2c_LAST_ALERT : Entry :=
  ⟨0xF000, 1, 0x03, "LAST_ALERT", .octets, 16, 16, .ro, .e, .none, .none, false, 0, .any⟩

/-- 0xF000.04 WINDOW (OCTETS(64), chapter 19). -/
def i2c_WINDOW : Entry :=
  ⟨0xF000, 1, 0x04, "WINDOW", .octets, 64, 64, .ro, .e, .none, .none, false, 0, .any⟩

/-- 0xF000.05 ADDRESS (U8, chapter 19). -/
def i2c_ADDRESS : Entry :=
  ⟨0xF000, 1, 0x05, "ADDRESS", .u8, 1, 1, .ro, .a, .none, .none, false, 0, .any⟩

/-- Block 0x1000, in rising subindex. -/
def block1000 : List Entry :=
  [dev_STATE, dev_ORDERING_CODE, dev_REVISION, dev_SERIAL, dev_FIRMWARE, dev_STACKS, dev_DEVICE_STATUS,
   dev_FAULT_CAUSES, dev_TJ, dev_TJ_MAX, dev_THERM_EVENTS, dev_STARTUPS, dev_UPTIME, dev_IDENTITY_KEY,
   dev_IDENTITY_CERT, dev_UCODE_RELEASE, dev_UCODE_IMAGE, dev_UCODE_STAGED, dev_UCODE_CHECKS]

/-- Block 0x1100, in rising subindex. -/
def block1100 : List Entry :=
  [pow_STATE, pow_POWER_CAP, pow_INPUT_POWER, pow_ADMITTED_POWER, pow_ADMIT_CEILING, pow_PACE_FLAGS,
   pow_GUARD, pow_LATE_COUNT, pow_DEFICIT_EVENTS, pow_LATE_IN_DEFICIT, pow_OVERDUE_OPEN, pow_PACE,
   pow_VCORE, pow_FLOOR_POWER, pow_DEADLINE_CLUSTERS, pow_LATE_BY_PAVILION, pow_CLOCK_STATUS,
   pow_REF_PREFER, pow_STRAPS, pow_REF_SWITCHES, pow_XTAL_LOSSES, pow_COAST_TIME, pow_TB_SOURCE,
   pow_PTP_STATE, pow_PTP_OFFSET, pow_PTP_STEPS, pow_PTP_STEP_LIMIT, pow_RESET_CAUSE, pow_STARTUP_STEPS]

/-- Block 0x1200, in rising subindex. -/
def block1200 : List Entry :=
  [est_STATE, est_PAVILIONS, est_FREE_CORES, est_FREE_GRANULES, est_FREE_BANKS, est_FREE_ENDPOINTS,
   est_DISCARDED_AT_DESTROY, est_FREE_WAY_GROUPS, est_FREE_SHARES, est_FREE_KEY_SLOTS, est_CREATIONS,
   est_DESTRUCTIONS, est_ADMITTED_CLASSES, est_ADMITTED_CORES, est_ALERT_LOG, est_LOST_CORES]

/-- Block 0x2000, in rising subindex. -/
def block2000 : List Entry :=
  [pav_STATE, pav_ENABLE, pav_COMMIT, pav_MODE, pav_OWNER_KEY, pav_CORES, pav_GRANULES, pav_BANKS,
   pav_ENDPOINTS, pav_WAY_GROUPS, pav_SHARES, pav_HEARTH_QUOTA, pav_KEY_SLOTS, pav_SPARING,
   pav_TWIN_PERMIT, pav_HOST_ADDR, pav_RECEIPT, pav_GENERATION, pav_DESTROY_MODE, pav_LOAD, pav_START,
   pav_ENTRY]

/-- Block 0x3000, in rising subindex. -/
def block3000 : List Entry :=
  [clu_STATE, clu_SLOT_OWNER, clu_CORE_STATE, clu_SPARE, clu_RETIRED, clu_TJ, clu_PACE_MEASURED,
   clu_PACE_MIN, clu_BELOW_FLOOR, clu_ISSUE_FRACTION, clu_MISMATCHES, clu_REG_ECC, clu_RETRIES,
   clu_SELFTESTS, clu_SELFTEST_PASSED, clu_SPARINGS, clu_LOST, clu_LAST_SPARE_TIME, clu_TWIN_PARTNER,
   clu_TWIN_TIMEOUT, clu_TWIN_DISAGREE, clu_TWIN_GIVEUPS]

/-- Block 0x3400, in rising subindex. -/
def block3400 : List Entry :=
  [coh_STATE, coh_HOME_TIMEOUT, coh_BELLOWS_AFTER, coh_ATOMIC_MODE, coh_BELLOWS_COUNT, coh_STALE_SNOOPS,
   coh_CROSSED_WB, coh_TIMEOUTS, coh_PIN_WAITS, coh_LOCKED_INVAL, coh_LATE_RESPONSES, coh_DIR_EVICTIONS,
   coh_POISON_LOG, coh_RANGE_INVAL]

/-- Block 0x3410, in rising subindex. -/
def block3410 : List Entry :=
  [l2_STATE, l2_ENABLE, l2_WAY_LOCK, l2_LOCKED_WAYS, l2_STRICT_GROUPS, l2_L2_HITS, l2_L2_MISSES,
   l2_WRITEBACKS, l2_VICTIM_RECALLS, l2_STREAM_FILLS]

/-- Block 0x3800, in rising subindex. -/
def block3800 : List Entry :=
  [spad_STATE, spad_OWNERS, spad_RELEASED_BY, spad_RECLAIM, spad_WAKES, spad_DEFERRALS, spad_WORDS_LOST,
   spad_OWN_WORDS_LOST, spad_CORRECTED, spad_UNCORRECTABLE, spad_MOVER_RING, spad_MOVER_ENTRIES,
   spad_MOVER_KICK, spad_MOVER_DOORBELL]

/-- Block 0x3810, in rising subindex. -/
def block3810 : List Entry :=
  [mem_STATE, mem_SEGMENT_MAP, mem_SCRUB_PERIOD, mem_SCRUB_THRESHOLD, mem_SCRUB_CURRENT, mem_CORRECTED,
   mem_UNCORRECTABLE, mem_POISON_LOG, mem_QUENCHES]

/-- Block 0x4000, in rising subindex. -/
def block4000 : List Entry :=
  [link_STATE, link_ENABLE, link_COMMIT, link_MEDIUM, link_FEC, link_LINK_STATUS, link_TWIN,
   link_ACK_TIMEOUT, link_LINK_DEAD, link_RETRY_DELAY, link_EXPECTED_UNIT, link_PEER_UNIT,
   link_PEER_PORT, link_BRINGUPS, link_BLOCKS_TX, link_BLOCKS_RX, link_CRC_ERRORS, link_NAKS_SENT,
   link_GO_BACKS, link_FAILURES, link_FEC_CORRECTED, link_FEC_UNCORRECTED, link_FAIL_CAUSE,
   link_PAIR_STATUS, link_STRICT_SLOTS, link_STRAY_MESSAGES]

/-- Block 0x5000, in rising subindex. -/
def block5000 : List Entry :=
  [ep_STATE, ep_ENABLE, ep_COMMIT, ep_UNIT_ADDR, ep_UNIT_ID, ep_PATHS, ep_PATH_POLICY, ep_SERVICE_TIME,
   ep_ENDPOINT_TIMEOUT, ep_LAST_OPNUM, ep_OPEN_OPS, ep_POSTED, ep_OWNER, ep_STARTED, ep_FAILOVERS,
   ep_QUERIES, ep_HALTS, ep_UNCERTAIN, ep_PROTOCOL_ERRORS, ep_DUPLICATE_FINALS, ep_CQ_BASE,
   ep_CQ_ENTRIES, ep_DOORBELL]

/-- Block 0x6000, in rising subindex. -/
def block6000 : List Entry :=
  [port_STATE, port_ENABLE, port_COMMIT, port_PHY_MODE, port_LINK_STATUS, port_MTU, port_PFC_ENABLE,
   port_PFC_XOFF, port_MAC_ADDR, port_FEC_CORRECTED, port_FEC_UNCORRECTED, port_RX_DROPPED,
   port_CTL_DROPPED, port_PTP_ENABLE, port_PTP_DOMAIN]

/-- Block 0x6100, in rising subindex. -/
def block6100 : List Entry :=
  [amn_STATE, amn_UDP_PORT, amn_DATA_PCP, amn_RESEND_TIME, amn_RESEND_CAP, amn_KEEPALIVE_TIME,
   amn_DEAD_TIME, amn_SESSIONS, amn_ECK, amn_ECK_SET, amn_INVOCATION_LIMIT, amn_INBOUND_BASE,
   amn_INBOUND_ENTRIES, amn_INBOUND_SLOT, amn_INBOUND_DOORBELL, amn_INBOUND_WAITING, amn_INBOUND_WAITS]

/-- Block 0x7000, in rising subindex. -/
def block7000 : List Entry :=
  [hearth_STATE, hearth_DEVICE_AREA, hearth_FREE_QUOTA, hearth_BYTES_WRITTEN, hearth_DISCARDED,
   hearth_REPLAY_TIME, hearth_CORRECTED, hearth_UNCORRECTABLE, hearth_CARRIED, hearth_LINE_WAITS,
   hearth_LOST_RECORDS, hearth_RECONSTRUCTED, hearth_RESERVE_WAITS, hearth_WINDOW_SIZE, hearth_RING_USE,
   hearth_OWN_RING_USE, hearth_OWN_WINDOW]

/-- Block 0x7100, in rising subindex. -/
def block7100 : List Entry :=
  [cie_STATE, cie_ENABLE, cie_JOBS, cie_BYTES, cie_MISMATCHES, cie_ENGINE_FAULTS, cie_STRICT_SLOTS]

/-- Block 0x7180, in rising subindex. -/
def block7180 : List Entry :=
  [cip_STATE, cip_DENSITY, cip_KEY_INFO, cip_KEY_WRITE, cip_CQ_BASE, cip_CQ_ENTRIES, cip_DOORBELL,
   cip_AUTH_FAILS, cip_KEYS_SPENT]

/-- Block 0x7200, in rising subindex. -/
def block7200 : List Entry :=
  [cpe_STATE, cpe_ENABLE, cpe_CHUNKS, cpe_BYTES, cpe_VERIFY_MISMATCHES, cpe_RAW_FALLBACKS,
   cpe_ENGINE_FAULTS, cpe_STRICT_SLOTS]

/-- Block 0x7280, in rising subindex. -/
def block7280 : List Entry :=
  [cpr_STATE, cpr_CQ_BASE, cpr_CQ_ENTRIES, cpr_DOORBELL, cpr_CHECK_FAILS, cpr_FORMAT_FAILS]

/-- Block 0x7F00, in rising subindex. -/
def block7F00 : List Entry :=
  [refusal_REASON, refusal_INDEX, refusal_SUB, refusal_OFFENDING_INDEX, refusal_OFFENDING_SUB,
   refusal_TIME, refusal_SOURCE, refusal_SESSION, refusal_COUNT]

/-- Block 0xF000, in rising subindex. -/
def blockF000 : List Entry :=
  [i2c_STATE, i2c_I2C_WRITES, i2c_ALERT_ACK, i2c_LAST_ALERT, i2c_WINDOW, i2c_ADDRESS]

end R

/-- The blocks of Table 20.1 with their entries: base index, instances, entries. -/
def dictBlocks : List (Nat × Nat × List Entry) :=
  [(0x1000, 1, R.block1000),
   (0x1100, 1, R.block1100),
   (0x1200, 1, R.block1200),
   (0x2000, 64, R.block2000),
   (0x3000, 16, R.block3000),
   (0x3400, 1, R.block3400),
   (0x3410, 16, R.block3410),
   (0x3800, 16, R.block3800),
   (0x3810, 1, R.block3810),
   (0x4000, 96, R.block4000),
   (0x5000, 4096, R.block5000),
   (0x6000, 2, R.block6000),
   (0x6100, 1, R.block6100),
   (0x7000, 1, R.block7000),
   (0x7100, 24, R.block7100),
   (0x7180, 1, R.block7180),
   (0x7200, 16, R.block7200),
   (0x7280, 1, R.block7280),
   (0x7F00, 1, R.block7F00),
   (0xF000, 1, R.blockF000)]

/-- The entry a 16-bit index and a subindex name, with its instance (R519, R549). -/
def findEntry (index sub : Nat) : Option (Entry × Nat) :=
  match dictBlocks.find? (fun b => decide (b.1 ≤ index) && decide (index < b.1 + b.2.1)) with
  | some b => (b.2.2.find? (fun e => e.sub == sub)).map (fun e => (e, index - b.1))
  | none => none

/-- The default of instance `i` (the tables' Default column). The estate's block runs as pavilion 0 from start-up with
ENABLE 1, MODE 1 and 1,024 KiB (R37, Table 2.7); what the factory fixes is in Config. -/
def Entry.default (e : Entry) (i : Nat) : Nat :=
  if e.base = 0x2000 ∧ i = 0 ∧ e.sub = 0x01 then 1
  else if e.base = 0x2000 ∧ i = 0 ∧ e.sub = 0x03 then 1
  else if e.base = 0x2000 ∧ i = 0 ∧ e.sub = 0x0B then 1024
  else if e.base = 0x1000 ∧ e.sub = 0x03 then Config.orderingCode
  else if e.base = 0x1000 ∧ e.sub = 0x05 then Config.serial
  else if e.base = 0x1000 ∧ e.sub = 0x06 then Config.firmware
  else if e.base = 0x1000 ∧ e.sub = 0x07 then Config.stacks
  else if e.base = 0x1000 ∧ e.sub = 0x20 then leNat (edPublic Config.identitySeed)
  else if e.base = 0x1000 ∧ e.sub = 0x21 then Config.identityCert
  else if e.base = 0x1000 ∧ e.sub = 0x30 then Config.ucodeRelease
  else if e.base = 0x1100 ∧ e.sub = 0x12 then Config.floorPower
  else if e.base = 0x6000 ∧ e.sub = 0x08 then Config.macAddr i
  else e.dflt

/-- The key under which the value of instance `i` of an entry is kept, for pavilion `p` where each pavilion has a
value of its own (R523); `p` is 0 otherwise. -/
def Entry.key (e : Entry) (i : Nat) (p : Nat) : Nat :=
  ((e.base + i) * 256 + e.sub) * 64 + (if e.own = .caller then p else 0)

end Sys2Proof.Machine
end

