-- ==== Sys2Proof/Machine/State.lean ====
section
/-! DEFINITION. Machine/State.lean: the state of the BW7256 as plain data, and its state at reset. Each register of
the object dictionary is in `Dev.dict` under its entry of Machine/Regs.lean, unless the entry reports other state of the
device, which is then read from its home. -/

namespace Sys2Proof.Machine

/-- No command ends in a fault: each meets a state in which the spec, or a named choice of the assumption log, gives it an
effect or none. -/
inductive Fault where
deriving DecidableEq, Repr

/-- Why a command has no outcome. -/
inductive Refusal where
  /-- Raised by the arm of a command that has no meaning yet; safe, since nothing can be proved of it. -/
  | notModelled (mnemonic : String)
deriving DecidableEq, Repr

/-! ## Cores (chapters 8, 11, 12, 16) -/

/-- A capability with its tag (Table 2.2). The null capability has every field zero. -/
structure Cap where
  tag : Bool := false
  perms : BitVec 8 := 0
  otype : BitVec 6 := 0
  base : BitVec 38 := 0
  len : BitVec 38 := 0
  cursor : BitVec 38 := 0
deriving DecidableEq, Repr

/-- A physical register that a load or a floating-point operation writes: its home does not move with the window
(R269). -/
inductive PReg where
  | k (i : Nat)
  | win (i : Nat)
  | cap (i : Nat)
  | fp (i : Nat)
  | z
deriving DecidableEq, Repr

/-- A loaded value that its destination has not taken yet (R267). `cap` is used for a capability register, `word`
otherwise (bit 0 for Z). -/
structure Owed where
  reg : PReg
  word : Word
  cap : Cap
deriving DecidableEq, Repr

/-- The architectural state of R245 and Table 8.1, with the load values owed (R267). Registers not listed read 0 or
null. -/
structure Arch where
  /-- k1 to k7; k0 is never listed (R246). -/
  k : Table Word := []
  /-- The 264 physical windowed registers, 8 × group + register (R249). -/
  win : Table Word := []
  /-- c1 to c15; c0 is never listed (R246). -/
  caps : Table Cap := []
  /-- The program counter capability. -/
  pcc : Cap := {}
  /-- f0 to f31. -/
  f : Table Word := []
  /-- Core-local bits 0x000 to 0xFFF (Table 8.6). -/
  bits : BitVec 4096 := 0
  /-- The arm set: doorbells 0x01000 to 0x01FFF (R265). -/
  arm : BitVec 4096 := 0
  /-- System capabilities (R271). -/
  ttb : Cap := {}
  shs : Cap := {}
  /-- WRING (Table 8.3). -/
  wbase : Nat := 0
  wold : Nat := 0
  /-- TCMP (R273). -/
  tcmp : Word := 0xFFFFFFFFFFFFFFFF
  /-- The value of the load before the next instruction (R267). -/
  owed : List Owed := []
deriving DecidableEq, Repr

/-- A floating-point operation that has issued and not signalled (R329): its cursor, where its result goes, the flags
it raises in the order of Table 10.3 (bit 0 NV, 1 DZ, 2 OF, 3 UF, 4 NX), and the enables in force when it issued. -/
structure FpOp where
  cursor : BitVec 38
  dest : Option PReg
  value : Word
  flags : BitVec 5
  enables : BitVec 5
deriving DecidableEq, Repr

/-- The values of CORE_STATE (Table 16.2). -/
inductive CoreRun where
  | free | stopped | running | retrying | selfTest | handingOver | wedged | lost
deriving DecidableEq, Repr

/-- A trap to be taken (Table 11.1): its number, FAULT, and for a machine check its class and unit (Table 11.7).
`next` tells that the frame's pcc is the next instruction (a system call). -/
structure Trap where
  num : Nat
  fault : Nat
  cls : Nat := 0
  unit : Nat := 0
  next : Bool := false
deriving DecidableEq, Repr

/-- One entry of the merging buffer (R380): the line, the bytes stored, their mask, the granules that a tagged
capability store covers, and whether MOVB made every store of it, so that its fill is a streaming one (R385). -/
structure MergeEntry where
  line : Nat
  data : BitVec 512
  mask : BitVec 64
  tags : BitVec 4
  hint : Bool := false
deriving DecidableEq, Repr

/-- A line of an L1D or victim cache: its name is the core's pavilion and this line address. Its data is that of the
L2's copy, which it never differs from (R379). `hit` tells that a streaming line was hit afterwards (R383). -/
structure L1Line where
  valid : Bool := false
  line : Nat := 0
  nru : Bool := false
  streaming : Bool := false
  hit : Bool := false
deriving DecidableEq, Repr

/-- A line of the L1I with its data and the poison of its granules (R382). -/
structure L1ILine where
  valid : Bool := false
  line : Nat := 0
  nru : Bool := false
  data : BitVec 512 := 0
  poison : BitVec 4 := 0
deriving DecidableEq, Repr

/-- One stream of the stream detector (R385): the last miss, the direction once known, and the consecutive misses. -/
structure StreamDet where
  last : Nat
  dir : Int
  count : Nat
deriving DecidableEq, Repr

/-- The steps of a retry, self-test and sparing in progress (R462 to R467). -/
structure RetryState where
  /-- Retries of the present group (R463). -/
  count : Nat := 0
  /-- Timebase of the event that started the first retry. -/
  start : Nat := 0
  /-- Timebase of the first failed retry. -/
  firstFail : Nat := 0
  /-- The self-test was run for a give-up (R476), whose core does not resume. -/
  gaveUp : Bool := false
  /-- The self-test was run for a disagreement (R475). -/
  disagree : Bool := false
  /-- Its finding, once known, while the partner's test runs. -/
  finding : Option Bool := none
  /-- Timebases of the passed self-tests of the last second (R465). -/
  passed : List Nat := []
  /-- The cluster's spare is awake and quenched for this core (R466, step 4). -/
  spareAwake : Bool := false
  /-- The checkpoint is in the spare (R466, step 5). -/
  inSpare : Bool := false
deriving DecidableEq, Repr

/-- One logical core. -/
structure Core where
  run : CoreRun := .free
  arch : Arch := {}
  /-- The state after the last commit group whose compare passed (R460). -/
  checkpoint : Arch := {}
  /-- Timebase at which a WAIT in progress began (R303). -/
  waiting : Option Nat := none
  /-- Durable-window lines whose write to MRAM a CBAR waits for (R157, R366). -/
  cbar : List Nat := []
  /-- Floating-point operations issued and not signalled, earliest first. -/
  fpq : List FpOp := []
  /-- The pending trap 0x0A: the cursor of the earliest operation that signalled it (R330). -/
  fpTrap : Option (BitVec 38) := none
  /-- A machine check was taken while trap 0x0A was pending: the trap waits for the ERET of that handler, which as many handlers
  as this number have interrupted since (R331). -/
  fpHeld : Option Nat := none
  /-- Asynchronous machine checks that are due: classes 0x03 and 0x04 (Table 11.7). -/
  mchecks : List Nat := []
  merge : List MergeEntry := []
  /-- Lines of main memory that this core's stores and atomics wrote since its last CBAR (R366). -/
  stored : List Nat := []
  /-- Lines of main memory whose open transaction its next FENCE, CBAR or release waits for: its stores wrote them, or its loads
  observed stores to them (R361, R365, R397). -/
  observed : List Nat := []
  /-- The latest store, by `Mem.clock`, that is performed before every later access of the core: at its last acquire, FENCE
  or CBAR (R360, R365). -/
  asOf : Nat := 0
  /-- By byte and by bit address: the latest store that the core's own access to it has met (R357, R358). -/
  readAt : Table Nat := []
  bitReadAt : Table Nat := []
  l1d : Table L1Line := []
  victim : List Nat := []
  l1i : Table L1ILine := []
  /-- The fetch buffer: the line fetched last (R382). -/
  fbuf : Option L1ILine := none
  streams : List StreamDet := []
  /-- The near and far predictor: 256 two-bit counters (R405). -/
  pred : Table Nat := []
  retry : RetryState := {}
  /-- The core runs as one of a pair, with this partner (R472). -/
  twin : Option Nat := none
  /-- The exchange this twin has presented, and the timebase at which its silent partner is given up (R473, R477). -/
  exchange : Option (Instr × Nat) := none
  /-- The state at the last exchange, and the retries made since a disagreement at the present one (R475). -/
  exArch : Arch := {}
  exRetries : Nat := 0
  /-- A START waits for the core's retry, self-test or sparing to end (R469). -/
  startOwed : Bool := false
  /-- The logical core runs in slot 16 of its cluster (COREID SPARE). -/
  inSpareSlot : Bool := false
deriving DecidableEq, Repr
/-! ## Memory, caches and coherence (chapters 13 and 14) -/

/-- An addressed memory: bytes, capability tags per 16-byte granule and poison bits per unit (16 bytes in main memory,
8 in scratchpad, 64 in a durable window). An unlisted byte reads 0, an unlisted tag or poison bit false: what a quench
leaves (R431). -/
structure Ram where
  bytes : List Host.Cell := []
  tags : Table Bool := []
  poison : Table Bool := []
deriving DecidableEq, Repr

/-- A 64-byte line with the tags and poison bits of its four granules (R378). -/
structure Line where
  data : BitVec 512 := 0
  tags : BitVec 4 := 0
  poison : BitVec 4 := 0
deriving DecidableEq, Repr

/-- L2 line states (Table 13.4). -/
inductive LState where
  | i | s | k | x | d
deriving DecidableEq, Repr

/-- An L2 line (R377, R381, R388), or a line of a transfer buffer of agents 16 and 17 (R390). -/
structure L2Line where
  pav : Nat := 0
  line : Nat := 0
  st : LState := .i
  age : Nat := 0
  data : Line := {}
  /-- Core slots 0 to 16 whose L1D or victim cache holds a copy. -/
  slots : BitVec 17 := 0
deriving DecidableEq, Repr

/-- An entry of an L2's writeback buffer (R400). -/
structure WbEntry where
  agent : Nat
  pav : Nat
  line : Nat
  id : Nat
  data : Line
deriving DecidableEq, Repr

/-- Directory states (Table 13.5). -/
inductive DState where
  | i | s | k | e
deriving DecidableEq, Repr

/-- A directory entry (Table 13.3). TAG and the set index together are the line's stack offset. -/
structure DirEntry where
  pav : Nat := 0
  tag : Nat := 0
  pin : Bool := false
  st : DState := .i
  keeper : Nat := 0x1F
  presence : BitVec 18 := 0
  recent : Bool := false
deriving DecidableEq, Repr

/-- Coherence messages (Table 13.6). -/
inductive CohKind where
  | rds | rdx | upg | wb | fatom | rdu | wru | snps | snpi | fwd | kill | data | rsp | np | iack | complete | done | wback
deriving DecidableEq, Repr

/-- What a FATOM or WRU carries: bytes of the line under a mask, with the tags of the granules written, or an atomic
operation at an offset. -/
inductive Unc where
  | none
  | write (mask : BitVec 64) (data : BitVec 512) (tags : BitVec 4)
  | atom (off : Nat) (four : Bool) (kind : AtomKind) (operand compare : Word)
  | atomCap (off : Nat) (cas : Bool) (operand compare : Cap)
deriving DecidableEq, Repr

/-- A coherence message in flight. `agent` is its sender where it goes to the home, its receiver otherwise. -/
structure CohMsg where
  kind : CohKind
  agent : Nat
  pav : Nat
  line : Nat
  /-- The requester that a snoop serves. -/
  requester : Nat := 0
  needData : Bool := false
  /-- DATA: the state granted, and the invalidations issued. -/
  grant : LState := .i
  count : Nat := 0
  dirty : Bool := false
  /-- The id of a writeback, in WB, WBACK, and in a RSP from the writeback buffer. -/
  wbId : Option Nat := none
  payload : Option Line := none
  unc : Unc := .none
  /-- The fill is a streaming one (R385). -/
  streaming : Bool := false
  /-- The core slot the fill is for, 31 for none. -/
  slot : Nat := 31
  /-- The number of times the request has been turned away, and the timebase from which its agent sends it again (R406). -/
  age : Nat := 0
  due : Nat := 0
deriving DecidableEq, Repr

/-- An open transaction of a home (R398): the request served, the agents whose answers are outstanding, the agent that is
to supply the line where the home does not, and the timebase from which an answer is too late (R409). Where the home takes a directory entry
for reuse, `evictFor` is the request that waits for it (R391). -/
structure Txn where
  req : CohMsg
  wait : List Nat
  dataFrom : Option Nat
  due : Nat
  evictFor : Option CohMsg := none
deriving DecidableEq, Repr

/-- An agent's outstanding request (R403), until it sends DONE: whether DATA and COMPLETE have arrived. -/
structure Outstanding where
  agent : Nat
  pav : Nat
  line : Nat
  gotData : Bool := false
  gotComplete : Bool := false
deriving DecidableEq, Repr

/-- The state of a scratchpad bank (Table 14.4). A released bank remembers who released it (R436). -/
inductive BankSt where
  | free
  | held (pav : Nat)
  | clearing (pav : Nat)
  | releasing (pav gen : Nat)
  | released (pav gen : Nat)
deriving DecidableEq, Repr

/-- A descriptor that a cluster mover has taken (R441): its address, its bytes, STATUS once a check has failed, and the
addresses of the destination words that core writes have taken (R439). -/
structure MoverJob where
  cluster : Nat
  pav : Nat
  addr : Nat
  head : Bytes
  status : Nat
  src : Option Nat
  pattern : Bytes
  dst : Nat
  len : Nat
  lost : List Nat
deriving DecidableEq, Repr

/-- The patrol of one stack (R429): the lines corrected in this pass, and the lines it skipped. Its period is SCRUB_CURRENT. -/
structure Patrol where
  corrected : Nat := 0
  skipped : List Nat := []
deriving DecidableEq, Repr

/-- The part of a store that falls in one 16-byte unit of a durable window (R155): who stored (a core's logical number; 256 for
the device), the unit by pavilion × 2^29 + unit, the bytes stored, and whether a completed CBAR covers it. -/
structure WinStore where
  by_ : Nat
  unit : Nat
  mask : BitVec 16
  data : BitVec 128
  covered : Bool := false
deriving DecidableEq, Repr

/-- A store performed: its place in the order of all stores, the line it wrote, and what the line held before it. A load that is
performed ahead of its place in program order may still return that (R359). -/
structure Past where
  at_ : Nat
  pav : Nat
  line : Nat
  was : Line
deriving DecidableEq, Repr

/-- An operation of the bit store that changed a bit: its place in the order of all stores, the bit's key and its value before. -/
structure BitPast where
  at_ : Nat
  key : Nat
  was : Bool
deriving DecidableEq, Repr

/-- Main memory, scratchpads, the caches above them and the homes. -/
structure Mem where
  /-- Main memory by device address: granule × 2^30 + offset (R419). -/
  main : Ram := {}
  /-- Scratchpads by address bits [29:0] of segment 0xF7 (Table 14.3). -/
  spad : Ram := {}
  /-- The visible contents of the durable windows by pavilion × 2^33 + offset, at the hearth controller (R154). -/
  win : Ram := {}
  /-- What MRAM holds of them (R155). -/
  winDurable : List Host.Cell := []
  /-- Stores performed on the windows since, oldest first, that MRAM may or may not hold (R155). -/
  winPend : List WinStore := []
  /-- The parity lines of the windows' stripes, by pavilion × 2^23 + stripe, and one more than the timebase of the last write
  of each; 0 before the first (R159). -/
  winParity : Table (BitVec 512) := []
  parityLast : Table Nat := []
  /-- One more than the timebase of the last write of a window line to MRAM (R157); 0 before the first. -/
  winLast : Table Nat := []
  /-- The bit store: pavilion × 2^18 + bit address (R259), and its poison (Table 11.7). -/
  bits : Table Bool := []
  bitPoison : Table Bool := []
  /-- The number of stores performed, and what each replaced, latest first (R359). -/
  clock : Nat := 0
  past : List Past := []
  bitPast : List BitPast := []
  /-- Scratchpad words, by pavilion and address, of which a device agent's next write is discarded: a core's write took the
  bank cycle (R439). -/
  dmaLost : List (Nat × Nat) := []
  /-- DEFERRALS of each cluster's scratchpad (R438): a sum of free values, held apart from the dictionary's values. -/
  deferrals : Table Nat := []
  /-- Segment maps: pavilion × 256 + segment to device granule, 0xFFFF empty (R422). -/
  segs : Table Nat := []
  /-- Bank states: 32 × cluster + bank (Table 14.4). -/
  banks : Table BankSt := []
  /-- L2 lines: cluster × 2^18 + set × 16 + way. -/
  l2 : Table L2Line := []
  /-- Lines in the transfer buffers of agents 16 and 17 (R390). -/
  xfer : List (Nat × L2Line) := []
  wbBuf : List WbEntry := []
  /-- The next id of a writeback. -/
  wbNext : Nat := 0
  /-- Directories: slice × 2^17 + set × 16 + way (R390). -/
  dir : Table DirEntry := []
  /-- The strict pavilion that has reserved each directory way of every set (R393): one more than its number, 0 for none. -/
  dirOwn : Table Nat := []
  txns : List Txn := []
  outstanding : List Outstanding := []
  /-- Coherence messages in flight, in the order sent (R399). -/
  msgs : List CohMsg := []
  /-- Requests turned away, waiting to be sent again (R406). -/
  turned : List CohMsg := []
  /-- Bellows requests: agent, pavilion, line (R407). -/
  bellows : List (Nat × Nat × Nat) := []
  /-- Writebacks a snoop has served (R400). -/
  servedWb : List Nat := []
  /-- Snoops that timed out, whose answers are late (R410): agent, pavilion, line. -/
  timedOut : List (Nat × Nat × Nat) := []
  /-- The line that the latest uncached answer carried (RDU, WRU, FATOM). -/
  answer : Line := {}
  /-- Mover rings: cluster × 64 + pavilion to device index (R613), whether awake (R441), and the job in progress. -/
  moverIndex : Table Nat := []
  moverAwake : Table Bool := []
  moverJobs : List MoverJob := []
  patrols : Table Patrol := []
deriving DecidableEq, Repr

/-- A resource of Table 2.1 that a commit removes (R50). -/
inductive Res where
  | core (c : Nat)
  | granule (g : Nat)
  | bank (b : Nat)
  | endpoint (e : Nat)
  | wayGroup (n : Nat)
  | keySlot (k : Nat)
  /-- The part of the durable window above the WINDOW_SIZE in force, up to `kib` (R158). -/
  | window (kib : Nat)
deriving DecidableEq, Repr
/-! ## Cipher and compression engines (chapters 17 and 18) -/

/-- A key slot (Table 17.2). -/
structure KeySlot where
  kind : Nat := 0
  fix : Nat := 0
  limit : Nat := 0
  next : Nat := 0
  key : Bytes := []
deriving DecidableEq, Repr

/-- A cipher job submitted and not finished (Table 17.4): the bytes read from SRC and the bytes written to DST so far, and
the key as the slot held it at submission. -/
structure CipherJob where
  pav : Nat
  /-- The engine named; 255 for any. -/
  engine : Nat
  op : Nat
  wipe : Bool
  slot : Nat
  length : Nat
  aux : Nat
  id : Nat
  iv : Bytes
  counter : Nat
  key : Bytes
  src : Nat
  dst : Nat
  density : Nat
  seen : Bytes := []
  wrote : Nat := 0
  retried : Bool := false
  /-- The next chunk is a recomputation (R497). -/
  again : Bool := false
deriving DecidableEq, Repr

/-- A finished job that is not posted yet: a cipher entry of Table 17.6, or a compression entry of Table 18.6, without
FULL and DONE. -/
structure CipherDone where
  pav : Nat
  slot : Nat
  id : Nat
  status : Nat
  engine : Nat
  retried : Bool
  counter : Nat
  bytesOut : Nat
deriving DecidableEq, Repr

/-- The stage of a block in a compression engine (R506): compressed for the first or second time, or made RAW. -/
inductive CompStage where
  | first | second | raw
deriving DecidableEq, Repr

/-- A compression job submitted and not finished (Table 18.3), with its progress. -/
structure CompJob where
  pav : Nat
  engine : Nat
  op : Nat
  flush : Bool
  finish : Bool
  more : Bool
  block : Nat
  length : Nat
  id : Nat
  src : Nat
  /-- Address of the chain array. -/
  arr : Nat := 0
  /-- Address and usable bytes of each chain buffer. -/
  chain : List (Nat × Nat)
  ctx : Nat
  /-- A STREAM job has checked its context (R508, step 1). -/
  opened : Bool := false
  /-- The held bytes of the stream (R507). -/
  held : Bytes := []
  streamBlocks : Nat := 0
  /-- The block in work: its data (of a container block: the whole block), its stage, and the chunks left. -/
  work : Option (Bytes × CompStage) := none
  left : Nat := 0
  inDone : Nat := 0
  outDone : Nat := 0
  blocks : Nat := 0
  bufAt : Nat := 0
  off : Nat := 0
  retried : Bool := false
  rawFallback : Bool := false
  part : Bool := false
  lastSeen : Bool := false
  /-- The job's last block has been written (COMPRESS, STREAM), or its stop was met (DECOMPRESS). -/
  ended : Bool := false
deriving DecidableEq, Repr

/-- A finished compression job that is not posted yet. -/
structure CompDone where
  job : CompJob
  status : Nat
  engine : Nat
deriving DecidableEq, Repr

/-- Where an engine is in its frame of 256 slots (R493, R516): the slot that ends next, the common slots that each pavilion has had in
this frame, and the pavilion of share 0 that had one last. -/
structure EngineFrame where
  slot : Nat := 0
  served : Table Nat := []
  turn : Nat := 0
deriving DecidableEq, Repr

/-- The engines' state. -/
structure Eng where
  /-- Key slots: pavilion × 1024 + slot. -/
  keys : Table KeySlot := []
  /-- HIGH of each slot, in the hearth device area (R487). -/
  high : Table Nat := []
  cipherJobs : List CipherJob := []
  cipherDone : List CipherDone := []
  /-- Device indexes of the completion rings (R613). -/
  cipherIndex : Table Nat := []
  compIndex : Table Nat := []
  /-- Engines that run a self-check (R497, R506). -/
  cipherCheck : List Nat := []
  compCheck : List Nat := []
  compJobs : List CompJob := []
  compDone : List CompDone := []
  /-- The frame of each engine. -/
  cipherFrames : Table EngineFrame := []
  compFrames : Table EngineFrame := []
deriving DecidableEq, Repr

/-! ## Channel links and operations (chapters 6 and 7) -/

/-- A command of an operation's list (Table 7.2); `buf` is the address of its buffer. -/
structure ChanCmd where
  cmd : Nat
  dflags : Nat
  count : Nat
  arg : Nat
  buf : Nat
deriving DecidableEq, Repr

/-- The operation messages that the device sends (Table 7.6), with the descriptor index, OFFSET, DLEN and MSEQ of those
that have them. -/
inductive OpMsg where
  | start (resume : Bool)
  | cmd (i mseq : Nat)
  | wdata (i off n mseq : Nat)
  | query
  | release
deriving DecidableEq, Repr

/-- A new DATA block waiting on a link: the pavilion whose turn it takes, and the message, whose bytes are read when the
block leaves (R211). -/
structure TxData where
  pav : Nat
  ep : Nat
  opnum : Nat
  tag : Nat
  msg : OpMsg
  twin : Bool
deriving DecidableEq, Repr

/-- A block kept until it is acknowledged. `op` names the operation, OPTAG and kind (START or not) of a START or QUERY,
whose acknowledgement R231 and R233 ask for. -/
structure TxBlock where
  seq : Nat
  twin : Bool
  payload : Bytes
  op : Option (Nat × Nat × Nat × Bool) := none
deriving DecidableEq, Repr

/-- The sending side of one stream (R173, R175, R179 to R181). -/
structure TxStream where
  /-- The sequence of the next new block. -/
  next : Nat := 1
  /-- Blocks sent and not acknowledged, oldest first. -/
  unacked : List TxBlock := []
  /-- How many of the latest of them the go-back round in progress has still to send. -/
  resend : Nat := 0
  /-- A round has started since the last acknowledge advance. -/
  rounded : Bool := false
  /-- Consecutive failed rounds. -/
  failed : Nat := 0
  /-- When the acknowledge timer fires: ACK_TIMEOUT after the latest of the three moments of R179, as it was then (R198). -/
  due : Nat := 0
deriving DecidableEq, Repr

/-- One channel link; its state of Table 6.7 and its counters are in `Dev.dict`. -/
structure Link where
  /-- Timebase of the entry to the present state. -/
  since : Nat := 0
  /-- FEC, EXPECTED_UNIT and TWIN as they were at the entry to TRAINING (R198). -/
  fec : Bool := true
  expected : Nat := 0
  twin : Bool := false
  /-- A valid HELLO has been received in this bring-up; one with SEEN has been received, and sent (R188). -/
  seen : Bool := false
  gotSeen : Bool := false
  sentSeen : Bool := false
  /-- A HELLO has been received since reset, and what the last one gave. -/
  heard : Bool := false
  peerMax : Nat := 0
  peerBlocks : Nat := 0
  /-- CREDIT as the peer last gave it (R174). -/
  credit : Nat := 0
  /-- The streams sent, and the sequences expected next of the streams received. -/
  data : TxStream := {}
  ctl : TxStream := {}
  rxData : Nat := 1
  rxCtl : Nat := 1
  /-- New blocks waiting: DATA, and CONTROL with its TWIN flag and payload. -/
  dataQ : List TxData := []
  ctlQ : List (Bool × Bytes) := []
  /-- Messages and control replies passed up and not yet taken by the operation layer (R176). -/
  passed : List Bytes := []
  replies : List Bytes := []
  /-- A NAK has been sent for the present pair of expected sequences (R178); one is owed, with its STREAM and CAUSE. -/
  nakDone : Bool := false
  nakOwed : Option (Nat × Nat) := none
  /-- Since when an acknowledge is owed on the data and on the control stream (R177). -/
  ackOwed : Option Nat := none
  ctlAckOwed : Option Nat := none
  /-- Timebases of the last good block in and the last block out. -/
  lastRx : Nat := 0
  lastTx : Nat := 0
  /-- Framing is lost until the next run (R168). -/
  noFrame : Bool := false
  /-- Block lock is lost, so nothing is received (R190). -/
  noLock : Bool := false
  /-- Blocks in the open run (R167). -/
  run : Nat := 0
  /-- The place in the slot schedule, and the pavilion served last in a common slot (R184, R185). -/
  slot : Nat := 0
  turn : Nat := 0
  /-- Timebases of the departures from UP of the last second, and whether the link no longer retries (R197). -/
  departs : List Nat := []
  stuck : Bool := false
  /-- The block sent last, as it left the transmit lands. -/
  out : Bytes := []
deriving DecidableEq, Repr

/-- The states of Table 7.9. -/
inductive OpSt where
  | opening | running | moving | halting | querying | done | released
deriving DecidableEq, Repr

/-- A STOP (1) or HALT (2) of an operation with its SCOPE, whether it is the device's own, and the links it has been sent on under
the present OPTAG (R233). -/
structure OpCtl where
  code : Nat
  scope : Nat
  own : Bool := false
  sent : List Nat := []
deriving DecidableEq, Repr

/-- An operation (R228): from its CHST until it is released and R206 no longer counts it. -/
structure ChanOp where
  pav : Nat
  gen : Nat
  ep : Nat
  opnum : Nat
  st : OpSt := .opening
  cmds : List ChanCmd := []
  /-- Address of its command list (R50). -/
  list : Nat := 0
  /-- Index and code of the path in use, or last used; `live` while a START or QUERY has been sent on it under `tag` (R213). -/
  path : Nat := 0
  code : Nat := 0
  tag : Nat := 0
  live : Bool := false
  /-- Links on which a START or QUERY under the present OPTAG has been acknowledged (R233). -/
  ackedOn : List Nat := []
  /-- A START has been acknowledged on some link (R231). -/
  startAcked : Bool := false
  /-- STOPs and HALTs, held or sent, in their order (R233). -/
  ctl : List OpCtl := []
  /-- The next RDATA expected, the bytes of RDATA written, and the status recorded by R230. -/
  rxNext : Nat := 0
  got : Nat := 0
  recorded : Option Nat := none
  /-- A FINAL held until every RDATA below its MSEQ_END is in, and the links of the present path that have brought it (R216). -/
  held : Option Bytes := none
  heldOn : List Nat := []
  /-- When ENDPOINT_TIMEOUT ends that began with the present state, and when it and its fourth part end that began with the last
  message received, each as it was then (R229 to R231, R244); a QUERY has been sent since. -/
  due : Nat := 0
  msgDue : Nat := 0
  queryDue : Nat := 0
  queried : Bool := false
  /-- The operation was found at replay (R242). -/
  replay : Bool := false
  moved : Bool := false
  /-- What FINAL or the device gave: STATUS, UNIT_STATUS, RESIDUAL, FAILED_CMD, DUPLICATE, DONE. -/
  status : Nat := 0
  unitStatus : Nat := 0
  residual : Nat := 0
  failedCmd : Nat := 0xFF
  dup : Bool := false
  doneAt : Nat := 0
  /-- Its completion has been posted. -/
  posted : Bool := false
deriving DecidableEq, Repr

/-- The channel's state. -/
structure Chan where
  links : Table Link := []
  /-- Operations in the order of their CHSTs. -/
  ops : List ChanOp := []
  /-- Claimed numbers by endpoint, where above LAST_OPNUM (R203). -/
  claimed : Table Nat := []
  /-- The OPTAG assigned last. -/
  lastTag : Nat := 0
  /-- Completion rings: device indexes (R613), and entries posted and not freed (R239): OPNUM, and whether released. -/
  cqIndex : Table Nat := []
  posted : Table (List (Nat × Bool)) := []
deriving DecidableEq, Repr

/-! ## The hearth (chapter 5) -/

/-- Record bodies (Tables 5.2 to 5.7). -/
inductive RecBody where
  | req (session cls seq arrival due rxflags : Nat) (payload : Bytes)
  | opst (opnum ep path : Nat) (twin : Bool) (commands start : Nat)
  | opdn (opnum ep status residual done source failed unitStatus path cflags : Nat)
  | sess (session st options authKey floor ctlFloor : Nat) (desc : Bytes)
  | dict (index sub len value : Nat)
  | markRetire (session first last : Nat)
  | markConsumed (ep first last : Nat)
  | markClosed (session : Nat)
deriving DecidableEq, Repr

/-- A record as the controller wrote it at a ring's head (R143): CARRIED, whether all its bytes are in MRAM (R146), its
offset in the ring and its LAP. -/
structure Record where
  body : RecBody
  carried : Bool := false
  complete : Bool := false
  off : Nat := 0
  lap : Nat := 0
deriving DecidableEq, Repr

/-- One copy of a ring's control block in the device area (R149): its sequence number, the ring's bytes, and the offset and
LAP of the tail. -/
structure CtlBlock where
  seq : Nat := 0
  size : Nat := 0
  off : Nat := 0
  lap : Nat := 0
deriving DecidableEq, Repr

/-- A journal ring (R143 to R151, R159, R160): what MRAM holds of it, and what the controller knows while it runs. -/
structure Ring where
  /-- The two copies of the control block. -/
  ctl0 : CtlBlock := {}
  ctl1 : CtlBlock := {}
  /-- The 64-byte lines, zero where not listed. -/
  lines : Table (BitVec 512) := []
  /-- In each line's check area, one more than the offset of the first header that begins there; 0 for none (R160). -/
  heads : Table Nat := []
  /-- The parity line of each stripe (R159). -/
  parity : Table (BitVec 512) := []
  /-- Lines that are lost (R159). -/
  lost : List Nat := []
  /-- The records from the tail of the current control block to the head. -/
  recs : List Record := []
  /-- How many of them the tail has passed since. -/
  past : Nat := 0
  /-- SESS and MARK records that wait for room (R148). -/
  waiting : List RecBody := []
  /-- Offset and LAP of the head. -/
  head : Nat := 0
  lap : Nat := 0
deriving DecidableEq, Repr

/-- What the hearth holds beyond the windows, and the device's own non-volatile records. -/
structure Hearth where
  /-- 0 to 63 the pavilions' rings, 64 the device ring. -/
  rings : Table Ring := []
  /-- Dictionary values that the device area holds: the pavilion table, LAST_OPNUM and counts since manufacture. Filled
  when volatile state is lost, applied at replay (R142, R152). -/
  saved : Table Nat := []
  /-- PCK of each pavilion (R44, R142). -/
  pck : Table Bytes := []
  /-- The pavilion and generation that last started an operation on each endpoint: 1 + pavilion × 2^32 + generation
  (R204). -/
  starter : Table Nat := []
  /-- The recorded timebase (R567). -/
  timebase : Nat := 0
  /-- A thermal stop, recorded before the device stopped (R586). -/
  thermal : Bool := false
  /-- Owner keys used (R44). -/
  ownerKeys : List Bytes := []
  /-- The staged and the running microcode image (R456). -/
  ucodeStaged : Bytes := []
  ucodeRunning : Bytes := []
  /-- PROTECT and the IP version of each session with a SESS record, by SESSION: 1, plus 2 for PROTECT, plus 4 for IPv6.
  Table 5.5 has no field for them, and R71 and R86 have them outlast a start-up (notes/assumptions/45). -/
  sessOpen : Table Nat := []
  /-- UDP_PORT as written, which the next start-up puts in force (R116, R536). -/
  stagedPort : Option Nat := none
deriving DecidableEq, Repr

/-! ## Clocks, power, the sideband and the platform (chapters 4, 19, 21 and 22) -/

/-- PTP discipline on one port (R569, R570). -/
structure Ptp where
  /-- Consecutive offsets within ±1 µs. -/
  good : Nat := 0
  lastSync : Nat := 0
  /-- The latest Sync: the master's time of its sending and the timebase of its arrival (R64). -/
  sync : Option (Nat × Nat) := none
  /-- The offsets of the latest exchanges, at most 16, newest first. -/
  offsets : List Int := []
  /-- A Delay_Req is out; the interval between them in µs, and when the last one left. -/
  asked : Bool := false
  interval : Nat := 0
  askedAt : Nat := 0
deriving DecidableEq, Repr

/-- Supply, reset, straps, clocks and the sideband. -/
structure Plat where
  /-- VIN is above 1.2 V; power-on reset has released; RESET_L is low. -/
  vin : Bool := false
  por : Bool := false
  resetLow : Bool := false
  /-- The last step of Table 21.4 that has ended, and the timebase at that moment (0 before step 1). -/
  step : Nat := 0
  stepAt : Nat := 0
  /-- RESET_L ended the reset that this start-up follows; XTAL stayed present throughout it (R577, R578). -/
  byReset : Bool := false
  xtalKept : Bool := false
  /-- XTAL was absent at step 4 and is waited for; no firmware copy verified (R581); stacks that failed (R584). -/
  xtalWait : Bool := false
  /-- µs of start-up at which XTAL was last looked for (R581). -/
  xtalLook : Nat := 0
  bootFailed : Bool := false
  badStacks : List Nat := []
  /-- Clock inputs present, and since when the references are (R562, R563). -/
  xtal : Bool := false
  refA : Bool := false
  refB : Bool := false
  refASince : Nat := 0
  refBSince : Nat := 0
  /-- The SerDes PLLs follow REFCLK_B. -/
  onB : Bool := false
  /-- TB_COAST, and since when the coasting is not yet in COAST_TIME (R565). -/
  coast : Bool := false
  coastFrom : Nat := 0
  /-- THERM_L is asserted (R585). -/
  therm : Bool := false
  /-- Timebase at READY_L, and at the end of step 9 (R580). -/
  readyAt : Nat := 0
  scanAt : Nat := 0
  /-- Replay has presented requests and completions (R22). -/
  presented : Bool := false
  /-- PTP by port, and the rate correction in force, in parts per billion (R569, R570). -/
  ptp : Table Ptp := []
  slew : Int := 0
  /-- The pace monitor: PACE_DEFICIT, consecutive samples below floor, and at or
  above it, by cluster (R133), and the timebase of the last forward step of the timebase (R570). -/
  deficit : Bool := false
  low : Table Nat := []
  clean : Table Nat := []
  ptpStepAt : Nat := 0
  /-- By cluster: the effective pace of its latest 1,000 samples, newest first, and when the latest ended; when PACE was last
  refreshed (R129). -/
  paceLog : Table (List Nat) := []
  sampleAt : Table Nat := []
  reportAt : Nat := 0
  /-- Pavilions whose doorbell 0x01FFD has been set for a cluster that is still in deficit (R134). -/
  paceRung : List (Nat × Nat) := []
  /-- VCORE of each cluster when coasting began, mV (R135); timebases of the last VCORE step and evaluation (R130). -/
  coastMv : Table Nat := []
  vstepAt : Table Nat := []
  govAt : Table Nat := []
  /-- The VCORE each cluster is to reach, mV (R131). -/
  vtarget : Table Nat := []
  /-- A step of R132 is in force in the cluster. -/
  limited : List Nat := []
  /-- The clusters that their latest evaluation found to be deadline clusters (R127). -/
  govTimed : List Nat := []
  /-- The input power found by the evaluations of the last 1 ms, with their moments (Table 4.5). -/
  power : List (Nat × Nat) := []
  /-- The I2C window: its latest copy, the register offset, WRITE_RESULT, and the bytes that the last read returned. -/
  window : Bytes := []
  i2cOffset : Nat := 0
  i2cResult : Nat := 0
  i2cOut : Bytes := []
  /-- POWER_CAP bytes written in the present I2C transfer, low and high (R546). -/
  capBytes : Option Nat × Option Nat := (none, none)
  /-- The instruction in the TAP (R600). -/
  tap : TapInstr := .bypass
deriving DecidableEq, Repr

/-! ## The Amnor transport (chapter 3) -/

/-- Session states of Table 3.11; a CLOSED session has no entry. -/
inductive SessSt where
  | opening | open | stopped | draining | closing | suspended
deriving DecidableEq, Repr

/-- A request accepted, or being journaled, and not retired (R146, R102, R94). -/
structure HostReq where
  seq : Nat
  arrival : Nat
  due : Nat
  /-- How far forward steps of the timebase have moved its due time (R571). -/
  shift : Nat := 0
  rxflags : Nat
  payload : Bytes
  /-- Its record is complete and ACCEPT has been sent. -/
  accepted : Bool := false
  /-- It has been placed in the inbound ring since it was last presented. -/
  placed : Bool := false
  replayed : Bool := false
  /-- The timebase coasted, and a pace deficit was raised, while it was open (R135, R138). -/
  unverified : Bool := false
  inDeficit : Bool := false
  /-- The DELIVER posted, with the moment; the FLAGS and moment of its first transmission; resends (R94, R137). -/
  deliver : Option (Bytes × Nat) := none
  /-- It was posted while the session could not send (R137). -/
  heldPost : Bool := false
  sent : Option Nat := none
  dflags : Nat := 0
  lastSent : Nat := 0
  interval : Nat := 0
deriving DecidableEq, Repr

/-- A write assembly of DICT segments (R528, R529). -/
structure Assembly where
  index : Nat
  sub : Nat
  total : Nat
  held : Bytes
  /-- When it is discarded for want of a segment. -/
  due : Nat
deriving DecidableEq, Repr

/-- The stored answer of a control message (R91): TYPE, FLAGS and payload. -/
structure Answer where
  type : Nat
  flags : Nat
  payload : Bytes
deriving DecidableEq, Repr

/-- One session. -/
structure Session where
  /-- The SESSION field: generation and index. -/
  id : Nat
  pav : Nat
  st : SessSt := .opening
  /-- The state that the last SESS record holds, to which a resumed session returns (R86). -/
  back : SessSt := .open
  /-- The session is resumed, not new; it has a SESS record (R85). -/
  resumed : Bool := false
  recorded : Bool := false
  /-- SCOPE 1 has set the standing state since the last SESS record (R112). -/
  standing : Bool := false
  protect : Bool := false
  twin : Bool := false
  authKey : Nat := 0
  desc : Bytes := []
  handle : Nat := 0
  ipv6 : Bool := false
  /-- Payload ceiling (R71). -/
  ceiling : Nat := 0
  /-- Keys (R77): K_HD, K_DH, FIX_HD, FIX_DH, the limit in force, and the device's next IV_COUNTER (R76). -/
  kHD : Bytes := []
  kDH : Bytes := []
  fixHD : Bytes := []
  fixDH : Bytes := []
  limitIv : Nat := 0
  txIv : Nat := 1
  /-- Nothing more is sent under these keys (R76). -/
  spent : Bool := false
  /-- Host place learned on each port, with the HOST_ADDR entry (R69, R105), and the port of the latest message. -/
  place0 : Option (HostSrc × Nat) := none
  place1 : Option (HostSrc × Nat) := none
  port : Nat := 0
  /-- The data stream: outcomes of the sequences received, 0 accepted, else the reason (R91); the rebuilt floor; ANSWERED;
  LIMIT and when it last rose; requests not retired. -/
  outcomes : Table Nat := []
  floor : Nat := 0
  answered : Nat := 0
  limit : Nat := 0
  limitAt : Nat := 0
  reqs : List HostReq := []
  /-- The control stream: answers by sequence, and the ACKNOWLEDGE. -/
  answers : Table (Option Answer) := []
  ctlAck : Nat := 0
  /-- When DEAD_TIME ends that began with OPEN_REPLY or the last authenticated message in, and KEEPALIVE_TIME that began with the
  last control-stream message out, each as long as its entry was when it began (R84, R88, R116). -/
  deadDue : Nat := 0
  kaDue : Nat := 0
  /-- DRAINED has been sent, and is repeated at this moment (R114). -/
  drained : Option Nat := none
  /-- The write assembly, and the snapshot of a READ: index, subindex and value (R529, R530). -/
  assembly : Option Assembly := none
  snapshot : Option (Nat × Nat × Bytes) := none
deriving DecidableEq, Repr

/-- The 802.1Q tag of a frame that the device sends (R60, R62): its priority and VID. -/
structure Tag where
  pcp : Nat
  vid : Nat
deriving DecidableEq, Repr

/-- A message sent: the port, the frame's tag, the HOST_ADDR entry it leaves from, its destination, the Amnor message, and the
IP packet that carries it (R62, R68). -/
structure Tx where
  port : Nat
  tag : Tag
  pav : Nat
  slot : Nat
  dst : HostSrc
  bytes : Bytes
  packet : Bytes
deriving DecidableEq, Repr

/-- What leaves a host port, with the tag of its frame (R62): a message; a PFC frame that stops or resumes one priority (R63); an
answer to an ARP request or a neighbour solicitation (R66); a Delay_Req with its domain (R569). -/
inductive Out where
  | msg (tx : Tx)
  | pfc (port prio : Nat) (xoff : Bool) (tag : Tag)
  | arp (port : Nat) (target : BitVec 128) (dst : HostSrc) (tag : Tag)
  | advert (port : Nat) (target : BitVec 128) (dst : HostSrc) (tag : Tag)
  | delayReq (port domain : Nat) (tag : Tag)
deriving DecidableEq, Repr

/-- A copy of a session's message that a received PFC frame holds back (R63): the session, the port and the message. -/
structure HeldTx where
  session : Nat
  port : Nat
  type : Nat
  flags : Nat
  seq : Nat
  payload : Bytes
deriving DecidableEq, Repr

/-- An OPEN that got its OPEN_REPLY, for a repeat within DEAD_TIME (R82). -/
structure OpenSeen where
  pav : Nat
  nonce : Bytes
  at_ : Nat
  reply : Bytes
deriving DecidableEq, Repr

/-- An admitting OPEN_REPLY that waits for the governor (R127): the session, its pavilion, the OPEN's nonce and the reply. -/
structure OpenWait where
  session : Nat
  pav : Nat
  nonce : Bytes
  tx : Tx
deriving DecidableEq, Repr

/-- A request (KIND 1) or cancel notice (KIND 2) that is to be placed in its pavilion's inbound ring (R102): whether it has been
counted as waiting, whether its class has a deadline, and the 64-byte header of its entry. A notice is placed also when its
request has been retired since (R113). -/
structure Placing where
  pav : Nat
  session : Nat
  seq : Nat
  kind : Nat
  counted : Bool := false
  timed : Bool
  head : Bytes
deriving DecidableEq, Repr

/-- An entry of an inbound ring whose FULL has not been seen clear since it was placed: pavilion, index, session and KIND. -/
structure InEntry where
  pav : Nat
  index : Nat
  session : Nat
  kind : Nat
deriving DecidableEq, Repr

/-- The two host ports and the session table. -/
structure HostNet where
  sessions : List Session := []
  /-- Generation of each index of the session table on its next use. -/
  gens : Table Nat := []
  opens : List OpenSeen := []
  openWait : List OpenWait := []
  /-- Messages that passed every check of the receive path and wait for the transport, oldest first. -/
  rx : List Rx := []
  /-- Timers of R106 for damaged twin copies: session, control stream, sequence, since when. -/
  nakTimers : List (Nat × Bool × Nat × Nat) := []
  /-- The standing state of each pavilion (R112): 0 OPEN, 1 STOPPED, 2 DRAINING. -/
  standingSt : Table Nat := []
  /-- Inbound rings: device indexes (R613), and the entries placed whose FULL has not been seen clear, oldest first; what waits to
  be placed, in the order of acceptance (R102). -/
  inIndex : Table Nat := []
  inRing : List InEntry := []
  inQ : List Placing := []
  /-- Priorities that a received PFC frame pauses: port × 8 + priority to the end of the pause, and what waits for it. -/
  paused : Table Nat := []
  pausedTx : List HeldTx := []
  /-- Priorities for which the device has sent XOFF: port × 8 + priority (R63). -/
  xoff : List Nat := []
  /-- What has left the ports since start-up, newest first. -/
  out : List Out := []
deriving DecidableEq, Repr

/-- What a pavilion has beyond its dictionary entries. -/
structure Pav where
  /-- Destruction in progress, forced or not; past the wait of R51 and R53. -/
  forced : Bool := false
  proceeding : Bool := false
  /-- When a forced destruction waits no longer for final status (R53). -/
  due : Nat := 0
deriving DecidableEq, Repr

/-! ## The device -/

/-- An estate alert record (Table 19.11). -/
structure Alert where
  time : Nat
  index : Nat
  sub : Nat
  pav : Nat
  detail : Nat
deriving DecidableEq, Repr

/-- Everything but the queue of waiting commands. -/
structure Dev where
  /-- The timebase, ns (R564). -/
  time : Nat := 0
  /-- The values in force of the dictionary's entries, by `Entry.key`. -/
  dict : Table Nat := []
  /-- Staged values (R536), by `Entry.key`. -/
  staged : Table (Option Nat) := []
  /-- Uses made so far of values that the spec leaves open or random. The model's own field (notes/assumptions/2). -/
  fresh : Nat := 0
  cores : Table Core := []
  /-- THERMAL_STOP has stopped issue in every cluster (R586). -/
  thermalStop : Bool := false
  mem : Mem := {}
  eng : Eng := {}
  chan : Chan := {}
  hearth : Hearth := {}
  plat : Plat := {}
  net : HostNet := {}
  pavs : Table Pav := []
  /-- Resources that a commit has removed from a pavilion and that are not freed yet (R50). -/
  removing : List (Nat × Res) := []
  /-- The 16 latest estate alerts, newest first (R558), how many since start-up, and whether one is not acknowledged. -/
  alerts : List Alert := []
  alertCount : Nat := 0
  alertOpen : Bool := false
deriving DecidableEq, Repr

/-- The state: the commands waiting, first in, first out, and the device. -/
structure State where
  pending : List Instr
  dev : Dev
deriving DecidableEq, Repr

/-- The machine right after reset: a device from the factory before its supply rises. No command waits. -/
def State.reset : State where
  pending := []
  dev := {}

end Sys2Proof.Machine
end

