-- ==== Sys2Proof/Machine/Basics.lean ====
section
/-! DEFINITION. Machine/Basics.lean: the named operations on dictionary values, counters, alerts, the bit store, cores
and what each pavilion holds. -/

namespace Sys2Proof.Machine

/-! ## Time and dictionary values -/

/-- The device at timebase `t`, which never runs backwards (R564). -/
def Dev.at (d : Dev) (t : Nat) : Dev := { d with time := max d.time t }

/-- The value in force of instance `i` of an entry, for pavilion `p` (R523, R536). -/
def Dev.rd (d : Dev) (e : Entry) (i : Nat := 0) (p : Nat := 0) : Nat :=
  Table.get (e.default i) d.dict (e.key i p)

/-- The value in force of instance `i` of an entry becomes `v`. -/
def Dev.wr (d : Dev) (e : Entry) (v : Nat) (i : Nat := 0) (p : Nat := 0) : Dev :=
  { d with dict := Table.set (e.default i) d.dict (e.key i p) v }

/-- The staged value of instance `i` of an entry, if any (R536). -/
def Dev.rdStaged (d : Dev) (e : Entry) (i : Nat := 0) (p : Nat := 0) : Option Nat :=
  Table.get none d.staged (e.key i p)

/-- The staged value of an entry replaced, or discarded (R536, R538). -/
def Dev.wrStaged (d : Dev) (e : Entry) (v : Option Nat) (i : Nat := 0) (p : Nat := 0) : Dev :=
  { d with staged := Table.set none d.staged (e.key i p) v }

/-- The value that a consistency check uses: the staged value in place of the value in force (R537). -/
def Dev.rdCheck (d : Dev) (e : Entry) (i : Nat := 0) (p : Nat := 0) : Nat :=
  (d.rdStaged e i p).getD (d.rd e i p)

/-- A counter raised by `n`; at the largest value of its type it stays (R552). -/
def Dev.bump (d : Dev) (e : Entry) (i : Nat := 0) (p : Nat := 0) (n : Nat := 1) : Dev :=
  d.wr e (min (d.rd e i p + n) (256 ^ e.size - 1)) i p

/-- Bit `b` of FAULT_CAUSES is set (R555): 0 the hearth device area, 1 a granule of the device, 2 a cipher engine, 3 a
compression engine. -/
def Dev.faultCause (d : Dev) (b : Nat) : Dev := d.wr R.dev_FAULT_CAUSES (withBit (d.rd R.dev_FAULT_CAUSES) b true)

/-- The next value of the counter of free and random values (notes/assumptions/2). -/
def Dev.draw (d : Dev) : Nat × Dev := (d.fresh, { d with fresh := d.fresh + 1 })

/-! ## Alerts (R547, R558, R617) -/

/-- The largest value of the ALERTS register (Table 19.10). -/
def alertMax : Nat := 2 ^ 32 - 1

/-- An estate alert is raised (R547, R558): `pav` is 0xFF when none. -/
def Dev.alert (d : Dev) (index sub pav detail : Nat) : Dev :=
  { d with
    alerts := ({ time := d.time, index := index, sub := sub, pav := pav, detail := detail } :: d.alerts).take 16
    alertCount := min (d.alertCount + 1) alertMax
    alertOpen := true }

/-- The bytes of an alert record (Table 19.11). -/
def Alert.bytes (a : Alert) : Bytes :=
  leBytes 8 a.time ++ leBytes 2 a.index ++ leBytes 1 a.sub ++ leBytes 1 a.pav ++ leBytes 4 a.detail

/-! ## The bit store (R259, R263) -/

/-- The key of pavilion `p`'s copy of a pavilion bit. -/
def bitKey (p a : Nat) : Nat := p * 2 ^ 18 + a

/-- Pavilion `p`'s bit at bit address `a`. -/
def Dev.pbit (d : Dev) (p a : Nat) : Bool := Table.get false d.mem.bits (bitKey p a)

/-- Pavilion `p`'s bit at bit address `a` becomes `v`, unpoisoned (R353); a change takes its place in the order of stores (R372). -/
def Dev.setPbit (d : Dev) (p a : Nat) (v : Bool) : Dev :=
  let old := d.pbit p a
  { d with mem := { d.mem with
    bits := Table.set false d.mem.bits (bitKey p a) v
    bitPoison := d.mem.bitPoison.erase (bitKey p a)
    clock := if old = v then d.mem.clock else d.mem.clock + 1
    bitPast := if old = v then d.mem.bitPast else { at_ := d.mem.clock + 1, key := bitKey p a, was := old } :: d.mem.bitPast } }

/-- The device sets doorbell `a` of pavilion `p` (R264). -/
def Dev.ring (d : Dev) (p a : Nat) : Dev := d.setPbit p a true

/-! ## Cores -/

/-- Logical core `c`. -/
def Dev.core (d : Dev) (c : Nat) : Core := Table.get {} d.cores c

/-- Logical core `c` becomes `x`. -/
def Dev.setCore (d : Dev) (c : Nat) (x : Core) : Dev := { d with cores := Table.set {} d.cores c x }

/-- Logical core `c` changed by `f`. -/
def Dev.onCore (d : Dev) (c : Nat) (f : Core → Core) : Dev := d.setCore c (f (d.core c))

/-- The cluster of a logical core (R3). -/
def clusterOf (c : Nat) : Nat := c / 16

/-- The physical slot a logical core runs in: slot 16 when the spare holds it (R10). -/
def Dev.slotOf (d : Dev) (c : Nat) : Nat := if (d.core c).inSpareSlot then 16 else c % 16

/-! ## Pavilions -/

/-- The one who holds a slot, each holding as many as `share` gives it, one after the other. -/
def holderAt (share : Nat → Nat) : List Nat → Nat → Option Nat
  | [], _ => none
  | p :: t, k => if k < share p then some p else holderAt share t (k - share p)


/-- The block state of pavilion `p` (Table 19.5). The estate runs from the end of start-up (R534). -/
def Dev.pavState (d : Dev) (p : Nat) : Nat := d.rd R.pav_STATE p

/-- Pavilion `p` exists: its block runs or stops (R24). -/
def Dev.pavExists (d : Dev) (p : Nat) : Bool := decide (d.pavState p = 2) || decide (d.pavState p = 5)

/-- Pavilion `p` is strict (R37). -/
def Dev.strict (d : Dev) (p : Nat) : Bool := decide (d.rd R.pav_MODE p = 0)

/-- The pavilion that holds logical core `c` (R11, R27). -/
def Dev.coreOwner (d : Dev) (c : Nat) : Option Nat :=
  (List.range 64).find? (fun p => d.pavExists p && bitOf (d.rd R.pav_CORES p) c)

/-- The pavilion that holds endpoint `e` (R27, R523). -/
def Dev.epOwner (d : Dev) (e : Nat) : Option Nat :=
  (List.range 64).find? (fun p => d.pavExists p && bitOf (d.rd R.pav_ENDPOINTS p) e)

/-- The pavilion that holds way group `g` of cluster `c` (R386). -/
def Dev.wayGroupOwner (d : Dev) (c g : Nat) : Option Nat :=
  (List.range 64).find? (fun p => d.pavExists p && bitOf (d.rd R.pav_WAY_GROUPS p) (8 * c + g))

/-- The cores of pavilion `p` in rising logical number: core n of the list is its PCORE n (R274). -/
def Dev.pavCores (d : Dev) (p : Nat) : List Nat := bitList 256 (d.rd R.pav_CORES p)

/-- Bank state of bank `b` = 32 × cluster + bank. -/
def Dev.bank (d : Dev) (b : Nat) : BankSt := Table.get .free d.mem.banks b

/-- Bank `b` enters state `x` (R435). -/
def Dev.setBank (d : Dev) (b : Nat) (x : BankSt) : Dev :=
  { d with mem := { d.mem with banks := Table.set .free d.mem.banks b x } }

/-- Bank `b` is reachable by pavilion `p` (Table 14.4). -/
def Dev.holdsBank (d : Dev) (p b : Nat) : Bool :=
  match d.bank b with
  | .held q => decide (q = p)
  | .clearing q => decide (q = p)
  | _ => false

/-- The device granule in segment `g` of pavilion `p`, 0xFFFF for none (R422). -/
def Dev.seg (d : Dev) (p g : Nat) : Nat := Table.get 0xFFFF d.mem.segs (p * 256 + g)

/-- WINDOW_SIZE of pavilion `p` in bytes (R153, Table 5.8). -/
def Dev.winSize (d : Dev) (p : Nat) : Nat := elem 4 (d.rd R.hearth_WINDOW_SIZE) p * 1024

/-- Where a pavilion-relative address lies (R421). -/
inductive Place where
  | memory | scratchpad | window
deriving DecidableEq, Repr

/-- The division of Table 14.2. -/
def placeOf (a : Nat) : Place :=
  if a / 2 ^ 30 < 0xF7 then .memory else if a / 2 ^ 30 = 0xF7 then .scratchpad else .window

/-- The bank, 32 × cluster + bank, that holds a byte of segment 0xF7 at offset `o`; none where bits [29:25] are not 0
(R432). -/
def bankOfOff (o : Nat) : Option Nat :=
  if o / 2 ^ 25 % 32 = 0 then some (32 * bitsOf o 24 21 + bitsOf o 7 3) else none

/-- The byte is mapped for pavilion `p` (R423, R28, R153), and its resource is not being removed (R50, step 1). -/
def Dev.mapped (d : Dev) (p a : Nat) : Bool :=
  if a ≥ 0x3FFFFFFFFF then false
  else match placeOf a with
    | .memory => decide (d.seg p (a / 2 ^ 30) ≠ 0xFFFF) && !d.removing.contains (p, .granule (d.seg p (a / 2 ^ 30)))
    | .scratchpad =>
      match bankOfOff (a % 2 ^ 30) with
      | some b => d.holdsBank p b && !d.removing.contains (p, .bank b)
      | none => false
    | .window => decide (a - 0x3E00000000 < d.winSize p)

/-- The first byte of `n` bytes from `a` that is not mapped, if any (R423). What backs a byte does not change within
8 bytes, so one byte of each 8 is asked. -/
def Dev.firstUnmapped (d : Dev) (p a n : Nat) : Option Nat :=
  if n = 0 then none
  else ((List.range ((a + n - 1) / 8 + 1 - a / 8)).map (fun i => max a (8 * (a / 8 + i)))).find?
    (fun x => !d.mapped p x)

end Sys2Proof.Machine
end

