-- ==== Sys2Proof/Machine/Lines.lean ====
section
/-! DEFINITION. Machine/Lines.lean: lines of main memory, the bytes, tags and poison of an addressed memory, and the
operations of the atomic instructions. -/

namespace Sys2Proof.Machine

/-! ## Addressed memories -/

/-- `n` bytes of a memory from `a` (R3). -/
def Ram.read (m : Ram) (a n : Nat) : Bytes := (List.range n).map (fun i => Table.get 0 m.bytes (a + i))

/-- Bytes `b` written from `a`. Tags and poison are not touched. -/
def Ram.write (m : Ram) (a : Nat) : Bytes → Ram
  | [] => m
  | x :: b => Ram.write { m with bytes := Table.set 0 m.bytes a x } (a + 1) b

/-- The tag of granule `g` (of 16 bytes). -/
def Ram.tag (m : Ram) (g : Nat) : Bool := Table.get false m.tags g

/-- The tag of granule `g` becomes `v`. -/
def Ram.setTag (m : Ram) (g : Nat) (v : Bool) : Ram := { m with tags := Table.set false m.tags g v }

/-- The poison bit of unit `u`. -/
def Ram.poisoned (m : Ram) (u : Nat) : Bool := Table.get false m.poison u

/-- The poison bit of unit `u` becomes `v`. -/
def Ram.setPoison (m : Ram) (u : Nat) (v : Bool) : Ram := { m with poison := Table.set false m.poison u v }

/-- Every byte, tag and poison bit of `n` bytes from `a` zero (R431); `unit` is the bytes of one poisoned unit. -/
def Ram.quench (m : Ram) (a n unit : Nat) : Ram :=
  { bytes := m.bytes.filter (fun e => decide (e.1 < a) || decide (a + n ≤ e.1))
    tags := m.tags.filter (fun e => decide (e.1 * 16 < a) || decide (a + n ≤ e.1 * 16))
    poison := m.poison.filter (fun e => decide (e.1 * unit < a) || decide (a + n ≤ e.1 * unit)) }

/-! ## Capabilities as 128 bits -/

/-- The 128 bits of a capability (Table 2.2). -/
def Cap.bits (c : Cap) : BitVec 128 :=
  c.perms ++ c.otype ++ c.base ++ c.len ++ c.cursor

/-- The capability that 128 bits and a tag hold (Table 2.2). -/
def Cap.ofBits (b : BitVec 128) (tag : Bool) : Cap :=
  { tag := tag, perms := b.extractLsb' 120 8, otype := b.extractLsb' 114 6, base := b.extractLsb' 76 38
    len := b.extractLsb' 38 38, cursor := b.extractLsb' 0 38 }

/-- The 16 bytes of a capability, little-endian (R3). -/
def Cap.bytes (c : Cap) : Bytes := leBytes 16 c.bits.toNat

/-- The capability in 16 bytes with a tag. -/
def Cap.ofBytes (b : Bytes) (tag : Bool) : Cap := Cap.ofBits (BitVec.ofNat 128 (leNat (b.take 16))) tag

/-! ## Lines -/

/-- `n` bytes of a line from offset `o`, as a number. -/
def Line.get (l : Line) (o n : Nat) : Nat := bitsOf l.data.toNat (8 * (o + n) - 1) (8 * o)

/-- The 64 bytes of a line. -/
def Line.toBytes (l : Line) : Bytes := leBytes 64 l.data.toNat

/-- A 512-bit mask with 8 ones for each 1 of a byte mask. -/
def byteMask (m : BitVec 64) : BitVec 512 :=
  (List.range 64).foldl (fun acc i => if m.getLsbD i then acc ||| ((255 : BitVec 512) <<< (8 * i)) else acc) 0

/-- The bytes of granule `i` of a line in a byte mask. -/
def granuleMask (m : BitVec 64) (i : Nat) : BitVec 16 := m.extractLsb' (16 * i) 16

/-- A 4-bit vector from its bits. -/
def bv4 (f : Nat → Bool) : BitVec 4 :=
  (List.range 4).foldl (fun acc i => if f i then acc ||| ((1 : BitVec 4) <<< i) else acc) 0

/-- The bytes under `mask` written to a line. Each granule written takes the tag in `tags` (R32, R258); a granule written
whole loses its poison (R428). -/
def Line.write (l : Line) (mask : BitVec 64) (data : BitVec 512) (tags : BitVec 4) : Line :=
  { data := (l.data &&& ~~~ byteMask mask) ||| (data &&& byteMask mask)
    tags := bv4 (fun i => if granuleMask mask i = 0 then l.tags.getLsbD i else tags.getLsbD i)
    poison := bv4 (fun i => l.poison.getLsbD i && decide (granuleMask mask i ≠ BitVec.allOnes 16)) }

/-- The mask of `n` bytes from offset `o`. -/
def maskOf (o n : Nat) : BitVec 64 := BitVec.ofNat 64 ((2 ^ n - 1) * 2 ^ o)

/-- `n` bytes of a number written to a line at offset `o`, as data or, with `tag`, as a tagged capability. -/
def Line.put (l : Line) (o n v : Nat) (tag : Bool) : Line :=
  l.write (maskOf o n) (BitVec.ofNat 512 (v * 2 ^ (8 * o))) (if tag then bv4 (fun i => decide (i = o / 16)) else 0)

/-- The capability in the granule at offset `o`, with its tag. -/
def Line.cap (l : Line) (o : Nat) : Cap := Cap.ofBits (BitVec.ofNat 128 (l.get o 16)) (l.tags.getLsbD (o / 16))

/-- Any of the `n` bytes from offset `o` lies in a poisoned granule (R353). -/
def Line.poisonAt (l : Line) (o n : Nat) : Bool :=
  (List.range 4).any (fun i => l.poison.getLsbD i && decide (granuleMask (maskOf o n) i ≠ 0))

/-- The line of main memory at device address `a` (R424, R425). -/
def Dev.memLine (d : Dev) (a : Nat) : Line :=
  { data := BitVec.ofNat 512 (leNat (d.mem.main.read a 64))
    tags := bv4 (fun i => d.mem.main.tag (a / 16 + i))
    poison := bv4 (fun i => d.mem.main.poisoned (a / 16 + i)) }

/-- The line at device address `a` of main memory written. -/
def Ram.putLine (m : Ram) (a : Nat) (l : Line) : Ram :=
  (List.range 4).foldl
    (fun m i => (m.setTag (a / 16 + i) (l.tags.getLsbD i)).setPoison (a / 16 + i) (l.poison.getLsbD i))
    (m.write a l.toBytes)

/-- As `Ram.putLine`, in the device. -/
def Dev.putMemLine (d : Dev) (a : Nat) (l : Line) : Dev :=
  { d with mem := { d.mem with main := d.mem.main.putLine a l } }

/-! ## Atomic operations (Table 9.12) -/

/-- The value an atomic leaves in memory from the old value, at width `w` (R292); CAS compares with `compare`. -/
def atomNew (w : Nat) (k : AtomKind) (old operand compare : BitVec w) : BitVec w :=
  match k with
  | .swap => operand
  | .cas => if old = compare then operand else old
  | .add => old + operand
  | .and => old &&& operand
  | .or => old ||| operand
  | .xor => old ^^^ operand
  | .max => if old.slt operand then operand else old
  | .min => if operand.slt old then operand else old
  | .maxu => if old.ult operand then operand else old
  | .minu => if operand.ult old then operand else old

/-- `atomNew` on numbers of `n` bytes, 4 or 8. -/
def atomNat (n : Nat) (k : AtomKind) (old operand compare : Nat) : Nat :=
  (atomNew (8 * n) k (BitVec.ofNat _ old) (BitVec.ofNat _ operand) (BitVec.ofNat _ compare)).toNat

/-- The line after an uncached write or an atomic (R395, R404). An atomic that meets poison writes nothing (Table 11.7). -/
def Unc.apply (u : Unc) (l : Line) : Line :=
  match u with
  | .none => l
  | .write mask data tags => l.write mask data tags
  | .atom off four k operand compare =>
    let n := if four then 4 else 8
    let old := l.get off n
    let new := atomNat n k old operand.toNat compare.toNat
    if l.poisonAt off n ∨ k = .cas ∧ old ≠ compare.toNat % 256 ^ n then l else l.put off n new false
  | .atomCap off cas operand compare =>
    if l.poisonAt off 16 ∨ cas ∧ l.cap off ≠ compare then l else l.put off 16 operand.bits.toNat operand.tag

end Sys2Proof.Machine
end

