-- ==== Sys2Proof/Machine/Coherence.lean ====
section
/-! DEFINITION. Machine/Coherence.lean: caches, homes, directories and the messages between them (chapter 13). A message is
delivered by `deliver`; an access that needs a line runs its transaction with `settleLine`, which delivers the line's
messages in the order sent until none is left. The explicit message commands of the table deliver one message each. -/

namespace Sys2Proof.Machine

/-- The memory part changed by `f`. -/
def Dev.onMem (d : Dev) (f : Mem → Mem) : Dev := { d with mem := f d.mem }

/-- A coherence message sent (R399). -/
def Dev.send (d : Dev) (m : CohMsg) : Dev := d.onMem fun x => { x with msgs := x.msgs ++ [m] }

/-- A store to pavilion `p`'s line takes its place in the order of stores; the line held `was` before it (R358, R359). -/
def Dev.note (d : Dev) (p line : Nat) (was now : Line) : Dev :=
  if was = now then d
  else d.onMem fun x => { x with
    clock := x.clock + 1, past := { at_ := x.clock + 1, pav := p, line := line, was := was } :: x.past }

/-! ## Names, homes and directories -/

/-- The device address of a pavilion's line: granule × 2^30 + offset (R424); none where the segment is empty. -/
def Dev.lineAddr (d : Dev) (p line : Nat) : Option Nat :=
  let g := d.seg p (line / 2 ^ 24)
  if g = 0xFFFF then none else some (g * 2 ^ 30 + line % 2 ^ 24 * 64)

/-- XOR of the `n` fields of `w` bits of `v` from bit `lo` (Table 13.2). -/
def xorFields (w n lo v : Nat) : Nat :=
  (List.range n).foldl (fun acc i => acc ^^^ bitsOf v (lo + w * i + w - 1) (lo + w * i)) 0

/-- The home slice of device address `a` (Table 13.2). -/
def homeSlice (a : Nat) : Nat :=
  let s := a / 2 ^ 30 / 36
  let off := a % 2 ^ 30
  if Config.is288 then 16 * (s / 2) + 8 * (s % 2) + xorFields 3 8 6 off
  else 16 * (s / 2) + xorFields 4 6 6 off

/-- Byte offset of device address `a` within its stack (R419). -/
def stackOff (a : Nat) : Nat := a / 2 ^ 30 % 36 * 2 ^ 30 + a % 2 ^ 30

/-- The key of way 0 of the directory set of device address `a` (R390). -/
def dirSetKey (a : Nat) : Nat := homeSlice a * 2 ^ 17 + stackOff a / 64 % 8192 * 16

/-- TAG of device address `a` (Table 13.3). -/
def dirTag (a : Nat) : Nat := stackOff a / 2 ^ 19

/-- A directory entry. -/
def Dev.dirAt (d : Dev) (key : Nat) : DirEntry := Table.get {} d.mem.dir key

/-- A directory entry written. -/
def Dev.setDir (d : Dev) (key : Nat) (e : DirEntry) : Dev :=
  d.onMem fun x => { x with dir := Table.set {} x.dir key e }

/-- A directory way that names a line. -/
def DirEntry.used (e : DirEntry) : Bool := e.pin || decide (e.st ≠ .i)

/-- The key of the directory entry of pavilion `p`'s line at device address `a`, if it has one (R391). -/
def Dev.dirFind (d : Dev) (p a : Nat) : Option Nat :=
  ((List.range 16).map (dirSetKey a + ·)).find? fun k =>
    (d.dirAt k).used && decide ((d.dirAt k).pav = p) && decide ((d.dirAt k).tag = dirTag a)

/-- The directory ways of every set that pavilion `p` has reserved (R393): those that `fitDirWays` has given it. -/
def Dev.ownDirWays (d : Dev) (p : Nat) : List Nat :=
  (List.range 16).filter fun w => decide (Table.get 0 d.mem.dirOwn w = p + 1)

/-- The directory ways a pavilion's lines may use (R393): a strict pavilion's reserved ways, else the ways that none has
reserved. -/
def Dev.dirWays (d : Dev) (p : Nat) : List Nat :=
  if d.strict p then d.ownDirWays p else (List.range 16).filter fun w => decide (Table.get 0 d.mem.dirOwn w = 0)

/-- The line that a directory entry names: its address within the pavilion that the entry names (Table 13.3). The slice of the
key gives the stack (Table 13.2). -/
def Dev.dirLine (d : Dev) (key : Nat) : Option (Nat × Nat) :=
  let e := d.dirAt key
  let slice := key / 2 ^ 17
  let stack := 2 * (slice / 16) + if Config.is288 then slice % 16 / 8 else 0
  let addr := stack * 36 * 2 ^ 30 + e.tag * 2 ^ 19 + key / 16 % 8192 * 64
  ((List.range 256).find? fun s => decide (d.seg e.pav s = addr / 2 ^ 30)).map fun s => (s * 2 ^ 24 + addr % 2 ^ 30 / 64, addr)

/-! ## L1 caches -/

/-- A line removed from a core's L1D and victim cache (R381). -/
def Core.dropL1 (x : Core) (line : Nat) : Core :=
  { x with
    l1d := (x.l1d.filter fun e => !(e.2.valid && decide (e.2.line = line)))
    victim := x.victim.filter (· ≠ line) }

/-- The logical cores of a cluster. -/
def clusterCores (c : Nat) : List Nat := (List.range 16).map (16 * c + ·)

/-- A line removed from the L1D and victim cache of every core of a cluster whose slot is in `slots`, but not of core
`keep` (R381). -/
def Dev.dropL1 (d : Dev) (cluster line : Nat) (slots : BitVec 17) (keep : Nat := 0xFFFF) : Dev :=
  (clusterCores cluster).foldl
    (fun d c => if slots.getLsbD (d.slotOf c) && decide (c ≠ keep) then d.onCore c (·.dropL1 line) else d) d

/-! ## L2 lines and transfer buffers -/

/-- Agents 0 to 15 are clusters; 16 the hub engines, 17 the movers' shared agent (Table 13.3). -/
def isCluster (agent : Nat) : Bool := decide (agent < 16)

/-- The key of way 0 of an L2 set (R386). -/
def l2SetKey (cluster line : Nat) : Nat := cluster * 2 ^ 18 + line % 16384 * 16

/-- An L2 line. -/
def Dev.l2At (d : Dev) (key : Nat) : L2Line := Table.get {} d.mem.l2 key

/-- An L2 line written. -/
def Dev.setL2 (d : Dev) (key : Nat) (l : L2Line) : Dev :=
  d.onMem fun x => { x with l2 := Table.set {} x.l2 key (if l.st = .i then {} else l) }

/-- Where cluster `c` holds pavilion `p`'s line, if it does (R377). -/
def Dev.l2Find (d : Dev) (c p line : Nat) : Option Nat :=
  ((List.range 16).map (l2SetKey c line + ·)).find? fun k =>
    decide ((d.l2At k).st ≠ .i) && decide ((d.l2At k).pav = p) && decide ((d.l2At k).line = line)

/-- The line an agent holds, with its state. -/
def Dev.held (d : Dev) (agent p line : Nat) : Option L2Line :=
  if isCluster agent then (d.l2Find agent p line).map d.l2At
  else (d.mem.xfer.find? fun e => decide (e.1 = agent) && decide (e.2.pav = p) && decide (e.2.line = line)).map (·.2)

/-- The state of a line at an agent: I where it does not hold it. -/
def Dev.lstate (d : Dev) (agent p line : Nat) : LState := ((d.held agent p line).map (·.st)).getD .i

/-- An agent's copy of a line changed; in state I it is gone, and its L1 copies with it (R381). -/
def Dev.setHeld (d : Dev) (agent : Nat) (l : L2Line) : Dev :=
  if isCluster agent then
    match d.l2Find agent l.pav l.line with
    | some k => (if l.st = .i then d.dropL1 agent l.line l.slots else d).setL2 k l
    | none => d
  else
    d.onMem fun x => { x with xfer :=
      (x.xfer.filter fun e => !(decide (e.1 = agent) && decide (e.2.pav = l.pav) && decide (e.2.line = l.line)))
        ++ (if l.st = .i then [] else [(agent, l)]) }

/-- The WAY_LOCK element of way `w` of cluster `c` (Table 13.10). -/
def Dev.wayLock (d : Dev) (c w : Nat) : Nat := elem 8 (d.rd R.l2_WAY_LOCK c) w

/-- The pavilion that holds a locked way: the holder of its way group (R411). -/
def Dev.wayLockedBy (d : Dev) (c w : Nat) : Option Nat :=
  if bitOf (d.wayLock c w) 63 then d.wayGroupOwner c (w / 2) else none

/-- The L2 ways in which pavilion `p` may allocate a line in cluster `c` (R387, R413). -/
def Dev.l2Ways (d : Dev) (c p line : Nat) : List Nat :=
  if d.strict p then
    match (List.range 16).find? (fun w => decide (d.wayLockedBy c w = some p) &&
        decide (d.wayLock c w % 2 ^ 18 = line / 2 ^ 14)) with
    | some w => [w]
    | none => (List.range 16).filter fun w => decide (d.wayGroupOwner c (w / 2) = some p) && !bitOf (d.wayLock c w) 63
  else (List.range 16).filter fun w =>
    match d.wayGroupOwner c (w / 2) with
    | some q => !d.strict q
    -- a removed group is in no pool until it is flushed and freed (R50, R415)
    | none => !d.removing.any fun e => decide (e.2 = .wayGroup (8 * c + w / 2))

/-- Cluster `c`'s L2 allocates lines for pavilion `p`: its block runs (R416) and there is a way to use. -/
def Dev.l2Usable (d : Dev) (c p line : Nat) : Bool :=
  decide (d.rd R.l2_STATE c = 2) && !(d.l2Ways c p line).isEmpty

/-- The victim way of a set among `ways` (R388), and the device with the ages of eligible lines raised. -/
def l2Victim (fuel : Nat) (d : Dev) (base : Nat) (ways : List Nat) : Option Nat × Dev :=
  match ways.find? (fun w => decide ((d.l2At (base + w)).st = .i) || decide ((d.l2At (base + w)).age = 3)), fuel with
  | some w, _ => (some w, d)
  | none, 0 => (ways.head?, d)
  | none, n + 1 =>
    l2Victim n (ways.foldl (fun d w => d.setL2 (base + w)
      { d.l2At (base + w) with age := min 3 ((d.l2At (base + w)).age + 1) }) d) base ways

/-- The slice that is the home of a line, with the line's device address. -/
def Dev.home (d : Dev) (p line : Nat) : Option (Nat × Nat) :=
  (d.lineAddr p line).map fun a => (homeSlice a, a)

/-! ## Writebacks (R400) -/

/-- A WBACK reaches its agent: the entry with that id leaves the buffer. -/
def Dev.takeWback (d : Dev) (agent id : Nat) : Dev :=
  d.onMem fun x => { x with wbBuf := x.wbBuf.filter fun e => !(decide (e.agent = agent) && decide (e.id = id)) }

/-- The home takes a writeback (R395, R400): it writes memory where the agent owns the line, else discards it as
served, and sends WBACK. -/
def Dev.homeWb (d : Dev) (m : CohMsg) : Dev :=
  let id := m.wbId.getD 0
  let ack := fun (d : Dev) => d.send { kind := .wback, agent := m.agent, pav := m.pav, line := m.line, wbId := some id }
  let discard := fun (d : Dev) => ack ((d.bump R.coh_CROSSED_WB).onMem fun x =>
    { x with servedWb := x.servedWb.filter (· ≠ id) })
  match d.lineAddr m.pav m.line with
  | none => discard d
  | some a =>
    match d.dirFind m.pav a with
    | none => discard d
    | some k =>
      let e := d.dirAt k
      if decide (e.st = .e) && decide (e.keeper = m.agent) && !d.mem.servedWb.contains id then
        ack ((d.putMemLine a (m.payload.getD {})).setDir k {})
      else discard d

/-- An agent's D line leaves: it waits in the writeback buffer until WBACK (R400). -/
def Dev.sendWb (d : Dev) (agent : Nat) (l : L2Line) : Dev :=
  let id := d.mem.wbNext
  let d := d.onMem fun x => { x with
    wbNext := id + 1
    wbBuf := x.wbBuf ++ [{ agent := agent, pav := l.pav, line := l.line, id := id, data := l.data }] }
  let d : Dev := if isCluster agent then d.bump R.l2_WRITEBACKS agent else d
  d.send { kind := .wb, agent := agent, pav := l.pav, line := l.line, wbId := some id, payload := some l.data }

/-- The home has an open transaction on the line (R398). -/
def Dev.pinned (d : Dev) (p line : Nat) : Bool :=
  d.mem.txns.any fun t => decide (t.req.pav = p) && decide (t.req.line = line)

/-- With the 16 entries of a writeback buffer in use, an eviction waits until one of them is acknowledged: the oldest
whose line is not pinned. -/
def Dev.wbRoom (d : Dev) (agent : Nat) : Dev :=
  if (d.mem.wbBuf.filter fun e => decide (e.agent = agent)).length < 16 then d
  else match d.mem.wbBuf.find? (fun e => decide (e.agent = agent) && !d.pinned e.pav e.line) with
    | none => d
    | some e =>
      let d := d.onMem fun x => { x with msgs := x.msgs.filter fun m => !(decide (m.kind = .wb) && decide (m.wbId = some e.id)) }
      let d := d.homeWb { kind := .wb, agent := agent, pav := e.pav, line := e.line, wbId := some e.id, payload := some e.data }
      (d.onMem fun x => { x with msgs := x.msgs.filter fun m => !(decide (m.kind = .wback) && decide (m.wbId = some e.id)) }).takeWback
        agent e.id

/-- The L2 line at `key` is evicted: a dirty one is written back, any other dropped silently (R381, R388). -/
def Dev.evict (d : Dev) (cluster key : Nat) : Dev :=
  let l := d.l2At key
  let d := (d.dropL1 cluster l.line l.slots).setL2 key {}
  if l.st = .d then (d.wbRoom cluster).sendWb cluster l else d

/-- An agent installs a granted line. -/
def Dev.install (d : Dev) (agent p line : Nat) (st : LState) (data : Line) (streaming : Bool) : Dev :=
  if isCluster agent then
    match d.l2Find agent p line with
    | some k => d.setL2 k { d.l2At k with st := st, data := data }
    | none =>
      let base := l2SetKey agent line
      match l2Victim 4 d base (d.l2Ways agent p line) with
      | (none, d) => d
      | (some w, d) =>
        let d : Dev := if (d.l2At (base + w)).st = .i then d else d.evict agent (base + w)
        let d : Dev := if streaming then d.bump R.l2_STREAM_FILLS agent else d
        d.setL2 (base + w) { pav := p, line := line, st := st, age := if streaming then 3 else 1, data := data }
  else d.setHeld agent { pav := p, line := line, st := st, data := data }

/-! ## Directory entries -/

/-- The agents a directory entry lists. -/
def DirEntry.agents (e : DirEntry) : List Nat := (List.range 18).filter fun n => e.presence.getLsbD n

/-- A one-agent presence vector. -/
def bit18 (n : Nat) : BitVec 18 := (1 : BitVec 18) <<< n

/-- Presence with an agent added. -/
def addAgent (v : BitVec 18) (n : Nat) : BitVec 18 := v ||| bit18 n

/-- Presence with an agent removed. -/
def subAgent (v : BitVec 18) (n : Nat) : BitVec 18 := v &&& ~~~ bit18 n

/-- The directory way that a request which needs one takes (R391, R392): a free way, else the lowest unpinned way with RECENT
clear, else RECENT is cleared in every unpinned way and the first of them is taken. None when every usable way is pinned. -/
def Dev.dirWay (d : Dev) (p a : Nat) : Option (Nat × Dev) :=
  let keys := (d.dirWays p).map (dirSetKey a + ·)
  match keys.find? (fun k => !(d.dirAt k).used) with
  | some k => some (k, d)
  | none =>
    match keys.find? (fun k => !(d.dirAt k).pin && !(d.dirAt k).recent) with
    | some k => some (k, d)
    | none => (keys.find? fun k => !(d.dirAt k).pin).map fun k =>
        (k, keys.foldl (fun d k => if (d.dirAt k).pin then d else d.setDir k { d.dirAt k with recent := false }) d)

/-! ## Homes -/

/-- A request is turned away: its age rises, and the oldest enough takes the line's bellows slot when it is empty (R398,
R406, R407). -/
def Dev.turnAway (d : Dev) (m : CohMsg) : Dev :=
  let m := { m with
    age := m.age + 1
    due := d.time + min 200 (20 * (m.age + 1)) }
  let d := (d.bump R.coh_PIN_WAITS).onMem fun x => { x with turned := x.turned ++ [m] }
  if decide (d.rd R.coh_BELLOWS_AFTER ≤ m.age) &&
      !d.mem.bellows.any (fun b => decide (b.2.1 = m.pav) && decide (b.2.2 = m.line)) then
    (d.bump R.coh_BELLOWS_COUNT).onMem fun x => { x with bellows := x.bellows ++ [(m.agent, m.pav, m.line)] }
  else d

/-- Another agent's bellows request has the line (R407). -/
def Dev.bellowsBlocks (d : Dev) (m : CohMsg) : Bool :=
  d.mem.bellows.any fun b => decide (b.2.1 = m.pav) && decide (b.2.2 = m.line) && decide (b.1 ≠ m.agent)

/-- The timebase from which the answer to a snoop sent now is too late (R409, Table 13.11). -/
def Dev.snoopDue (d : Dev) : Nat := d.time + 1000 * d.rd R.coh_HOME_TIMEOUT

/-- A transaction opens (R398). -/
def Dev.openTxn (d : Dev) (m : CohMsg) (wait : List Nat) (dataFrom : Option Nat) : Dev :=
  d.onMem fun x => { x with txns := x.txns ++ [{ req := m, wait := wait, dataFrom := dataFrom, due := d.snoopDue }] }

/-- A snoop to agent `n` for the transaction of request `m`. -/
def snoop (k : CohKind) (m : CohMsg) (n : Nat) (need : Bool) (count : Nat) : CohMsg :=
  { kind := k, agent := n, pav := m.pav, line := m.line, requester := m.agent, needData := need, count := count
    grant := if m.kind = .rdu then .i else if k = .snpi then .x else .s
    streaming := m.streaming, slot := m.slot }

/-- DATA from the home. -/
def dataTo (m : CohMsg) (st : LState) (count : Nat) (l : Option Line) (dirty : Bool := false) : CohMsg :=
  { kind := .data, agent := m.agent, pav := m.pav, line := m.line, grant := st, count := count, payload := l, dirty := dirty
    streaming := m.streaming, slot := m.slot }

/-- The state a reader is granted: agents 16 and 17 never hold K (R390). -/
def grantK (agent : Nat) : LState := if isCluster agent then .k else .s

/-- The requests that need their agent's line installed. -/
def CohKind.cached : CohKind → Bool
  | .rds | .rdx | .upg => true
  | _ => false

/-- A transaction whose answers are all in ends at the home: COMPLETE goes to the requester (R397), or an uncached
request is performed and answered, which closes it (R395, R398). An entry taken for reuse ends in I, and the request that waits
for it is served next (R391). -/
def Dev.finishTxn (d : Dev) (t : Txn) : Dev :=
  let m := t.req
  let close := fun (d : Dev) => d.onMem fun x => { x with txns := x.txns.filter fun u =>
    !(decide (u.req.pav = m.pav) && decide (u.req.line = m.line)) }
  if t.evictFor.isSome then
    let d := (close d).bump R.coh_DIR_EVICTIONS
    let d : Dev := match (d.lineAddr m.pav m.line).bind (d.dirFind m.pav) with
      | some k => d.setDir k {}
      | none => d
    d.onMem fun x => { x with msgs := t.evictFor.toList ++ x.msgs }
  else if m.kind.cached then d.send { kind := .complete, agent := m.agent, pav := m.pav, line := m.line }
  else match d.lineAddr m.pav m.line with
    | none => close d
    | some a =>
      let old := d.memLine a
      let answer := dataTo m .i 0 (some old)
      match d.dirFind m.pav a with
      | none => close d
      | some k =>
        let e := d.dirAt k
        if m.kind = .rdu then
          -- an owner that held the line has answered for the home
          if e.st = .i then ((close d).setDir k {}).send answer else (close d).setDir k { e with pin := false }
        else ((((close d).setDir k {}).note m.pav m.line old (m.unc.apply old)).putMemLine a (m.unc.apply old)).send answer

/-- An entry is taken for reuse by request `m`: SNPI goes to every agent it lists, and `m` waits until they have answered (R391). -/
def Dev.dirEvict (d : Dev) (key : Nat) (m : CohMsg) : Dev :=
  let e := d.dirAt key
  match d.dirLine key with
  | none => ((d.bump R.coh_DIR_EVICTIONS).setDir key {}).onMem fun x => { x with msgs := m :: x.msgs }
  | some (line, _) =>
    let q : CohMsg := { kind := .snpi, agent := 0x1F, pav := e.pav, line := line }
    let t : Txn := { req := q, wait := e.agents, dataFrom := none, due := d.snoopDue, evictFor := some m }
    let d := (d.setDir key { e with pin := true }).onMem fun x => { x with txns := x.txns ++ [t] }
    if e.agents.isEmpty then d.finishTxn t
    else e.agents.foldl (fun d n => d.send (snoop .snpi q n false e.agents.length)) d

/-- The home begins to serve a request by Table 13.7; an agent that the directory does not list is served as R396
states. -/
def Dev.homeServe (d : Dev) (m : CohMsg) : Dev :=
  match d.lineAddr m.pav m.line with
  | none => d
  | some a =>
    -- a writeback that a snoop has served is discarded at once (R400)
    if decide (m.kind = .wb) && d.mem.servedWb.contains (m.wbId.getD 0) then d.homeWb m
    else if d.pinned m.pav m.line || d.bellowsBlocks m then d.turnAway m
    else
      let d := d.onMem fun x => { x with bellows := x.bellows.filter fun b => b ≠ (m.agent, m.pav, m.line) }
      let c := m.agent
      let found := d.dirFind m.pav a
      let slot := match found with
        | some k => some (k, d)
        | none => if m.kind.cached then d.dirWay m.pav a else some (0xFFFFFFFF, d)
      match slot with
      | none => d.turnAway m
      | some (k, d) =>
       if m.kind.cached && found.isNone && (d.dirAt k).used then d.dirEvict k m
       else
        let e0 := d.dirAt k
        -- an owner that is agent 16 or 17 keeps S where a cluster would keep K (R390)
        let shared : DirEntry := if isCluster e0.keeper then { pav := m.pav, tag := dirTag a, st := .k, keeper := e0.keeper }
          else { pav := m.pav, tag := dirTag a, st := .s }
        -- a requester that reads a line it is listed for no longer holds it
        let lists := fun n => e0.presence.getLsbD n
        let holds := decide (m.kind = .upg) && lists c && decide (d.lstate c m.pav m.line ≠ .i)
        let others := e0.agents.filter (· ≠ c)
        let st := if found.isNone then .i else if others.isEmpty && !holds then DState.i
          else if decide (e0.st = .k) && decide (e0.keeper = c) && !holds then .s else e0.st
        let base : DirEntry := { pav := m.pav, tag := dirTag a, pin := true, recent := true }
        let mem := d.memLine a
        match m.kind with
        | .rds =>
          match st with
          | .i => (((d.setDir k { base with st := .e, keeper := c, presence := bit18 c }).openTxn m [] none).send
              (dataTo m .x 0 (some mem))).finishTxn { req := m, wait := [], dataFrom := none, due := d.snoopDue }
          | .s =>
            let pr := addAgent (subAgent e0.presence c) c
            let e := if isCluster c then { base with st := DState.k, keeper := c, presence := pr }
              else { base with st := .s, presence := pr }
            (((d.setDir k e).openTxn m [] none).send (dataTo m (grantK c) 0 (some mem))).finishTxn
              { req := m, wait := [], dataFrom := none, due := d.snoopDue }
          | .k => ((d.setDir k { base with st := .k, keeper := e0.keeper, presence := addAgent e0.presence c }).openTxn m
              [e0.keeper] (some e0.keeper)).send (snoop .fwd m e0.keeper true 0)
          | .e => ((d.setDir k { shared with pin := true, recent := true, presence := addAgent e0.presence c }).openTxn m
              [e0.keeper] (some e0.keeper)).send (snoop .snps m e0.keeper true 0)
        | .rdx | .upg =>
          let e := { base with st := DState.e, keeper := c, presence := bit18 c }
          match st with
          | .i => (((d.setDir k e).openTxn m [] none).send (dataTo m .x 0 (some mem))).finishTxn
              { req := m, wait := [], dataFrom := none, due := d.snoopDue }
          | .s =>
            let d := ((d.setDir k e).openTxn m others none).send
              (dataTo m .x others.length (if holds then none else some mem))
            let d := others.foldl (fun d n => d.send (snoop .snpi m n false others.length)) d
            if others.isEmpty then d.finishTxn { req := m, wait := [], dataFrom := none, due := d.snoopDue } else d
          | .k =>
            let d := (d.setDir k e).openTxn m others (if holds then none else some e0.keeper)
            let d : Dev := if holds then d.send (dataTo m .x others.length none) else d
            let d := others.foldl
              (fun d n => d.send (snoop .snpi m n (!holds && decide (n = e0.keeper)) others.length)) d
            if others.isEmpty then d.finishTxn { req := m, wait := [], dataFrom := none, due := d.snoopDue } else d
          | .e => ((d.setDir k e).openTxn m others (some e0.keeper)).send (snoop .snpi m e0.keeper true 1)
        | .rdu =>
          match st with
          | .e => ((d.setDir k { shared with pin := true, recent := true, presence := e0.presence }).openTxn m
              [e0.keeper] (some e0.keeper)).send (snoop .snps m e0.keeper true 0)
          | _ => d.send (dataTo m .i 0 (some mem))
        | .fatom | .wru =>
          if found.isNone || e0.agents.isEmpty then
            let d : Dev := if found.isNone then d else d.setDir k {}
            ((d.note m.pav m.line mem (m.unc.apply mem)).putMemLine a (m.unc.apply mem)).send (dataTo m .i 0 (some mem))
          else
            let d := (d.setDir k { e0 with pin := true }).openTxn m e0.agents none
            e0.agents.foldl (fun d n => d.send (snoop .snpi m n false e0.agents.length)) d
        | .wb => d.homeWb m
        | _ => d

/-- A holder answers a snoop (Table 13.8). DATA that goes to the home travels in the RSP. An owner that is agent 16 or 17 keeps
S, not K (R390). -/
def Dev.answerSnoop (d : Dev) (m : CohMsg) : Dev :=
  let n := m.agent
  let reply := fun (k : CohKind) (dirty : Bool) (id : Option Nat) (l : Option Line) =>
    ({ kind := k, agent := n, pav := m.pav, line := m.line, requester := m.requester, dirty := dirty, wbId := id,
       payload := l } : CohMsg)
  let toReq := fun (l : Line) (dirty : Bool) =>
    ({ kind := .data, agent := m.requester, pav := m.pav, line := m.line, payload := some l, count := m.count, dirty := dirty,
       grant := m.grant, streaming := m.streaming, slot := m.slot } : CohMsg)
  let wb := d.mem.wbBuf.find? fun e => decide (e.agent = n) && decide (e.pav = m.pav) && decide (e.line = m.line)
  match d.held n m.pav m.line, m.kind with
  | some l, .snps =>
    match l.st with
    | .d => (((d.setHeld n { l with st := grantK n }).send (toReq l.data true)).send (reply .rsp true none (some l.data)))
    | .x => (((d.setHeld n { l with st := grantK n }).send (toReq l.data false)).send (reply .rsp false none none))
    | _ => d.send (reply .np false none none)
  | some l, .fwd =>
    match l.st with
    | .k => (d.send (toReq l.data false)).send (reply .rsp false none none)
    | _ => d.send (reply .np false none none)
  | some l, .snpi =>
    let d := d.setHeld n { l with st := .i }
    match l.st with
    | .d => if m.needData then (d.send (toReq l.data true)).send (reply .rsp true none none)
        else d.send (reply .rsp true none (some l.data))
    | .x | .k => if m.needData then (d.send (toReq l.data false)).send (reply .iack false none none)
        else d.send (reply .iack false none none)
    | _ => d.send (reply .iack false none none)
  | some l, .kill => d.setHeld n { l with st := .i }
  | none, .kill => d
  | none, k =>
    match wb with
    | some e =>
      if k = .snpi && !m.needData then d.send (reply .rsp true (some e.id) (some e.data))
      else (d.send (toReq e.data true)).send
        (reply .rsp (decide (k = .snps)) (some e.id) (if k = .snps then some e.data else none))
    | none => d.send (reply .np false none none)
  | _, _ => d

/-- An answer taken into its open transaction (R395 to R397, R400). -/
def Dev.answerTxn (d : Dev) (m : CohMsg) (t : Txn) : Dev :=
  match d.lineAddr m.pav m.line with
  | none => d
  | some a =>
    let d : Dev := match m.payload with | some l => d.putMemLine a l | none => d
    let d : Dev := match m.wbId with
      | some id => d.onMem fun x => { x with servedWb := x.servedWb ++ [id] }
      | none => d
    let c := t.req.agent
    -- the line still has to come from memory when its responder did not hold it (R396)
    let needs := decide (m.kind = .np) && decide (t.dataFrom = some m.agent) && t.req.kind.cached
    let d : Dev := if !needs then
        match d.dirFind m.pav a with
        | some k =>
          if decide (m.kind = .np) && decide (t.req.kind = .rdu) then d.setDir k { pav := m.pav, tag := dirTag a, pin := true }
          else d
        | none => d
      else match d.dirFind m.pav a with
        | none => d
        | some k =>
          let e := d.dirAt k
          let pr := subAgent e.presence m.agent
          if t.req.kind = .rds then
            if pr = bit18 c then
              (d.setDir k { e with st := .e, keeper := c, presence := pr }).send (dataTo t.req .x 0 (some (d.memLine a)))
            else if isCluster c then
              (d.setDir k { e with st := .k, keeper := c, presence := pr }).send (dataTo t.req .k 0 (some (d.memLine a)))
            else (d.setDir k { e with st := .s, keeper := 0x1F, presence := pr }).send (dataTo t.req .s 0 (some (d.memLine a)))
          else d.send (dataTo t.req .x t.wait.length (some (d.memLine a)))
    let t' : Txn := { t with wait := t.wait.filter (· ≠ m.agent), dataFrom := if needs then none else t.dataFrom }
    let d := d.onMem fun x => { x with
      txns := x.txns.map (fun u : Txn => if decide (u.req.pav = m.pav) && decide (u.req.line = m.line) then t' else u) }
    if t'.wait.isEmpty then d.finishTxn t' else d

/-- The home takes an answer to one of its snoops: RSP, NP or IACK (R395 to R397, R400, R410). -/
def Dev.takeAnswer (d : Dev) (m : CohMsg) : Dev :=
  if d.mem.timedOut.contains (m.agent, m.pav, m.line) then
    (d.bump R.coh_LATE_RESPONSES).onMem fun x => { x with timedOut := x.timedOut.erase (m.agent, m.pav, m.line) }
  else
    let d : Dev := if m.kind = .np then d.bump R.coh_STALE_SNOOPS else d
    match d.mem.txns.find? (fun t => decide (t.req.pav = m.pav) && decide (t.req.line = m.line) && t.wait.contains m.agent) with
    | none => d
    | some t => d.answerTxn m t

/-- DONE goes to the home once the grant is installed and COMPLETE has arrived (R399). -/
def Dev.tryDone (d : Dev) (agent p line : Nat) : Dev :=
  match d.mem.outstanding.find? (fun o => decide (o.agent = agent) && decide (o.pav = p) && decide (o.line = line)) with
  | some o =>
    if o.gotData && o.gotComplete then
      (d.onMem fun x => { x with outstanding := x.outstanding.filter (· ≠ o) }).send
        { kind := .done, agent := agent, pav := p, line := line }
    else d
  | none => d

/-- An outstanding request of an agent changed. -/
def Dev.mapOut (d : Dev) (agent p line : Nat) (f : Outstanding → Outstanding) : Dev :=
  d.onMem fun x => { x with
    outstanding := x.outstanding.map
      (fun o => if decide (o.agent = agent) && decide (o.pav = p) && decide (o.line = line) then f o else o) }

/-- DATA reaches its requester, which installs the line and the state granted (R397, R399). -/
def Dev.takeData (d : Dev) (m : CohMsg) : Dev :=
  if m.grant = .i then d.onMem fun x => { x with answer := m.payload.getD {} }
  else
    let st := if m.dirty && decide (m.grant = .x) then .d else m.grant
    let d : Dev := match m.payload with
      | some l => d.install m.agent m.pav m.line st l m.streaming
      | none => match d.held m.agent m.pav m.line with
        | some l => d.setHeld m.agent { l with st := st }
        | none => d
    (d.mapOut m.agent m.pav m.line fun o => { o with gotData := true }).tryDone m.agent m.pav m.line

/-- A message takes effect at its receiver. -/
def Dev.deliver (d : Dev) (m : CohMsg) : Dev :=
  match m.kind with
  | .rds | .rdx | .upg | .wb | .fatom | .rdu | .wru => d.homeServe m
  | .snps | .snpi | .fwd | .kill => d.answerSnoop m
  | .data => d.takeData m
  | .rsp | .np | .iack => d.takeAnswer m
  | .complete => (d.mapOut m.agent m.pav m.line fun o => { o with gotComplete := true }).tryDone m.agent m.pav m.line
  | .done =>
    match d.lineAddr m.pav m.line with
    | none => d
    | some a =>
      let d := d.onMem fun x => { x with txns := x.txns.filter fun t =>
        !(decide (t.req.pav = m.pav) && decide (t.req.line = m.line) && decide (t.req.agent = m.agent)) }
      match d.dirFind m.pav a with
      | some k => d.setDir k { d.dirAt k with pin := false }
      | none => d
  | .wback => d.takeWback m.agent (m.wbId.getD 0)

/-- The message belongs to a line. -/
def CohMsg.isFor (m : CohMsg) (p line : Nat) : Bool := decide (m.pav = p) && decide (m.line = line)

/-- The request turned away from a line that is to be sent again first: the bellows request, else the oldest. -/
def Dev.nextTurned (d : Dev) (p line : Nat) : Option CohMsg :=
  match d.mem.turned.find? (fun m => m.isFor p line && d.mem.bellows.contains (m.agent, p, line)) with
  | some m => some m
  | none => d.mem.turned.find? (·.isFor p line)

/-- The message that a line waits for: the oldest of its own, else the oldest of the line whose directory entry a request for
it waits for (R391). -/
def Dev.nextMsg (d : Dev) (p line : Nat) : Option CohMsg :=
  match d.mem.msgs.find? (·.isFor p line) with
  | some m => some m
  | none =>
    match d.mem.txns.find? (fun t => (t.evictFor.map (·.isFor p line)).getD false) with
    | some t => d.mem.msgs.find? (·.isFor t.req.pav t.req.line)
    | none => none

/-- A request for the line finds every directory way that it may use pinned (R392). -/
def Dev.waysPinned (d : Dev) (p line : Nat) : Bool :=
  match d.lineAddr p line with
  | none => false
  | some a => (d.dirFind p a).isNone && (d.dirWay p a).isNone

/-- A message in flight delivered. -/
def Dev.take (d : Dev) (m : CohMsg) : Dev := (d.onMem fun x => { x with msgs := x.msgs.erase m }).deliver m

/-- A line's messages delivered in the order sent, and its turned-away requests after them, until it is quiet. A request that
waits for a pin of another line to clear waits for that line's messages (R392). -/
def settleLine : Nat → Dev → Nat → Nat → Dev
  | 0, d, _, _ => d
  | n + 1, d, p, line =>
    match d.nextMsg p line with
    | some m => settleLine n (d.take m) p line
    | none =>
      match d.nextTurned p line with
      | none => d
      | some m =>
        match d.waysPinned p line, d.mem.msgs with
        | true, q :: _ => settleLine n (d.take q) p line
        | _, _ => settleLine n ((d.onMem fun x => { x with turned := x.turned.erase m }).deliver m) p line

/-- Enough deliveries for any line to become quiet: each of 18 agents' requests takes at most 40 messages, sent again a
few times, and so do those of the 16 lines of a directory set. -/
def settleFuel : Nat := 65536

/-- The line made quiet. -/
def Dev.settle (d : Dev) (p line : Nat) : Dev := settleLine settleFuel d p line

/-- An agent's request for a line still waits for its DATA. -/
def Dev.awaitsData (d : Dev) (agent p line : Nat) : Bool :=
  d.mem.outstanding.any fun o => decide (o.agent = agent) && decide (o.pav = p) && decide (o.line = line) && !o.gotData

/-- A message that brings DATA nearer: anything but a snoop that only takes a copy away, and its answer. -/
def CohMsg.urgent (m : CohMsg) : Bool := !((decide (m.kind = .snpi) && !m.needData) || decide (m.kind = .iack))

/-- A line's messages delivered until an agent's DATA has arrived; what only takes other copies away comes last (R397, R399). -/
def settleData : Nat → Dev → Nat → Nat → Nat → Dev
  | 0, d, _, _, _ => d
  | n + 1, d, agent, p, line =>
    if !d.awaitsData agent p line then d
    else match d.mem.msgs.find? (fun m => m.isFor p line && m.urgent) with
      | some m => settleData n (d.take m) agent p line
      | none => d.settle p line

/-- A request for ownership sent. Its agent may write as soon as DATA arrives: where other copies are still to be invalidated,
the rest of the transaction stays in flight (R397); FENCE, CBAR, a release and every later request for the line wait for it. -/
def Dev.requestOwned (d : Dev) (m : CohMsg) : Dev :=
  let d := d.settle m.pav m.line
  let d := (d.onMem fun x => { x with outstanding := x.outstanding ++ [{ agent := m.agent, pav := m.pav, line := m.line }] }).send m
  let d := settleData settleFuel d m.agent m.pav m.line
  if d.mem.txns.any fun t => decide (t.req.pav = m.pav) && decide (t.req.line = m.line) && !t.wait.isEmpty then d
  else d.settle m.pav m.line

/-- A request sent and its transaction run to its end. -/
def Dev.request (d : Dev) (m : CohMsg) : Dev :=
  let d := d.settle m.pav m.line
  let d : Dev := if m.kind.cached then d.onMem fun x => { x with outstanding := x.outstanding ++
    [{ agent := m.agent, pav := m.pav, line := m.line }] } else d
  (d.send m).settle m.pav m.line

/-- An agent's line for reading, obtained by RDS where it is not held. -/
def Dev.obtainShared (d : Dev) (agent p line : Nat) (streaming : Bool := false) : Dev :=
  let d := d.settle p line
  if d.lstate agent p line = .i then
    d.request { kind := .rds, agent := agent, pav := p, line := line, streaming := streaming }
  else d

/-- An agent's line for writing, obtained by RDX, or by UPG where it is held in S or K (R380). -/
def Dev.obtainOwned (d : Dev) (agent p line : Nat) (streaming : Bool := false) : Dev :=
  let d := d.settle p line
  match d.lstate agent p line with
  | .d | .x => d
  | .i => d.requestOwned { kind := .rdx, agent := agent, pav := p, line := line, streaming := streaming }
  | _ => d.requestOwned { kind := .upg, agent := agent, pav := p, line := line, streaming := streaming }

/-- Bytes of a line that an agent owns written in its copy, which is then D. -/
def Dev.writeHeld (d : Dev) (agent p line : Nat) (f : Line → Line) : Dev :=
  match d.held agent p line with
  | some l => (d.note p line l.data (f l.data)).setHeld agent { l with st := .d, data := f l.data }
  | none => d

/-! ## Device accesses to main memory (agents 16 and 17) -/

/-- A device agent reads a line and drops it silently (R390). -/
def Dev.agentRead (d : Dev) (agent p line : Nat) : Line × Dev :=
  let d := d.obtainShared agent p line
  match d.held agent p line with
  | some l => (l.data, d.setHeld agent { l with st := .i })
  | none => ({}, d)

/-- A device agent writes a line and gives it up by writeback (R390). -/
def Dev.agentWrite (d : Dev) (agent p line : Nat) (f : Line → Line) : Dev :=
  let d := (d.obtainOwned agent p line).writeHeld agent p line f
  match d.held agent p line with
  | some l => ((d.setHeld agent { l with st := .i }).sendWb agent l).settle p line
  | none => d

/-- A line written back if dirty and invalidated in every agent's caches (R414, R415); with `discard`, dirty data is
dropped. -/
def Dev.flushLine (d : Dev) (p line : Nat) (discard : Bool) : Dev :=
  let d := d.settle p line
  match d.lineAddr p line with
  | none => d
  | some a =>
    let d := (List.range 18).foldl (fun d n =>
      match d.held n p line with
      | some l =>
        let d : Dev := if decide (l.st = .d) && !discard then d.putMemLine a l.data else d
        d.setHeld n { l with st := .i }
      | none => d) d
    match d.dirFind p a with
    | some k => d.setDir k {}
    | none => d

/-- What the stores to lines of pavilion `p` from line `lo` to below `hi` replaced is forgotten: the lines change hands. -/
def Dev.forgetPast (d : Dev) (p lo hi : Nat) : Dev :=
  d.onMem fun x => { x with past := x.past.filter fun e => !(decide (e.pav = p) && decide (lo ≤ e.line) && decide (e.line < hi)) }

/-- The lines of the directory entries in way `w` whose pavilion may no longer use that way, flushed (R393). -/
def Dev.flushDirWay (d : Dev) (w : Nat) : Dev :=
  (d.mem.dir.map (·.1)).foldl (fun d key =>
    let p := (d.dirAt key).pav
    if key % 16 ≠ w ∨ (d.dirWays p).contains w then d
    else match d.dirLine key with
      | some (line, _) => d.flushLine p line false
      | none => d.setDir key {}) d

/-- The directory ways that share `s` of the home slices reserves (R393). -/
def waysOfShare (s : Nat) : Nat := ceilDiv (16 * s) 256

/-- The directory ways that pavilion `p` has reserved brought to the number that its share asks for, `n`: the highest are given
up, or the lowest free ways are taken (notes/assumptions/13). -/
def Dev.reserveDirWays (d : Dev) (p n : Nat) : Dev :=
  let own := d.ownDirWays p
  let out := own.drop n
  let into := ((List.range 16).filter fun w => decide (Table.get 0 d.mem.dirOwn w = 0)).take (n - own.length)
  let d := d.onMem fun x => { x with
    dirOwn := into.foldl (fun t w => Table.set 0 t w (p + 1)) (out.foldl (fun t w => Table.set 0 t w 0) x.dirOwn) }
  (out ++ into).foldl Dev.flushDirWay d

/-- The reserved directory ways follow the strict pavilions and their shares; what the ways that change hands held is flushed. Ways
are given up before others are taken (R393). -/
def Dev.fitDirWays (d : Dev) : Dev :=
  let need := fun (d : Dev) (p : Nat) => if d.pavExists p && d.strict p then waysOfShare (elem 1 (d.rd R.pav_SHARES p) 1) else 0
  let give := fun (d : Dev) (p : Nat) => if need d p < (d.ownDirWays p).length then d.reserveDirWays p (need d p) else d
  let takeUp := fun (d : Dev) (p : Nat) => if (d.ownDirWays p).length < need d p then d.reserveDirWays p (need d p) else d
  (List.range 64).foldl takeUp ((List.range 64).foldl give d)

/-- The lines of pavilion `p` from line `lo` to below `hi` that some agent holds. -/
def Dev.heldLines (d : Dev) (p lo hi : Nat) : List Nat :=
  (((d.mem.l2.map fun e => e.2) ++ d.mem.xfer.map (·.2)).filterMap fun l =>
    if decide (l.st ≠ .i) && decide (l.pav = p) && decide (lo ≤ l.line) && decide (l.line < hi) then some l.line else none).eraseDups

end Sys2Proof.Machine
end

