-- ==== Sys2Proof/Machine/Access.lean ====
section
/-! DEFINITION. Machine/Access.lean: loads and stores of cores through merging buffer, L1D and L2, scratchpad and durable
window, the drain of stores, and the accesses of the device's agents (R376 to R385, R423, R432 to R434, R154). -/

namespace Sys2Proof.Machine

/-! ## The L1D and its stream detector -/

/-- The entry of an L1D way. -/
def Core.l1dAt (x : Core) (k : Nat) : L1Line := Table.get {} x.l1d k

/-- The entry of an L1D way written. -/
def Core.setL1d (x : Core) (k : Nat) (l : L1Line) : Core := { x with l1d := Table.set {} x.l1d k l }

/-- Where the L1D holds a line (Table 13.1). -/
def Core.l1dFind (x : Core) (line : Nat) : Option Nat :=
  ((List.range 4).map (line % 256 * 4 + ·)).find? fun k => (x.l1dAt k).valid && decide ((x.l1dAt k).line = line)

/-- The way of an L1D set that a fill takes (R384): the lowest way whose NRU bit is clear; when all four are set, all are
cleared and way 0 is taken. -/
def Core.l1dVictim (x : Core) (line : Nat) : Nat × Core :=
  let base := line % 256 * 4
  match (List.range 4).find? (fun w => !(x.l1dAt (base + w)).nru) with
  | some w => (base + w, x)
  | none => (base, (List.range 4).foldl (fun x w => x.setL1d (base + w) { x.l1dAt (base + w) with nru := false }) x)

/-- An L1D hit sets the NRU bit (R384), and a streaming line has been hit (R383). -/
def Core.l1dHit (x : Core) (line : Nat) : Core :=
  match x.l1dFind line with
  | some k => x.setL1d k { x.l1dAt k with nru := true, hit := true }
  | none => x

/-- An L1D miss at the stream detector (R385): the device marks the fill as streaming when it is the fourth or a later
consecutive miss of a stream. The streams are kept least recently extended first. -/
def Core.streamMiss (x : Core) (line : Nat) : Bool × Core :=
  match x.streams.find? (fun s => (decide ((line : Int) = s.last + 1) && decide (s.dir ≠ -1)) ||
      (decide ((line : Int) = s.last - 1) && decide (s.dir ≠ 1))) with
  | some s =>
    let n := s.count + 1
    (decide (4 ≤ n), { x with streams := x.streams.erase s ++ [{ last := line, dir := line - s.last, count := n }] })
  | none =>
    let rest := if x.streams.length < 4 then x.streams else x.streams.drop 1
    (false, { x with streams := rest ++ [{ last := line, dir := 0, count := 1 }] })

/-- The L2 no longer lists a core's slot for a line, when neither its L1D nor its victim cache holds it (R381). -/
def Dev.unlistSlot (d : Dev) (c p line : Nat) : Dev :=
  if ((d.core c).l1dFind line).isSome || (d.core c).victim.contains line then d
  else match d.l2Find (clusterOf c) p line with
    | some k => d.setL2 k { d.l2At k with slots := (d.l2At k).slots &&& ~~~((1 : BitVec 17) <<< d.slotOf c) }
    | none => d

/-- A line enters the L1D of core `c` (R383, R384). The line it displaces goes to the victim cache, unless it was
streaming and never hit; a full victim cache drops its oldest. -/
def Dev.l1dFill (d : Dev) (c p line : Nat) (streaming : Bool) : Dev :=
  let (k, x) := (d.core c).l1dVictim line
  let old := x.l1dAt k
  let x := x.setL1d k { valid := true, line := line, nru := !streaming, streaming := streaming }
  let keep := old.valid && !(old.streaming && !old.hit)
  let v := if keep then x.victim ++ [old.line] else x.victim
  let gone := (if v.length > 16 then v.take 1 else []) ++ (if old.valid && !keep then [old.line] else [])
  let d := d.setCore c { x with victim := if v.length > 16 then v.drop 1 else v }
  let d : Dev := match d.l2Find (clusterOf c) p line with
    | some k => d.setL2 k { d.l2At k with slots := (d.l2At k).slots ||| ((1 : BitVec 17) <<< d.slotOf c) }
    | none => d
  gone.foldl (fun d l => d.unlistSlot c p l) d

/-- An L2 lookup (R388): a hit sets the age to 0; a miss obtains the line for reading. -/
def Dev.l2Read (d : Dev) (cluster p line : Nat) (streaming : Bool) : Dev :=
  match d.l2Find cluster p line with
  | some k => (d.bump R.l2_L2_HITS cluster).setL2 k { d.l2At k with age := 0 }
  | none => (d.bump R.l2_L2_MISSES cluster).obtainShared cluster p line streaming

/-- An uncached read of a line of main memory (R416). -/
def Dev.readUncached (d : Dev) (cluster p line : Nat) : Line × Dev :=
  let d := d.request { kind := .rdu, agent := cluster, pav := p, line := line }
  (d.mem.answer, d)

/-- A line of main memory as a load of core `c` finds it in the caches; `hint` tells that MOVB or CRCM makes the fill
(R379, R383, R385, R416). -/
def Dev.cachedLine (d : Dev) (c p line : Nat) (hint : Bool) : Line × Dev :=
  let cl := clusterOf c
  if (d.l2Find cl p line).isNone && !d.l2Usable cl p line then d.readUncached cl p line
  else
    let x := d.core c
    let d : Dev := match x.l1dFind line with
      | some _ => d.setCore c (x.l1dHit line)
      | none =>
        let (stream, x) := x.streamMiss line
        if x.victim.contains line then
          ((d.setCore c { x with victim := x.victim.erase line }).bump R.l2_VICTIM_RECALLS cl).l1dFill c p line (hint || stream)
        else
          let d := (d.setCore c x).l2Read cl p line (hint || stream)
          if decide (d.rd R.l2_STATE cl = 2) && decide (d.lstate cl p line ≠ .i) then d.l1dFill c p line (hint || stream) else d
    match d.held cl p line with
    | some l => (l.data, d)
    | none => d.readUncached cl p line

/-! ## Scratchpad and durable window -/

/-- The offset in segment 0xF7 of a line (R432). -/
def spadOff (line : Nat) : Nat := line % 2 ^ 24 * 64

/-- The key of byte 0 of a line in the windows' memory (R153). -/
def winKey (p line : Nat) : Nat := p * 2 ^ 33 + (line * 64 - 0x3E00000000)

/-- The number of a line of pavilion `p`'s window, counted from the window's start. -/
def winLineKey (p line : Nat) : Nat := p * 2 ^ 27 + line

/-- Every byte, tag and poison bit of bank `b` cleared (R431). -/
def Dev.zeroBank (d : Dev) (b : Nat) : Dev :=
  let base := b / 32 * 2 ^ 21 + b % 32 * 8
  let inBank := fun (a : Nat) => decide (base ≤ a) && decide (a < base + 2 ^ 21) && decide (a / 8 % 32 = b % 32)
  d.onMem fun x => { x with spad :=
    { bytes := x.spad.bytes.filter (fun e => !inBank (e.1 / 8 * 8))
      tags := x.spad.tags.filter (fun e => !inBank (e.1 * 16) && !inBank (e.1 * 16 + 8))
      poison := x.spad.poison.filter (fun e => !inBank (e.1 * 8)) } }

/-- A newly assigned bank's clear ends: it holds zeros, and its owner's accesses that waited go on (R436, item 1). -/
def Dev.bankCleared (d : Dev) (b : Nat) : Dev :=
  match d.bank b with
  | .clearing p => ((d.zeroBank b).setBank b (.held p)).bump R.spad_WAKES (b / 32)
  | _ => d

/-- The banks under a line's clears ended, where one is still being cleared: the access waits for it (R436). -/
def Dev.awaitBanks (d : Dev) (line : Nat) : Dev :=
  (List.range 8).foldl (fun d i =>
    match bankOfOff (spadOff line + 8 * i) with
    | some b => d.bankCleared b
    | none => d) d

/-- A line's bytes and tags in scratchpad. The poison of its words is asked separately (R434). -/
def Dev.spadLine (d : Dev) (line : Nat) : Line :=
  { data := BitVec.ofNat 512 (leNat (d.mem.spad.read (spadOff line) 64))
    tags := bv4 (fun i => d.mem.spad.tag (spadOff line / 16 + i)) }

/-- A line's bytes in a durable window, which holds no tags (R156); its poison covers the line (R159). -/
def Dev.winLine (d : Dev) (p line : Nat) : Line :=
  { data := BitVec.ofNat 512 (leNat (d.mem.win.read (winKey p line) 64))
    poison := if d.mem.win.poisoned (winKey p line / 64) then 15 else 0 }

/-- Bytes under a mask written to a scratchpad line of pavilion `p`: tags as `Line.write`, poison cleared for words written whole
(R433, R434). -/
def Dev.spadWrite (d : Dev) (p line : Nat) (mask : BitVec 64) (data : BitVec 512) (tags : BitVec 4) : Dev :=
  let d := d.awaitBanks line
  let o := spadOff line
  let old := d.spadLine line
  let new := old.write mask data tags
  (d.note p line old new).onMem fun x =>
    let s := (List.range 64).foldl (fun s i =>
      if mask.getLsbD i then { s with bytes := Table.set 0 s.bytes (o + i) (BitVec.ofNat 8 (new.get i 1)) } else s) x.spad
    let s := (List.range 4).foldl (fun s i => s.setTag (o / 16 + i) (new.tags.getLsbD i)) s
    let s := (List.range 8).foldl (fun s i =>
      if mask.extractLsb' (8 * i) 8 = 0xFF then s.setPoison (o / 8 + i) false else s) s
    { x with spad := s }

/-- The stores of `who` under a mask of a window line, by 16-byte unit (R155). -/
def winStores (who key : Nat) (mask : BitVec 64) (data : BitVec 512) : List WinStore :=
  (List.range 4).filterMap fun i =>
    let m := granuleMask mask i
    if m = 0 then none else some { by_ := who, unit := 4 * key + i, mask := m, data := data.extractLsb' (128 * i) 128 }

/-- Bytes under a mask performed at the hearth controller for `who` (R154): visible at once, durable later (R155). A write of the
whole line clears its poison (R353). -/
def Dev.winWrite (d : Dev) (who p line : Nat) (mask : BitVec 64) (data : BitVec 512) : Dev :=
  let o := winKey p line
  let old := d.winLine p line
  let new := old.write mask data 0
  (d.note p line old new).onMem fun x =>
    let w := (List.range 64).foldl (fun w i =>
      if mask.getLsbD i then { w with bytes := Table.set 0 w.bytes (o + i) (BitVec.ofNat 8 (new.get i 1)) } else w) x.win
    let w := if mask = BitVec.allOnes 64 then w.setPoison (o / 64) false else w
    { x with win := w, winPend := x.winPend ++ winStores who (o / 64) mask data }

/-- The device as the one who stores to a window. -/
def byDevice : Nat := 256

/-- A store's bytes in what MRAM holds of a window. -/
def WinStore.apply (s : WinStore) (m : List Host.Cell) : List Host.Cell :=
  (List.range 16).foldl (fun m i =>
    if s.mask.getLsbD i then Table.set 0 m (16 * s.unit + i) (s.data.extractLsb' (8 * i) 8) else m) m

/-- A line of a window as MRAM holds it. -/
def Mem.winMram (x : Mem) (key : Nat) : BitVec 512 :=
  BitVec.ofNat 512 (leNat ((List.range 64).map fun i => Table.get 0 x.winDurable (64 * key + i)))

/-- The parity line of a window line's stripe (R159): 16 consecutive lines. -/
def winStripe (key : Nat) : Nat := key / 16

/-- A window line written to MRAM with the stores that are `covered`, its stripe's parity line with it, each once per µs at most
(R157, R159). -/
def Mem.winPut (x : Mem) (key : Nat) (l : List WinStore) : Mem :=
  let old := x.winMram key
  let x := { x with winDurable := l.foldl (fun m (s : WinStore) => s.apply m) x.winDurable }
  let s := winStripe key
  { x with winParity := Table.set 0 x.winParity s (Table.get 0 x.winParity s ^^^ old ^^^ x.winMram key) }

/-- The stores to a window line that await MRAM, of cores in `cs`, are covered by a CBAR (R155, R367): they are durable from here on.
A store stays listed while an earlier one to its unit is uncovered, since MRAM may still hold either. -/
def Dev.winPersist (d : Dev) (key : Nat) (cs : List Nat) : Dev :=
  let d := d.onMem fun x =>
    let l := x.winPend.map fun (s : WinStore) => if s.unit / 4 = key ∧ cs.contains s.by_ then { s with covered := true } else s
    let settled := fun (s : WinStore) => decide (s.unit / 4 = key) && (l.filter fun t => decide (t.unit = s.unit)).all (·.covered)
    let x := x.winPut key (l.filter settled)
    { x with
      winPend := l.filter fun s => !settled s
      winLast := Table.set 0 x.winLast key (d.time + 1)
      parityLast := Table.set 0 x.parityLast (winStripe key) (d.time + 1) }
  d.bump R.hearth_BYTES_WRITTEN (n := 64)

/-- A window line, or its stripe's parity line, was written within the last µs, so its next write waits (R157, R159). -/
def Dev.winWait (d : Dev) (key : Nat) : Bool :=
  let recent := fun (v : Nat) => decide (v ≠ 0) && decide (d.time + 1 < v + 1000)
  recent (Table.get 0 d.mem.winLast key) || recent (Table.get 0 d.mem.parityLast (winStripe key))

/-- A window line that its check bits cannot correct, rebuilt in MRAM from the other 15 lines of its stripe and the parity line
(R159). -/
def Dev.winRebuild (d : Dev) (key : Nat) : Dev :=
  d.onMem fun x =>
    let s := winStripe key
    let v := ((List.range 16).map (16 * s + ·)).foldl (fun a k => if k = key then a else a ^^^ x.winMram k) (Table.get 0 x.winParity s)
    { x with
      winDurable := (List.range 64).foldl (fun m i => Table.set 0 m (64 * key + i) (v.extractLsb' (8 * i) 8)) x.winDurable }

/-- An address added to a log of the 16 latest, newest first (Table 14.6, Table 13.11). -/
def Dev.logAddr (d : Dev) (e : Entry) (p a : Nat) : Dev :=
  d.wr e ((d.rd e 0 p * 2 ^ 64 + a) % 2 ^ 1024) 0 p

/-! ## Stacks and granules (R419, R420) -/

/-- Stack `n` is fitted (R419, Table 14.1). -/
def fitted (n : Nat) : Bool := if Config.is288 then decide (n < 8) else decide (n < 8) && decide (n % 2 = 0)

/-- The device holds granule `g` (Table 14.1). -/
def deviceGranule (g : Nat) : Bool := if Config.is288 then decide (g % 36 = 35) else decide (34 ≤ g % 36)

/-- The pavilion and pavilion-relative address of device address `a`, where some pavilion holds its granule. -/
def Dev.ownerOf (d : Dev) (a : Nat) : Option (Nat × Nat) :=
  ((List.range (64 * 247)).map fun i => (i / 247, i % 247)).findSome? fun e =>
    if d.seg e.1 e.2 = a / 2 ^ 30 then some (e.1, e.2 * 2 ^ 30 + a % 2 ^ 30) else none

/-- The codeword of 32 bytes at device address `a` is uncorrectable: both of its granules are poisoned, and the event is
logged and reported (R427). -/
def Dev.poisonCodeword (d : Dev) (a : Nat) : Dev :=
  let d := d.onMem fun x => { x with main := (x.main.setPoison (a / 16) true).setPoison (a / 16 + 1) true }
  let d := d.bump R.mem_UNCORRECTABLE
  let stack := a / 2 ^ 30 / 36
  match d.ownerOf a with
  | some (p, rel) =>
    (d.logAddr R.mem_POISON_LOG p rel).alert 0x3810 0x08 p stack
  | none =>
    let d := d.alert 0x3810 0x08 0xFF stack
    if deviceGranule (a / 2 ^ 30) then d.faultCause 1 else d

/-! ## What a core's read finds (R426, R427, R434) -/

/-- What a core's read of the word at `a` finds, where it reads memory or a scratchpad bank. -/
def Dev.eccRead (d : Dev) (p a : Nat) (f : EccFinding) : Dev :=
  match f, placeOf a with
  | .good, _ => d
  | _, .window => d
  | f, .memory =>
    if (List.range 18).any fun n => decide (d.lstate n p (a / 64) ≠ .i) then d
    else match f, d.lineAddr p (a / 64) with
      | .uncorrectable, some m => d.poisonCodeword (m + a % 64 / 32 * 32)
      | _, _ => d.bump R.mem_CORRECTED
  | f, .scratchpad =>
    match bankOfOff (a % 2 ^ 30), f with
    | some b, .uncorrectable =>
      let d := (d.awaitBanks (a / 64)).onMem fun x => { x with spad := x.spad.setPoison (a % 2 ^ 30 / 8) true }
      ((d.bump R.spad_UNCORRECTABLE (b / 32)).logAddr R.mem_POISON_LOG p a).alert (0x3800 + b / 32) 0x0B p (b % 32)
    | some b, _ => d.bump R.spad_CORRECTED (b / 32)
    | none, _ => d

/-! ## Loads -/

/-- The merging-buffer entry of a line, if the core has one (R380). -/
def Core.mergeOf (x : Core) (line : Nat) : Option MergeEntry := x.merge.find? fun e => decide (e.line = line)

/-- A line as the core sees it: its own stores ahead of everything else (R357, R379). -/
def Core.overlay (x : Core) (line : Nat) (l : Line) : Line :=
  match x.mergeOf line with
  | some e => l.write e.mask e.data e.tags
  | none => l

/-! ### Loads performed ahead of their place (R358, R359) -/

/-- What a load of `n` bytes from `a` by core `c` may miss: the stores to its line, latest first, after the core's last acquire and
after those that its own accesses to these bytes have met. -/
def Dev.unseen (d : Dev) (c p a n : Nat) : List Past :=
  let x := d.core c
  let lo := (List.range n).foldl (fun m i => max m (Table.get 0 x.readAt (a + i))) x.asOf
  d.mem.past.filter fun e => decide (lo < e.at_) && decide (e.pav = p) && decide (e.line = a / 64)

/-- The core's accesses to `n` bytes from `a` have met the stores up to place `t`. -/
def Core.sawBytes (x : Core) (a n t : Nat) : Core :=
  { x with readAt := (List.range n).foldl (fun r i => Table.set 0 r (a + i) t) x.readAt }

/-- A load of `n` bytes from `a`, performed ahead of `back` of the stores that it may miss: what its line held before them, where
there are any. -/
def Dev.ahead (d : Dev) (c p a n back : Nat) : Option Line × Dev :=
  match d.unseen c p a n with
  | [] => (none, d)
  | e :: t =>
    if back = 0 then (none, d.onCore c (·.sawBytes a n d.mem.clock))
    else
      let v := (e :: t).getD (min (back - 1) t.length) e
      (some v.was, d.onCore c (·.sawBytes a n (v.at_ - 1)))

/-- A load is performed, and the store that it returns is the latest that the core's later accesses must follow, where it is an
acquire (R360). -/
def Dev.acquired (d : Dev) (c p a n : Nat) : Dev :=
  let t := if (d.unseen c p a n).isEmpty then d.mem.clock
    else (List.range n).foldl (fun m i => max m (Table.get 0 (d.core c).readAt (a + i))) (d.core c).asOf
  d.onCore c fun x => { x with asOf := max x.asOf t }

/-- A load of core `c` of a line of main memory observes a store that is not visible to every core yet (R361, R365). -/
def Dev.observe (d : Dev) (c p line : Nat) : Dev :=
  if d.pinned p line then d.onCore c fun x =>
    { x with observed := if x.observed.contains line then x.observed else x.observed ++ [line] } else d

/-- A trap that an access raises, with the device as the access leaves it where it has gone some way. -/
structure Stop extends Trap where
  left : Option Dev := none
deriving DecidableEq, Repr

/-- A trap that leaves the device as it was. -/
def Trap.stop (t : Trap) : Stop := { toTrap := t }

/-- `n` bytes from offset `o` of a scratchpad line meet a poisoned word that the core's own stores do not cover whole. -/
def Dev.spadPoison (d : Dev) (x : Core) (line o n : Nat) : Bool :=
  let own : BitVec 64 := ((x.mergeOf line).map (·.mask)).getD 0
  (List.range 8).any fun i =>
    decide ((maskOf o n).extractLsb' (8 * i) 8 ≠ 0) && d.mem.spad.poisoned (spadOff line / 8 + i) &&
      decide (own.extractLsb' (8 * i) 8 ≠ 0xFF)

/-- The line at `a / 64` as core `c` would load it now, its own buffered stores apart, and whether the `n` bytes from `a` are
poisoned in it. -/
def Dev.lineNow (d : Dev) (c p a n : Nat) (hint : Bool) : Line × Bool × Dev :=
  let line := a / 64
  match placeOf a with
  | .memory =>
    let (l, d) := d.cachedLine c p line hint
    (l, ((d.core c).overlay line l).poisonAt (a % 64) n, d.observe c p line)
  | .scratchpad =>
    let d := d.awaitBanks line
    (d.spadLine line, d.spadPoison (d.core c) line (a % 64) n, d)
  | .window =>
    let l := d.winLine p line
    (l, l.poisonAt (a % 64) n && decide ((((d.core c).mergeOf line).map (·.mask)) ≠ some (BitVec.allOnes 64)), d)

/-- The machine-check unit of an address (Table 11.7). -/
def mcUnit (a : Nat) : Nat := match placeOf a with | .memory => 1 | .scratchpad => 2 | .window => 3

/-- A piece of one line that core `c` loads as one access: `n` bytes from address `a`, which is mapped, performed ahead of `back`
stores that it may miss. Poisoned data raises machine check class 0x01 (Table 11.7), with the line cached like any other (R378). -/
def Dev.loadPiece (d : Dev) (c p a n : Nat) (hint : Bool) (back : Nat := 0) : Except Stop (Bytes × Bool × Dev) :=
  let line := a / 64
  let o := a % 64
  let (now, bad, d) := d.lineNow c p a n hint
  let (old, d) := d.ahead c p a n back
  let l := (d.core c).overlay line (old.getD now)
  let bad := match old with | some _ => l.poisonAt o n | none => bad
  if bad then .error { num := 0x1F, fault := a, cls := 1, unit := mcUnit a, left := some d }
  else .ok (leBytes n (l.get o n), l.tags.getLsbD (o / 16) && decide (placeOf a ≠ .window), d)

/-- The pieces of `n` bytes from `a` that lie in one aligned unit of `w` bytes each: address and length. -/
def pieces (w : Nat) : Nat → Nat → Nat → List (Nat × Nat)
  | 0, _, _ => []
  | fuel + 1, a, n => if n = 0 then [] else
      let k := min n (w - a % w)
      (a, k) :: pieces w fuel (a + k) (n - k)

/-- Pieces loaded in rising order, each an access of its own. -/
def loadPieces (c p : Nat) (hint : Bool) : List (Nat × Nat) → List Nat → Dev → Bytes → Except Stop (Bytes × Dev)
  | [], _, d, acc => .ok (acc, d)
  | e :: t, back, d, acc =>
    match d.loadPiece c p e.1 e.2 hint (back.headD 0) with
    | .error x => .error x
    | .ok (b, _, d) => loadPieces c p hint t back.tail d (acc ++ b)

/-- `n` bytes from `a` loaded by core `c` of pavilion `p` as 8-byte accesses, or smaller ones at the ends (R358); every byte is
mapped. -/
def Dev.loadBytes (d : Dev) (c p a n : Nat) (hint : Bool := false) (back : List Nat := []) : Except Stop (Bytes × Dev) :=
  loadPieces c p hint (pieces 8 (n + 1) a n) back d []

/-- The capability at `a`, a multiple of 16, with its tag as stored, as one access (R258). -/
def Dev.loadCap (d : Dev) (c p a : Nat) (back : Nat := 0) : Except Stop (Cap × Dev) :=
  match d.loadPiece c p a 16 false back with
  | .error x => .error x
  | .ok (b, tag, d) => .ok (Cap.ofBytes b tag, d)

/-! ## Stores -/

/-- The bytes of a line under a mask, as their addresses. -/
def maskBytes (line : Nat) (mask : BitVec 64) : List Nat :=
  (List.range 64).filterMap fun i => if mask.getLsbD i then some (64 * line + i) else none

/-- Core `c` has written bytes of a line: its later loads of them return this store or a later one (R357), and its CBAR brings a
line of main memory to the memory controller (R366). -/
def Dev.wrote (d : Dev) (c line : Nat) (mask : BitVec 64) : Dev :=
  d.onCore c fun x => { x with
    readAt := (maskBytes line mask).foldl (fun r a => Table.set 0 r a d.mem.clock) x.readAt
    stored := if x.stored.contains line || decide (placeOf (64 * line) ≠ .memory) then x.stored else x.stored ++ [line] }

/-- A line written by `f` in the L2 of core `c`, which owns it (R381): the copies of the other cores go first. A lookup that hit
makes the line young (R388). -/
def Dev.writeL2 (d : Dev) (c k : Nat) (hit : Bool) (f : Line → Line) : Dev :=
  let own : BitVec 17 := (1 : BitVec 17) <<< d.slotOf c
  let d := d.dropL1 (clusterOf c) (d.l2At k).line (d.l2At k).slots c
  let l := d.l2At k
  (d.note l.pav l.line l.data (f l.data)).setL2 k
    { l with st := .d, age := if hit then 0 else l.age, slots := l.slots &&& own, data := f l.data }

/-- An L2 lookup for writing (R388): whether it hits, with the line obtained and owned; no key where the L2 allocates no line for
it (R416). A store may be read by its cluster before other clusters' copies are gone (R397). -/
def Dev.l2Own (d : Dev) (c p line : Nat) (hint : Bool) : Option Nat × Bool × Dev :=
  let cl := clusterOf c
  if d.lstate cl p line = .i && !d.l2Usable cl p line then (none, false, d)
  else
    let hit := decide (d.lstate cl p line ≠ .i)
    let d := if hit then d.bump R.l2_L2_HITS cl else d.bump R.l2_L2_MISSES cl
    let d := (d.obtainOwned cl p line hint).observe c p line
    (d.l2Find cl p line, hit, d)

/-- A merging-buffer entry performed: in the L2, which holds the line in D or X or obtains it, or uncached at the home; at
the bank; or at the hearth controller (R154, R380, R381, R416). -/
def Dev.perform (d : Dev) (c p : Nat) (e : MergeEntry) : Dev :=
  match placeOf (e.line * 64) with
  | .memory =>
    match d.l2Own c p e.line e.hint with
    | (some k, hit, d) => d.writeL2 c k hit fun l => l.write e.mask e.data e.tags
    | (none, _, d) =>
      d.request { kind := .wru, agent := clusterOf c, pav := p, line := e.line, unc := .write e.mask e.data e.tags }
  | .scratchpad => d.spadWrite p e.line e.mask e.data e.tags
  | .window => d.winWrite c p e.line e.mask e.data

/-- The entry at place `i` leaves the merging buffer and is performed (R380). -/
def Dev.drainAt (d : Dev) (c p i : Nat) : Dev :=
  match (d.core c).merge[i]? with
  | none => d
  | some e => ((d.onCore c fun x => { x with merge := x.merge.eraseIdx i }).perform c p e).wrote c e.line e.mask

/-- Every entry of the merging buffer drained, oldest first. -/
def drainLoop : Nat → Dev → Nat → Nat → Dev
  | 0, d, _, _ => d
  | n + 1, d, c, p => if (d.core c).merge.isEmpty then d else drainLoop n (d.drainAt c p 0) c p

/-- Every committed store of core `c` performed. -/
def Dev.drainAll (d : Dev) (c p : Nat) : Dev := drainLoop 16 d c p

/-- The core's own stores to a line performed. -/
def Dev.drainLine (d : Dev) (c p line : Nat) : Dev :=
  match (d.core c).merge.findIdx? (fun e => decide (e.line = line)) with
  | some i => d.drainAt c p i
  | none => d

/-- A store of part of one line commits into the merging buffer (R379, R380), and updates the L1D where that holds the line. With
all 16 entries in use it waits until one has drained: the oldest. -/
def Dev.storePiece (d : Dev) (c p a : Nat) (b : Bytes) (tagged : Bool) (hint : Bool := false) : Dev :=
  let line := a / 64
  let o := a % 64
  let m := maskOf o b.length
  let v := BitVec.ofNat 512 (leNat b * 2 ^ (8 * o))
  let d := if ((d.core c).mergeOf line).isSome || decide ((d.core c).merge.length < 16) then d else d.drainAt c p 0
  d.onCore c fun x =>
    let x := x.l1dHit line
    match x.mergeOf line with
    | some e =>
      let e' : MergeEntry :=
        { line := line
          hint := e.hint && hint
          data := (e.data &&& ~~~ byteMask m) ||| (v &&& byteMask m)
          mask := e.mask ||| m
          tags := bv4 fun i => if granuleMask m i = 0 then e.tags.getLsbD i else tagged }
      { x with merge := x.merge.map fun q => if q.line = line then e' else q }
    | none =>
      { x with merge := x.merge ++ [{ line := line, hint := hint, data := v, mask := m, tags := bv4 fun i => tagged && decide (granuleMask m i ≠ 0) }] }

/-- Pieces stored in rising order. -/
def storePieces (c p : Nat) (hint : Bool) : List (Nat × Nat) → Dev → Bytes → Dev
  | [], d, _ => d
  | e :: t, d, b => storePieces c p hint t (d.storePiece c p e.1 (b.take e.2) false hint) (b.drop e.2)

/-- Bytes stored as data from `a` by core `c` (R32). -/
def Dev.storeBytes (d : Dev) (c p a : Nat) (b : Bytes) (hint : Bool := false) : Dev :=
  storePieces c p hint (pieces 64 (b.length + 1) a b.length) d b

/-- A capability stored with its tag at `a`, a multiple of 16 (R258). -/
def Dev.storeCap (d : Dev) (c p a : Nat) (v : Cap) : Dev := d.storePiece c p a v.bytes v.tag

/-! ## Device accesses (R35, R390) -/

/-- The agent number of the hub engines. -/
def hubAgent : Nat := 16

/-- The agent number of the cluster movers. -/
def moverAgent : Nat := 17

/-- The scratchpad words of a line under a mask, by their place in the line. -/
def maskWords (mask : BitVec 64) : List Nat := (List.range 8).filter fun i => decide (mask.extractLsb' (8 * i) 8 ≠ 0)

/-- The DMA port's accesses to the words of a scratchpad line under a mask (R437, R438): any of them may meet a core's access to its
bank in the same bank cycle, and is then deferred to the next. How many do is a matter of timing, so a free value. -/
def Dev.dmaPort (d : Dev) (line : Nat) (mask : BitVec 64) : Dev :=
  let ws := maskWords mask
  match ws.head?.bind fun i => bankOfOff (spadOff line + 8 * i) with
  | none => d
  | some b =>
    let (n, d) := d.draw
    d.onMem fun x => { x with
      deferrals := Table.set 0 x.deferrals (b / 32) (min (Table.get 0 x.deferrals (b / 32) + Config.free n % (ws.length + 1)) (2 ^ 64 - 1)) }

/-- A device agent's write of words that it has lost to core writes in the same bank cycle (R439): the words are discarded whole and
counted. The mover's lost words are kept in its job. -/
def Dev.dmaDiscard (d : Dev) (agent p line : Nat) (mask : BitVec 64) : BitVec 64 × Dev :=
  if agent = moverAgent then (mask, d)
  else
    let hit := (maskWords mask).filter fun i => d.mem.dmaLost.contains (p, 64 * line + 8 * i)
    (hit.foldl (fun m i => m &&& ~~~ maskOf (8 * i) 8) mask,
     hit.foldl (fun d i =>
      let d := d.onMem fun x => { x with dmaLost := x.dmaLost.erase (p, 64 * line + 8 * i) }
      match bankOfOff (spadOff line + 8 * i) with
      | some b => (d.bump R.spad_WORDS_LOST (b / 32)).bump R.spad_OWN_WORDS_LOST (b / 32) p
      | none => d) d)

/-- A piece of one line read by a device agent: its bytes, the tag of its first granule, and whether it is poisoned. -/
def Dev.devPiece (d : Dev) (agent p a n : Nat) : Bytes × Bool × Bool × Dev :=
  let line := a / 64
  let o := a % 64
  match placeOf a with
  | .memory =>
    let (l, d) := d.agentRead agent p line
    (leBytes n (l.get o n), l.tags.getLsbD (o / 16), l.poisonAt o n, d)
  | .scratchpad =>
    let d := (d.awaitBanks line).dmaPort line (maskOf o n)
    let l := d.spadLine line
    (leBytes n (l.get o n), l.tags.getLsbD (o / 16), d.spadPoison {} line o n, d)
  | .window =>
    let l := d.winLine p line
    (leBytes n (l.get o n), false, l.poisonAt o n, d)

/-- Pieces read by a device agent, and whether any is poisoned. -/
def devPieces (agent p : Nat) : List (Nat × Nat) → Dev → Bytes → Bool → Bytes × Bool × Dev
  | [], d, acc, bad => (acc, bad, d)
  | e :: t, d, acc, bad =>
    let (b, _, x, d) := d.devPiece agent p e.1 e.2
    devPieces agent p t d (acc ++ b) (bad || x)

/-- `n` bytes from `a` read by a device agent for pavilion `p`, with whether poisoned data was met. -/
def Dev.devRead (d : Dev) (p a n : Nat) (agent : Nat := hubAgent) : Bytes × Bool × Dev :=
  devPieces agent p (pieces 64 (n + 1) a n) d [] false

/-- The capability at `a` as a device agent reads it. -/
def Dev.devCap (d : Dev) (p a : Nat) (agent : Nat := hubAgent) : Cap × Dev :=
  let (b, tag, _, d) := d.devPiece agent p a 16
  (Cap.ofBytes b tag, d)

/-- A piece of one line written by a device agent with its tags cleared (R35). -/
def Dev.devPut (d : Dev) (agent p a : Nat) (b : Bytes) : Dev :=
  let o := a % 64
  let m := maskOf o b.length
  let v := BitVec.ofNat 512 (leNat b * 2 ^ (8 * o))
  match placeOf a with
  | .memory => d.agentWrite agent p (a / 64) fun l => l.write m v 0
  | .scratchpad =>
    let (m, d) := d.dmaDiscard agent p (a / 64) m
    (d.dmaPort (a / 64) m).spadWrite p (a / 64) m v 0
  | .window => d.winWrite byDevice p (a / 64) m v

/-- Pieces written by a device agent. -/
def devPuts (agent p : Nat) : List (Nat × Nat) → Dev → Bytes → Dev
  | [], d, _ => d
  | e :: t, d, b => devPuts agent p t (d.devPut agent p e.1 (b.take e.2)) (b.drop e.2)

/-- Bytes written from `a` by a device agent for pavilion `p`. -/
def Dev.devWrite (d : Dev) (p a : Nat) (b : Bytes) (agent : Nat := hubAgent) : Dev :=
  devPuts agent p (pieces 64 (b.length + 1) a b.length) d b

/-- The unit at `a` poisoned: a granule of main memory, a word of scratchpad or a line of a window. -/
def Dev.devPoison (d : Dev) (p a : Nat) (agent : Nat := hubAgent) : Dev :=
  match placeOf a with
  | .memory => d.agentWrite agent p (a / 64) fun l => { l with poison := l.poison ||| bv4 fun i => decide (i = a % 64 / 16) }
  | .scratchpad => d.onMem fun x => { x with spad := x.spad.setPoison (a % 2 ^ 30 / 8) true }
  | .window => d.onMem fun x => { x with win := x.win.setPoison (winKey p (a / 64) / 64) true }

end Sys2Proof.Machine
end

