-- ==== Sys2Proof/Machine/Ops.lean ====
section
/-! DEFINITION. Machine/Ops.lean: the registers of a core, the checks of an access, taking a trap and returning from one,
and how an instruction commits (chapters 8, 11 and 12). -/

namespace Sys2Proof.Machine

/-! ## Registers (R245 to R249) -/

/-- The physical register of w(i) in the current window: group (WBASE + i div 8) mod 33 (R249). -/
def Arch.winIndex (a : Arch) (i : Nat) : Nat := 8 * ((a.wbase + i / 8) % 33) + i % 8

/-- The general register that a 5-bit field selects (Table 8.2). -/
def Arch.gpr (a : Arch) (field : BitVec 5) : PReg :=
  if field.toNat < 8 then .k field.toNat else .win (a.winIndex (field.toNat - 8))

/-- A core-local bit (Table 8.6). -/
def Arch.bit (a : Arch) (n : Nat) : Bool := a.bits.getLsbD n

/-- A bit vector with bit `n` replaced. -/
def putBit (b : BitVec 4096) (n : Nat) (v : Bool) : BitVec 4096 :=
  if v then b ||| ((1 : BitVec 4096) <<< n) else b &&& ~~~((1 : BitVec 4096) <<< n)

/-- The value of a register as the register file holds it. k0 reads as zero (R246). -/
def Arch.get (a : Arch) : PReg → Word
  | .k i => if i = 0 then 0 else Table.get 0 a.k i
  | .win i => Table.get 0 a.win i
  | .fp i => Table.get 0 a.f i
  | .z => if a.bit 0 then 1 else 0
  | .cap _ => 0

/-- A capability register as the register file holds it. c0 reads null (R246). -/
def Arch.getCap (a : Arch) (i : Nat) : Cap := if i = 0 then {} else Table.get {} a.caps i

/-- A register of the file written. Writes to k0 and c0 are discarded (R246). -/
def Arch.put (a : Arch) (r : PReg) (v : Word) (c : Cap) : Arch :=
  match r with
  | .k i => if i = 0 then a else { a with k := Table.set 0 a.k i v }
  | .win i => { a with win := Table.set 0 a.win i v }
  | .fp i => { a with f := Table.set 0 a.f i v }
  | .z => { a with bits := putBit a.bits 0 (v.getLsbD 0) }
  | .cap i => if i = 0 then a else { a with caps := Table.set {} a.caps i c }

/-- A register as the program reads it: the result of an earlier floating-point operation that has not signalled stands
for what the file holds. k0 reads as zero (R246). -/
def Core.get (x : Core) (r : PReg) : Word :=
  if r = .k 0 then 0
  else match x.fpq.reverse.find? (fun o => decide (o.dest = some r)) with
    | some o => o.value
    | none => x.arch.get r

/-- A general register read by its field (R247). -/
def Core.gr (x : Core) (field : BitVec 5) : Word := x.get (x.arch.gpr field)

/-- A floating-point register read. -/
def Core.fr (x : Core) (field : BitVec 5) : Word := x.get (.fp field.toNat)

/-- Capability register `i` read. -/
def Core.cr (x : Core) (i : Nat) : Cap := x.arch.getCap i

/-- A destination taken over by a later instruction: a load value owed to it is lost (R269), and an earlier
floating-point operation no longer writes it. -/
def Core.claim (x : Core) (r : PReg) : Core :=
  { x with
    arch := { x.arch with owed := x.arch.owed.filter fun o => decide (o.reg ≠ r) }
    fpq := x.fpq.map fun o => if o.dest = some r then { o with dest := none } else o }

/-- A register written by an instruction. -/
def Core.wr (x : Core) (r : PReg) (v : Word) : Core :=
  let x := x.claim r
  { x with arch := x.arch.put r v {} }

/-- A general register written by its field (R247). -/
def Core.wgr (x : Core) (field : BitVec 5) (v : Word) : Core := x.wr (x.arch.gpr field) v

/-- Capability register `i` written. -/
def Core.wcr (x : Core) (i : Nat) (v : Cap) : Core :=
  let x := x.claim (.cap i)
  { x with arch := x.arch.put (.cap i) 0 v }

/-- A core-local bit written. A write of Z takes over a load value owed to it. -/
def Core.wbit (x : Core) (n : Nat) (v : Bool) : Core :=
  let x := if n = 0 then x.claim .z else x
  { x with arch := { x.arch with bits := putBit x.arch.bits n v } }

/-- Load values written to their destinations (R267, R268). -/
def Core.settleOwed (x : Core) : Core :=
  let a := x.arch.owed.foldl (fun a o => a.put o.reg o.word o.cap) x.arch
  { x with arch := { a with owed := [] } }

/-- The load values owed to registers that the next instruction's loads write are lost (R269). -/
def Core.dropOwed (x : Core) (next : List Owed) : Core :=
  { x with arch := { x.arch with owed := x.arch.owed.filter fun o => !next.any fun n => decide (n.reg = o.reg) } }

/-- WRING (Table 8.3). -/
def Arch.wring (a : Arch) : Nat := a.wold * 256 + a.wbase

/-- The resident count N (R250). -/
def Arch.resident (a : Arch) : Nat := (a.wbase + 33 - a.wold) % 33 / 2 + 1

/-- WBASE and WOLD are legal (R250, R272). -/
def wringLegal (wbase wold : Nat) : Bool :=
  decide (wbase ≤ 32) && decide (wold ≤ 32) && decide ((wbase + 33 - wold) % 33 % 2 = 0) && decide ((wbase + 33 - wold) % 33 ≤ 30)

/-! ## Capability checks (R34, R257) -/

/-- Bits of PERMS (Table 2.2). -/
def permLD : BitVec 8 := 0x80
/-- Bits of PERMS (Table 2.2). -/
def permST : BitVec 8 := 0x40
/-- Bits of PERMS (Table 2.2). -/
def permEX : BitVec 8 := 0x20
/-- Bits of PERMS (Table 2.2). -/
def permLDC : BitVec 8 := 0x10
/-- Bits of PERMS (Table 2.2). -/
def permSTC : BitVec 8 := 0x08
/-- Bits of PERMS (Table 2.2). -/
def permSYS : BitVec 8 := 0x04
/-- Bits of PERMS (Table 2.2). -/
def permDEV : BitVec 8 := 0x02
/-- Bits of PERMS (Table 2.2). -/
def permSEAL : BitVec 8 := 0x01

/-- A capability carries every permission of a mask. -/
def Cap.has (c : Cap) (m : BitVec 8) : Bool := decide (c.perms &&& m = m)

/-- The root capability of a pavilion (R36). -/
def rootCap : Cap := { tag := true, perms := 0xFF, len := 0x3FFFFFFFFF }

/-- `n` bytes from `a` lie in a capability's range (R31). -/
def Cap.covers (c : Cap) (a n : Nat) : Bool :=
  decide (c.base.toNat ≤ a) && decide (a + n ≤ c.base.toNat + c.len.toNat)

/-- The first failing check of R34 for `n` bytes at `a`: its trap. -/
def Cap.check (c : Cap) (a n : Nat) (perms : BitVec 8) (align : Nat) : Option Nat :=
  if !c.tag then some 0x02
  else if c.otype ≠ 0 then some 0x05
  else if !c.has perms then some 0x04
  else if !c.covers a n then some 0x03
  else if a % align ≠ 0 then some 0x06
  else none

/-- An access of `n` bytes at an exact sum `ea` through a capability: its address, or the trap of R257, R34 or R423. -/
def Dev.access (d : Dev) (p : Nat) (cap : Cap) (ea : Int) (n : Nat) (perms : BitVec 8) (align : Nat) : Except Stop Nat :=
  if ea < 0 ∨ 2 ^ 38 ≤ ea then .error { num := 0x03, fault := (ea % 2 ^ 38).toNat }
  else
    let a := ea.toNat
    match cap.check a n perms align with
    | some t => .error { num := t, fault := a }
    | none =>
      match d.firstUnmapped p a n with
      | some u => .error { num := 0x03, fault := u }
      | none => .ok a

/-! ## Floating-point signalling (R329, R330) -/

/-- Flags raised: bit i of `flags` sets core-local bit 0x008 + i (Table 10.3). -/
def Core.raise (x : Core) (flags : BitVec 5) : Core :=
  { x with arch := { x.arch with bits := x.arch.bits ||| (flags.setWidth 4096 <<< 8) } }

/-- The enables in force: core-local bits 0x018 to 0x01C (Table 10.3). -/
def Core.fpEnables (x : Core) : BitVec 5 := x.arch.bits.extractLsb' 0x18 5

/-- The earliest operation signals: its result and flags are written, and an enabled flag makes trap 0x0A pending. -/
def Core.signal (x : Core) : Core :=
  match x.fpq with
  | [] => x
  | o :: q =>
    let x := { x with fpq := q }
    let x : Core := match o.dest with
      | some r => { x with arch := x.arch.put r o.value {} }
      | none => x
    let x := x.raise o.flags
    let x := { x with checkpoint := x.arch }
    if o.flags &&& o.enables ≠ 0 then { x with fpTrap := some (x.fpTrap.getD o.cursor) } else x

/-- Every issued operation signals (R332). -/
def Core.signalAll (x : Core) : Core := x.fpq.foldl (fun x _ => x.signal) x

/-! ## The wedge (R346) -/

/-- The core wedges: its stores drain, issue stops, doorbell 0x01FFF is set and the estate alert names core and cause
(Table 11.4). -/
def Dev.wedge (d : Dev) (c p cause : Nat) : Dev :=
  let d := (d.drainAll c p).onCore c fun x => { x with run := .wedged, waiting := none }
  (d.ring p 0x1FFF).alert (0x3000 + clusterOf c) 0x04 p (c + 256 * cause)

/-! ## Taking a trap (R336 to R345) -/

/-- TTB is usable for entry `n` (R336). -/
def Dev.ttbUsable (d : Dev) (p : Nat) (t : Cap) (n : Nat) : Bool :=
  (t.check (t.cursor.toNat + 16 * n) 16 (permLD ||| permLDC) 1).isNone && decide (t.cursor.toNat % 16 = 0) &&
    (d.firstUnmapped p (t.cursor.toNat + 16 * n) 16).isNone

/-- A trap-table entry is usable (R336). -/
def Cap.entryUsable (e : Cap) : Bool :=
  e.tag && decide (e.otype = 1) && e.has permEX && decide (e.cursor.toNat % 4 = 0) && e.covers e.cursor.toNat 4

/-- Entry `n` of the trap table, where it is usable. Poisoned data yields none (notes/assumptions/8). -/
def Dev.trapEntry (d : Dev) (c p n : Nat) : Option Cap × Dev :=
  match d.loadCap c p ((d.core c).arch.ttb.cursor.toNat + 16 * n) with
  | .ok (e, d) => (if e.entryUsable then some e else none, d)
  | .error _ => (none, d)

/-- A capability can take a frame below its cursor (R342), in mapped memory. -/
def Dev.takesFrame (d : Dev) (p : Nat) (s : Cap) : Bool :=
  let a := s.cursor.toNat
  s.tag && decide (s.otype = 0) && s.has (permST ||| permSTC) && decide (a % 16 = 0) && decide (256 ≤ a) &&
    s.covers (a - 256) 256 && (d.firstUnmapped p (a - 256) 256).isNone

/-- The words of a frame after its capability slots (Table 11.2). -/
def frameData (a : Arch) (cause orig fflags : Nat) (t : Trap) : Bytes :=
  (List.range 7).flatMap (fun i => leBytes 8 (a.get (.k (i + 1))).toNat) ++
    leBytes 1 cause ++ leBytes 1 orig ++ leBytes 2 fflags ++ leBytes 4 (t.cls + 256 * t.unit) ++ leBytes 8 t.fault ++
    leBytes 8 (a.bits.toNat % 2 ^ 64) ++ leBytes 8 a.wring ++ zeros 8

/-- A frame written at `base` (Table 11.2): the capability slots with their tags, the rest as data. -/
def Dev.pushFrame (d : Dev) (c p base : Nat) (pcc : Cap) (cause orig fflags : Nat) (t : Trap) : Dev :=
  let a := (d.core c).arch
  let slots := [pcc, a.getCap 15] ++ (List.range 8).map (fun i => a.getCap (i + 1))
  let d := (slots.zipIdx).foldl (fun d s => d.storeCap c p (base + 16 * s.2) s.1) d
  (d.storeBytes c p (base + 160) (frameData a cause orig fflags t)).drainAll c p

/-- Core-local bit IE (Table 8.6). -/
def ieBit : Nat := 0x004

/-- The trap 0x0A that is due: one that waits for a machine-check handler's ERET is not (R331). -/
def Core.fpDue (x : Core) : Option (BitVec 38) := if x.fpHeld.isSome then none else x.fpTrap

/-- How many handlers stand between the core and the ERET that its pending trap 0x0A waits for, once trap `num` is taken (R331). -/
def Core.holdFp (x : Core) (num : Nat) : Option Nat :=
  match x.fpHeld with
  | some n => some (n + 1)
  | none => if num = 0x1F ∧ x.fpTrap.isSome then some 0 else none

/-- Step 7 of R341 for the trap taken, and the handler entered at `entry`. The read of the doorbell that trap 0x10 records is an
acquire (R371). -/
def Dev.enterHandler (d : Dev) (c : Nat) (t : Trap) (entry csp : Cap) (shelter : Bool) : Dev :=
  d.onCore c fun x =>
    let x := (x.wcr 15 csp).wbit ieBit false
    let a := x.arch
    let a := if shelter then { a with shs := csp } else a
    let a := if t.num = 0x10 then { a with arm := putBit a.arm (t.fault % 4096) false } else a
    let a := if t.num = 0x11 then { a with tcmp := 0xFFFFFFFFFFFFFFFF } else a
    let a := { a with pcc := { entry with otype := 0 } }
    { x with
      arch := a
      checkpoint := a
      fpTrap := if t.num = 0x0A then none else x.fpTrap
      fpHeld := x.holdFp t.num
      asOf := if t.num = 0x10 then d.mem.clock else x.asOf
      mchecks := if t.num = 0x1F ∧ 3 ≤ t.cls then x.mchecks.erase t.cls else x.mchecks
      waiting := none }

/-- Core `c` of pavilion `p` takes a trap: the entry of R341, with the shelter stack (R345), the replacement of an unused
system call (R337) and the wedge (R346). -/
def Dev.takeTrap (d : Dev) (c p : Nat) (t0 : Trap) : Dev :=
  let d := d.onCore c (·.signalAll)
  let t : Trap := match (d.core c).fpDue with
    | some cur => if t0.num = 0x1F ∨ t0.num = 0x0A then t0 else { num := 0x0A, fault := cur.toNat }
    | none => t0
  let d := (d.onCore c (·.settleOwed)).drainAll c p
  let d := if t.num = 0x1F ∧ t.cls ≤ 2 then
      d.alert (0x3000 + clusterOf c) 0x04 p (c + 2 ^ 16 * t.cls) else d
  let a := (d.core c).arch
  if !d.ttbUsable p a.ttb t.num then d.wedge c p 1
  else
    let (e, d) := d.trapEntry c p t.num
    -- an unused system call becomes trap 0x01 at the TRAP (R337)
    let t' : Trap := if e.isNone && decide (0x40 ≤ t.num) then { num := 0x01, fault := a.pcc.cursor.toNat } else t
    let (e, d) := if t'.num = t.num then (e, d) else d.trapEntry c p 0x01
    if !d.ttbUsable p a.ttb t'.num then d.wedge c p 1
    else match e with
    | none => d.wedge c p 2
    | some e =>
      let pcc := if t'.next then { a.pcc with cursor := a.pcc.cursor + 4 } else a.pcc
      let fpPending := if (d.core c).fpTrap.isSome ∧ t'.num ≠ 0x0A then 2 else 0
      let csp := a.getCap 15
      if d.takesFrame p csp then
        let d := d.pushFrame c p (csp.cursor.toNat - 256) pcc t'.num 0 fpPending t'
        d.enterHandler c t' e { csp with cursor := csp.cursor - 256 } false
      else if !d.takesFrame p a.shs then d.wedge c p 3
      else if !d.ttbUsable p a.ttb 0x0C then d.wedge c p 1
      else
        match d.trapEntry c p 0x0C with
        | (none, d) => d.wedge c p 2
        | (some e, d) =>
          let d := d.pushFrame c p (a.shs.cursor.toNat - 256) pcc 0x0C t'.num (1 + fpPending) t'
          d.enterHandler c t' e { a.shs with cursor := a.shs.cursor - 256 } true

/-! ## Traps that are due at a boundary (Table 11.3) -/

/-- The armed doorbell of lowest address that is 1 (R265). -/
def Dev.armedDoorbell (d : Dev) (c p : Nat) : Option Nat :=
  if (d.core c).arch.arm = 0 then none
  else ((d.mem.bits.map (·.1)).filter fun k => decide (bitKey p 0x1000 ≤ k) && decide (k < bitKey p 0x2000)).find?
    (fun k => (d.core c).arch.arm.getLsbD (k % 4096)) |>.map (· % 2 ^ 18)

/-- TIME has reached TCMP (R273). -/
def Dev.timerDue (d : Dev) (c : Nat) : Bool := decide ((d.core c).arch.tcmp.toNat ≤ d.time)

/-- The pending trap 0x0A, as a trap to be taken. -/
def Core.fpTrapDue (x : Core) : Option Trap := x.fpDue.map fun cur => { num := 0x0A, fault := cur.toNat }

/-- The machine check or the pending trap 0x0A due at a boundary, whatever IE holds. Both twins of a pair take trap 0x0A at one
instruction, the next exchange (R351, R474). -/
def Dev.uncondTrap (d : Dev) (c : Nat) : Option Trap :=
  match (d.core c).mchecks with
  | k :: _ => some { num := 0x1F, fault := 0, cls := k }
  | [] => if (d.core c).twin.isSome then none else (d.core c).fpTrapDue

/-- The interrupt due at a boundary: doorbell first, then timer, while IE is 1. -/
def Dev.interrupt (d : Dev) (c p : Nat) : Option Trap :=
  if !(d.core c).arch.bit ieBit then none
  else match d.armedDoorbell c p with
    | some b => some { num := 0x10, fault := b }
    | none => if d.timerDue c then some { num := 0x11, fault := (d.core c).arch.tcmp.toNat } else none

/-- The trap taken at a boundary before the next instruction. Interrupts reach a twin only at exchanges (R474). -/
def Dev.dueTrap (d : Dev) (c p : Nat) : Option Trap :=
  match d.uncondTrap c with
  | some t => some t
  | none => if (d.core c).twin.isSome then none else d.interrupt c p

/-! ## Fetch (R255, R382) -/

/-- An entry of the L1I. -/
def Core.l1iAt (x : Core) (k : Nat) : L1ILine := Table.get {} x.l1i k

/-- An entry of the L1I written. -/
def Core.setL1i (x : Core) (k : Nat) (l : L1ILine) : Core := { x with l1i := Table.set {} x.l1i k l }

/-- The L1I way that holds a line. -/
def Core.l1iFind (x : Core) (line : Nat) : Option Nat :=
  ((List.range 4).map (line % 256 * 4 + ·)).find? fun k => (x.l1iAt k).valid && decide ((x.l1iAt k).line = line)

/-- The way of an L1I set that a fill takes (R384). -/
def Core.l1iVictim (x : Core) (line : Nat) : Nat × Core :=
  let base := line % 256 * 4
  match (List.range 4).find? (fun w => !(x.l1iAt (base + w)).nru) with
  | some w => (base + w, x)
  | none => (base, (List.range 4).foldl (fun x w => x.setL1i (base + w) { x.l1iAt (base + w) with nru := false }) x)

/-- The line of instructions at `line` in the L1I, filled where it is not there; only main memory is cached (R376). -/
def Dev.fillLine (d : Dev) (c p line : Nat) : Line × Dev :=
  let x := d.core c
  match placeOf (line * 64) with
  | .scratchpad => let d := d.awaitBanks line
    ({ d.spadLine line with poison := if d.spadPoison {} line 0 64 then 15 else 0 }, d)
  | .window => (d.winLine p line, d)
  | .memory =>
    match x.l1iFind line with
    | some k =>
      let l := x.l1iAt k
      ({ data := l.data, poison := l.poison }, d.setCore c (x.setL1i k { l with nru := true }))
    | none =>
      let cl := clusterOf c
      let (l, d) := if (d.l2Find cl p line).isNone && !d.l2Usable cl p line then d.readUncached cl p line
        else
          let d := d.l2Read cl p line false
          (((d.held cl p line).map (·.data)).getD {}, d)
      let (k, x) := (d.core c).l1iVictim line
      (l, d.setCore c (x.setL1i k { valid := true, line := line, nru := true, data := l.data, poison := l.poison }))

/-- The line of instructions that core `c` fetches from: the fetch buffer keeps the line fetched last, until ISYNC (R373, R382). -/
def Dev.fetchLine (d : Dev) (c p line : Nat) : Line × Dev :=
  match (d.core c).fbuf with
  | some l =>
    if l.line = line then ({ data := l.data, poison := l.poison }, d)
    else
      let (v, d) := d.fillLine c p line
      (v, d.onCore c fun x => { x with fbuf := some { valid := true, line := line, data := v.data, poison := v.poison } })
  | none =>
    let (v, d) := d.fillLine c p line
    (v, d.onCore c fun x => { x with fbuf := some { valid := true, line := line, data := v.data, poison := v.poison } })

/-- The checks of a control transfer's target, or of the next fetch, through `pcc` (R255). -/
def Dev.fetchCheck (d : Dev) (p : Nat) (pcc : Cap) : Option Trap :=
  let a := pcc.cursor.toNat
  match pcc.check a 4 permEX 4 with
  | some t => some { num := t, fault := a }
  | none => (d.firstUnmapped p a 4).map fun u => { num := 0x03, fault := u }

/-- The next instruction is fetched: the checks of R255, then the line, whose poison is machine check class 0x02. -/
def Dev.fetch (d : Dev) (c p : Nat) : Except Stop Dev :=
  let pcc := (d.core c).arch.pcc
  match d.fetchCheck p pcc with
  | some t => .error t.stop
  | none =>
    let a := pcc.cursor.toNat
    let (l, d) := d.fetchLine c p (a / 64)
    if l.poisonAt (a % 64) 4 then .error { num := 0x1F, fault := a, cls := 2, unit := mcUnit a, left := some d } else .ok d

/-! ## How an instruction commits -/

/-- What an instruction leaves: the device, the pcc where it is not the next instruction in sequence, and the load
values owed (R267). -/
structure Done where
  d : Dev
  pcc : Option Cap := none
  owed : List Owed := []

/-- The core executes instructions: it runs, waits for nothing, and issue is not stopped. -/
def Dev.coreReady (d : Dev) (c : Nat) : Bool :=
  decide ((d.core c).run = .running) && (d.core c).waiting.isNone && (d.core c).cbar.isEmpty &&
    (d.core c).exchange.isNone && !d.thermalStop

/-- A load takes over the destination of a floating-point operation that has not signalled: the operation's result is
written first, since the next instruction still reads it (R267). Such a destination is a general or floating-point register. -/
def Core.yieldTo (x : Core) (r : PReg) : Core :=
  match r with
  | .cap _ => x
  | .z => x
  | _ =>
    match x.fpq.reverse.find? (fun o => decide (o.dest = some r)) with
    | none => x
    | some o =>
      { x with
        arch := x.arch.put r o.value {}
        fpq := x.fpq.map fun o => if o.dest = some r then { o with dest := none } else o }

/-- An instruction commits: the load value owed before it is written, unless it writes that register itself; its own is owed, the
pcc moves on, and the checkpoint follows (R267, R269, R460). -/
def Dev.commit (c : Nat) (r : Done) : Dev :=
  r.d.onCore c fun x =>
    let x := r.owed.foldl (fun x o => x.yieldTo o.reg) (x.dropOwed r.owed).settleOwed
    let pcc := r.pcc.getD { x.arch.pcc with cursor := x.arch.pcc.cursor + 4 }
    let a := { x.arch with pcc := pcc, owed := r.owed.filter (·.reg ≠ .k 0) }
    { x with arch := a, checkpoint := a, retry := { x.retry with count := 0 } }

/-- A trap that an access or a fetch raises is taken, from the device as it leaves it. -/
def Dev.stopAt (d : Dev) (c p : Nat) (t : Stop) : Dev := (t.left.getD d).takeTrap c p t.toTrap

/-- The meaning of an instruction on a core of a pavilion: the trap it raises, or what it leaves. -/
abbrev Body := Nat → Nat → Dev → Except Stop Done

/-- Core `c` of pavilion `p` comes to its next instruction: a trap that is due (`due`) is taken in its place (R340), else
the instruction is fetched and `k` follows. -/
def Dev.begin (d : Dev) (c : Nat) (due : Dev → Nat → Nat → Option Trap) (k : Nat → Dev → Dev) : Dev :=
  if !d.coreReady c then d
  else match d.coreOwner c with
    | none => d
    | some p =>
      match due d c p with
      | some t => d.takeTrap c p t
      | none =>
        match d.fetch c p with
        | .error t => d.stopAt c p t
        | .ok d => k p d

/-- A body performed: it commits, or its trap is taken. -/
def Dev.perform1 (d : Dev) (c p : Nat) (body : Body) : Dev :=
  match body c p d with
  | .error t => d.stopAt c p t
  | .ok r => Dev.commit c r

/-- Core `c` executes one instruction. -/
def Dev.runInstr (d : Dev) (c : Nat) (body : Body) : Dev :=
  d.begin c (fun d c p => d.dueTrap c p) fun p d => d.perform1 c p body

/-- SYS in pcc (R271). -/
def Core.sys (x : Core) : Bool := x.arch.pcc.has permSYS

/-- The cursor of the instruction in execution. -/
def Core.cursor (x : Core) : Nat := x.arch.pcc.cursor.toNat

/-- A body that only changes registers of its core. -/
def regBody (f : Core → Except Stop Core) : Body := fun c _ d =>
  match f (d.core c) with
  | .error t => .error t
  | .ok x => .ok { d := d.setCore c x }

/-! ## Returning from a trap (R347 to R349) -/

/-- The core-local bits that ERET restores from COREBITS, IE apart (Table 11.6). -/
def eretBits : List Nat := [0, 1, 2, 3, 8, 9, 10, 11, 12, 0x10, 0x11, 0x12, 0x18, 0x19, 0x1A, 0x1B, 0x1C, 0x1F]

/-- c15 can be read as a frame at and above its cursor (R347, step 1). -/
def Dev.givesFrame (d : Dev) (p : Nat) (s : Cap) : Bool :=
  s.tag && decide (s.otype = 0) && s.has (permLD ||| permLDC) && decide (s.cursor.toNat % 16 = 0) &&
    s.covers s.cursor.toNat 256 && (d.firstUnmapped p s.cursor.toNat 256).isNone

/-- The return-fault reason of Table 11.5 for the frame's PCC and CSP. -/
def returnFault (pcc csp : Cap) : Option Nat :=
  if !pcc.tag then some 2
  else if pcc.otype ≠ 0 ∧ pcc.otype ≠ 1 then some 3
  else if !pcc.has permEX then some 4
  else if pcc.cursor.toNat % 4 ≠ 0 ∨ ¬ pcc.covers pcc.cursor.toNat 4 then some 5
  else if !csp.tag then some 6
  else none

/-- Capabilities loaded from consecutive granules. -/
def loadCaps (c p : Nat) : List Nat → Dev → List Cap → Except Stop (List Cap × Dev)
  | [], d, acc => .ok (acc, d)
  | a :: t, d, acc =>
    match d.loadCap c p a with
    | .error x => .error x
    | .ok (v, d) => loadCaps c p t d (acc ++ [v])

/-- WBASE as a frame gives it, and WOLD kept, or set to WBASE where the two would not be legal (R254). A frame's WBASE
above 32 is taken modulo 33 (notes/assumptions/9). -/
def Arch.returnWring (a : Arch) (wbase : Nat) : Arch :=
  let b := wbase % 64 % 33
  { a with wbase := b, wold := if wringLegal b a.wold then a.wold else b }

/-- The registers of Table 11.6 restored from a frame's capabilities and its bytes from offset 160. -/
def Core.restore (x : Core) (caps : List Cap) (b : Bytes) : Core :=
  let sys := x.sys
  let x := x.wcr 15 (caps.getD 1 {})
  let x := (List.range 8).foldl (fun x i =>
    let v := caps.getD (i + 2) {}
    x.wcr (i + 1) (if v.tag then v else {})) x
  let x := (List.range 7).foldl (fun x i => x.wr (.k (i + 1)) (Word.ofNat (fieldLE b (8 * i) 8))) x
  let bits := fieldLE b 72 8
  let x := eretBits.foldl (fun x n => x.wbit n (bits.testBit n)) x
  let x := x.wbit ieBit (sys && bits.testBit 4)
  { x with arch := x.arch.returnWring (fieldLE b 80 8) }

/-- ERET (R347): checks the frame at c15, restores every register of Table 11.6 at once and resumes. -/
def returnBody : Body := fun c p d =>
  let x := d.core c
  let s := x.cr 15
  let base := s.cursor.toNat
  if !d.givesFrame p s then .error { num := 0x0D, fault := base, cls := 1 }
  else match loadCaps c p ((List.range 10).map (fun i => base + 16 * i)) d [] with
    | .error t => .error t
    | .ok (caps, d) =>
      match d.loadBytes c p (base + 160) 96 with
      | .error t => .error t
      | .ok (b, d) =>
        match returnFault (caps.getD 0 {}) (caps.getD 1 {}) with
        | some r => .error { num := 0x0D, fault := base, cls := r, left := some d }
        | none => .ok
          { d := d.onCore c fun x => { x.restore caps b with fpHeld := x.fpHeld.bind fun n => if n = 0 then none else some (n - 1) }
            pcc := some { caps.getD 0 {} with otype := 0 } }

/-- When the partner of a twin that presents an exchange now is given up: TWIN_TIMEOUT µs later, by the first twin's
cluster (R477). -/
def Dev.twinDeadline (d : Dev) (c : Nat) : Nat :=
  d.time + 1000 * d.rd R.clu_TWIN_TIMEOUT (clusterOf (min c ((d.core c).twin.getD c)))

/-- An instruction that leaves its core's cluster in twin execution presents its request and waits (R473); otherwise it is
performed. -/
def Dev.runExchange (d : Dev) (c : Nat) (i : Instr) (body : Body) : Dev :=
  if (d.core c).twin.isSome then
    d.begin c (fun d c _ => d.uncondTrap c) fun _ d => d.onCore c fun x => { x with exchange := some (i, d.twinDeadline c) }
  else d.runInstr c body

end Sys2Proof.Machine
end

