-- ==== Sys2Proof/Machine/Flags.lean ====
section
/-! DEFINITION. Machine/Flags.lean: results of integer operations with the condition bits they write (R283 to R286, R308 to
R310). -/

namespace Sys2Proof.Machine

/-- Core-local bits of Table 8.6. -/
def bitZ : Nat := 0x000
/-- Core-local bits of Table 8.6. -/
def bitN : Nat := 0x001
/-- Core-local bits of Table 8.6. -/
def bitC : Nat := 0x002
/-- Core-local bits of Table 8.6. -/
def bitV : Nat := 0x003
/-- Core-local bits of Table 8.6. -/
def bitDVO : Nat := 0x01F

/-- The result of an integer operation at width `w`, with the C and V that it writes, if it does (R284). -/
structure AluRes (w : Nat) where
  val : BitVec w
  c : Option Bool := none
  v : Option Bool := none

/-- ADD: C the carry out, V the signed overflow (R284). -/
def aluAdd {w : Nat} (a b : BitVec w) : AluRes w :=
  { val := a + b
    c := some (decide (2 ^ w ≤ a.toNat + b.toNat))
    v := some (decide ((a + b).toInt ≠ a.toInt + b.toInt)) }

/-- SUB: C is 1 when RA < RB unsigned, V the signed overflow (R284). -/
def aluSub {w : Nat} (a b : BitVec w) : AluRes w :=
  { val := a - b
    c := some (a.ult b)
    v := some (decide ((a - b).toInt ≠ a.toInt - b.toInt)) }

/-- SHL by `n` < w: C the last bit shifted out, unchanged when n is 0 (R284). -/
def aluShl {w : Nat} (a : BitVec w) (n : Nat) : AluRes w :=
  { val := a <<< n, c := if n = 0 then none else some (a.getLsbD (w - n)) }

/-- SHR by `n` < w (R284). -/
def aluShr {w : Nat} (a : BitVec w) (n : Nat) : AluRes w :=
  { val := a >>> n, c := if n = 0 then none else some (a.getLsbD (n - 1)) }

/-- SAR by `n` < w (R284). -/
def aluSar {w : Nat} (a : BitVec w) (n : Nat) : AluRes w :=
  { val := a.sshiftRight n, c := if n = 0 then none else some (a.getLsbD (n - 1)) }

/-- ROR by `n` < w (R284). -/
def aluRor {w : Nat} (a : BitVec w) (n : Nat) : AluRes w :=
  { val := a.rotateRight n, c := if n = 0 then none else some (a.getLsbD (n - 1)) }

/-- The count of leading zero bits. -/
def clz {w : Nat} (a : BitVec w) : Nat := if a = 0 then w else w - 1 - a.toNat.log2

/-- The count of one bits. -/
def popc {w : Nat} (a : BitVec w) : Nat := countOnes w a.toNat

/-- Condition bits of a result (R284): Z, N, and C and V where the operation writes them. -/
def Core.aluFlags {w : Nat} (x : Core) (r : AluRes w) : Core :=
  let x := (x.wbit bitZ (decide (r.val = 0))).wbit bitN r.val.msb
  let x : Core := match r.c with | some c => x.wbit bitC c | none => x
  match r.v with | some v => x.wbit bitV v | none => x

/-- An ALU operation at the operand width (R283): with W, on bits [31:0], the 32-bit result sign-extended; with F, the
condition bits are written. -/
def Core.alu (x : Core) (rd : BitVec 5) (w f : Bool) (a b : Word)
    (op : (n : Nat) → BitVec n → BitVec n → AluRes n) : Core :=
  if w then
    let r := op 32 (a.setWidth 32) (b.setWidth 32)
    let y := x.wgr rd (r.val.signExtend 64)
    if f then y.aluFlags r else y
  else
    let r := op 64 a b
    let y := x.wgr rd r.val
    if f then y.aluFlags r else y

/-- The result of a division operation and whether it met MIN ÷ −1 (Table 10.1); none for a zero divisor. -/
structure DivRes (w : Nat) where
  val : BitVec w
  corner : Bool := false

/-- A dividend of MIN with a divisor of −1 (Table 10.1). -/
def divOver {w : Nat} (a b : BitVec w) : Bool := decide (a = BitVec.intMin w) && decide (b = BitVec.allOnes w)

/-- DIV (Table 10.1). -/
def divS {w : Nat} (a b : BitVec w) : Option (DivRes w) :=
  if b = 0 then none else if divOver a b then some { val := a, corner := true } else some { val := a.sdiv b }

/-- REM (Table 10.1). -/
def remS {w : Nat} (a b : BitVec w) : Option (DivRes w) :=
  if b = 0 then none else if divOver a b then some { val := 0, corner := true } else some { val := a.srem b }

/-- DIVU (Table 10.1). -/
def divU {w : Nat} (a b : BitVec w) : Option (DivRes w) := if b = 0 then none else some { val := a / b }

/-- REMU (Table 10.1). -/
def remU {w : Nat} (a b : BitVec w) : Option (DivRes w) := if b = 0 then none else some { val := a % b }

/-- A MULDIV result written: with F, Z and N from RD; in the MIN ÷ −1 case V and DVO are set whatever F holds (R285,
R309). -/
def Core.mulDivWrite (x : Core) (rd : BitVec 5) (f corner : Bool) (v : Word) : Core :=
  let x := x.wgr rd v
  let x := if f then (x.wbit bitZ (decide (v = 0))).wbit bitN v.msb else x
  if corner then (x.wbit bitV true).wbit bitDVO true else x

/-- A division at the operand width; a zero divisor raises trap 0x07 (R285, R309). -/
def Core.division (x : Core) (o : OpA) (op : (n : Nat) → BitVec n → BitVec n → Option (DivRes n)) : Except Stop Core :=
  let a := x.gr o.ra
  let b := x.gr o.rb
  let r : Option (Word × Bool) :=
    if o.w then (op 32 (a.setWidth 32) (b.setWidth 32)).map fun r => (r.val.signExtend 64, r.corner)
    else (op 64 a b).map fun r => (r.val, r.corner)
  match r with
  | none => .error { num := 0x07, fault := x.cursor }
  | some (v, corner) => .ok (x.mulDivWrite o.rd o.f corner v)

/-- A multiplication at the operand width (R285, R308). -/
def Core.multiply (x : Core) (o : OpA) (op : (n : Nat) → BitVec n → BitVec n → BitVec n) : Core :=
  let a := x.gr o.ra
  let b := x.gr o.rb
  let v : Word := if o.w then (op 32 (a.setWidth 32) (b.setWidth 32)).signExtend 64 else op 64 a b
  x.mulDivWrite o.rd o.f false v

/-- The high half of the signed product (Table 9.4). -/
def mulHigh (n : Nat) (a b : BitVec n) : BitVec n := BitVec.ofInt n (a.toInt * b.toInt / 2 ^ n)

/-- The high half of the unsigned product (Table 9.4). -/
def mulHighU (n : Nat) (a b : BitVec n) : BitVec n := BitVec.ofNat n (a.toNat * b.toNat / 2 ^ n)

end Sys2Proof.Machine
end

