-- ==== Sys2Proof/Machine/Operands.lean ====
section
/-! DEFINITION. Machine/Operands.lean: the operand forms: immediates, effective addresses, core-local and pavilion bits, and
the registers that loads and stores name (R257 to R262, R277, R278, R286 to R294). -/

namespace Sys2Proof.Machine

/-- A sign-extended 16-bit immediate. -/
def sext16 (i : BitVec 16) : Word := i.signExtend 64

/-- A zero-extended 16-bit immediate. -/
def zext16 (i : BitVec 16) : Word := i.setWidth 64

/-- A capability register number from a 5-bit field: its bits [3:0] (R278). -/
def capOf (f : BitVec 5) : Nat := f.toNat % 16

/-! ## Effective addresses (R257) -/

/-- cs.CURSOR + rb + offset, computed exactly with rb and the offset signed (R257). -/
def Core.ea (x : Core) (cs : BitVec 4) (rb : BitVec 5) (off : Int) : Int :=
  ((x.cr cs.toNat).cursor.toNat : Int) + (x.gr rb).toInt + off

/-- The effective address of a plain memory instruction (R290). -/
def Core.eaM (x : Core) (o : OpM) : Int := x.ea o.cs o.rb o.off.toInt

/-- The effective address of a marked access (R291). -/
def Core.eaMx (x : Core) (o : OpMx) : Int := x.ea o.cs o.rb o.off.toInt

/-- The effective address of an atomic: its offset is 0 (R292). -/
def Core.eaAtom (x : Core) (o : OpAtom) : Int := x.ea o.cs o.rb 0

/-! ## Core-local bits (R260) -/

/-- The reserved core-local bits of Table 8.6. -/
def reservedBit (n : Nat) : Bool :=
  decide (0x005 ≤ n ∧ n ≤ 0x007) || decide (0x00D ≤ n ∧ n ≤ 0x00F) || decide (0x013 ≤ n ∧ n ≤ 0x017) ||
    decide (0x01D ≤ n ∧ n ≤ 0x01E) || decide (0x020 ≤ n ∧ n ≤ 0x0FF)

/-- Trap 0x0E for a write of a reserved bit, or of IE without SYS in pcc (R260, R287). -/
def Core.bitGuard (x : Core) (n : Nat) : Except Stop Unit :=
  if reservedBit n || (decide (n = ieBit) && !x.sys) then .error { num := 0x0E, fault := n } else .ok ()

/-! ## Pavilion bits (R262, R289) -/

/-- The bit address RA + IMM16, as unsigned numbers (R262). Below 0x01000 or above 0x3FFFF it raises trap 0x0E, with the
low 64 bits of the sum as the fault address (R289). -/
def Core.bitAddr (x : Core) (o : OpPbit) : Except Stop Nat :=
  let a := (x.gr o.ra).toNat + o.imm.toNat
  if a < 0x01000 ∨ 0x3FFFF < a then .error { num := 0x0E, fault := a % 2 ^ 64 } else .ok a

/-! ## Branch and call targets (R293, R294) -/

/-- The cursor of a branch target: the branch's cursor + 4 × sign-extended OFF14, modulo 2^38 (R293). -/
def Core.branchTarget (x : Core) (off : BitVec 14) : Cap :=
  { x.arch.pcc with cursor := x.arch.pcc.cursor + BitVec.ofInt 38 (4 * off.toInt) }

/-- The base and target of JMP and CALL: the instruction's cursor where RA is 0, else the register RA names, plus
4 × sign-extended IMM16; a sum outside the address space raises trap 0x03 (R294). -/
def Core.jumpTarget (x : Core) (o : OpI) : Except Stop Cap :=
  let base : Int := if o.ra = 0 then x.cursor else (x.gr o.ra).toNat
  let t := base + 4 * o.imm.toInt
  if t < 0 ∨ 2 ^ 38 ≤ t then .error { num := 0x03, fault := (t % 2 ^ 38).toNat }
  else .ok { x.arch.pcc with cursor := BitVec.ofInt 38 t }

/-- A control transfer's target is checked before anything changes (R255). -/
def Dev.checkTarget (d : Dev) (p : Nat) (t : Cap) : Except Stop Unit :=
  match d.fetchCheck p t with
  | some e => .error e.stop
  | none => .ok ()

/-! ## Results of a body -/

/-- A core's new state as what an instruction leaves. -/
def Dev.doneCore (d : Dev) (c : Nat) (x : Core) : Done := { d := d.setCore c x }

/-- A word owed to a general register by its field (R267, R269). -/
def Core.oweGr (x : Core) (f : BitVec 5) (v : Word) : Owed := { reg := x.arch.gpr f, word := v, cap := {} }

/-- A word owed to a floating-point register. -/
def oweFr (f : BitVec 5) (v : Word) : Owed := { reg := .fp f.toNat, word := v, cap := {} }

/-- A capability owed to a capability register by its field. -/
def oweCr (f : BitVec 5) (v : Cap) : Owed := { reg := .cap (capOf f), word := 0, cap := v }

/-- A value owed to Z (R289, R292). -/
def oweZ (b : Bool) : Owed := { reg := .z, word := if b then 1 else 0, cap := {} }

end Sys2Proof.Machine
end

