-- ==== Sys2Proof/Machine/Alu.lean ====
section
/-! DEFINITION. Machine/Alu.lean: the ALU, MULDIV, immediate, compare and core-local bit instructions (R283 to R288, R308
to R310). -/

namespace Sys2Proof.Machine

/-- The outcome of an instruction command: the core executes it. -/
def State.instr (s : State) (c : Fin 256) (body : Body) : Host.Outcome State Fault Refusal :=
  .next { s with dev := s.dev.runInstr c body }

/-- The outcome of an instruction that leaves a twin's cluster (R473). -/
def State.exchange (s : State) (c : Fin 256) (i : Instr) (body : Body) : Host.Outcome State Fault Refusal :=
  .next { s with dev := s.dev.runExchange c i body }

/-- The outcome of an event of the device: after a thermal stop nothing acts (R586). -/
def State.act (s : State) (f : Dev → Dev) : Host.Outcome State Fault Refusal :=
  .next (if s.dev.thermalStop then s else { s with dev := f s.dev })

/-- The outcome of an event of the supply, RESET_L, a clock input or the TAP, which a thermal stop does not stop. -/
def State.board (s : State) (f : Dev → Dev) : Host.Outcome State Fault Refusal :=
  .next { s with dev := f s.dev }

/-! ## ALU (Table 9.3) -/

/-- The body of an ALU instruction (R283). -/
def aluBody (o : OpA) (op : (n : Nat) → BitVec n → BitVec n → AluRes n) : Body :=
  regBody fun x => .ok (x.alu o.rd o.w o.f (x.gr o.ra) (x.gr o.rb) op)

/-- ADD (R283, R284). -/
def execAdd (o : OpA) (s : State) : Host.Outcome State Fault Refusal := s.instr o.core (aluBody o fun _ a b => aluAdd a b)
/-- SUB (R283, R284). -/
def execSub (o : OpA) (s : State) : Host.Outcome State Fault Refusal := s.instr o.core (aluBody o fun _ a b => aluSub a b)
/-- AND (R283). -/
def execAnd (o : OpA) (s : State) : Host.Outcome State Fault Refusal := s.instr o.core (aluBody o fun _ a b => { val := a &&& b })
/-- OR (R283). -/
def execOr (o : OpA) (s : State) : Host.Outcome State Fault Refusal := s.instr o.core (aluBody o fun _ a b => { val := a ||| b })
/-- XOR (R283). -/
def execXor (o : OpA) (s : State) : Host.Outcome State Fault Refusal := s.instr o.core (aluBody o fun _ a b => { val := a ^^^ b })
/-- ANDN (R283). -/
def execAndn (o : OpA) (s : State) : Host.Outcome State Fault Refusal :=
  s.instr o.core (aluBody o fun _ a b => { val := a &&& ~~~b })
/-- SHL (R283, R284): the amount is RB [5:0], with W RB [4:0]. -/
def execShl (o : OpA) (s : State) : Host.Outcome State Fault Refusal :=
  s.instr o.core (aluBody o fun n a b => aluShl a (b.toNat % n))
/-- SHR (R283, R284). -/
def execShr (o : OpA) (s : State) : Host.Outcome State Fault Refusal :=
  s.instr o.core (aluBody o fun n a b => aluShr a (b.toNat % n))
/-- SAR (R283, R284). -/
def execSar (o : OpA) (s : State) : Host.Outcome State Fault Refusal :=
  s.instr o.core (aluBody o fun n a b => aluSar a (b.toNat % n))
/-- ROR (R283, R284). -/
def execRor (o : OpA) (s : State) : Host.Outcome State Fault Refusal :=
  s.instr o.core (aluBody o fun n a b => aluRor a (b.toNat % n))
/-- MIN (R283). -/
def execMin (o : OpA) (s : State) : Host.Outcome State Fault Refusal :=
  s.instr o.core (aluBody o fun _ a b => { val := if b.slt a then b else a })
/-- MAX (R283). -/
def execMax (o : OpA) (s : State) : Host.Outcome State Fault Refusal :=
  s.instr o.core (aluBody o fun _ a b => { val := if a.slt b then b else a })
/-- MINU (R283). -/
def execMinu (o : OpA) (s : State) : Host.Outcome State Fault Refusal :=
  s.instr o.core (aluBody o fun _ a b => { val := if b.ult a then b else a })
/-- MAXU (R283). -/
def execMaxu (o : OpA) (s : State) : Host.Outcome State Fault Refusal :=
  s.instr o.core (aluBody o fun _ a b => { val := if a.ult b then b else a })
/-- CLZ (R283): RB unused. -/
def execClz (o : OpA) (s : State) : Host.Outcome State Fault Refusal :=
  s.instr o.core (aluBody o fun n a _ => { val := BitVec.ofNat n (clz a) })
/-- POPC (R283): RB unused. -/
def execPopc (o : OpA) (s : State) : Host.Outcome State Fault Refusal :=
  s.instr o.core (aluBody o fun n a _ => { val := BitVec.ofNat n (popc a) })

/-! ## MULDIV (Table 9.4) -/

/-- MUL: the low half of the product (R285, R308). -/
def execMul (o : OpA) (s : State) : Host.Outcome State Fault Refusal :=
  s.instr o.core (regBody fun x => .ok (x.multiply o fun _ a b => a * b))
/-- MULH: the high half of the signed product (R285). -/
def execMulh (o : OpA) (s : State) : Host.Outcome State Fault Refusal :=
  s.instr o.core (regBody fun x => .ok (x.multiply o mulHigh))
/-- MULHU: the high half of the unsigned product (R285). -/
def execMulhu (o : OpA) (s : State) : Host.Outcome State Fault Refusal :=
  s.instr o.core (regBody fun x => .ok (x.multiply o mulHighU))
/-- DIV (R285, R309). -/
def execDiv (o : OpA) (s : State) : Host.Outcome State Fault Refusal :=
  s.instr o.core (regBody fun x => x.division o fun _ a b => divS a b)
/-- DIVU (R285, R309). -/
def execDivu (o : OpA) (s : State) : Host.Outcome State Fault Refusal :=
  s.instr o.core (regBody fun x => x.division o fun _ a b => divU a b)
/-- REM (R285, R309). -/
def execRem (o : OpA) (s : State) : Host.Outcome State Fault Refusal :=
  s.instr o.core (regBody fun x => x.division o fun _ a b => remS a b)
/-- REMU (R285, R309). -/
def execRemu (o : OpA) (s : State) : Host.Outcome State Fault Refusal :=
  s.instr o.core (regBody fun x => x.division o fun _ a b => remU a b)

/-! ## Integer immediates (Table 9.5) -/

/-- The body of an immediate instruction that writes RD and no bit (R286). -/
def immBody (o : OpI) (f : Word → Word) : Body := regBody fun x => .ok (x.wgr o.rd (f (x.gr o.ra)))

/-- ADDI (R286). -/
def execAddi (o : OpI) (s : State) : Host.Outcome State Fault Refusal := s.instr o.core (immBody o (· + sext16 o.imm))
/-- ANDI (R286). -/
def execAndi (o : OpI) (s : State) : Host.Outcome State Fault Refusal := s.instr o.core (immBody o (· &&& zext16 o.imm))
/-- ORI (R286). -/
def execOri (o : OpI) (s : State) : Host.Outcome State Fault Refusal := s.instr o.core (immBody o (· ||| zext16 o.imm))
/-- XORI (R286). -/
def execXori (o : OpI) (s : State) : Host.Outcome State Fault Refusal := s.instr o.core (immBody o (· ^^^ zext16 o.imm))
/-- SHI: IMM16 [8] W, [7:6] kind, [5:0] amount (with W, [4:0]) (R286). -/
def execShi (o : OpI) (s : State) : Host.Outcome State Fault Refusal :=
  let amount := o.imm.toNat % 64
  let op := fun (n : Nat) (a _b : BitVec n) =>
    match o.imm.toNat / 64 % 4 with
    | 0 => aluShl a (amount % n)
    | 1 => aluShr a (amount % n)
    | 2 => aluSar a (amount % n)
    | _ => aluRor a (amount % n)
  s.instr o.core (regBody fun x => .ok (x.alu o.rd (o.imm.getLsbD 8) false (x.gr o.ra) 0 op))
/-- LDI: RA unused (R286). -/
def execLdi (o : OpI) (s : State) : Host.Outcome State Fault Refusal := s.instr o.core (immBody o fun _ => sext16 o.imm)
/-- SLO (R286). -/
def execSlo (o : OpI) (s : State) : Host.Outcome State Fault Refusal :=
  s.instr o.core (immBody o fun a => (a <<< 16) ||| zext16 o.imm)
/-- CMPI: Z, N, C and V from RA − sign-extended IMM16, as SUB writes them; RD unused (R286). -/
def execCmpi (o : OpI) (s : State) : Host.Outcome State Fault Refusal :=
  s.instr o.core (regBody fun x => .ok (x.aluFlags (aluSub (x.gr o.ra) (sext16 o.imm))))

/-! ## Integer compare (Table 9.6) -/

/-- The integer conditions of Table 9.6; 12 to 15 are reserved. -/
def intCond (c : BitVec 4) (a b : Word) : Option Bool :=
  match c.toNat with
  | 0 => some (decide (a = b))
  | 1 => some (decide (a ≠ b))
  | 2 => some (a.slt b)
  | 3 => some (!a.slt b)
  | 4 => some (!b.slt a)
  | 5 => some (b.slt a)
  | 6 => some (a.ult b)
  | 7 => some (!a.ult b)
  | 8 => some (!b.ult a)
  | 9 => some (b.ult a)
  | 10 => some (decide (a &&& b ≠ 0))
  | 11 => some (decide (a &&& b = 0))
  | _ => none

/-- Trap 0x01 with FAULT at the instruction (Table 11.1). -/
def Core.illegal (x : Core) : Trap := { num := 0x01, fault := x.cursor }

/-- CMP (R287): a reserved COND raises trap 0x01 (R279), a reserved BD, or IE without SYS, trap 0x0E (R260). -/
def execCmp (o : OpCmp) (s : State) : Host.Outcome State Fault Refusal :=
  s.instr o.core (regBody fun x =>
    match intCond o.cond (x.gr o.ra) (x.gr o.rb) with
    | none => .error x.illegal.stop
    | some v =>
      match x.bitGuard o.bd.toNat with
      | .error t => .error t
      | .ok _ => .ok (x.wbit o.bd.toNat v))

/-! ## Core-local bits (Table 9.8) -/

/-- BD from BD and BA under BFN (Table 9.8). -/
def bopFn (fn : BitVec 2) (bd ba : Bool) : Bool :=
  match fn.toNat with
  | 0 => ba
  | 1 => bd && ba
  | 2 => bd || ba
  | _ => bd != ba

/-- BOPN's function of Table 9.8. -/
def bopnFn (fn : BitVec 2) (bd ba : Bool) : Bool :=
  match fn.toNat with
  | 0 => !ba
  | 1 => bd && !ba
  | 2 => bd || !ba
  | _ => !(bd != ba)

/-- The body of BOP and BOPN (R288). -/
def bopBody (o : OpBop) (f : Bool → Bool → Bool) : Body :=
  regBody fun x =>
    match x.bitGuard o.bd.toNat with
    | .error t => .error t
    | .ok _ => .ok (x.wbit o.bd.toNat (f (x.arch.bit o.bd.toNat) (x.arch.bit o.ba.toNat)))

/-- BOP (R288). -/
def execBop (o : OpBop) (s : State) : Host.Outcome State Fault Refusal := s.instr o.core (bopBody o (bopFn o.bfn))
/-- BOPN (R288). -/
def execBopn (o : OpBop) (s : State) : Host.Outcome State Fault Refusal := s.instr o.core (bopBody o (bopnFn o.bfn))

end Sys2Proof.Machine
end

