-- ==== Sys2Proof/Machine/Aes.lean ====
section
/-! DEFINITION. Machine/Aes.lean: AES (FIPS 197), GCM and GMAC (NIST SP 800-38D, 96-bit IVs and 128-bit tags) and XTS-AES with
ciphertext stealing (IEEE 1619), as R481 names them. -/

namespace Sys2Proof.Machine

/-! ## The block cipher -/

/-- A byte times x in AES's field. -/
def xtime (a : Byte) : Byte := if a.msb then (a <<< 1) ^^^ 0x1B else a <<< 1

/-- The product in AES's field. -/
def gmul (a b : Byte) : Byte :=
  ((List.range 8).foldl (fun (r : Byte × Byte) i => (if b.getLsbD i then r.1 ^^^ r.2 else r.1, xtime r.2)) (0, a)).1

/-- The inverse in AES's field, 0 for 0: the 254th power. -/
def ginv (a : Byte) : Byte :=
  let a2 := gmul a a
  let a3 := gmul a2 a
  let a12 := let b := gmul a3 a3; gmul b b
  let a15 := gmul a12 a3
  let a240 := let b := gmul a15 a15; let b := gmul b b; let b := gmul b b; gmul b b
  gmul a240 (gmul a12 a2)

/-- SubBytes of one byte. -/
def sbox (a : Byte) : Byte :=
  let b := ginv a
  b ^^^ b.rotateLeft 1 ^^^ b.rotateLeft 2 ^^^ b.rotateLeft 3 ^^^ b.rotateLeft 4 ^^^ 0x63

/-- InvSubBytes of one byte. -/
def invSbox (a : Byte) : Byte := ginv (a.rotateLeft 1 ^^^ a.rotateLeft 3 ^^^ a.rotateLeft 6 ^^^ 0x05)

/-- A byte of a state, or of a list of bytes. -/
def byteAt (s : Bytes) (i : Nat) : Byte := s.getD i 0

/-- ShiftRows by `k` columns per row: 1 to encrypt, 3 to decrypt. -/
def shiftRows (k : Nat) (s : Bytes) : Bytes := (List.range 16).map fun i => byteAt s ((i + 4 * (k * (i % 4))) % 16)

/-- MixColumns by a row of coefficients. -/
def mixColumns (m : List Byte) (s : Bytes) : Bytes :=
  (List.range 16).map fun i => (List.range 4).foldl (fun acc j =>
    acc ^^^ gmul (m.getD ((4 + j - i % 4) % 4) 0) (byteAt s (i / 4 * 4 + j))) 0

/-- A word more of the key schedule; `nk` is the words of the key. -/
def keyExtend (nk : Nat) (ws : List Bytes) : List Bytes :=
  let i := ws.length
  let t := ws.getLastD []
  let t := if i % nk = 0 then
      xorBytes ((t.drop 1 ++ t.take 1).map sbox) [(List.range (i / nk - 1)).foldl (fun c _ => xtime c) 1, 0, 0, 0]
    else if 6 < nk ∧ i % nk = 4 then t.map sbox else t
  ws ++ [xorBytes (ws.getD (i - nk) []) t]

/-- The words of a key. -/
def keyWords : Nat → Bytes → List Bytes
  | 0, _ => []
  | n + 1, k => k.take 4 :: keyWords n (k.drop 4)

/-- The round keys of a 16- or 32-byte key. -/
def roundKeys (key : Bytes) : List Bytes :=
  let nk := key.length / 4
  let ws := (List.range (3 * nk + 28)).foldl (fun ws _ => keyExtend nk ws) (keyWords nk key)
  (List.range (nk + 7)).map fun r => ((ws.drop (4 * r)).take 4).flatten

/-- AES encryption of a block under round keys. -/
def aesEnc (ks : List Bytes) (b : Bytes) : Bytes :=
  let n := ks.length - 1
  let s := (List.range (n - 1)).foldl
    (fun s r => xorBytes (mixColumns [2, 3, 1, 1] (shiftRows 1 (s.map sbox))) (ks.getD (r + 1) [])) (xorBytes b (ks.getD 0 []))
  xorBytes (shiftRows 1 (s.map sbox)) (ks.getD n [])

/-- AES decryption of a block under round keys. -/
def aesDec (ks : List Bytes) (b : Bytes) : Bytes :=
  let n := ks.length - 1
  let s := (List.range (n - 1)).foldl
    (fun s r => mixColumns [14, 11, 13, 9] (xorBytes ((shiftRows 3 s).map invSbox) (ks.getD (n - 1 - r) [])))
    (xorBytes b (ks.getD n []))
  xorBytes ((shiftRows 3 s).map invSbox) (ks.getD 0 [])

/-! ## GCM -/

/-- The product in GCM's field: bit 127 of a number is GCM's bit 0. -/
def ghashMul (x y : BitVec 128) : BitVec 128 :=
  ((List.range 128).foldl (fun (r : BitVec 128 × BitVec 128) i =>
    (if x.getLsbD (127 - i) then r.1 ^^^ r.2 else r.1,
      if r.2.getLsbD 0 then (r.2 >>> 1) ^^^ ((0xE1 : BitVec 128) <<< 120) else r.2 >>> 1)) (0, y)).1

/-- Bytes cut into blocks of at most 16. -/
def blocks16 : Nat → Bytes → List Bytes
  | 0, _ => []
  | n + 1, b => if b.isEmpty then [] else b.take 16 :: blocks16 n (b.drop 16)

/-- GHASH of bytes, each part filled with zeros to whole blocks. -/
def ghash (h : BitVec 128) (y : BitVec 128) (b : Bytes) : BitVec 128 :=
  (blocks16 b.length b).foldl (fun y x => ghashMul (y ^^^ BitVec.ofNat 128 (beNat (padTo 16 x))) h) y

/-- Counter-mode keystream XORed into data from counter block `c`. -/
def gcmCtr (ks : List Bytes) (iv : Bytes) : Nat → List Bytes → Bytes
  | _, [] => []
  | c, b :: t => xorBytes b (aesEnc ks (iv ++ beBytes 4 c)) ++ gcmCtr ks iv (c + 1) t

/-- GCM's tag over AAD and ciphertext. -/
def gcmTag (key iv aad ct : Bytes) : Bytes :=
  let ks := roundKeys key
  let h := BitVec.ofNat 128 (beNat (aesEnc ks (zeros 16)))
  let y := ghash h (ghash h 0 aad) ct
  let y := ghash h y (beBytes 8 (8 * aad.length) ++ beBytes 8 (8 * ct.length))
  xorBytes (beBytes 16 y.toNat) (aesEnc ks (iv ++ beBytes 4 1))

/-- GCM's encryption or decryption of data. -/
def gcmCrypt (key iv data : Bytes) : Bytes := gcmCtr (roundKeys key) iv 2 (blocks16 data.length data)

/-! ## XTS -/

/-- The next tweak: times x in the field, the tweak's bytes little-endian. -/
def xtsNext (t : Nat) : Nat :=
  let u := 2 * t % 2 ^ 128
  if t.testBit 127 then u ^^^ 0x87 else u

/-- The tweak of block `j`. -/
def xtsTweak (t0 : Nat) (j : Nat) : Bytes := leBytes 16 ((List.range j).foldl (fun t _ => xtsNext t) t0)

/-- One whole block of XTS. -/
def xtsBlock (f : Bytes → Bytes) (t b : Bytes) : Bytes := xorBytes (f (xorBytes b t)) t

/-- One data unit of at least 16 bytes under tweak number `i`; `enc` tells the direction (IEEE 1619). -/
def xtsUnit (key : Bytes) (enc : Bool) (i : Nat) (data : Bytes) : Bytes :=
  let half := key.length / 2
  let k1 := roundKeys (key.take half)
  let f := if enc then aesEnc k1 else aesDec k1
  let t0 := leNat (aesEnc (roundKeys (key.drop half)) (leBytes 16 i))
  let m := data.length / 16
  let r := data.length % 16
  let blk := fun (j : Nat) => slice data (16 * j) 16
  let whole := fun (n : Nat) => (List.range n).flatMap fun j => xtsBlock f (xtsTweak t0 j) (blk j)
  if r = 0 then whole m
  else
    let last := data.drop (16 * m)
    let (ta, tb) := if enc then (m - 1, m) else (m, m - 1)
    let c := xtsBlock f (xtsTweak t0 ta) (blk (m - 1))
    whole (m - 1) ++ xtsBlock f (xtsTweak t0 tb) (last ++ c.drop r) ++ c.take r

/-- The data units of a job in turn, from tweak number `i`, each of `len` bytes (R481). -/
def xtsUnits (key : Bytes) (enc : Bool) (len : Nat) : Nat → Nat → Bytes → Bytes
  | 0, _, _ => []
  | n + 1, i, b => if b.isEmpty then [] else
      xtsUnit key enc i (b.take len) ++ xtsUnits key enc len n ((i + 1) % 2 ^ 128) (b.drop len)

end Sys2Proof.Machine
end

