-- ==== Sys2Proof/Machine/Mem.lean ====
section
/-! DEFINITION. Machine/Mem.lean: loads, stores, atomics, pavilion bits, and the window spill and fill (R253, R257, R258, R262,
R289 to R292, R356 to R364, R404, R405). A store waits in the merging buffer, and a load may be performed ahead of its place in
program order (`Dev.ahead`); an access with an acquire mark bounds the loads after it, and one with a release mark waits for the
stores that the core has made or observed. -/

namespace Sys2Proof.Machine

/-! ## Loads -/

/-- A loaded number extended to a word. -/
def extend (n : Nat) (signed : Bool) (v : Nat) : Word :=
  if signed then (BitVec.ofNat (8 * n) v).signExtend 64 else Word.ofNat v

/-- How a load is performed: the stores that it is performed ahead of, what it finds, and its acquire mark (R359, R360, R434). -/
structure LoadHow where
  back : Nat := 0
  ecc : EccFinding := .good
  acq : Bool := false

/-- A plain load as its operand says. -/
def howPlain (o : OpLd) : LoadHow := { back := o.back.headD 0, ecc := o.ecc }

/-- A load with an acquire mark. -/
def howMarked (o : OpMxLd) : LoadHow := { back := o.back.headD 0, acq := true }

/-- One access of `n` bytes performed (R258, R360): its bytes and tag. -/
def Dev.loadHow (d : Dev) (c p a n : Nat) (h : LoadHow) : Except Stop (Bytes × Bool × Dev) :=
  match (d.eccRead p a h.ecc).loadPiece c p a n false h.back with
  | .error t => .error t
  | .ok (b, tag, d) => .ok (b, tag, if h.acq then d.acquired c p a n else d)

/-- A data load of `n` bytes at the exact sum `ea` through capability `cap`, with what it owes (R257, R267, R290). -/
def loadData (cap : Cap) (ea : Int) (n : Nat) (h : LoadHow) (owe : Nat → Owed) : Body := fun c p d =>
  match d.access p cap ea n permLD n with
  | .error t => .error t
  | .ok a =>
    match d.loadHow c p a n h with
    | .error t => .error t
    | .ok (b, _, d) => .ok { d := d, owed := [owe (leNat b)] }

/-- A data load into general register RD (Table 9.10). -/
def loadGr (o : OpLd) (n : Nat) (signed : Bool) : Body := fun c p d =>
  let x := d.core c
  loadData (x.cr o.cs.toNat) (x.eaM o.toOpM) n (howPlain o) (fun v => x.oweGr o.rd (extend n signed v)) c p d

/-- A load into f register RD (Table 9.10, R248). -/
def loadFr (o : OpLd) (n : Nat) : Body := fun c p d =>
  let x := d.core c
  loadData (x.cr o.cs.toNat) (x.eaM o.toOpM) n (howPlain o) (fun v => oweFr o.rd (Word.ofNat v)) c p d

/-- A capability load: the tag is kept only with LDC (Table 8.4). -/
def loadCapReg (cap : Cap) (ea : Int) (h : LoadHow) (rd : BitVec 5) : Body := fun c p d =>
  match d.access p cap ea 16 permLD 16 with
  | .error t => .error t
  | .ok a =>
    match d.loadHow c p a 16 h with
    | .error t => .error t
    | .ok (b, tag, d) => .ok { d := d, owed := [oweCr rd { Cap.ofBytes b tag with tag := tag && cap.has permLDC }] }

/-! ## Stores -/

/-- A release: every earlier store of the core is performed, and those and the stores that it has observed are visible to every core
first (R361, R397). -/
def Dev.release (d : Dev) (c p : Nat) : Dev :=
  let d := d.drainAll c p
  ((d.core c).observed.foldl (fun d line => d.settle p line) d).onCore c fun x => { x with observed := [] }

/-- A data store of the low `n` bytes of a word (Table 9.10). -/
def storeData (cap : Cap) (ea : Int) (n : Nat) (v : Word) (rel : Bool) : Body := fun c p d =>
  match d.access p cap ea n permST n with
  | .error t => .error t
  | .ok a =>
    let d := if rel then d.release c p else d
    .ok { d := d.storePiece c p a (leBytes n v.toNat) false }

/-- A capability store: a tagged value needs STC as well (R32, Table 8.4). -/
def storeCapReg (cap : Cap) (ea : Int) (v : Cap) (rel : Bool) : Body := fun c p d =>
  match d.access p cap ea 16 (if v.tag then permST ||| permSTC else permST) 16 with
  | .error t => .error t
  | .ok a =>
    let d := if rel then d.release c p else d
    .ok { d := d.storeCap c p a v }

/-- A store from general register RD. -/
def storeGr (o : OpM) (n : Nat) : Body := fun c p d =>
  let x := d.core c
  storeData (x.cr o.cs.toNat) (x.eaM o) n (x.gr o.rd) false c p d

/-- A store from f register RD. -/
def storeFr (o : OpM) (n : Nat) : Body := fun c p d =>
  let x := d.core c
  storeData (x.cr o.cs.toNat) (x.eaM o) n (x.fr o.rd) false c p d

/-- LD.B (R290). -/
def execLdB (o : OpLd) (s : State) : Host.Outcome State Fault Refusal := s.exchange o.core (.ldB o) (loadGr o 1 true)
/-- LD.BU (R290). -/
def execLdBu (o : OpLd) (s : State) : Host.Outcome State Fault Refusal := s.exchange o.core (.ldBu o) (loadGr o 1 false)
/-- LD.H (R290). -/
def execLdH (o : OpLd) (s : State) : Host.Outcome State Fault Refusal := s.exchange o.core (.ldH o) (loadGr o 2 true)
/-- LD.HU (R290). -/
def execLdHu (o : OpLd) (s : State) : Host.Outcome State Fault Refusal := s.exchange o.core (.ldHu o) (loadGr o 2 false)
/-- LD.W (R290). -/
def execLdW (o : OpLd) (s : State) : Host.Outcome State Fault Refusal := s.exchange o.core (.ldW o) (loadGr o 4 true)
/-- LD.WU (R290). -/
def execLdWu (o : OpLd) (s : State) : Host.Outcome State Fault Refusal := s.exchange o.core (.ldWu o) (loadGr o 4 false)
/-- LD.L (R290). -/
def execLdL (o : OpLd) (s : State) : Host.Outcome State Fault Refusal := s.exchange o.core (.ldL o) (loadGr o 8 false)
/-- FLD.S (R290, R248). -/
def execFldS (o : OpLd) (s : State) : Host.Outcome State Fault Refusal := s.exchange o.core (.fldS o) (loadFr o 4)
/-- FLD.D (R290). -/
def execFldD (o : OpLd) (s : State) : Host.Outcome State Fault Refusal := s.exchange o.core (.fldD o) (loadFr o 8)
/-- ST.B (R290). -/
def execStB (o : OpM) (s : State) : Host.Outcome State Fault Refusal := s.exchange o.core (.stB o) (storeGr o 1)
/-- ST.H (R290). -/
def execStH (o : OpM) (s : State) : Host.Outcome State Fault Refusal := s.exchange o.core (.stH o) (storeGr o 2)
/-- ST.W (R290). -/
def execStW (o : OpM) (s : State) : Host.Outcome State Fault Refusal := s.exchange o.core (.stW o) (storeGr o 4)
/-- ST.L (R290). -/
def execStL (o : OpM) (s : State) : Host.Outcome State Fault Refusal := s.exchange o.core (.stL o) (storeGr o 8)
/-- FST.S (R290). -/
def execFstS (o : OpM) (s : State) : Host.Outcome State Fault Refusal := s.exchange o.core (.fstS o) (storeFr o 4)
/-- FST.D (R290). -/
def execFstD (o : OpM) (s : State) : Host.Outcome State Fault Refusal := s.exchange o.core (.fstD o) (storeFr o 8)

/-- The body of LDC (R290). -/
def ldcBody (o : OpLd) : Body := fun c p d =>
  let x := d.core c
  loadCapReg (x.cr o.cs.toNat) (x.eaM o.toOpM) (howPlain o) o.rd c p d

/-- The body of STC (R32, R290). -/
def stcBody (o : OpM) : Body := fun c p d =>
  let x := d.core c
  storeCapReg (x.cr o.cs.toNat) (x.eaM o) (x.cr (capOf o.rd)) false c p d

/-- LDC (R290). -/
def execLdc (o : OpLd) (s : State) : Host.Outcome State Fault Refusal := s.exchange o.core (.ldc o) (ldcBody o)
/-- STC (R32, R290). -/
def execStc (o : OpM) (s : State) : Host.Outcome State Fault Refusal := s.exchange o.core (.stc o) (stcBody o)

/-! ## Marked accesses (Table 9.11) -/

/-- A marked load of `n` bytes, zero-extended (R291). -/
def loadAcq (o : OpMxLd) (n : Nat) : Body := fun c p d =>
  let x := d.core c
  loadData (x.cr o.cs.toNat) (x.eaMx o.toOpMx) n (howMarked o) (fun v => x.oweGr o.rd (Word.ofNat v)) c p d

/-- A marked store of `n` bytes (R291, R361). -/
def storeRel (o : OpMx) (n : Nat) : Body := fun c p d =>
  let x := d.core c
  storeData (x.cr o.cs.toNat) (x.eaMx o) n (x.gr o.rd) true c p d

/-- The body of LDC.A. -/
def ldcABody (o : OpMxLd) : Body := fun c p d =>
  let x := d.core c
  loadCapReg (x.cr o.cs.toNat) (x.eaMx o.toOpMx) (howMarked o) o.rd c p d

/-- The body of STC.R. -/
def stcRBody (o : OpMx) : Body := fun c p d =>
  let x := d.core c
  storeCapReg (x.cr o.cs.toNat) (x.eaMx o) (x.cr (capOf o.rd)) true c p d

/-- LD.A.BU (R291). -/
def execLdABu (o : OpMxLd) (s : State) : Host.Outcome State Fault Refusal := s.exchange o.core (.ldABu o) (loadAcq o 1)
/-- LD.A.HU (R291). -/
def execLdAHu (o : OpMxLd) (s : State) : Host.Outcome State Fault Refusal := s.exchange o.core (.ldAHu o) (loadAcq o 2)
/-- LD.A.WU (R291). -/
def execLdAWu (o : OpMxLd) (s : State) : Host.Outcome State Fault Refusal := s.exchange o.core (.ldAWu o) (loadAcq o 4)
/-- LD.A.L (R291). -/
def execLdAL (o : OpMxLd) (s : State) : Host.Outcome State Fault Refusal := s.exchange o.core (.ldAL o) (loadAcq o 8)
/-- ST.R.B (R291). -/
def execStRB (o : OpMx) (s : State) : Host.Outcome State Fault Refusal := s.exchange o.core (.stRB o) (storeRel o 1)
/-- ST.R.H (R291). -/
def execStRH (o : OpMx) (s : State) : Host.Outcome State Fault Refusal := s.exchange o.core (.stRH o) (storeRel o 2)
/-- ST.R.W (R291). -/
def execStRW (o : OpMx) (s : State) : Host.Outcome State Fault Refusal := s.exchange o.core (.stRW o) (storeRel o 4)
/-- ST.R.L (R291). -/
def execStRL (o : OpMx) (s : State) : Host.Outcome State Fault Refusal := s.exchange o.core (.stRL o) (storeRel o 8)
/-- LDC.A (R291). -/
def execLdcA (o : OpMxLd) (s : State) : Host.Outcome State Fault Refusal := s.exchange o.core (.ldcA o) (ldcABody o)
/-- STC.R (R291). -/
def execStcR (o : OpMx) (s : State) : Host.Outcome State Fault Refusal := s.exchange o.core (.stcR o) (stcRBody o)

/-! ## Atomics (R292, R404, R405) -/

/-- The predictor counter of an address (R405). -/
def predIndex (a : Nat) : Nat :=
  bitsOf a 13 6 ^^^ bitsOf a 21 14 ^^^ bitsOf a 29 22 ^^^ bitsOf a 37 30

/-- A predictor counter raised or lowered, saturating at 3 and 0 (Table 13.9). -/
def Dev.predict (d : Dev) (c a : Nat) (up : Bool) : Dev := d.onCore c fun x =>
  let v := Table.get 0 x.pred (predIndex a)
  { x with pred := Table.set 0 x.pred (predIndex a) (if up then min 3 (v + 1) else v - 1) }

/-- The atomic runs far: ATOMIC_MODE, the core's counter, or an L2 that allocates no line (R404, R405). -/
def Dev.runsFar (d : Dev) (c p a : Nat) : Bool :=
  let cl := clusterOf c
  if d.lstate cl p (a / 64) = .i && !d.l2Usable cl p (a / 64) then true
  else match d.rd R.coh_ATOMIC_MODE with
    | 1 => false
    | 2 => true
    | _ => decide (2 ≤ Table.get 0 (d.core c).pred (predIndex a))

/-- The home of a line lists an agent other than `cl`. -/
def Dev.othersListed (d : Dev) (cl p line : Nat) : Bool :=
  match d.lineAddr p line with
  | none => false
  | some a =>
    match d.dirFind p a with
    | none => false
    | some k => !((d.dirAt k).agents.filter (· ≠ cl)).isEmpty

/-- A near atomic (R404): the line owned in the cluster's L2 and changed there, or far where the L2 allocates no line. -/
def Dev.atomicNear (d : Dev) (c p a : Nat) (u : Unc) : Line × Dev :=
  let cl := clusterOf c
  let line := a / 64
  let owned := decide (d.lstate cl p line = .d) || decide (d.lstate cl p line = .x)
  let other := d.othersListed cl p line
  match d.l2Own c p line false with
  | (some k, hit, d) =>
    let d := if owned then d.predict c a false else if other then d.predict c a true else d
    ((d.l2At k).data, d.writeL2 c k hit u.apply)
  | (none, _, d) =>
    let d := d.request { kind := .fatom, agent := cl, pav := p, line := line, unc := u }
    (d.mem.answer, d)

/-- A far atomic (R404): performed at the home. -/
def Dev.atomicFar (d : Dev) (c p a : Nat) (u : Unc) : Line × Dev :=
  let cl := clusterOf c
  let line := a / 64
  let d := d.settle p line
  let d := d.predict c a (d.othersListed cl p line)
  let d := d.request { kind := .fatom, agent := cl, pav := p, line := line, unc := u }
  (d.mem.answer, d)

/-- A read-modify-write of `n` bytes at `a` as a single atomic action (R292): the line before it, whether those bytes are poisoned,
which leaves them unwritten, and the device after it. The core's own stores to the line come first. -/
def Dev.atomic (d : Dev) (c p a n : Nat) (u : Unc) : Line × Bool × Dev :=
  let line := a / 64
  let o := a % 64
  let d := d.drainLine c p line
  match placeOf a with
  | .memory =>
    let (l, d) := if d.runsFar c p a then d.atomicFar c p a u else d.atomicNear c p a u
    (l, l.poisonAt o n, d.wrote c line (maskOf o n))
  | .scratchpad =>
    let d := d.awaitBanks line
    let l := d.spadLine line
    let v := u.apply l
    let bad := d.spadPoison {} line o n
    (l, bad, if bad || decide (v = l) then d else (d.spadWrite p line (maskOf o n) v.data v.tags).wrote c line (maskOf o n))
  | .window =>
    let l := d.winLine p line
    let v := u.apply l
    (l, l.poisonAt o n, if v = l then d else (d.winWrite c p line (maskOf o n) v.data).wrote c line (maskOf o n))

/-- An acquire mark of an access that read the present value: the core's later accesses follow every store so far (R360). -/
def Dev.acquireNow (d : Dev) (c : Nat) : Dev := d.onCore c fun x => { x with asOf := d.mem.clock }

/-- An atomic on 4 or 8 bytes (R292). CAS owes Z as well; its compare value is RD. -/
def atomBody (o : OpAtom) (k : AtomKind) : Body := fun c p d =>
  let x := d.core c
  let n := if o.sz then 4 else 8
  match d.access p (x.cr o.cs.toNat) (x.eaAtom o) n (permLD ||| permST) n with
  | .error t => .error t
  | .ok a =>
    let d := if o.rel then d.release c p else d
    let (l, poison, d) := d.atomic c p a n (.atom (a % 64) o.sz k (x.gr o.rs) (x.gr o.rd))
    if poison then .error { num := 0x1F, fault := a, cls := 1, unit := mcUnit a, left := some d }
    else
      let old := l.get (a % 64) n
      let signed := decide (k = .max) || decide (k = .min)
      let z := if k = .cas then [oweZ (decide (old = (x.gr o.rd).toNat % 256 ^ n))] else []
      .ok { d := if o.acq then d.acquireNow c else d, owed := x.oweGr o.rd (extend n (signed && o.sz) old) :: z }

/-- SWAPC and CASC: 16 bytes with their tag; the old tag is returned only with LDC (R292). -/
def atomCapBody (o : OpAtom) (cas : Bool) : Body := fun c p d =>
  let x := d.core c
  let v := x.cr (capOf o.rs)
  let cap := x.cr o.cs.toNat
  match d.access p cap (x.eaAtom o) 16 (permLD ||| permST ||| (if v.tag then permSTC else 0)) 16 with
  | .error t => .error t
  | .ok a =>
    let d := if o.rel then d.release c p else d
    let (l, poison, d) := d.atomic c p a 16 (.atomCap (a % 64) cas v (x.cr (capOf o.rd)))
    if poison then .error { num := 0x1F, fault := a, cls := 1, unit := mcUnit a, left := some d }
    else
      let old := if placeOf a = .window then { l.cap (a % 64) with tag := false } else l.cap (a % 64)
      let z := if cas then [oweZ (decide (old = x.cr (capOf o.rd)))] else []
      .ok { d := if o.acq then d.acquireNow c else d, owed := oweCr o.rd { old with tag := old.tag && cap.has permLDC } :: z }

/-- SWAP (R292). -/
def execSwap (o : OpAtom) (s : State) : Host.Outcome State Fault Refusal := s.exchange o.core (.swap o) (atomBody o .swap)
/-- CAS (R292). -/
def execCas (o : OpAtom) (s : State) : Host.Outcome State Fault Refusal := s.exchange o.core (.cas o) (atomBody o .cas)
/-- AADD (R292). -/
def execAadd (o : OpAtom) (s : State) : Host.Outcome State Fault Refusal := s.exchange o.core (.aadd o) (atomBody o .add)
/-- AAND (R292). -/
def execAand (o : OpAtom) (s : State) : Host.Outcome State Fault Refusal := s.exchange o.core (.aand o) (atomBody o .and)
/-- AOR (R292). -/
def execAor (o : OpAtom) (s : State) : Host.Outcome State Fault Refusal := s.exchange o.core (.aor o) (atomBody o .or)
/-- AXOR (R292). -/
def execAxor (o : OpAtom) (s : State) : Host.Outcome State Fault Refusal := s.exchange o.core (.axor o) (atomBody o .xor)
/-- AMAX (R292). -/
def execAmax (o : OpAtom) (s : State) : Host.Outcome State Fault Refusal := s.exchange o.core (.amax o) (atomBody o .max)
/-- AMIN (R292). -/
def execAmin (o : OpAtom) (s : State) : Host.Outcome State Fault Refusal := s.exchange o.core (.amin o) (atomBody o .min)
/-- AMAXU (R292). -/
def execAmaxu (o : OpAtom) (s : State) : Host.Outcome State Fault Refusal := s.exchange o.core (.amaxu o) (atomBody o .maxu)
/-- AMINU (R292). -/
def execAminu (o : OpAtom) (s : State) : Host.Outcome State Fault Refusal := s.exchange o.core (.aminu o) (atomBody o .minu)
/-- SWAPC (R292). -/
def execSwapc (o : OpAtom) (s : State) : Host.Outcome State Fault Refusal := s.exchange o.core (.swapc o) (atomCapBody o false)
/-- CASC (R292). -/
def execCasc (o : OpAtom) (s : State) : Host.Outcome State Fault Refusal := s.exchange o.core (.casc o) (atomCapBody o true)

/-! ## Pavilion bits (Table 9.9, R262, R264, R441) -/

/-- What a load of bit `a` may miss (R358): the operations that changed it after the core's last acquire and after those that its own
operations on the bit have met, latest first. -/
def Dev.bitUnseen (d : Dev) (c p a : Nat) : List BitPast :=
  let x := d.core c
  d.mem.bitPast.filter fun e =>
    decide (max x.asOf (Table.get 0 x.bitReadAt a) < e.at_) && decide (e.key = bitKey p a)

/-- Core `c`'s operation on bit `a` has met those of the bit store up to place `t`; with an acquire mark, its later accesses follow
them (R360). -/
def Dev.metBit (d : Dev) (c a t : Nat) (acq : Bool) : Dev := d.onCore c fun x => { x with
  bitReadAt := Table.set 0 x.bitReadAt a t
  asOf := if acq then max x.asOf t else x.asOf }

/-- BLD of bit `a`, performed ahead of `back` of the operations that it may miss (R358, R359). -/
def Dev.loadBit (d : Dev) (c p a back : Nat) (acq : Bool) : Bool × Dev :=
  match d.bitUnseen c p a with
  | [] => (d.pbit p a, if acq then d.acquireNow c else d)
  | e :: t =>
    if back = 0 then (d.pbit p a, d.metBit c a d.mem.clock acq)
    else
      let v := (e :: t).getD (min (back - 1) t.length) e
      (v.was, d.metBit c a (v.at_ - 1) acq)

/-- BLD (R289). Poison in the bit store is machine check class 0x01, unit 4; `ecc` tells that the read finds it. -/
def bldBody (o : OpBld) : Body := fun c p d =>
  let x := d.core c
  match x.bitAddr o.toOpPbit with
  | .error t => .error t
  | .ok a =>
    let d : Dev := match o.ecc with
      | .uncorrectable => d.onMem fun m => { m with bitPoison := Table.set false m.bitPoison (bitKey p a) true }
      | _ => d
    if Table.get false d.mem.bitPoison (bitKey p a) then
      .error { num := 0x1F, fault := a, cls := 1, unit := 4, left := some d }
    else
      let d := if o.rel then d.release c p else d
      let (v, d) := d.loadBit c p a (o.back.headD 0) o.acq
      .ok { d := d, owed := [oweZ v] }

/-- An operation that writes bit `a` (R289): `f` gives the bit's new value from the old bit and Z; `load` tells that Z takes the old
bit, whose poison is machine check class 0x01, unit 4. A set of a bit with a release mark wakes the movers whose kick bit it is
(R441). -/
def pbitBody (o : OpPbit) (load : Bool) (f : Bool → Bool) (isSet : Bool) : Body := fun c p d =>
  let x := d.core c
  match x.bitAddr o with
  | .error t => .error t
  | .ok a =>
    if load && Table.get false d.mem.bitPoison (bitKey p a) then .error { num := 0x1F, fault := a, cls := 1, unit := 4 }
    else
      let d := if o.rel then d.release c p else d
      let old := d.pbit p a
      let d := d.setPbit p a (f (x.arch.bit bitZ))
      let d := d.metBit c a d.mem.clock o.acq
      let d := if isSet && o.rel then
          (List.range 16).foldl (fun d cl =>
            if decide (a ≠ 0) && decide (d.rd R.spad_MOVER_KICK cl p = a) then
              d.onMem fun m => { m with moverAwake := Table.set false m.moverAwake (cl * 64 + p) true }
            else d) d
        else d
      .ok { d := d, owed := if load then [oweZ old] else [] }

/-- BLD: Z := bit (R289). -/
def execBld (o : OpBld) (s : State) : Host.Outcome State Fault Refusal := s.exchange o.core (.bld o) (bldBody o)
/-- BST: bit := Z (R289). -/
def execBst (o : OpPbit) (s : State) : Host.Outcome State Fault Refusal :=
  s.exchange o.core (.bst o) (pbitBody o false id false)
/-- BSET (R289, R441). -/
def execBset (o : OpPbit) (s : State) : Host.Outcome State Fault Refusal :=
  s.exchange o.core (.bset o) (pbitBody o false (fun _ => true) true)
/-- BCLR (R289). -/
def execBclr (o : OpPbit) (s : State) : Host.Outcome State Fault Refusal :=
  s.exchange o.core (.bclr o) (pbitBody o false (fun _ => false) false)
/-- BTAS: Z := bit; bit := 1 (R289). -/
def execBtas (o : OpPbit) (s : State) : Host.Outcome State Fault Refusal :=
  s.exchange o.core (.btas o) (pbitBody o true (fun _ => true) false)
/-- BTAC: Z := bit; bit := 0 (R289). -/
def execBtac (o : OpPbit) (s : State) : Host.Outcome State Fault Refusal :=
  s.exchange o.core (.btac o) (pbitBody o true (fun _ => false) false)

/-! ## Window spill and fill (R253) -/

/-- The bytes of groups `g` and g + 1. -/
def Core.groupBytes (x : Core) (g : Nat) : Bytes :=
  (List.range 16).flatMap fun i => leBytes 8 (x.get (.win (8 * ((g + i / 8) % 33) + i % 8))).toNat

/-- Groups `g` and g + 1 loaded from bytes. -/
def Core.setGroups (x : Core) (g : Nat) (b : Bytes) : Core :=
  (List.range 16).foldl
    (fun x i => x.wr (.win (8 * ((g + i / 8) % 33) + i % 8)) (Word.ofNat (fieldLE b (8 * i) 8))) x

/-- WSPILL (R253): with N ≥ 2 the oldest window is stored and WOLD moves on; Z tells whether it was. -/
def wspill (o : OpM) : Body := fun c p d =>
  let x := d.core c
  match d.access p (x.cr o.cs.toNat) (x.eaM o) 128 permST 16 with
  | .error t => .error t
  | .ok a =>
    if x.arch.resident < 2 then .ok { d := d.onCore c (·.wbit bitZ false) }
    else
      let d := d.storeBytes c p a (x.groupBytes x.arch.wold)
      .ok { d := d.onCore c fun x =>
        let x := x.wbit bitZ true
        { x with arch := { x.arch with wold := (x.arch.wold + 2) % 33 } } }

/-- WFILL (R253): with N ≤ 15 WOLD moves back and the window is loaded; Z tells whether it was. -/
def wfill (o : OpLd) : Body := fun c p d =>
  let x := d.core c
  match d.access p (x.cr o.cs.toNat) (x.eaM o.toOpM) 128 permLD 16 with
  | .error t => .error t
  | .ok a =>
    if 15 < x.arch.resident then .ok { d := d.onCore c (·.wbit bitZ false) }
    else match (d.eccRead p a o.ecc).loadBytes c p a 128 (back := o.back) with
      | .error t => .error t
      | .ok (b, d) =>
        .ok { d := d.onCore c fun x =>
          let w := (x.arch.wold + 31) % 33
          let x := (x.setGroups w b).wbit bitZ true
          { x with arch := { x.arch with wold := w } } }

/-- WSPILL (R253). -/
def execWspill (o : OpM) (s : State) : Host.Outcome State Fault Refusal := s.exchange o.core (.wspill o) (wspill o)
/-- WFILL (R253). -/
def execWfill (o : OpLd) (s : State) : Host.Outcome State Fault Refusal := s.exchange o.core (.wfill o) (wfill o)

end Sys2Proof.Machine
end

