-- ==== Sys2Proof/Machine/Submit.lean ====
section
/-! DEFINITION. Machine/Submit.lean: what the device submissions share: the checks of the descriptor, the result in RD and Z,
buffer and ring checks (R209, R210, R304, R369, R423, R491, R613). -/

namespace Sys2Proof.Machine

/-- The result of a DEV operation: RD [15:0] the reason code, RD [23:16] the detail, Z 1 on success (R209, R304). -/
def Core.submitted (x : Core) (rd : BitVec 5) (reason detail : Nat) : Core :=
  (x.wgr rd (Word.ofNat (reason + 2 ^ 16 * detail))).wbit bitZ (decide (reason = 0))

/-- What a submission answers: its reason code, 0 on success, and the detail; and the device after it. -/
abbrev Submission := Nat × Nat × Dev

/-- A DEV operation with a descriptor of `n` bytes at CX: R34 with LD, LDC and DEV and a cursor that is a multiple of `n`
(R304). The core's earlier stores come before the device's reads (R210). `f` is given the address and bytes of the
descriptor. -/
def submitBody (o : OpDev) (n : Nat) (f : Nat → Nat → Nat → Bytes → Dev → Submission) : Body := fun c p d =>
  let x := d.core c
  let cap := x.cr o.cx.toNat
  match d.access p cap cap.cursor.toNat n (permLD ||| permLDC ||| permDEV) n with
  | .error t => .error t
  | .ok a =>
    let (b, _, d) := (d.drainAll c p).devRead p a n
    let (reason, detail, d) := f c p a b d
    .ok { d := d.onCore c (·.submitted o.rd reason detail) }

/-- A DEV operation without a descriptor (CHCTL): R34 items 1 to 3 with DEV on CX (R232). -/
def controlBody (o : OpDev) (f : Nat → Nat → Dev → Submission) : Body := fun c p d =>
  let x := d.core c
  let cap := x.cr o.cx.toNat
  let a := cap.cursor.toNat
  if !cap.tag then .error { num := 0x02, fault := a }
  else if cap.otype ≠ 0 then .error { num := 0x05, fault := a }
  else if !cap.has permDEV then .error { num := 0x04, fault := a }
  else
    let (reason, detail, d) := f c p (d.drainAll c p)
    .ok { d := d.onCore c (·.submitted o.rd reason detail) }

/-- A buffer of `n` bytes from a capability's cursor passes R34 and is mapped (R423). -/
def Dev.bufOk (d : Dev) (p : Nat) (c : Cap) (n : Nat) (perms : BitVec 8) (align : Nat := 1) : Bool :=
  (c.check c.cursor.toNat n perms align).isNone && (d.firstUnmapped p c.cursor.toNat n).isNone

/-- `n` bytes from `a` lie in mapped memory or held banks, as a ring must. -/
def Dev.ringMapped (d : Dev) (p a n : Nat) : Bool :=
  decide (n = 0) || ((d.firstUnmapped p a n).isNone && decide (a + n ≤ 0x3E00000000))

/-- Two ranges of bytes have a byte in common. -/
def meets (a m b n : Nat) : Bool := decide (a < b + n) && decide (b < a + m) && decide (0 < m) && decide (0 < n)

/-- Nothing in the checks refuses: the first reason code that is not 0. -/
def firstReason (l : List Nat) : Nat := (l.find? (· ≠ 0)).getD 0

/-- A reason code where a check fails. -/
def refuse (ok : Bool) (reason : Nat) : Nat := if ok then 0 else reason

/-- A completion ring of 32-byte entries at `base`: it is configured and mapped, else 0x020D; with `j` jobs submitted and not
posted and `k` the next index it can take one more, else 0x0309 (R491). -/
def Dev.ringTakes (d : Dev) (p base entries j k : Nat) : Nat × Dev :=
  if entries = 0 ∨ ¬ d.ringMapped p base (32 * entries) then (0x020D, d)
  else if j = entries then (0x0309, d)
  else
    let (b, _, d) := d.devRead p (base + 32 * ((k + j) % entries) + 7) 1
    (if bitOf (leNat b) 0 then 0x0309 else 0, d)

/-- A 32-byte entry posted at index `k` of a ring, and its doorbell set (R370, R490). -/
def Dev.postEntry (d : Dev) (p base entries k doorbell : Nat) (b : Bytes) : Dev :=
  (d.devWrite p (base + 32 * (k % max 1 entries)) b).ring p doorbell

end Sys2Proof.Machine
end

