-- ==== Sys2Proof/Machine/Cipher.lean ====
section
/-! DEFINITION. Machine/Cipher.lean: key slots, the CIPH submission, and the work and completion of cipher jobs (R481 to
R497). -/

namespace Sys2Proof.Machine

/-- The engines' part changed by `f`. -/
def Dev.onEng (d : Dev) (f : Eng → Eng) : Dev := { d with eng := f d.eng }

/-! ## Key slots (R482 to R487) -/

/-- The key of a pavilion's slot. -/
def slotKey (p n : Nat) : Nat := p * 1024 + n

/-- A key slot. -/
def Dev.keySlot (d : Dev) (p n : Nat) : KeySlot := Table.get {} d.eng.keys (slotKey p n)

/-- A key slot replaced. -/
def Dev.setKeySlot (d : Dev) (p n : Nat) (s : KeySlot) : Dev :=
  d.onEng fun e => { e with keys := Table.set {} e.keys (slotKey p n) s }

/-- HIGH of a slot (R487). -/
def Dev.keyHigh (d : Dev) (p n : Nat) : Nat := Table.get 0 d.eng.high (slotKey p n)

/-- HIGH of a slot replaced. -/
def Dev.setKeyHigh (d : Dev) (p n v : Nat) : Dev := d.onEng fun e => { e with high := Table.set 0 e.high (slotKey p n) v }

/-- The pavilion holds the slot (R482). -/
def Dev.holdsSlot (d : Dev) (p n : Nat) : Bool :=
  decide (n < d.rd R.pav_KEY_SLOTS p) && !d.removing.contains (p, .keySlot n)

/-- Key bytes of a kind (Table 17.3). -/
def keyLen (kind : Nat) : Nat :=
  match kind with | 1 => 16 | 2 => 32 | 3 => 32 | 4 => 64 | 5 => 32 | _ => 0

/-- The highest counter: 2^40 (Table 17.3). -/
def counterMax : Nat := 2 ^ 40

/-- Why a key record is refused for a slot, 0 when it is not (R484). Its RES0 bytes are ignored (R4). -/
def Dev.keyRefused (d : Dev) (p n : Nat) (r : Bytes) : Nat :=
  let kind := fieldLE r 0 1
  let len := keyLen kind
  let key := slice r 16 64
  let half := key.take (len / 2)
  if len = 0 ∨ (kind ≤ 2 ∧ counterMax < fieldLE r 8 8) ∨ (key.drop len).any (· ≠ 0) then 0x0107
  else if (kind = 3 ∨ kind = 4) ∧ half = (key.drop (len / 2)).take (len / 2) then 0x0604
  else if (d.keySlot p n).kind ≠ 0 ∧ padTo 64 (d.keySlot p n).key = key then 0x0605
  else 0

/-- A key record loaded into a slot (R484). -/
def Dev.loadKey (d : Dev) (p n : Nat) (r : Bytes) : Dev :=
  let kind := fieldLE r 0 1
  let gcm := decide (kind ≤ 2)
  let limit := fieldLE r 8 8
  (d.setKeySlot p n
    { kind := kind, fix := if gcm then fieldLE r 4 4 else 0
      limit := if gcm then (if limit = 0 then counterMax else limit) else 0
      next := 1, key := slice r 16 (keyLen kind) }).setKeyHigh p n 1

/-- A slot quenched to KIND 0 (R485). -/
def Dev.clearKey (d : Dev) (p n : Nat) : Dev := (d.setKeySlot p n {}).setKeyHigh p n 0

/-- A counter assigned (R486), HIGH raised by 2^20 first where it has been reached (R487). -/
def Dev.assignCounter (d : Dev) (p n : Nat) : Nat × Dev :=
  let s := d.keySlot p n
  let d := if d.keyHigh p n ≤ s.next then d.setKeyHigh p n (d.keyHigh p n + 2 ^ 20) else d
  (s.next, d.setKeySlot p n { s with next := s.next + 1 })

/-! ## Engines open to a pavilion (R493, R496) -/

/-- The engine share of a pavilion. -/
def Dev.engineShare (d : Dev) (p : Nat) : Nat := elem 1 (d.rd R.pav_SHARES p) 3

/-- The slots of each engine's frame that pavilion `p` holds as its own (R493, R516): a strict pavilion's share. -/
def Dev.ownEngineSlots (d : Dev) (p : Nat) : Nat := if d.pavExists p && d.strict p then d.engineShare p else 0

/-- Engine slots of 256 that strict pavilions hold (R493, R516). -/
def Dev.strictEngineSlots (d : Dev) : Nat := (List.range 64).foldl (fun n p => n + d.ownEngineSlots p) 0

/-- The slots of an engine serve pavilion `p`. -/
def Dev.engineServes (d : Dev) (p : Nat) : Bool :=
  if d.strict p then decide (0 < d.engineShare p) else decide (d.strictEngineSlots < 256)

/-- The strict pavilion that holds slot `s` of the frame of engine `e`, of `n` like it; none for a common slot. Each holds a run of slots,
by rising number, and the frames of the engines are staggered evenly (R493, R516, notes/assumptions/40). -/
def Dev.engineHolder (d : Dev) (n e s : Nat) : Option Nat :=
  holderAt d.ownEngineSlots (List.range 64) ((s + e * 256 / n) % 256)

/-- The pavilion that the slot of an engine serves, where `has` tells which have work for it (R39, R493): the strict one that holds the
slot, or none; in a common slot the shared pavilion that has had the least of this frame for its share, and those of share 0 in turn
where none with a share has work. -/
def Dev.engineTurn (d : Dev) (n e : Nat) (f : EngineFrame) (has : Nat → Bool) : Option Nat :=
  match d.engineHolder n e f.slot with
  | some p => if has p then some p else none
  | none =>
    let l := (List.range 64).filter fun q => !d.strict q && has q
    let got := Table.get 0 f.served
    match l.filter fun q => decide (0 < d.engineShare q) with
    | q :: t => some (t.foldl (fun a b => if got b * d.engineShare a < got a * d.engineShare b then b else a) q)
    | [] => ((List.range 64).map fun i => (f.turn + 1 + i) % 64).find? l.contains

/-- An engine's frame after a slot that has served `q`. -/
def EngineFrame.pass (f : EngineFrame) (q : Option Nat) (share : Nat → Nat) : EngineFrame :=
  let f := match q with
    | none => f
    | some p => { f with served := Table.set 0 f.served p (Table.get 0 f.served p + 1), turn := if share p = 0 then p else f.turn }
  if f.slot = 255 then { f with slot := 0, served := [] } else { f with slot := f.slot + 1 }

/-- Cipher engine `e` is open to pavilion `p` (R496, R497). -/
def Dev.cipherOpen (d : Dev) (p e : Nat) : Bool :=
  decide (e < 24) && decide (d.rd R.cie_STATE e ≠ 4) && decide (d.rd R.cie_ENABLE e = 1) && !d.eng.cipherCheck.contains e &&
    d.engineServes p

/-- The engine named in RA [7:0], or for 0xFF some engine, satisfies `q` among `n`. -/
def someEngine (n e : Nat) (q : Nat → Bool) : Bool := if e = 0xFF then (List.range n).any q else decide (e < n) && q e

/-! ## The descriptor's checks (Tables 17.1, 17.4, 17.5) -/

/-- Every key kind that an operation takes (Table 17.1). -/
def cipherKinds (op : Nat) : List Nat :=
  if op ≤ 4 then [1, 2] else if op ≤ 6 then [3, 4] else [0, 1, 2, 3, 4, 5]

/-- GCM_ENC and GMAC_GEN are assigned a counter (R486). -/
def takesCounter (op : Nat) : Bool := decide (op = 1) || decide (op = 3)

/-- The bytes of IV that an operation uses. -/
def ivUsed (op : Nat) : Nat := if op = 2 ∨ op = 4 then 12 else if op = 5 ∨ op = 6 then 8 else 0

/-- Check 2 of Table 17.5. -/
def cipherFields (b : Bytes) : Bool :=
  let op := fieldLE b 0 1
  let flags := fieldLE b 1 1
  let len := fieldLE b 4 4
  let aux := fieldLE b 8 4
  let key := decide (op = 0x10) || decide (op = 0x11)
  ((decide (1 ≤ op) && decide (op ≤ 6)) || key) && decide (flags ≤ (if op = 0x10 then 1 else 0)) &&
    decide (len ≤ (if key then 0 else 16777216)) &&
    (if op = 1 ∨ op = 2 then decide (aux ≤ 65536)
      else if op = 5 ∨ op = 6 then decide (16 ≤ aux) && decide (aux ≤ 16777216) && decide (len % aux = 0)
      else decide (aux = 0)) &&
    ((slice b 16 16).drop (ivUsed op)).all (· = 0)

/-- The bytes a job reads from SRC (Table 17.1). -/
def cipherIn (op len aux : Nat) : Nat :=
  match op with
  | 1 => aux + len
  | 2 => aux + len + 16
  | 4 => len + 16
  | 0x10 => 80
  | 0x11 => 0
  | _ => len

/-- The bytes a job's DST takes (check 4 of Table 17.5); none where DST is ignored. -/
def cipherOut (op len : Nat) : Option Nat :=
  match op with
  | 1 => some (len + 16)
  | 3 => some 16
  | 2 | 5 | 6 => some len
  | _ => none

/-- Check 4 of Table 17.5. -/
def Dev.cipherBufs (d : Dev) (p op len aux : Nat) (src dst : Cap) : Bool :=
  let n := cipherIn op len aux
  let s := src.cursor.toNat
  let t := dst.cursor.toNat
  (decide (op = 0x11) || d.bufOk p src n permLD (if op = 0x10 then 16 else 1)) &&
    match cipherOut op len with
    | none => true
    | some m => d.bufOk p dst m permST &&
        ((decide (t = s + (if op ≤ 2 then aux else 0)) && decide (m = len)) || !meets t m s n)

/-- Jobs of a pavilion submitted and not posted. -/
def Dev.cipherCount (d : Dev) (p : Nat) : Nat :=
  (d.eng.cipherJobs.filter fun j => decide (j.pav = p)).length + (d.eng.cipherDone.filter fun j => decide (j.pav = p)).length

/-- The CIPH submission (Table 17.5). -/
def cipherSubmit (o : OpDev) (c p a : Nat) (b : Bytes) (d : Dev) : Submission :=
  let e := (((d.core c).gr o.ra).toNat) % 256
  let op := fieldLE b 0 1
  let slot := fieldLE b 2 2
  let len := fieldLE b 4 4
  let aux := fieldLE b 8 4
  let (src, d) := d.devCap p (a + 32)
  let (dst, d) := d.devCap p (a + 48)
  let s := d.keySlot p slot
  let early := firstReason
    [refuse (someEngine 24 e (d.cipherOpen p)) 0x0401, refuse (cipherFields b) 0x0107,
      refuse (d.holdsSlot p slot && (cipherKinds op).contains s.kind) 0x0603,
      refuse (d.cipherBufs p op len aux src dst) 0x0108]
  if early ≠ 0 then (early, 0, d)
  else
    let (r, d) := d.ringTakes p (d.rd R.cip_CQ_BASE 0 p) (d.rd R.cip_CQ_ENTRIES 0 p) (d.cipherCount p)
      (Table.get 0 d.eng.cipherIndex p)
    if r ≠ 0 then (r, 0, d)
    else if takesCounter op && decide (s.limit < s.next) then (0x0601, 0, d.bump R.cip_KEYS_SPENT 0 p)
    else
      let (ctr, d) := if takesCounter op then d.assignCounter p slot else (0, d)
      let iv := if takesCounter op then leBytes 4 s.fix ++ leBytes 8 ctr else slice b 16 16
      let j : CipherJob :=
        { pav := p, engine := e, op := op, wipe := bitOf (fieldLE b 1 1) 0, slot := slot, length := len, aux := aux
          id := fieldLE b 12 4, iv := iv, counter := ctr, key := s.key, src := src.cursor.toNat, dst := dst.cursor.toNat
          density := d.rd R.cip_DENSITY 0 p }
      (0, 0, d.onEng fun x => { x with cipherJobs := x.cipherJobs ++ [j] })

/-- The body of DEV.CIPH; the descriptor's OP names the job. -/
def ciphBody (o : OpDev) : Body := submitBody o 64 (cipherSubmit o)

/-- GCM_ENC, by CIPH (R486, R489). -/
def execGcmEnc (o : OpDev) (s : State) : Host.Outcome State Fault Refusal := s.exchange o.core (.gcmEnc o) (ciphBody o)
/-- GCM_DEC, by CIPH (R489, R492). -/
def execGcmDec (o : OpDev) (s : State) : Host.Outcome State Fault Refusal := s.exchange o.core (.gcmDec o) (ciphBody o)
/-- GMAC_GEN, by CIPH (R486, R489). -/
def execGmacGen (o : OpDev) (s : State) : Host.Outcome State Fault Refusal := s.exchange o.core (.gmacGen o) (ciphBody o)
/-- GMAC_VER, by CIPH (R481, R489). -/
def execGmacVer (o : OpDev) (s : State) : Host.Outcome State Fault Refusal := s.exchange o.core (.gmacVer o) (ciphBody o)
/-- XTS_ENC, by CIPH (R481, R489). -/
def execXtsEnc (o : OpDev) (s : State) : Host.Outcome State Fault Refusal := s.exchange o.core (.xtsEnc o) (ciphBody o)
/-- XTS_DEC, by CIPH (R481, R489). -/
def execXtsDec (o : OpDev) (s : State) : Host.Outcome State Fault Refusal := s.exchange o.core (.xtsDec o) (ciphBody o)
/-- KEYLOAD, by CIPH (R484, R489). -/
def execKeyload (o : OpDev) (s : State) : Host.Outcome State Fault Refusal := s.exchange o.core (.keyload o) (ciphBody o)
/-- KEYCLEAR, by CIPH (R485, R489). -/
def execKeyclear (o : OpDev) (s : State) : Host.Outcome State Fault Refusal := s.exchange o.core (.keyclear o) (ciphBody o)

/-! ## Work (R492, R494, R497) -/

/-- B: the bytes of a chunk at a density (R494). -/
def chunkBytes (density : Nat) : Nat :=
  match density with | 5 => 960 | 6 => 912 | 7 => 864 | _ => 1024

/-- The output of a job once the bytes `seen` of SRC are read: the bytes of DST from 0 that are final. -/
def cipherOutput (j : CipherJob) (seen : Bytes) : Bytes :=
  let data := (seen.drop j.aux).take j.length
  match j.op with
  | 1 =>
    let ct := gcmCrypt j.key j.iv data
    if seen.length < j.aux + j.length then ct else ct ++ gcmTag j.key j.iv (seen.take j.aux) ct
  | 2 => gcmCrypt j.key (j.iv.take 12) data
  | 3 => if seen.length < j.length then [] else gcmTag j.key j.iv (seen.take j.length) []
  | 5 | 6 =>
    let d := seen.take j.length
    let whole := if j.aux = 0 then 0 else d.length / j.aux * j.aux
    xtsUnits j.key (decide (j.op = 5)) j.aux (whole + 1) (leNat (j.iv.take 8)) (d.take whole)
  | _ => []

/-- The tag of a job verifies: GCM_DEC and GMAC_VER (R492). -/
def cipherVerifies (j : CipherJob) (seen : Bytes) : Bool :=
  match j.op with
  | 2 => decide (gcmTag j.key (j.iv.take 12) (seen.take j.aux) ((seen.drop j.aux).take j.length) = seen.drop (j.aux + j.length))
  | 4 => decide (gcmTag j.key (j.iv.take 12) (seen.take j.length) [] = seen.drop j.length)
  | _ => true

/-- A job finishes: it waits to be posted (R490). -/
def Dev.cipherFinish (d : Dev) (j : CipherJob) (engine status out : Nat) : Dev :=
  d.onEng fun x => { x with
    cipherJobs := x.cipherJobs.erase j
    cipherDone := x.cipherDone ++ [{ pav := j.pav, slot := j.slot, id := j.id, status := status, engine := engine,
                                     retried := j.retried, counter := j.counter, bytesOut := out }] }

/-- The quench of the first `n` bytes of a job's DST (R492). -/
def Dev.cipherQuench (d : Dev) (j : CipherJob) (n : Nat) : Dev := d.devWrite j.pav j.dst (zeros n)

/-- The end of a job whose SRC is read: the key operation acts, or the tag is judged. -/
def Dev.cipherEnd (d : Dev) (j : CipherJob) (engine : Nat) (seen : Bytes) : Dev :=
  if j.op = 0x10 then
    let r := d.keyRefused j.pav j.slot seen
    let d := if r = 0 then d.loadKey j.pav j.slot seen else d
    let d := if r = 0 && j.wipe then d.devWrite j.pav j.src (zeros 80) else d
    d.cipherFinish j engine r 0
  else if j.op = 0x11 then (d.clearKey j.pav j.slot).cipherFinish j engine 0 0
  else if cipherVerifies j seen then d.cipherFinish j engine 0 ((cipherOut j.op j.length).getD 0)
  else
    let d := if j.op = 2 then d.cipherQuench j j.length else d
    (d.bump R.cip_AUTH_FAILS 0 j.pav).cipherFinish j engine 1 0

/-- A key operation waits for every earlier job that names its slot to complete (R485). -/
def Dev.keyOpWaits (d : Dev) (j : CipherJob) : Bool :=
  (decide (j.op = 0x10) || decide (j.op = 0x11)) &&
    d.eng.cipherDone.any fun x => decide (x.pav = j.pav) && decide (x.slot = j.slot)

/-- The earliest job of pavilion `p`, where engine `e` may run it now (R494, R496). -/
def Dev.cipherHead (d : Dev) (p e : Nat) : Option CipherJob :=
  match d.eng.cipherJobs.find? fun j => decide (j.pav = p) with
  | none => none
  | some j =>
    if d.cipherOpen p e && (decide (j.engine = 0xFF) || decide (j.engine = e) || !d.cipherOpen p j.engine) && !d.keyOpWaits j then some j
    else none

/-- The frame of cipher engine `e`. -/
def Dev.cipherFrame (d : Dev) (e : Nat) : EngineFrame := Table.get {} d.eng.cipherFrames e

/-- The pavilion that the slot of cipher engine `e` serves. -/
def Dev.cipherTurn (d : Dev) (e : Nat) : Option Nat := d.engineTurn 24 e (d.cipherFrame e) fun p => (d.cipherHead p e).isSome

/-- The job whose chunk the slot of cipher engine `e` takes: the pavilion's earliest (R493, R494). -/
def Dev.cipherNext (d : Dev) (e : Nat) : Option CipherJob :=
  match d.cipherTurn e with
  | some p => d.cipherHead p e
  | none => none

/-- The slot of cipher engine `e` has passed. -/
def Dev.cipherPass (d : Dev) (e : Nat) : Dev :=
  let f := (d.cipherFrame e).pass (d.cipherTurn e) d.engineShare
  d.onEng fun x => { x with cipherFrames := Table.set {} x.cipherFrames e f }

/-- A job replaced by a later state of it. -/
def Dev.cipherStep (d : Dev) (j k : CipherJob) : Dev :=
  d.onEng fun x => { x with cipherJobs := x.cipherJobs.map fun q => if q = j then k else q }

/-- CIPHER_CHUNK (R493, R494, R497): the engine's slot ends with a chunk of a job processed, or its datapaths disagree; a slot for which
there is no work passes idle. -/
def execCipherChunk (o : OpCipherChunk) (s : State) : Host.Outcome State Fault Refusal :=
  s.act fun d =>
    let d := d.at o.t
    let e := o.engine.val
    let next := d.cipherNext e
    let d := d.cipherPass e
    match next with
    | none => d
    | some j =>
      if o.mismatch then
        let d := d.bump R.cie_MISMATCHES e
        if j.again then
          let d := (d.cipherQuench j j.wrote).bump R.cie_ENGINE_FAULTS e
          let d := d.onEng fun x => { x with cipherCheck := x.cipherCheck ++ [e] }
          d.cipherFinish j e 2 0
        else d.cipherStep j { j with again := true, retried := true }
      else
        let total := cipherIn j.op j.length j.aux
        let n := min (chunkBytes j.density) (total - j.seen.length)
        let (b, bad, d) := d.devRead j.pav (j.src + j.seen.length) n
        let d := (d.bump R.cie_JOBS e).bump R.cie_BYTES e 0 n
        if bad then (d.cipherQuench j j.wrote).cipherFinish j e 3 0
        else
          let seen := j.seen ++ b
          let out := cipherOutput j seen
          let d := d.devWrite j.pav (j.dst + j.wrote) (out.drop j.wrote)
          let k := { j with seen := seen, wrote := max j.wrote out.length, again := false }
          let d := d.cipherStep j k
          if seen.length < total then d else d.cipherEnd k e seen

/-- CIPHER_COMPLETION (R490): the pavilion's earliest finished job is posted. -/
def execCipherCompletion (o : OpPavT) (s : State) : Host.Outcome State Fault Refusal :=
  s.act fun d =>
    let d := d.at o.t
    let p := o.pav.val
    match d.eng.cipherDone.find? (fun x => decide (x.pav = p)) with
    | none => d
    | some x =>
      let k := Table.get 0 d.eng.cipherIndex p
      let b := leBytes 4 x.id ++ leBytes 2 x.status ++ leBytes 1 x.engine ++ leBytes 1 (if x.retried then 3 else 1) ++
        leBytes 8 x.counter ++ leBytes 8 d.time ++ leBytes 4 x.bytesOut ++ zeros 4
      let d := d.postEntry p (d.rd R.cip_CQ_BASE 0 p) (d.rd R.cip_CQ_ENTRIES 0 p) k (d.rd R.cip_DOORBELL 0 p) b
      let d := d.onEng fun y => { y with cipherDone := y.cipherDone.erase x, cipherIndex := Table.set 0 y.cipherIndex p (k + 1) }
      d

/-- CIPHER_SELF_CHECK_END (R497): the engine opens again, or enters state 4 with the estate alert and FAULT_L. -/
def execCipherSelfCheckEnd (o : OpCipherCheck) (s : State) : Host.Outcome State Fault Refusal :=
  s.act fun d =>
    let d := d.at o.t
    let e := o.engine.val
    if !d.eng.cipherCheck.contains e then d
    else
      let d := d.onEng fun x => { x with cipherCheck := x.cipherCheck.erase e }
      if o.passed then d
      else
        let d := (d.wr R.cie_STATE 4 e).alert (0x7100 + e) 0x00 0xFF e
        d.faultCause 2

end Sys2Proof.Machine
end

