-- ==== Sys2Proof/Machine/Deflate.lean ====
section
/-! DEFINITION. Machine/Deflate.lean: the decoder of a container block's DEFLATE stream (RFC 1951, R501, R512 step 2). -/

namespace Sys2Proof.Machine

/-- The bits of bytes in the order of RFC 1951: the least significant bit of each byte first. -/
def inflateBits (b : Bytes) : List Bool := b.flatMap fun x => (List.range 8).map x.getLsbD

/-- A number of `n` bits, least significant first, and the rest. -/
def takeBits : Nat → List Bool → Option (Nat × List Bool)
  | 0, s => some (0, s)
  | _ + 1, [] => none
  | n + 1, x :: s => (takeBits n s).map fun r => (2 * r.1 + (if x then 1 else 0), r.2)

/-- Decoding of one symbol by code lengths: bit by bit, the canonical codes of each length in turn (RFC 1951, 3.2.2). `first` is
the first code of the present length. -/
def huffStep (lens : List Nat) : Nat → Nat → Nat → List Bool → Option (Nat × List Bool)
  | 0, _, _, _ => none
  | _ + 1, _, _, [] => none
  | n + 1, code, first, x :: s =>
    let code := 2 * code + (if x then 1 else 0)
    let first := 2 * first
    let len := 15 - n
    let syms := (List.range lens.length).filter fun i => decide (lens.getD i 0 = len)
    if code < first + syms.length then (if first ≤ code then some (syms.getD (code - first) 0, s) else none)
    else huffStep lens n code (first + syms.length) s

/-- A symbol decoded. -/
def huffDecode (lens : List Nat) (s : List Bool) : Option (Nat × List Bool) := huffStep lens 15 0 0 s

/-- No more codes are given than their lengths allow. -/
def huffOk (lens : List Nat) : Bool :=
  decide ((lens.filter (· ≠ 0)).foldl (fun n l => n + 2 ^ (15 - l)) 0 ≤ 2 ^ 15)

/-- Base and extra bits of a length symbol 257 to 285 (RFC 1951, 3.2.5). -/
def lengthCode (sym : Nat) : Option (Nat × Nat) :=
  let i := sym - 257
  if 285 < sym then none
  else if sym = 285 then some (258, 0)
  else if i < 8 then some (3 + i, 0)
  else some (3 + (4 + i % 4) * 2 ^ (i / 4 - 1), i / 4 - 1)

/-- Base and extra bits of a distance symbol 0 to 29. -/
def distCode (sym : Nat) : Option (Nat × Nat) :=
  if 29 < sym then none
  else if sym < 4 then some (1 + sym, 0)
  else some (1 + (2 + sym % 2) * 2 ^ (sym / 2 - 1), sym / 2 - 1)

/-- A copy of `n` bytes from distance `dist` in the output, which is kept latest first. -/
def copyBack (dist : Nat) : Nat → Bytes → Bytes
  | 0, out => out
  | n + 1, out => copyBack dist n (out.getD (dist - 1) 0 :: out)

/-- The symbols of one block up to its end-of-block, with output limited to `limit` bytes. -/
def inflateSyms (lit dist : List Nat) (limit : Nat) : Nat → List Bool → Bytes → Option (Bytes × List Bool)
  | 0, _, _ => none
  | n + 1, s, out =>
    match huffDecode lit s with
    | none => none
    | some (sym, s) =>
      if sym < 256 then
        if limit ≤ out.length then none else inflateSyms lit dist limit n s (BitVec.ofNat 8 sym :: out)
      else if sym = 256 then some (out, s)
      else match lengthCode sym with
        | none => none
        | some (lb, le) =>
          match takeBits le s with
          | none => none
          | some (lx, s) =>
            match huffDecode dist s with
            | none => none
            | some (ds, s) =>
              match distCode ds with
              | none => none
              | some (db, de) =>
                match takeBits de s with
                | none => none
                | some (dx, s) =>
                  let len := lb + lx
                  let back := db + dx
                  if out.length < back ∨ limit < out.length + len then none
                  else inflateSyms lit dist limit n s (copyBack back len out)

/-- The code lengths of a dynamic block (RFC 1951, 3.2.7): `n` more are wanted after `acc`. -/
def codeLengths (cl : List Nat) (want : Nat) : Nat → List Bool → List Nat → Option (List Nat × List Bool)
  | 0, _, _ => none
  | n + 1, s, acc =>
    if acc.length = want then some (acc, s)
    else if want < acc.length then none
    else match huffDecode cl s with
      | none => none
      | some (sym, s) =>
        if sym < 16 then codeLengths cl want n s (acc ++ [sym])
        else if sym = 16 then
          match acc.getLast?, takeBits 2 s with
          | some l, some (r, s) => codeLengths cl want n s (acc ++ List.replicate (3 + r) l)
          | _, _ => none
        else
          match takeBits (if sym = 17 then 3 else 7) s with
          | some (r, s) => codeLengths cl want n s (acc ++ List.replicate ((if sym = 17 then 3 else 11) + r) 0)
          | none => none

/-- The order of code length code lengths. -/
def clOrder : List Nat := [16, 17, 18, 0, 8, 7, 9, 6, 10, 5, 11, 4, 12, 3, 13, 2, 14, 1, 15]

/-- `n` numbers of 3 bits. -/
def take3s : Nat → List Bool → Option (List Nat × List Bool)
  | 0, s => some ([], s)
  | n + 1, s =>
    match takeBits 3 s with
    | none => none
    | some (v, s) => (take3s n s).map fun r => (v :: r.1, r.2)

/-- The code lengths of the fixed codes. -/
def fixedLit : List Nat := List.replicate 144 8 ++ List.replicate 112 9 ++ List.replicate 24 7 ++ List.replicate 8 8

/-- The codes of a dynamic block. -/
def dynamicCodes (s : List Bool) : Option (List Nat × List Nat × List Bool) :=
  match takeBits 14 s with
  | none => none
  | some (v, s) =>
    let hlit := v % 32 + 257
    let hdist := v / 32 % 32 + 1
    match take3s (v / 1024 + 4) s with
    | none => none
    | some (cls, s) =>
      let cl := (List.range 19).map fun i => cls.getD (clOrder.findIdx (· = i)) 0
      if 286 < hlit ∨ ¬ huffOk cl then none
      else match codeLengths cl (hlit + hdist) 400 s [] with
        | none => none
        | some (ls, s) =>
          if huffOk (ls.take hlit) && huffOk (ls.drop hlit) then some (ls.take hlit, ls.drop hlit, s) else none

/-- A stored block of BTYPE 00: the rest of the byte is skipped, then LEN, its complement and LEN bytes. `total` is the bits of
the stream. -/
def storedBlock (total limit : Nat) (s : List Bool) (out : Bytes) : Option (Bytes × List Bool) :=
  let s := s.drop ((8 - (total - s.length) % 8) % 8)
  match takeBits 16 s with
  | none => none
  | some (len, s) =>
    match takeBits 16 s with
    | none => none
    | some (nlen, s) =>
      if len + nlen ≠ 65535 ∨ s.length < 8 * len ∨ limit < out.length + len then none
      else
        let b := (List.range len).map fun i => BitVec.ofNat 8 (((takeBits 8 (s.drop (8 * i))).map (·.1)).getD 0)
        some (b.reverse ++ out, s.drop (8 * len))

/-- The blocks of a stream to the one with BFINAL. -/
def inflateBlocks (total limit : Nat) : Nat → List Bool → Bytes → Option (Bytes × List Bool)
  | 0, _, _ => none
  | n + 1, s, out =>
    match takeBits 3 s with
    | none => none
    | some (v, s) =>
      let r := match v / 2 with
        | 0 => storedBlock total limit s out
        | 1 => inflateSyms fixedLit (List.replicate 32 5) limit (s.length + 1) s out
        | 2 =>
          match dynamicCodes s with
          | some (lit, dist, s) => inflateSyms lit dist limit (s.length + 1) s out
          | none => none
        | _ => none
      match r with
      | none => none
      | some (out, s) => if v % 2 = 1 then some (out, s) else inflateBlocks total limit n s out

/-- The `ulen` bytes that a payload decodes to; none where R512, step 2, fails: the stream is malformed, is followed within the
payload by bytes or non-zero bits, or gives another count of bytes. -/
def inflate (payload : Bytes) (ulen : Nat) : Option Bytes :=
  let s := inflateBits payload
  match inflateBlocks s.length ulen (s.length + 1) s [] with
  | some (out, rest) =>
    if rest.length < 8 && rest.all (· = false) && decide (out.length = ulen) then some out.reverse else none
  | none => none

end Sys2Proof.Machine
end

