-- ==== Sys2Proof/Machine/Compress.lean ====
section
/-! DEFINITION. Machine/Compress.lean: the CMPR submission, and the work and completion of compression jobs (R500 to R517). -/

namespace Sys2Proof.Machine

/-! ## Submission (Table 18.5) -/

/-- Compression engine `e` is open to pavilion `p` (R516, R506). -/
def Dev.compOpen (d : Dev) (p e : Nat) : Bool :=
  decide (e < 16) && decide (d.rd R.cpe_STATE e ≠ 4) && decide (d.rd R.cpe_ENABLE e = 1) && !d.eng.compCheck.contains e &&
    d.engineServes p

/-- Check 2 of Table 18.5. -/
def compFields (b : Bytes) : Bool :=
  let op := fieldLE b 0 1
  let f := fieldLE b 1 1
  let n := fieldLE b 2 1
  decide (1 ≤ op) && decide (op ≤ 3) && decide (f < 8) && decide (1 ≤ n) && decide (n ≤ 16) &&
    (decide (op = 2) || decide (fieldLE b 3 1 ≤ 64)) && decide (fieldLE b 4 4 ≤ 16777216) && decide (fieldLE b 12 4 = 0) &&
    (!bitOf f 2 || decide (op = 1)) && (decide (f % 4 = 0) || decide (op = 3)) &&
    (decide (op = 3) || decide (fieldLE b 48 16 = 0))

/-- The address and usable bytes of a chain buffer: from its cursor to the end of its range (R504, R510). -/
def chainBuf (c : Cap) : Option (Nat × Nat) :=
  let a := c.cursor.toNat
  let e := c.base.toNat + c.len.toNat
  if c.tag && decide (c.otype = 0) && c.has permST && decide (c.base.toNat ≤ a) && decide (a + 24 ≤ e) then some (a, e - a) else none

/-- The capabilities of a chain array. -/
def chainCaps (p a : Nat) : Nat → Dev → List Cap × Dev
  | 0, d => ([], d)
  | n + 1, d =>
    let (c, d) := d.devCap p a
    let (t, d) := chainCaps p (a + 16) n d
    (c :: t, d)

/-- Check 3 of Table 18.5: the reason, and the index of the failing chain buffer or 0xFF. -/
def Dev.compBufs (d : Dev) (p op len : Nat) (src chain ctx : Cap) (bufs : List Cap) : Nat × Nat :=
  let n := bufs.length
  let fixed := [(src.cursor.toNat, len), (chain.cursor.toNat, 16 * n)] ++
    (if op = 3 then [(ctx.cursor.toNat, 65600)] else [])
  let hits := fun (l : List (Nat × Nat)) (r : Nat × Nat) => l.any fun q => meets q.1 q.2 r.1 r.2
  if !d.bufOk p src len permLD || !d.bufOk p chain (16 * n) (permLD ||| permLDC) 16 ||
      (decide (op = 3) && !d.bufOk p ctx 65600 (permLD ||| permST) 64) then (0x0108, 0xFF)
  else match (bufs.zipIdx).find? (fun e => match chainBuf e.1 with
      | some (a, m) => (d.firstUnmapped p a m).isSome
      | none => true) with
    | some e => (0x0108, e.2)
    | none =>
      if (fixed.zipIdx).any (fun e => hits (fixed.take e.2) e.1) then (0x0108, 0xFF)
      else
        let bs := bufs.filterMap chainBuf
        match (bs.zipIdx).find? (fun e => hits (fixed ++ bs.take e.2) e.1) with
        | some e => (0x0108, e.2)
        | none => (0, 0)

/-- Jobs of a pavilion submitted and not posted. -/
def Dev.compCount (d : Dev) (p : Nat) : Nat :=
  (d.eng.compJobs.filter fun j => decide (j.pav = p)).length + (d.eng.compDone.filter fun j => decide (j.job.pav = p)).length

/-- The CMPR submission (Table 18.5). -/
def compSubmit (o : OpDev) (c p a : Nat) (b : Bytes) (d : Dev) : Submission :=
  let e := (((d.core c).gr o.ra).toNat) % 256
  let op := fieldLE b 0 1
  let f := fieldLE b 1 1
  let len := fieldLE b 4 4
  let (src, d) := d.devCap p (a + 16)
  let (chain, d) := d.devCap p (a + 32)
  let (ctx, d) := d.devCap p (a + 48)
  let early := firstReason [refuse (someEngine 16 e (d.compOpen p)) 0x0401, refuse (compFields b) 0x0107]
  if early ≠ 0 then (early, 0, d)
  else
    let n := fieldLE b 2 1
    let arr := d.bufOk p chain (16 * n) (permLD ||| permLDC) 16
    let (bufs, d) := if arr then chainCaps p chain.cursor.toNat n d else ([], d)
    let (r, detail) := if arr then d.compBufs p op len src chain ctx bufs else (0x0108, 0xFF)
    if r ≠ 0 then (r, detail, d)
    else
      let (r, d) := d.ringTakes p (d.rd R.cpr_CQ_BASE 0 p) (d.rd R.cpr_CQ_ENTRIES 0 p) (d.compCount p)
        (Table.get 0 d.eng.compIndex p)
      if r ≠ 0 then (r, 0, d)
      else
        let k := fieldLE b 3 1
        let j : CompJob :=
          { pav := p, engine := e, op := op, flush := bitOf f 0, finish := bitOf f 1, more := bitOf f 2
            block := (if k = 0 then 64 else k) * 1024, length := len, id := fieldLE b 8 4, src := src.cursor.toNat
            arr := chain.cursor.toNat, chain := bufs.filterMap chainBuf, ctx := ctx.cursor.toNat }
        (0, 0, d.onEng fun x => { x with compJobs := x.compJobs ++ [j] })

/-- The body of DEV.CMPR; the descriptor's OP names the job. -/
def cmprBody (o : OpDev) : Body := submitBody o 64 (compSubmit o)

/-- COMPRESS, by CMPR (R504, R505). -/
def execCompress (o : OpDev) (s : State) : Host.Outcome State Fault Refusal := s.exchange o.core (.compress o) (cmprBody o)
/-- DECOMPRESS, by CMPR (R504, R512). -/
def execDecompress (o : OpDev) (s : State) : Host.Outcome State Fault Refusal := s.exchange o.core (.decompress o) (cmprBody o)
/-- STREAM, by CMPR (R504, R508). -/
def execStream (o : OpDev) (s : State) : Host.Outcome State Fault Refusal := s.exchange o.core (.stream o) (cmprBody o)

/-! ## The container (Table 18.1) -/

/-- A container block of `ulen` bytes with CRC `crc`. -/
def containerBlock (raw last flushed : Bool) (ulen crc : Nat) (payload : Bytes) : Bytes :=
  let h := [0x43, 0x42, 0x4C, 0x4B] ++
    leBytes 1 ((if raw then 1 else 0) + (if last then 2 else 0) + (if flushed then 4 else 0)) ++ zeros 3 ++
    leBytes 4 ulen ++ leBytes 4 payload.length ++ leBytes 4 crc
  h ++ leBytes 4 (crc32c h) ++ payload

/-- Step 1 of R512 on a header of 24 bytes. -/
def headerOk (h : Bytes) : Bool :=
  let f := fieldLE h 4 1
  let u := fieldLE h 8 4
  let l := fieldLE h 12 4
  decide (h.take 4 = [0x43, 0x42, 0x4C, 0x4B]) && decide (fieldLE h 20 4 = crc32c (h.take 20)) && decide (f < 8) &&
    decide (fieldLE h 5 3 = 0) && decide (u ≤ 65536) && (decide (u ≠ 0) || decide (f % 4 = 3)) &&
    (if bitOf f 0 then decide (l = u) else decide (1 ≤ l) && decide (l < u))

/-! ## Work -/

/-- A job replaced by a later state of it. -/
def Dev.compStep (d : Dev) (j k : CompJob) : Dev :=
  d.onEng fun x => { x with compJobs := x.compJobs.map fun q => if q = j then k else q }

/-- The stream context written back (R507, R508); FINISH leaves 64 zero bytes. -/
def Dev.writeCtx (d : Dev) (j : CompJob) : Dev :=
  if j.finish && j.ended then d.devWrite j.pav j.ctx (zeros 64)
  else d.devWrite j.pav j.ctx (leBytes 4 j.held.length ++ leBytes 4 (if j.held.isEmpty then 0 else crc32c j.held) ++
    leBytes 8 j.streamBlocks ++ zeros 48 ++ j.held)

/-- A job ends with a status, and waits to be posted. `j` is the job as listed, `k` its last state. -/
def Dev.compFinish (d : Dev) (j k : CompJob) (e status : Nat) : Dev :=
  let d := if k.op = 3 && k.opened then d.writeCtx k else d
  let d := if status = 2 then d.bump R.cpr_CHECK_FAILS 0 j.pav
    else if status = 3 then d.bump R.cpr_FORMAT_FAILS 0 j.pav
    else if status = 4 then d.bump R.cpe_ENGINE_FAULTS e else d
  d.onEng fun x => { x with
    compJobs := x.compJobs.erase j
    compDone := x.compDone ++ [{ job := k, status := status, engine := e }] }

/-- Where the next `n` bytes of output go: buffer and offset (R510); none when they fit in no buffer left (R511). -/
def chainPlace (chain : List (Nat × Nat)) (n : Nat) : Nat → Nat → Nat → Option (Nat × Nat)
  | 0, _, _ => none
  | fuel + 1, i, off =>
    match chain[i]? with
    | none => none
    | some b => if off + n ≤ b.2 then some (i, off) else chainPlace chain n fuel (i + 1) 0

/-- The place of the next `n` bytes of a job's output. -/
def CompJob.place (k : CompJob) (n : Nat) : Option (Nat × Nat) := chainPlace k.chain n 17 k.bufAt k.off

/-- Output written at a place of the chain. -/
def Dev.compPut (d : Dev) (k : CompJob) (at' : Nat × Nat) (b : Bytes) : CompJob × Dev :=
  ({ k with bufAt := at'.1, off := at'.2 + b.length, outDone := k.outDone + b.length, blocks := k.blocks + 1 },
    d.devWrite k.pav ((k.chain.getD at'.1 (0, 0)).1 + at'.2) b)

/-- The chunks of `n` bytes. -/
def chunksOf (n : Nat) : Nat := ceilDiv n 1024

/-- What begins the next step of a job: a block to work on, or the job's end with a status. -/
inductive CompNext where
  | work (k : CompJob) (d : Dev)
  | stop (k : CompJob) (status : Nat) (d : Dev)

/-- A block of data taken into work. -/
def CompJob.begin (k : CompJob) (b : Bytes) (n : Nat) : CompJob := { k with work := some (b, .first), left := chunksOf n }

/-- COMPRESS takes its next block (R505). -/
def Dev.nextCompress (d : Dev) (k : CompJob) : CompNext :=
  if k.ended || (decide (k.length = 0) && k.more) then .stop k 0 d
  else
    let n := min k.block (k.length - k.inDone)
    let (b, bad, d) := d.devRead k.pav (k.src + k.inDone) n
    if bad then .stop k 5 d else .work (k.begin b n) d

/-- A STREAM job opens its context (R508, step 1): the status of a failure. -/
def Dev.openCtx (d : Dev) (k : CompJob) : Except Nat CompJob × Dev :=
  let (h, bad, d) := d.devRead k.pav k.ctx 64
  let n := fieldLE h 0 4
  if bad then (.error 5, d)
  else if 65536 < n ∨ fieldLE h 16 48 ≠ 0 then (.error 3, d)
  else
    let (b, bad, d) := d.devRead k.pav (k.ctx + 64) n
    if bad then (.error 5, d)
    else if n ≠ 0 ∧ crc32c b ≠ fieldLE h 4 4 then (.error 3, d)
    else (.ok { k with opened := true, held := b, streamBlocks := fieldLE h 8 8 }, d)

/-- STREAM takes data in and comes to its next block, if any (R508, steps 2 to 4). -/
def Dev.nextStream (d : Dev) (k : CompJob) : CompNext :=
  let (r, d) := if k.opened then (.ok k, d) else d.openCtx k
  match r with
  | .error s => .stop k s d
  | .ok k =>
    if k.ended then .stop k 0 d
    else if k.block ≤ k.held.length then .work (k.begin k.held k.held.length) d
    else
      let n := min (k.block - k.held.length) (k.length - k.inDone)
      let (b, bad, d) := d.devRead k.pav (k.src + k.inDone) n
      if bad then .stop k 5 d
      else
        let k := { k with held := k.held ++ b, inDone := k.inDone + n }
        if k.held.length = k.block ∨ k.finish ∨ (k.flush ∧ k.held ≠ []) then .work (k.begin k.held k.held.length) d
        else .stop k 0 d

/-- DECOMPRESS comes to its next container block (R512 step 1, R513). -/
def Dev.nextDecompress (d : Dev) (k : CompJob) : CompNext :=
  let rest := k.length - k.inDone
  if k.ended then .stop k 0 d
  else if rest < 24 then .stop { k with part := decide (0 < rest) } 0 d
  else
    let (h, bad, d) := d.devRead k.pav (k.src + k.inDone) 24
    if bad then .stop k 5 d
    else if !headerOk h then .stop k 3 d
    else
      let n := fieldLE h 12 4
      if rest < 24 + n then .stop { k with part := true } 0 d
      else
        let (b, bad, d) := d.devRead k.pav (k.src + k.inDone + 24) n
        if bad then .stop k 5 d else .work (k.begin (h ++ b) (fieldLE h 8 4)) d

/-- A verified block of COMPRESS or STREAM is written (R506, R510, R511). -/
def Dev.writeBlock (d : Dev) (j k : CompJob) (e : Nat) (data : Bytes) (payload : Option Bytes) : Dev :=
  let last := if k.op = 1 then decide (k.inDone + data.length = k.length) && !k.more
    else k.finish && decide (data.length < k.block) && decide (k.inDone = k.length)
  let flushed := decide (k.op = 3) && !last && decide (data.length < k.block)
  let b := containerBlock payload.isNone last flushed data.length (crc32c data) (payload.getD data)
  match k.place b.length with
  | none => d.compFinish j { k with work := none } e 1
  | some q =>
    let (k, d) := d.compPut k q b
    let k := if k.op = 1 then { k with inDone := k.inDone + data.length, ended := decide (k.inDone + data.length = k.length) }
      else { k with held := [], streamBlocks := k.streamBlocks + 1, ended := last || flushed }
    d.compStep j { k with work := none }

/-- The end of a compressor's pass over a block (R506). -/
def Dev.endPass (d : Dev) (j k : CompJob) (e : Nat) (data : Bytes) (stage : CompStage) (mismatch : Bool) : Dev :=
  let raw := fun (d : Dev) => if mismatch then
      (d.onEng fun x => { x with compCheck := x.compCheck ++ [e] }).compFinish j { k with work := none } e 4
    else d.writeBlock j k e data none
  match stage with
  | .raw => raw d
  | _ =>
    let (n, d) := d.draw
    let staged := Config.deflate n data
    if data.length ≤ staged.length then raw d
    else if !mismatch && decide (inflate staged data.length = some data) then d.writeBlock j k e data (some staged)
    else
      let d := d.bump R.cpe_VERIFY_MISMATCHES e
      if stage = .first then
        d.compStep j { k with work := some (data, .second), left := chunksOf data.length, retried := true }
      else
        (d.bump R.cpe_RAW_FALLBACKS e).compStep j
          { k with work := some (data, .raw), left := chunksOf data.length, rawFallback := true }

/-- The end of a container block in the decompressor (R512 steps 2 and 3). -/
def Dev.endDecode (d : Dev) (j k : CompJob) (e : Nat) (b : Bytes) : Dev :=
  let f := fieldLE b 4 1
  let u := fieldLE b 8 4
  let payload := b.drop 24
  let k := { k with work := none }
  match k.place u with
  | none => d.compFinish j k e 1
  | some q =>
    match if bitOf f 0 then some payload else inflate payload u with
    | none => d.compFinish j k e 3
    | some out =>
      if crc32c out ≠ fieldLE b 16 4 then
        (d.devWrite k.pav ((k.chain.getD q.1 (0, 0)).1 + q.2) (zeros u)).compFinish j k e 2
      else
        let (k, d) := d.compPut k q out
        d.compStep j { k with inDone := k.inDone + b.length, lastSeen := bitOf f 1, ended := bitOf f 1 }

/-- The earliest job of pavilion `p`, where engine `e` may run it now (R496, R516). -/
def Dev.compHead (d : Dev) (p e : Nat) : Option CompJob :=
  match d.eng.compJobs.find? fun j => decide (j.pav = p) with
  | none => none
  | some j =>
    if d.compOpen p e && (decide (j.engine = 0xFF) || decide (j.engine = e) || !d.compOpen p j.engine) then some j else none

/-- The frame of compression engine `e`. -/
def Dev.compFrame (d : Dev) (e : Nat) : EngineFrame := Table.get {} d.eng.compFrames e

/-- The pavilion that the slot of compression engine `e` serves. -/
def Dev.compTurn (d : Dev) (e : Nat) : Option Nat := d.engineTurn 16 e (d.compFrame e) fun p => (d.compHead p e).isSome

/-- The job whose chunk the slot of compression engine `e` takes: the pavilion's earliest (R516). -/
def Dev.compNext (d : Dev) (e : Nat) : Option CompJob :=
  match d.compTurn e with
  | some p => d.compHead p e
  | none => none

/-- The slot of compression engine `e` has passed. -/
def Dev.compPass (d : Dev) (e : Nat) : Dev :=
  let f := (d.compFrame e).pass (d.compTurn e) d.engineShare
  d.onEng fun x => { x with compFrames := Table.set {} x.compFrames e f }

/-- The uncompressed bytes of the block in work. -/
def CompJob.workLen (k : CompJob) : Nat :=
  match k.work with
  | some (b, _) => if k.op = 2 then fieldLE b 8 4 else b.length
  | none => 0

/-- COMPRESSION_CHUNK (R505 to R514, R517): the engine's slot ends with a chunk of a job processed; `mismatch` tells that the
verification of its block, where it ends there, disagrees. -/
def execCompressionChunk (o : OpCompChunk) (s : State) : Host.Outcome State Fault Refusal :=
  s.act fun d =>
    let d := d.at o.t
    let e := o.engine.val
    let next := d.compNext e
    let d := d.compPass e
    match next with
    | none => d
    | some j =>
      let r : CompNext := if j.work.isSome then .work j d
        else match j.op with
          | 1 => d.nextCompress j
          | 3 => d.nextStream j
          | _ => d.nextDecompress j
      match r with
      | .stop k status d => d.compFinish j k e status
      | .work k d =>
        let n := min 1024 (k.workLen - 1024 * (chunksOf k.workLen - k.left))
        let d := if k.left = 0 then d else (d.bump R.cpe_CHUNKS e).bump R.cpe_BYTES e 0 n
        let k := { k with left := k.left - 1 }
        match k.work, k.left with
        | some (b, stage), 0 =>
          if k.op = 2 then d.endDecode j k e b else d.endPass j k e b stage o.mismatch
        | _, _ => d.compStep j k

/-- COMPRESSION_COMPLETION (R515): the pavilion's earliest finished job is posted (Table 18.6). -/
def execCompressionCompletion (o : OpPavT) (s : State) : Host.Outcome State Fault Refusal :=
  s.act fun d =>
    let d := d.at o.t
    let p := o.pav.val
    match d.eng.compDone.find? (fun x => decide (x.job.pav = p)) with
    | none => d
    | some x =>
      let k := Table.get 0 d.eng.compIndex p
      let j := x.job
      let fl := 1 + (if j.retried then 2 else 0) + (if j.rawFallback then 4 else 0) + (if j.part then 8 else 0) +
        (if j.lastSeen then 16 else 0)
      let b := leBytes 4 j.id ++ leBytes 2 x.status ++ leBytes 1 x.engine ++ leBytes 1 fl ++ leBytes 4 j.inDone ++
        leBytes 4 j.outDone ++ leBytes 8 d.time ++ leBytes 2 j.blocks ++ leBytes 1 j.bufAt ++ zeros 1 ++ leBytes 4 j.off
      let d := d.postEntry p (d.rd R.cpr_CQ_BASE 0 p) (d.rd R.cpr_CQ_ENTRIES 0 p) k (d.rd R.cpr_DOORBELL 0 p) b
      let d := d.onEng fun y => { y with compDone := y.compDone.erase x, compIndex := Table.set 0 y.compIndex p (k + 1) }
      d

/-- COMPRESSION_SELF_CHECK_END (R506): the engine opens again, or enters state 4 with the estate alert and FAULT_L. -/
def execCompressionSelfCheckEnd (o : OpCompCheck) (s : State) : Host.Outcome State Fault Refusal :=
  s.act fun d =>
    let d := d.at o.t
    let e := o.engine.val
    if !d.eng.compCheck.contains e then d
    else
      let d := d.onEng fun x => { x with compCheck := x.compCheck.erase e }
      if o.passed then d
      else
        let d := (d.wr R.cpe_STATE 4 e).alert (0x7200 + e) 0x00 0xFF e
        d.faultCause 3

end Sys2Proof.Machine
end

