-- ==== Sys2Proof/Machine/MemEvents.lean ====
section
/-! DEFINITION. Machine/MemEvents.lean: the patrol of the memory stacks, the clear of a scratchpad bank, and the cluster
movers (R426 to R430, R436, R439 to R443, R613). -/

namespace Sys2Proof.Machine

/-! ## Patrol (R429, R430) -/

/-- The patrol of a stack. -/
def Dev.patrol (d : Dev) (n : Nat) : Patrol := Table.get {} d.mem.patrols n

/-- The patrol of a stack replaced. -/
def Dev.setPatrol (d : Dev) (n : Nat) (x : Patrol) : Dev :=
  d.onMem fun m => { m with patrols := Table.set {} m.patrols n x }

/-- PATROL_READ (R426, R427, R429, R430): a line at byte offset 64 × `line` of the stack. A pinned line is skipped. -/
def execPatrolRead (o : OpPatrol) (s : State) : Host.Outcome State Fault Refusal :=
  s.act fun d =>
    let d := d.at o.t
    let n := o.stack.val
    if !fitted n || decide (36 * 2 ^ 24 ≤ o.line) then d
    else
      let a := n * 36 * 2 ^ 30 + 64 * o.line
      let pin := match d.ownerOf a with | some (p, rel) => d.pinned p (rel / 64) | none => false
      let x := d.patrol n
      if pin then
        let y := { x with skipped := if x.skipped.contains o.line then x.skipped else x.skipped ++ [o.line] }
        d.setPatrol n y
      else
        let x := { x with skipped := x.skipped.filter (· ≠ o.line) }
        match o.finding with
        | .good => d.setPatrol n x
        | .corrected =>
          let y := { x with corrected := x.corrected + 1 }
          (d.setPatrol n y).bump R.mem_CORRECTED
        | .uncorrectable => (d.setPatrol n x).poisonCodeword (a + if o.upper then 32 else 0)

/-- The period of a stack's next pass (R429), in hours. -/
def nextPeriod (now corrected threshold limit : Nat) : Nat :=
  if threshold < corrected then max 1 (now / 2)
  else if 4 * corrected ≤ threshold then min limit (2 * now)
  else min limit now

/-- PATROL_PASS_END (R429): every skipped line has been visited again (R430), and the next period is set. A pass that began before
start-up had ended lasted SCRUB_PERIOD. -/
def execPatrolPassEnd (o : OpStackT) (s : State) : Host.Outcome State Fault Refusal :=
  s.act fun d =>
    let d := d.at o.t
    let n := o.stack.val
    let x := d.patrol n
    if !fitted n || !x.skipped.isEmpty then d
    else
      let cur := d.rd R.mem_SCRUB_CURRENT
      let limit := d.rd R.mem_SCRUB_PERIOD
      let now := if elem 1 cur n = 0 then limit else elem 1 cur n
      let p := nextPeriod now x.corrected (d.rd R.mem_SCRUB_THRESHOLD) limit
      (d.wr R.mem_SCRUB_CURRENT (withElem 1 cur n p)).setPatrol n {}

/-- BANK_CLEAR_DONE (R436, item 1). -/
def execBankClearDone (o : OpBank) (s : State) : Host.Outcome State Fault Refusal :=
  s.act fun d => d.bankCleared (32 * o.cluster.val + o.bank.val)

/-! ## The cluster mover (R440 to R443) -/

/-- The first descriptor check of R441: OP is defined, every RES0 is zero, LENGTH meets Table 14.5. -/
def moverFields (b : Bytes) : Bool :=
  let op := fieldLE b 0 1
  let len := fieldLE b 8 4
  (decide (op = 1) || decide (op = 2)) && decide (fieldLE b 1 1 / 2 = 0) && decide (fieldLE b 13 3 = 0) &&
    decide (fieldLE b 24 8 = 0) && (decide (op = 2) || decide (fieldLE b 16 8 = 0)) &&
    decide (8 ≤ len) && decide (len ≤ 16777216) && decide (len % 8 = 0)

/-- A buffer check of R441: R34 for `n` bytes, a cursor that is a multiple of 8, every byte mapped in memory or
scratchpad. -/
def Dev.moverBuf (d : Dev) (p : Nat) (c : Cap) (n : Nat) (perm : BitVec 8) : Bool :=
  (c.check c.cursor.toNat n perm 8).isNone && (d.firstUnmapped p c.cursor.toNat n).isNone &&
    decide (c.cursor.toNat + n ≤ 0x3E00000000)

/-- The next descriptor's address of a pavilion's ring at a cluster's mover, where the ring is configured (R440, R613). -/
def Dev.moverDesc (d : Dev) (cl p : Nat) : Option Nat :=
  let n := d.rd R.spad_MOVER_ENTRIES cl p
  if n = 0 then none else some (d.rd R.spad_MOVER_RING cl p + 64 * (Table.get 0 d.mem.moverIndex (cl * 64 + p) % n))

/-- A job of a pavilion at a cluster's mover. -/
def Dev.moverJob (d : Dev) (cl p : Nat) : Option MoverJob :=
  d.mem.moverJobs.find? fun j => decide (j.cluster = cl) && decide (j.pav = p)

/-- MOVER_DESCRIPTOR (R441): a woken mover takes and checks the next descriptor; one without OWN ends its work. -/
def execMoverDescriptor (o : OpMover) (s : State) : Host.Outcome State Fault Refusal :=
  s.act fun d =>
    let d := d.at o.t
    let cl := o.cluster.val
    let p := o.pav.val
    let k := cl * 64 + p
    match d.moverDesc cl p with
    | none => d
    | some a =>
      if !Table.get false d.mem.moverAwake k || (d.moverJob cl p).isSome || (d.firstUnmapped p a 64).isSome then
        d
      else
        let (b, _, d) := d.devRead p a 64 moverAgent
        let (src, d) := d.devCap p (a + 32) moverAgent
        let (dst, d) := d.devCap p (a + 48) moverAgent
        if !bitOf (fieldLE b 1 1) 0 then
          d.onMem fun m => { m with moverAwake := Table.set false m.moverAwake k false }
        else
          let copy := decide (fieldLE b 0 1 = 1)
          let n := fieldLE b 8 4
          let sa := src.cursor.toNat
          let da := dst.cursor.toNat
          let status :=
            if !moverFields b then 0x0107
            else if copy && !d.moverBuf p src n permLD then 0x0108
            else if !d.moverBuf p dst n permST then 0x0108
            else if copy && decide (sa < da + n) && decide (da < sa + n) then 0x0107
            else 0
          let j : MoverJob :=
            { cluster := cl, pav := p, addr := a, head := b.take 16, status := status, src := if copy then some sa else none
              pattern := slice b 16 8, dst := da, len := n, lost := [] }
          d.onMem fun m => { m with
            moverJobs := m.moverJobs ++ [j]
            moverIndex := Table.set 0 m.moverIndex k (Table.get 0 m.moverIndex k + 1) }

/-- The words of a job, with the source's poison: each word's offset, whether the mover's write of it was lost, and whether
its source is poisoned. -/
def Dev.moverWords (d : Dev) (j : MoverJob) : List (Nat × Bool × Bool) × Bytes × Dev :=
  match j.src with
  | none =>
    ((List.range (j.len / 8)).map fun i => (8 * i, j.lost.contains (j.dst + 8 * i), false),
      (List.range (j.len / 8)).flatMap fun _ => j.pattern, d)
  | some a =>
    (List.range (j.len / 8)).foldl (fun (r : List (Nat × Bool × Bool) × Bytes × Dev) i =>
      let (b, bad, d) := r.2.2.devRead j.pav (a + 8 * i) 8 moverAgent
      (r.1 ++ [(8 * i, j.lost.contains (j.dst + 8 * i), bad)], r.2.1 ++ b, d)) ([], [], d)

/-- A job's writes performed (R439, R442), with whether a poisoned source was met. -/
def Dev.moverWrite (d : Dev) (j : MoverJob) : Bool × Dev :=
  let (ws, b, d) := d.moverWords j
  let d := if j.lost.isEmpty then d.devWrite j.pav j.dst b moverAgent
    else ws.foldl (fun d w => if w.2.1 then d else d.devWrite j.pav (j.dst + w.1) (slice b w.1 8) moverAgent) d
  (ws.any (·.2.2), ws.foldl (fun d w => if w.2.2 && !w.2.1 then d.devPoison j.pav (j.dst + w.1) moverAgent else d) d)

/-- MOVER_COMPLETION (R442): bytes 0 to 15 of the descriptor, then MOVER_DOORBELL. -/
def execMoverCompletion (o : OpMover) (s : State) : Host.Outcome State Fault Refusal :=
  s.act fun d =>
    let d := d.at o.t
    match d.moverJob o.cluster.val o.pav.val with
    | none => d
    | some j =>
      let (poison, d) := if j.status = 0 then d.moverWrite j else (false, d)
      let status := if poison then 0x0702 else j.status
      let head := slice j.head 0 1 ++ leBytes 1 0 ++ leBytes 2 status ++ leBytes 4 j.lost.length ++
        slice j.head 8 4 ++ leBytes 1 ((if j.lost.isEmpty then 0 else 1) + (if poison then 2 else 0)) ++ zeros 3
      let d := d.devWrite j.pav j.addr head moverAgent
      let d := d.onMem fun m => { m with moverJobs := m.moverJobs.erase j }
      d.ring j.pav (d.rd R.spad_MOVER_DOORBELL o.cluster.val j.pav)

end Sys2Proof.Machine
end

