-- ==== Sys2Proof/Machine/Control.lean ====
section
/-! DEFINITION. Machine/Control.lean: branches, jumps, calls and returns, and the system instructions (R251, R252, R255, R256,
R265, R271 to R274, R293, R294, R302, R303, R332, R347, R365, R366, R382, R436). -/

namespace Sys2Proof.Machine

/-! ## Branches and jumps (R293, R294) -/

/-- A body that transfers control to a checked target, leaving the core as `f` makes it. -/
def transfer (target : Core → Except Stop Cap) (f : Core → Except Stop Core) : Body := fun c p d =>
  let x := d.core c
  match target x with
  | .error t => .error t
  | .ok t =>
    match d.checkTarget p t with
    | .error e => .error e
    | .ok _ =>
      match f x with
      | .error e => .error e
      | .ok x => .ok { d := d.setCore c x, pcc := some t }

/-- The body of BS and BC: taken when the bit BA has the value `v` (R293). -/
def branchBody (o : OpB) (v : Bool) : Body := fun c p d =>
  if (d.core c).arch.bit o.ba.toNat = v then transfer (fun x => .ok (x.branchTarget o.off)) .ok c p d
  else .ok { d := d }

/-- BS (R293). -/
def execBs (o : OpB) (s : State) : Host.Outcome State Fault Refusal := s.instr o.core (branchBody o true)
/-- BC (R293). -/
def execBc (o : OpB) (s : State) : Host.Outcome State Fault Refusal := s.instr o.core (branchBody o false)

/-- JMP (R294). -/
def execJmp (o : OpI) (s : State) : Host.Outcome State Fault Refusal :=
  s.instr o.core (transfer (fun x => x.jumpTarget o) .ok)

/-! ## Calls and returns (R251, R252, R256) -/

/-- The window moved on by two groups, with the return address in the callee's w7; N = 16 raises trap 0x08 (R251). -/
def Core.moveIn (x : Core) : Except Stop Core :=
  if x.arch.resident = 16 then .error { num := 0x08, fault := x.cursor }
  else
    let a := { x.arch with wbase := (x.arch.wbase + 2) % 33 }
    .ok ({ x with arch := a }.wr (.win (a.winIndex 7)) (Word.ofNat (x.cursor + 4)))

/-- The window moved back by two groups (R252). -/
def Core.moveOut (x : Core) : Core := { x with arch := { x.arch with wbase := (x.arch.wbase + 31) % 33 } }

/-- CALL (R251, R294). -/
def execCall (o : OpI) (s : State) : Host.Outcome State Fault Refusal :=
  s.instr o.core (transfer (fun x => x.jumpTarget o) (·.moveIn))

/-- N = 1 raises trap 0x09 before the target is taken (R252). -/
def Core.underflow (x : Core) : Except Stop Unit :=
  if x.arch.resident = 1 then .error { num := 0x09, fault := x.cursor } else .ok ()

/-- RET's target: the current w7 as a cursor of pcc; a value outside the address space raises trap 0x03
(notes/assumptions/14). -/
def Core.retTarget (x : Core) : Except Stop Cap :=
  match x.underflow with
  | .error t => .error t
  | .ok _ =>
    let v := (x.gr 15).toNat
    if 2 ^ 38 ≤ v then .error { num := 0x03, fault := v % 2 ^ 38 }
    else .ok { x.arch.pcc with cursor := BitVec.ofNat 38 v }

/-- RET (R252). -/
def execRet (o : OpT) (s : State) : Host.Outcome State Fault Refusal :=
  s.instr o.core (transfer (·.retTarget) fun x => .ok x.moveOut)

/-- A capability as a target: unsealed into pcc (R256). -/
def Cap.target (v : Cap) : Cap := { v with otype := 0 }

/-- OTYPE 2 to 63 raises trap 0x05, after the other checks of the target and the window (R256, R281 item 6). -/
def Cap.targetType (v : Cap) : Except Stop Unit :=
  if 2 ≤ v.otype.toNat then .error { num := 0x05, fault := v.cursor.toNat } else .ok ()

/-- RETC (R252, R256). -/
def execRetc (o : OpT) (s : State) : Host.Outcome State Fault Refusal :=
  s.instr o.core (transfer (fun x => x.underflow.map fun _ => (x.cr 14).target)
    fun x => (x.cr 14).targetType.map fun _ => x.moveOut)

/-- JMPC (R256). -/
def execJmpc (o : OpT) (s : State) : Host.Outcome State Fault Refusal :=
  s.instr o.core (transfer (fun x => .ok (x.cr o.cx.toNat).target) fun x => (x.cr o.cx.toNat).targetType.map fun _ => x)

/-- CALLC's link: the caller's pcc at the return address, sealed as OTYPE 1 (R256). -/
def Core.link (x : Core) : Cap := { x.arch.pcc with cursor := x.arch.pcc.cursor + 4, otype := 1 }

/-- CALLC (R251, R256). -/
def execCallc (o : OpT) (s : State) : Host.Outcome State Fault Refusal :=
  s.instr o.core (transfer (fun x => .ok (x.cr o.cx.toNat).target) fun x =>
    match x.moveIn, (x.cr o.cx.toNat).targetType with
    | .error t, _ => .error t
    | .ok _, .error t => .error t
    | .ok y, .ok _ => .ok (y.wcr 14 x.link))

/-! ## Traps -/

/-- TRAP (R302): takes trap N12 [7:0]; a number below 0x40 raises trap 0x01. -/
def execTrap (o : OpT) (s : State) : Host.Outcome State Fault Refusal :=
  s.instr o.core fun c _ d =>
    let n := o.n12.toNat % 256
    .error { num := if n < 0x40 then 0x01 else n, fault := (d.core c).cursor, next := decide (0x40 ≤ n) }

/-- ERET (R347). -/
def execEret (o : OpT) (s : State) : Host.Outcome State Fault Refusal := s.instr o.core returnBody

/-! ## Barriers (R332, R365, R366, R382) -/

/-- Every earlier access of the core is performed, every store that it made or observed is visible to every core, and its later
accesses are performed after that (R365). -/
def Dev.fence (d : Dev) (c p : Nat) : Dev := (d.release c p).acquireNow c

/-- FENCE (R365). -/
def execFence (o : OpT) (s : State) : Host.Outcome State Fault Refusal :=
  s.instr o.core fun c p d => .ok { d := d.fence c p }

/-- A dirty line written to main memory; a clean copy stays (Table 12.1): an L2 that holds the line in D keeps it in X, and a
writeback in flight reaches its home. -/
def Dev.cleanLine (d : Dev) (p line : Nat) : Dev :=
  let d := d.settle p line
  match d.lineAddr p line with
  | none => d
  | some a => (List.range 16).foldl (fun d n =>
      match d.held n p line with
      | some l => if l.st = .d then (d.putMemLine a l.data).setHeld n { l with st := .x } else d
      | none => d) d

/-- The window lines that hold stores of core `c` to pavilion `p`'s window which no CBAR covers yet (R155, R367). -/
def Dev.uncovered (d : Dev) (c p : Nat) : List Nat :=
  (d.mem.winPend.filterMap fun s =>
    if decide (s.by_ = c) && !s.covered && decide (s.unit / 2 ^ 29 = p) then some (s.unit / 4) else none).eraseDups

/-- CBAR (R366): a FENCE, after which each line of main memory that the core wrote reaches its memory controller and each window line
is written to MRAM. Its core issues nothing more until the window lines that must wait for their next write are written; a CBAR
that must wait is counted (R157). -/
def execCbar (o : OpT) (s : State) : Host.Outcome State Fault Refusal :=
  s.instr o.core fun c p d =>
    let d := d.fence c p
    let d := (d.core c).stored.foldl (fun d line => d.cleanLine p line) d
    let d := (d.uncovered c p).foldl (fun d k => if d.winWait k then d else d.winPersist k [c]) d
    let w := d.uncovered c p
    let d := if w.isEmpty then d else d.bump R.hearth_LINE_WAITS
    .ok { d := d.onCore c fun x => { x with stored := [], cbar := w } }

/-- FBAR (R332): every earlier floating-point operation signals; a trap 0x0A that this makes pending is taken here (R298). -/
def execFbar (o : OpT) (s : State) : Host.Outcome State Fault Refusal :=
  s.instr o.core fun c _ d =>
    let x := (d.core c).signalAll
    match x.fpDue with
    | some cur => .error { num := 0x0A, fault := cur.toNat }
    | none => .ok { d := d.setCore c x }

/-- ISYNC (R302, R373, R382): the core's earlier stores are performed, and its L1I and fetch buffer invalidated, so that later fetches
see those stores. -/
def execIsync (o : OpT) (s : State) : Host.Outcome State Fault Refusal :=
  s.instr o.core fun c p d => .ok { d := (d.drainAll c p).onCore c fun x => { x with l1i := [], fbuf := none } }

/-! ## WAIT (R303) -/

/-- WAIT need not hold issue any longer: an armed doorbell is 1, TIME ≥ TCMP, a trap or machine check is due, or 100 µs
have passed since `start`. -/
def Dev.waitOver (d : Dev) (c p start : Nat) : Bool :=
  (d.armedDoorbell c p).isSome || d.timerDue c || (d.uncondTrap c).isSome || decide (start + 100000 ≤ d.time)

/-- WAIT (R303): it commits at once where its end already holds, else issue stops. -/
def execWait (o : OpT) (s : State) : Host.Outcome State Fault Refusal :=
  s.act fun d => d.begin o.core (fun d c p => d.dueTrap c p) fun p d =>
    if d.waitOver o.core p d.time then Dev.commit o.core { d := d }
    else d.onCore o.core fun x => { x with waiting := some d.time }

/-- WAIT_END (R303): a waiting core commits WAIT when its end holds. -/
def execWaitEnd (o : OpCoreT) (s : State) : Host.Outcome State Fault Refusal :=
  s.act fun d =>
    let d := d.at o.t
    match (d.core o.core).waiting, d.coreOwner o.core with
    | some t, some p =>
      if decide ((d.core o.core).run = .running) && d.waitOver o.core p t then
        Dev.commit o.core { d := d.onCore o.core fun x => { x with waiting := none } }
      else d
    | _, _ => d

/-! ## System registers (R271 to R274, R302) -/

/-- COREID of logical core `c` (Table 8.9). In a twin pair both cores read the first twin's value with TWIN set (R472). -/
def Dev.coreId (d : Dev) (c p : Nat) : Nat :=
  let tw := (d.core c).twin
  let c := min c (tw.getD c)
  (if tw.isSome then 2 ^ 23 else 0) + (if (d.core c).inSpareSlot then 2 ^ 22 else 0) + p * 2 ^ 16 +
    (d.pavCores p).findIdx (· = c) * 2 ^ 8 + c

/-- Trap 0x04 without SYS in pcc, with the instruction's cursor as FAULT (R271, Table 11.1). -/
def Core.needSys (x : Core) : Except Stop Unit :=
  if x.sys then .ok () else .error { num := 0x04, fault := x.cursor }

/-- RSR (R302). A reserved N12 raises trap 0x01. -/
def rsrBody (o : OpT) : Body := fun c p d =>
  let x := d.core c
  let give := fun (v : Word) => (.ok (d.doneCore c (x.wgr o.rd v)) : Except Stop Done)
  if o.n12 = 0x000 then x.needSys.bind fun _ => give (Word.ofNat x.arch.wring)
  else if o.n12 = 0x001 then x.needSys.bind fun _ => give x.arch.tcmp
  else if o.n12 = 0x100 then give (Word.ofNat d.time)
  else if o.n12 = 0x101 then give (Word.ofNat (d.coreId c p))
  else .error { num := 0x01, fault := x.cursor }

/-- RSR (R302): reads of TIME are exchanges in twin execution (R473). -/
def execRsr (o : OpT) (s : State) : Host.Outcome State Fault Refusal :=
  if o.n12 = 0x100 then s.exchange o.core (.rsr o) (rsrBody o) else s.instr o.core (rsrBody o)

/-- WSR (R272, R302): reserved numbers, TIME and COREID raise trap 0x01; so does a value that R272 refuses for WRING. -/
def execWsr (o : OpT) (s : State) : Host.Outcome State Fault Refusal :=
  s.instr o.core (regBody fun x =>
    let v := (x.gr o.rd).toNat
    let illegal : Except Stop Core := .error { num := 0x01, fault := x.cursor }
    if o.n12 = 0x000 then x.needSys.bind fun _ =>
      let b := bitsOf v 5 0
      let w := bitsOf v 13 8
      if wringLegal b w then .ok { x with arch := { x.arch with wbase := b, wold := w } } else illegal
    else if o.n12 = 0x001 then x.needSys.bind fun _ => .ok { x with arch := { x.arch with tcmp := Word.ofNat v } }
    else illegal)

/-- RCR (R302). -/
def execRcr (o : OpT) (s : State) : Host.Outcome State Fault Refusal :=
  s.instr o.core (regBody fun x =>
    if o.n12 = 0x000 then x.needSys.bind fun _ => .ok (x.wcr o.cx.toNat x.arch.ttb)
    else if o.n12 = 0x001 then x.needSys.bind fun _ => .ok (x.wcr o.cx.toNat x.arch.shs)
    else .error { num := 0x01, fault := x.cursor })

/-- WCR (R302). -/
def execWcr (o : OpT) (s : State) : Host.Outcome State Fault Refusal :=
  s.instr o.core (regBody fun x =>
    if o.n12 = 0x000 then x.needSys.bind fun _ => .ok { x with arch := { x.arch with ttb := x.cr o.cx.toNat } }
    else if o.n12 = 0x001 then x.needSys.bind fun _ => .ok { x with arch := { x.arch with shs := x.cr o.cx.toNat } }
    else .error { num := 0x01, fault := x.cursor })

/-- A doorbell armed or disarmed; without SYS trap 0x0E (R265). -/
def armBody (o : OpT) (v : Bool) : Body := regBody fun x =>
  if x.sys then .ok { x with arch := { x.arch with arm := putBit x.arch.arm o.n12.toNat v } }
  else .error { num := 0x0E, fault := 0x1000 + o.n12.toNat }

/-- ARM (R265). -/
def execArm (o : OpT) (s : State) : Host.Outcome State Fault Refusal := s.instr o.core (armBody o true)
/-- DISARM (R265). -/
def execDisarm (o : OpT) (s : State) : Host.Outcome State Fault Refusal := s.instr o.core (armBody o false)

/-- BGET (R302). -/
def execBget (o : OpT) (s : State) : Host.Outcome State Fault Refusal :=
  s.instr o.core (regBody fun x => .ok (x.wgr o.rd (if x.arch.bit o.n12.toNat then 1 else 0)))

/-- The body of BANKREL (R302, R436 item 3). -/
def bankrelBody (o : OpT) : Body := fun c p d =>
  let x := d.core c
  x.needSys.bind fun _ =>
    let b := (x.gr o.rd).toNat % 512
    if d.holdsBank p b && !d.removing.contains (p, .bank b) then
      -- the bank is no longer among the pavilion's holdings
      let d := (d.bankCleared b).setBank b (.releasing p (d.rd R.pav_GENERATION p))
      let d := d.wr R.pav_BANKS (withBit (d.rd R.pav_BANKS p) b false) p
      .ok { d := d.onCore c (·.wbit bitZ true) }
    else .ok { d := d.onCore c (·.wbit bitZ false) }

/-- BANKREL (R436): a request that leaves the core, so an exchange in twin execution. -/
def execBankrel (o : OpT) (s : State) : Host.Outcome State Fault Refusal := s.exchange o.core (.bankrel o) (bankrelBody o)

end Sys2Proof.Machine
end

