-- ==== Sys2Proof/Machine/Hearth.lean ====
section
/-! DEFINITION. Machine/Hearth.lean: the journal rings: records, where they are placed, reclaim and carry-forward, window
lines, the background read and the timebase record (chapter 5, R567). -/

namespace Sys2Proof.Machine

/-! ## Records (Tables 5.1 to 5.7) -/

/-- TYPE of a record (Table 5.1); 6 is MARK. -/
def RecBody.type : RecBody → Nat
  | .req .. => 1 | .opst .. => 2 | .opdn .. => 3 | .sess .. => 4 | .dict .. => 5
  | .markRetire .. => 6 | .markConsumed .. => 6 | .markClosed .. => 6

/-- Bytes filled with zeros to a multiple of 16. -/
def pad16 (b : Bytes) : Bytes := padTo (16 * ceilDiv b.length 16) b

/-- The body of a record, from offset 16. -/
def RecBody.bytes : RecBody → Bytes
  | .req session cls seq arrival due rxflags payload =>
    leBytes 4 session ++ leBytes 2 cls ++ leBytes 2 payload.length ++ leBytes 8 seq ++ leBytes 8 arrival ++ leBytes 8 due ++
      leBytes 1 rxflags ++ zeros 15 ++ pad16 payload
  | .opst opnum ep path twin commands start =>
    leBytes 8 opnum ++ leBytes 2 ep ++ leBytes 1 path ++ leBytes 1 (if twin then 1 else 0) ++ leBytes 4 commands ++
      leBytes 8 start ++ zeros 24
  | .opdn opnum ep status residual done source failed unitStatus path cflags =>
    leBytes 8 opnum ++ leBytes 2 ep ++ leBytes 2 status ++ leBytes 4 residual ++ leBytes 8 done ++ leBytes 1 source ++
      leBytes 1 failed ++ leBytes 2 unitStatus ++ leBytes 1 path ++ leBytes 1 cflags ++ zeros 18
  | .sess session st options authKey floor ctlFloor desc =>
    leBytes 4 session ++ leBytes 1 st ++ leBytes 1 options ++ leBytes 2 authKey ++ leBytes 8 floor ++ leBytes 8 ctlFloor ++
      padTo 48 desc ++ zeros 8
  | .dict index sub len value =>
    leBytes 2 index ++ leBytes 1 sub ++ zeros 1 ++ leBytes 4 len ++ zeros 8 ++ pad16 (leBytes len value)
  | .markRetire session first last =>
    leBytes 1 1 ++ zeros 3 ++ leBytes 4 session ++ leBytes 8 first ++ leBytes 8 last ++ zeros 8
  | .markConsumed ep first last =>
    leBytes 1 2 ++ zeros 1 ++ leBytes 2 ep ++ zeros 4 ++ leBytes 8 first ++ leBytes 8 last ++ zeros 8
  | .markClosed session => leBytes 1 3 ++ zeros 3 ++ leBytes 4 session ++ zeros 24

/-- LENGTH of a record: the header and the body. -/
def RecBody.length : RecBody → Nat
  | .req _ _ _ _ _ _ payload => 64 + 16 * ceilDiv payload.length 16
  | .opst .. => 64
  | .opdn .. => 64
  | .sess .. => 96
  | .dict _ _ len _ => 32 + 16 * ceilDiv len 16
  | .markRetire .. => 48
  | .markConsumed .. => 48
  | .markClosed .. => 48

/-- The bytes of a record of ring `r`, its CRC over bytes 0 to 11 and from 16 on (R143, R144, Table 5.1). -/
def Record.bytes (x : Record) (r : Nat) : Bytes :=
  let head := leBytes 1 x.body.type ++ leBytes 1 (if r < 64 then r else 0) ++ leBytes 2 (if x.carried then 1 else 0) ++
    leBytes 4 x.body.length ++ leBytes 4 x.lap
  head ++ leBytes 4 (crc32c (head ++ x.body.bytes)) ++ x.body.bytes

/-- The body that a record's TYPE and its bytes from offset 16 give (Tables 5.2 to 5.7); none for a KIND of MARK that is not
in Table 5.7, or a payload or value beyond the record. -/
def RecBody.ofBytes (type : Nat) (b : Bytes) : Option RecBody :=
  let f := fun o n => fieldLE b o n
  match type with
  | 1 => if 48 + f 6 2 ≤ b.length then some (.req (f 0 4) (f 4 2) (f 8 8) (f 16 8) (f 24 8) (f 32 1) (slice b 48 (f 6 2))) else none
  | 2 => some (.opst (f 0 8) (f 8 2) (f 10 1) (bitOf (f 11 1) 0) (f 12 4) (f 16 8))
  | 3 => some (.opdn (f 0 8) (f 8 2) (f 10 2) (f 12 4) (f 16 8) (f 24 1) (f 25 1) (f 26 2) (f 28 1) (f 29 1))
  | 4 => some (.sess (f 0 4) (f 4 1) (f 5 1) (f 6 2) (f 8 8) (f 16 8) (slice b 24 48))
  | 5 => if 16 + f 4 4 ≤ b.length then some (.dict (f 0 2) (f 2 1) (f 4 4) (f 16 (f 4 4))) else none
  | 6 => match f 0 1 with
    | 1 => some (.markRetire (f 4 4) (f 8 8) (f 16 8))
    | 2 => some (.markConsumed (f 2 2) (f 8 8) (f 16 8))
    | 3 => some (.markClosed (f 4 4))
    | _ => none
  | _ => none

/-! ## Rings -/

/-- The device ring (R140). -/
def devRing : Nat := 64

/-- Bytes of the device ring: half of the device area, whose layout the spec does not give (notes/assumptions/20). -/
def devRingBytes : Nat := 32 * 2 ^ 20

/-- Ring `r`. -/
def Dev.hring (d : Dev) (r : Nat) : Ring := Table.get {} d.hearth.rings r

/-- Ring `r` replaced. -/
def Dev.setRing (d : Dev) (r : Nat) (x : Ring) : Dev :=
  { d with hearth := { d.hearth with rings := Table.set {} d.hearth.rings r x } }

/-- The current copy of the control block: the one with the higher sequence number (R149). -/
def Ring.ctl (x : Ring) : CtlBlock := if x.ctl0.seq < x.ctl1.seq then x.ctl1 else x.ctl0

/-- Space removed from pavilion `p`'s durable window is not quenched yet (R50, R158). -/
def Dev.windowRemoving (d : Dev) (p : Nat) : Bool :=
  d.removing.any fun e => decide (e.1 = p) && (match e.2 with | .window _ => true | _ => false)

/-- The quota of pavilion `p` less its durable window (R141). -/
def Dev.ringAsked (d : Dev) (p : Nat) : Nat := (d.rd R.pav_HEARTH_QUOTA p - elem 4 (d.rd R.hearth_WINDOW_SIZE) p) * 1024

/-- The bytes of ring `r`: the quota less the durable window (R141). While space removed from the window waits for its quench, the
ring keeps the size that its control block holds (R158). -/
def Dev.ringSize (d : Dev) (r : Nat) : Nat :=
  if r = devRing then devRingBytes
  else if d.windowRemoving r && decide ((d.hring r).ctl.seq ≠ 0) then (d.hring r).ctl.size
  else d.ringAsked r

/-- Bytes of records. -/
def recBytes (l : List Record) : Nat := (l.map (·.body.length)).sum

/-- The records between the tail and the head. -/
def Ring.live (x : Ring) : List Record := x.recs.drop x.past

/-- The bytes of a ring of `size` bytes from the first of some of its records to its head: those of records that a lost line has made
invalid between them count too (R160). -/
def Ring.span (x : Ring) (size : Nat) : List Record → Nat
  | [] => 0
  | y :: _ => if x.head ≤ y.off then x.head + size - y.off else x.head - y.off

/-- Bytes between the tail and the head of ring `r`. -/
def Dev.ringUsed (d : Dev) (r : Nat) : Nat := (d.hring r).span (d.ringSize r) (d.hring r).live

/-- Bytes that the first SESS records of sessions in OPENING will take, kept for them from the OPEN on (R148). -/
def Dev.sessRoom (d : Dev) (r : Nat) : Nat :=
  96 * (d.net.sessions.filter fun s => decide (s.pav = r) && decide (s.st = .opening) && !s.recorded).length

/-- Bytes free in ring `r`. -/
def Dev.ringFree (d : Dev) (r : Nat) : Nat := d.ringSize r - d.ringUsed r - d.sessRoom r

/-- An operation has an OPST record and no OPDN record. -/
def ChanOp.isOpen (o : ChanOp) : Bool := decide (o.st ≠ .done) && decide (o.st ≠ .released)

/-- H: 64 bytes for each operation of the pavilion with an OPST record and no OPDN record (R148). -/
def Dev.heldRoom (d : Dev) (r : Nat) : Nat := 64 * (d.chan.ops.filter (fun o => decide (o.pav = r) && o.isOpen)).length

/-- A REQ, DICT or first SESS record finds its room: it leaves 64 KiB + H free (R148). -/
def Dev.roomFor (d : Dev) (r n : Nat) : Bool := decide (n + 65536 + d.heldRoom r ≤ d.ringFree r)

/-- An OPST record finds its room: it leaves 32 KiB + H free, its own operation counted (R148). -/
def Dev.roomForOpst (d : Dev) (r : Nat) : Bool := decide (64 + 32768 + d.heldRoom r + 64 ≤ d.ringFree r)

/-! ### Lines, stripes and the control block (R149, R159, R160) -/

/-- The lines that `n` bytes from offset `o` of a ring of `size` bytes touch, with the offset in the line and the bytes that
fall in it; the end of the ring wraps to its start. -/
def lineParts (size : Nat) : Nat → Nat → Bytes → List (Nat × Nat × Bytes)
  | 0, _, _ => []
  | fuel + 1, o, b =>
    if b.isEmpty then []
    else
      let k := 64 - o % 64
      (o / 64, o % 64, b.take k) :: lineParts size fuel ((o / 64 * 64 + 64) % size) (b.drop k)

/-- The lines of a record at offset `o`. -/
def recParts (size o : Nat) (b : Bytes) : List (Nat × Nat × Bytes) := lineParts size (b.length / 64 + 2) o b

/-- Bytes put into a line from an offset. -/
def lineWith (l : BitVec 512) (o : Nat) (b : Bytes) : BitVec 512 :=
  let x := leBytes 64 l.toNat
  BitVec.ofNat 512 (leNat (x.take o ++ b ++ x.drop (o + b.length)))

/-- A line of a ring written with its check area, and its stripe's parity line with it: the stripe's XOR changes by what the line
changes (R159). `first`: a header begins in it at that offset. -/
def Ring.putLine (x : Ring) (i o : Nat) (b : Bytes) (first : Bool) : Ring :=
  let old := Table.get 0 x.lines i
  let new := lineWith old o b
  let h := Table.get 0 x.heads i
  let mark := if first then (if o = 0 ∨ h = 0 then o + 1 else h) else if o = 0 then 0 else h
  { x with
    lines := Table.set 0 x.lines i new
    heads := Table.set 0 x.heads i mark
    parity := Table.set 0 x.parity (i / 16) (Table.get 0 x.parity (i / 16) ^^^ old ^^^ new)
    lost := if o = 0 then x.lost.filter (· ≠ i) else x.lost }

/-- Those lines of a record of ring `r` that `f` names, by their place in the record, written to MRAM. -/
def Ring.putRecord (x : Ring) (r size : Nat) (y : Record) (f : Nat → Bool) : Ring :=
  (recParts size y.off (y.bytes r)).zipIdx.foldl (fun x e =>
    if f e.2 then x.putLine e.1.1 e.1.2.1 e.1.2.2 (decide (e.2 = 0)) else x) x

/-- The control block written, over the older copy: the tail stands at the first record of the ring, or at its head. -/
def Ring.putCtl (x : Ring) (size : Nat) : Ring :=
  let at_ := match x.recs with
    | y :: _ => (y.off, y.lap)
    | [] => (x.head, x.lap)
  let c : CtlBlock := { seq := x.ctl.seq + 1, size := size, off := at_.1, lap := at_.2 }
  if x.ctl0.seq < x.ctl1.seq then { x with ctl0 := c } else { x with ctl1 := c }

/-- The control block rewritten with the tail as it stands (R149). -/
def Ring.rewrite (x : Ring) (size : Nat) : Ring := Ring.putCtl { x with recs := x.live, past := 0 } size

/-! ### Writing records (R146, R147) -/

/-- A record written at the head, which wraps to the start in the next lap. -/
def Ring.push (x : Ring) (r size : Nat) (b : RecBody) (complete carried : Bool) : Ring :=
  let y : Record := { body := b, complete := complete, carried := carried, off := x.head, lap := x.lap }
  let n := x.head + b.length
  let x := { x with
    recs := x.recs ++ [y]
    head := if n < size then n else n - size
    lap := if n < size then x.lap else (x.lap + 1) % 2 ^ 32 }
  if complete then x.putRecord r size y fun _ => true else x

/-- A record written at the head. Where it would reach the records that the control block still names, and in a ring that has no
control block yet, the control block is written first. -/
def Dev.append (d : Dev) (r : Nat) (b : RecBody) (complete : Bool := true) (carried : Bool := false) : Dev :=
  let x := d.hring r
  let size := d.ringSize r
  let x := if size < x.span size x.recs + b.length ∨ x.ctl.seq = 0 then x.rewrite size else x
  (d.setRing r (x.push r size b complete carried)).bump R.hearth_BYTES_WRITTEN (n := b.length)

/-- The first `n` records of a ring complete: the lines that were not are written. -/
def Ring.completeFirst (x : Ring) (r size n : Nat) : Ring :=
  let l := x.recs.take n
  let x := { x with recs := l.map (fun y => { y with complete := true }) ++ x.recs.drop n }
  (l.filter fun y => !y.complete).foldl (fun x y => x.putRecord r size y fun _ => true) x

/-- Every record of ring `r` so far is complete: a record that is written before an answer leaves waits for them (R146). -/
def Dev.syncRing (d : Dev) (r : Nat) : Dev :=
  let x := d.hring r
  d.setRing r (x.completeFirst r (d.ringSize r) x.recs.length)

/-- A record and those before it are complete, the record being the earliest that satisfies `f` (R146). -/
def Dev.completeRec (d : Dev) (r : Nat) (f : RecBody → Bool) : Dev :=
  let x := d.hring r
  let n := (x.recs.takeWhile fun y => !f y.body).length
  if n < x.recs.length then d.setRing r (x.completeFirst r (d.ringSize r) (n + 1)) else d

/-! ## Reclaim (R149) -/

/-- A MARK CONSUMED covers an operation's number. -/
def RecBody.consumes (ep opnum : Nat) : RecBody → Bool
  | .markConsumed e f l => decide (e = ep) && decide (f ≤ opnum) && decide (opnum ≤ l)
  | _ => false

/-- The body is the OPDN of an operation. -/
def RecBody.isOpdn (ep opnum : Nat) : RecBody → Bool
  | .opdn n e .. => decide (e = ep) && decide (n = opnum)
  | _ => false

/-- A record is settled, given the complete records after it (R149). An OPST is settled once an OPDN of its number is. -/
def settled (b : RecBody) (later : List RecBody) : Bool :=
  match b with
  | .req session _ seq .. => later.any fun
    | .markRetire s f l => decide (s = session) && decide (f ≤ seq) && decide (seq ≤ l)
    | .sess s _ _ _ floor .. => decide (s = session) && decide (seq ≤ floor)
    | .markClosed s => decide (s = session)
    | _ => false
  | .opst opnum ep .. => (later.dropWhile fun x => !x.isOpdn ep opnum).any (RecBody.consumes ep opnum)
  | .opdn opnum ep .. => later.any (RecBody.consumes ep opnum)
  | .sess session .. => later.any fun
    | .sess s .. => decide (s = session)
    | .markClosed s => decide (s = session)
    | _ => false
  | .dict index sub .. => later.any fun
    | .dict i s .. => decide (i = index) && decide (s = sub)
    | _ => false
  | _ => true

/-- How many leading records are settled. A record that is not complete ends what counts as written after them: a start-up would
find nothing beyond it (R151). -/
def settledCount : List Record → Nat
  | [] => 0
  | x :: t =>
    if x.complete && settled x.body ((t.takeWhile (·.complete)).map (·.body)) then settledCount t + 1 else 0

/-- The records that are not settled (R149, R158); a MARK is, once those before it are. -/
def unsettled : List Record → List Record
  | [] => []
  | x :: t =>
    let isMark := decide (x.body.type = 6)
    if !isMark && settled x.body ((t.takeWhile (·.complete)).map (·.body)) then unsettled t else x :: unsettled t

/-- Waiting SESS and MARK records written while they find room beside H (R148). -/
def placeWaiting (r : Nat) : List RecBody → Dev → Dev
  | [], d => let x := d.hring r; d.setRing r { x with waiting := [] }
  | b :: t, d =>
    if b.length + d.heldRoom r ≤ d.ringFree r then placeWaiting r t (d.append r b)
    else let x := d.hring r; d.setRing r { x with waiting := b :: t }

/-- The tail moves past settled records, and waiting records take the room (R148, R149). -/
def Dev.advanceTail (d : Dev) (r : Nat) : Dev :=
  let x := d.hring r
  let d := d.setRing r { x with past := x.past + settledCount x.live }
  placeWaiting r x.waiting d

/-- A SESS record after the first, or a MARK: it may use all the room there is, and waits where there is none (R148). -/
def Dev.appendMark (d : Dev) (r : Nat) (b : RecBody) : Dev :=
  let d := d.advanceTail r
  if (d.hring r).waiting.isEmpty && decide (b.length + d.heldRoom r ≤ d.ringFree r) then (d.append r b).advanceTail r
  else
    let x := d.hring r
    (d.setRing r { x with waiting := x.waiting ++ [b] }).bump R.hearth_RESERVE_WAITS

/-- A ring laid out again in `size` bytes, from its start and in a new lap, with its unsettled records (R158). The control block then
names it. -/
def Ring.relay (x : Ring) (r size : Nat) : Ring :=
  let n : Ring := { ctl0 := x.ctl0, ctl1 := x.ctl1, waiting := x.waiting, lap := (x.lap + 1) % 2 ^ 32 }
  ((unsettled x.live).foldl (fun n y => n.push r size y.body y.complete y.carried) n).putCtl size

/-- Ring `r` resized, where its size is no longer the one its control block holds (R158). -/
def Dev.fitRing (d : Dev) (r : Nat) : Dev :=
  let x := d.hring r
  if x.ctl.seq = 0 ∨ x.ctl.size = d.ringSize r then d else (d.setRing r (x.relay r (d.ringSize r))).advanceTail r

/-- The ring that records an entry's value: the device ring for scope E, the owning pavilion's otherwise (R142). -/
def ringOf (e : Entry) (p : Nat) : Nat := if e.scope = .p then p else devRing

/-- A DICT record of an entry of instance `i` with value `v` written, with every record before it; none where it finds no
room (R148, R614). -/
def Dev.recordDict (d : Dev) (e : Entry) (i p v : Nat) : Option Dev :=
  let r := ringOf e p
  let b := RecBody.dict (e.base + i) e.sub e.size v
  let d := d.advanceTail r
  if d.roomFor r b.length then some ((d.append r b).syncRing r) else none

/-! ## Events of the hearth -/

/-- CARRY_FORWARD (R150): the unsettled record at the tail of a ring more than half full is copied to its head, with a new LAP and CRC.
The tail moves past the original once the copy and every record before it are complete, so that what the record promised stands
through a loss of power. -/
def execCarryForward (o : OpRing) (s : State) : Host.Outcome State Fault Refusal :=
  s.act fun d =>
    let r := o.ring.val
    let d := (d.at o.t).advanceTail r
    match (d.hring r).live with
    | [] => d
    | x :: _ =>
      if !x.complete ∨ d.ringUsed r * 2 ≤ d.ringSize r then d
      else
        let d := (d.append r x.body true true).syncRing r
        let y := d.hring r
        (d.setRing r { y with past := y.past + 1 }).bump R.hearth_CARRIED

/-- CONTROL_BLOCK_REWRITE (R149): the tail moves past settled records and the control block takes it. -/
def execControlBlockRewrite (o : OpRing) (s : State) : Host.Outcome State Fault Refusal :=
  s.act fun d =>
    let r := o.ring.val
    let d := (d.at o.t).advanceTail r
    let x := d.hring r
    if x.past = 0 then d else d.setRing r (x.rewrite (d.ringSize r))

/-- WINDOW_LINE_WRITE (R157, R159): a window line that a CBAR waits for is written, and its stripe's parity line with it, each once per
µs at most. The stores of the cores that wait are durable then, and their CBARs end. -/
def execWindowLineWrite (o : OpWinLine) (s : State) : Host.Outcome State Fault Refusal :=
  s.act fun d =>
    let d := d.at o.t
    let k := winLineKey o.pav.val o.line
    let cs := (List.range 256).filter fun c => (d.core c).cbar.contains k
    if cs.isEmpty || d.winWait k then d
    else cs.foldl (fun d c => d.onCore c fun x => { x with cbar := x.cbar.filter (· ≠ k) }) (d.winPersist k cs)

/-- A line of a ring as its stripe gives it: the XOR of the other 15 lines and the parity line (R159). -/
def Ring.rebuilt (x : Ring) (i : Nat) : BitVec 512 :=
  ((List.range 16).map (· + i / 16 * 16)).foldl (fun a k => if k = i then a else a ^^^ Table.get 0 x.lines k) (Table.get 0 x.parity (i / 16))

/-- One finding of the background read, or of any other read of MRAM (R159): a line that its check bits cannot correct is rebuilt from
its stripe and rewritten, or is lost. A lost line of a ring takes effect at the next replay (R160). -/
def Dev.scrubFinding (d : Dev) (e : HearthPlace × HearthFinding) : Dev :=
  match e.2 with
  | .corrected => d.bump R.hearth_CORRECTED
  | .rebuilt =>
    let d := match e.1 with
      | .ring r line => let x := d.hring r.val; d.setRing r.val { x with lines := Table.set 0 x.lines line (x.rebuilt line) }
      | .window p line => d.winRebuild (winLineKey p.val line)
      | .deviceArea => d
    d.bump R.hearth_RECONSTRUCTED
  | .lost =>
    let d := d.bump R.hearth_UNCORRECTABLE
    match e.1 with
    | .ring r line => let x := d.hring r.val; d.setRing r.val { x with lost := if x.lost.contains line then x.lost else x.lost ++ [line] }
    | .window p line =>
      let k := winLineKey p.val line
      let d := d.onMem fun x => { x with win := x.win.setPoison k true }
      let log := (d.rd R.mem_POISON_LOG 0 p.val * 2 ^ 64 + 0x3E00000000 + 64 * line) % 2 ^ 1024
      (d.wr R.mem_POISON_LOG log 0 p.val).alert 0x7000 0x09 p.val 0
    | .deviceArea => d.faultCause 0

/-- HEARTH_SCRUB (R159): the daily background read with its findings; what another read of the hearth finds comes with it too. -/
def execHearthScrub (o : OpScrub) (s : State) : Host.Outcome State Fault Refusal :=
  s.act fun d => o.findings.foldl Dev.scrubFinding (d.at o.t)

/-- COAST_TIME brought up to date while the timebase coasts (R565). -/
def Dev.accrueCoast (d : Dev) : Dev :=
  if d.plat.coast then
    let n := d.time - d.plat.coastFrom
    { d.bump R.pow_COAST_TIME (n := n) with plat := { d.plat with coastFrom := d.time } }
  else d

/-- TIMEBASE_RECORD (R567): the timebase recorded in the device area, once step 4 of start-up has set it. -/
def execTimebaseRecord (o : OpT0) (s : State) : Host.Outcome State Fault Refusal :=
  s.act fun d =>
    if d.plat.step < 4 then d
    else
      let d := (d.at o.t).accrueCoast
      { d with hearth := { d.hearth with timebase := d.time } }

end Sys2Proof.Machine
end

