-- ==== Sys2Proof/Machine/ChanBase.lean ====
section
/-! DEFINITION. Machine/ChanBase.lean: the operation layer of the channel over its links' queues: paths, operation messages,
the states of an operation and how it moves among them (chapter 7). -/

namespace Sys2Proof.Machine

/-! ## Links and paths -/

/-- The channel changed by `f`. -/
def Dev.onChan (d : Dev) (f : Chan → Chan) : Dev := { d with chan := f d.chan }

/-- Link `n`. -/
def Dev.link (d : Dev) (n : Nat) : Link := Table.get {} d.chan.links n

/-- Link `n` replaced. -/
def Dev.setLink (d : Dev) (n : Nat) (x : Link) : Dev := d.onChan fun c => { c with links := Table.set {} c.links n x }

/-- Link `n` changed by `f`. -/
def Dev.onLink (d : Dev) (n : Nat) (f : Link → Link) : Dev := d.setLink n (f (d.link n))

/-- Link `n` is in UP (Table 6.7). -/
def Dev.linkUp (d : Dev) (n : Nat) : Bool := decide (d.rd R.link_LINK_STATUS n = 4)

/-- PAIR_STATUS of twin pair `k` (Table 6.8, R192, R194), by the TWIN that each link has taken up (R198). -/
def Dev.pairStatus (d : Dev) (k : Nat) : Nat :=
  let a := 2 * k
  let b := 2 * k + 1
  if !((d.link a).twin && (d.link b).twin) then 0
  else if (d.link a).heard ∧ (d.link b).heard ∧ d.rd R.link_PEER_UNIT a ≠ d.rd R.link_PEER_UNIT b then 4
  else match d.linkUp a, d.linkUp b with
    | true, true => 1
    | false, false => 3
    | _, _ => 2

/-- Path code `i` of endpoint `e` (Table 7.1). -/
def Dev.pathCode (d : Dev) (e i : Nat) : Nat := elem 2 (d.rd R.ep_PATHS e) i

/-- TWIN of a path code. -/
def codeTwin (c : Nat) : Bool := bitOf c 14

/-- The links of a path code. -/
def codeLinks (c : Nat) : List Nat := if codeTwin c then [2 * (c % 128), 2 * (c % 128) + 1] else [c % 128]

/-- The links of a path that are in UP. -/
def Dev.upLinks (d : Dev) (e i : Nat) : List Nat := (codeLinks (d.pathCode e i)).filter d.linkUp

/-- Twin pair `k` is a twin path (R194, R201): a link of it is in UP, and both have reported one UNIT_ID. -/
def Dev.pairUsable (d : Dev) (k : Nat) : Bool :=
  (decide (d.pairStatus k = 1) || decide (d.pairStatus k = 2)) && (d.link (2 * k)).heard && (d.link (2 * k + 1)).heard

/-- A path is usable (R201). -/
def Dev.pathUsable (d : Dev) (e i : Nat) : Bool :=
  let c := d.pathCode e i
  bitOf c 15 && (if codeTwin c then d.pairUsable (c % 128) else d.linkUp (c % 128)) &&
    (d.upLinks e i).all fun n =>
      (decide (d.rd R.ep_UNIT_ID e = 0) || decide (d.rd R.link_PEER_UNIT n = d.rd R.ep_UNIT_ID e)) &&
        decide ((d.link n).peerMax = 15)

/-- DATA blocks of a pavilion waiting on a path: the larger count of its links (R202). -/
def Dev.pathQueue (d : Dev) (p e i : Nat) : Nat :=
  ((codeLinks (d.pathCode e i)).map fun n => ((d.link n).dataQ.filter fun b => decide (b.pav = p)).length).foldl max 0

/-- The path chosen for an operation of pavilion `p` (R202). -/
def Dev.choosePath (d : Dev) (p e : Nat) : Option Nat :=
  let usable := (List.range 8).filter (d.pathUsable e)
  if d.rd R.ep_PATH_POLICY e = 0 then usable.head?
  else
    let least := usable.foldl (fun m i => min m (d.pathQueue p e i)) (2 ^ 64)
    usable.find? fun i => decide (d.pathQueue p e i = least)

/-! ## Operations and their messages -/

/-- The operation of endpoint `e` under a number. -/
def Dev.findOp (d : Dev) (e opnum : Nat) : Option ChanOp :=
  d.chan.ops.find? fun o => decide (o.ep = e) && decide (o.opnum = opnum)

/-- An operation replaced. -/
def Dev.setOp (d : Dev) (o : ChanOp) : Dev :=
  d.onChan fun c => { c with ops := c.ops.map fun x => if x.ep = o.ep ∧ x.opnum = o.opnum then o else x }

/-- Direction of a command code (R207): 1 device to endpoint, 2 endpoint to device. -/
def ChanCmd.dir (c : ChanCmd) : Nat := c.cmd / 64

/-- The sequenced messages of a command list in order, without their numbers: each CMD, then its WDATA of 240 bytes (R214). -/
def listMsgs (cmds : List ChanCmd) : List (Nat → OpMsg) :=
  cmds.zipIdx.flatMap fun (c, i) =>
    (fun s => OpMsg.cmd i s) :: (if c.dir = 1 then
      (List.range (ceilDiv c.count 240)).map fun k => fun s => OpMsg.wdata i (240 * k) (min 240 (c.count - 240 * k)) s
    else [])

/-- The sequenced messages of a command list with their MSEQ, from 0 (R214). -/
def opMsgs (cmds : List ChanCmd) : List OpMsg := (listMsgs cmds).zipIdx.map fun (f, s) => f s

/-- The links of an operation's path that are in UP. -/
def Dev.opLinks (d : Dev) (o : ChanOp) : List Nat := (codeLinks o.code).filter d.linkUp

/-- Messages placed on the queues of the links of the operation's path that are in UP, on both links of a twin pair at once
(R193). -/
def Dev.queueData (d : Dev) (o : ChanOp) (l : List OpMsg) : Dev :=
  let twin := codeTwin o.code
  (d.opLinks o).foldl (fun d n => d.onLink n fun x => { x with
    dataQ := x.dataQ ++ l.map fun m => { pav := o.pav, ep := o.ep, opnum := o.opnum, tag := o.tag, msg := m, twin := twin } }) d

/-- Messages of an operation that satisfy `f` taken out of every link's queue. -/
def Dev.unqueue (d : Dev) (o : ChanOp) (f : OpMsg → Bool) : Dev :=
  d.chan.links.foldl (fun d e => d.onLink e.1 fun x => { x with
    dataQ := x.dataQ.filter fun b => !(decide (b.ep = o.ep) && decide (b.opnum = o.opnum) && f b.msg) }) d

/-- CMD and WDATA. -/
def OpMsg.sequenced : OpMsg → Bool
  | .cmd .. => true
  | .wdata .. => true
  | _ => false

/-- An OPTAG is in use on a link: by a live operation whose path has it, or by a message that waits there (R213). -/
def Dev.tagUsed (d : Dev) (n tag : Nat) : Bool :=
  (d.chan.ops.any fun o => o.live && decide (o.tag = tag) && (codeLinks o.code).contains n) ||
    (d.link n).dataQ.any fun b => decide (b.tag = tag)

/-- An OPTAG that no operation with the path uses (R213): the next after the one assigned last. -/
def Dev.newTag (d : Dev) (code : Nat) : Nat :=
  ((List.range 65535).map fun i => (d.chan.lastTag + i) % 65535 + 1).find?
    (fun t => !(codeLinks code).any fun n => d.tagUsed n t) |>.getD (d.chan.lastTag % 65535 + 1)

/-- A START or QUERY of an operation on path `i` under a new OPTAG (R213). -/
def Dev.sendFirst (d : Dev) (o : ChanOp) (i : Nat) (m : OpMsg) : Dev :=
  let code := d.pathCode o.ep i
  let t := d.newTag code
  let o := { o with
    path := i, code := code, moved := o.moved || decide (code ≠ o.code), tag := t, live := true, ackedOn := [], heldOn := []
    ctl := o.ctl.map fun x => { x with sent := [] } }
  ((d.onChan fun c => { c with lastTag := t }).setOp o).queueData o [m]

/-- The operation after the change of another, as it now stands. -/
def Dev.again (d : Dev) (o : ChanOp) : ChanOp := (d.findOp o.ep o.opnum).getD o

/-- A START with RESUME on a usable path (Table 7.9, MOVING). -/
def Dev.tryResume (d : Dev) (o : ChanOp) : Dev :=
  match d.choosePath o.pav o.ep with
  | some i => d.sendFirst o i (.start true)
  | none => d.setOp { o with live := false }

/-- A QUERY with a new OPTAG on a usable path (R233, R242). -/
def Dev.tryQuery (d : Dev) (o : ChanOp) : Dev :=
  match d.choosePath o.pav o.ep with
  | some i => (d.bump R.ep_QUERIES o.ep).sendFirst o i .query
  | none => d.setOp { o with live := false }

/-- The payload of a STOP or HALT (Table 7.10). -/
def Dev.ctlPayload (d : Dev) (o : ChanOp) (code scope : Nat) : Bytes :=
  leBytes 1 code ++ leBytes 1 scope ++ leBytes 1 o.pav ++ zeros 1 ++ leBytes 2 (d.rd R.ep_UNIT_ADDR o.ep) ++ zeros 2 ++
    leBytes 4 o.gen ++ zeros 4 ++ leBytes 8 (if scope = 0 then o.opnum else 0) ++ zeros 8

/-- The links on which a STOP or HALT may now be placed, with the TWIN flag it gets there (R193): a link of the path once a START or
QUERY under the present OPTAG is acknowledged there; for the device's own HALT, then also every other usable path of the endpoint
(R233). -/
def Dev.ctlLinks (d : Dev) (o : ChanOp) (x : OpCtl) : List (Nat × Bool) :=
  let path := d.opLinks o
  let others := if x.own && !o.ackedOn.isEmpty then
      ((List.range 8).filter (d.pathUsable o.ep)).flatMap fun i => (d.upLinks o.ep i).map fun n => (n, codeTwin (d.pathCode o.ep i))
    else []
  let mine := if o.live then (path.filter o.ackedOn.contains).map fun n => (n, codeTwin o.code) else []
  ((mine ++ others.filter fun e => !path.contains e.1).eraseDupsBy fun a b => a.1 == b.1).filter fun e => !x.sent.contains e.1

/-- The STOPs and HALTs of an operation placed on each link that no longer holds them back, in their order (R233). -/
def Dev.sendCtl (d : Dev) (o : ChanOp) : Dev :=
  let each := fun (acc : Dev × List OpCtl) (x : OpCtl) =>
    let go := acc.1.ctlLinks o x
    let b := acc.1.ctlPayload o x.code x.scope
    (go.foldl (fun d e => d.onLink e.1 fun y => { y with ctlQ := y.ctlQ ++ [(e.2, b)] }) acc.1,
      acc.2 ++ [{ x with sent := x.sent ++ go.map (·.1) }])
  let (d, l) := o.ctl.foldl each (d, [])
  d.setOp { o with ctl := l }

/-- A STOP or HALT joins those of an operation. -/
def ChanOp.addCtl (o : ChanOp) (code scope : Nat) (own : Bool) : ChanOp :=
  if o.ctl.any fun x => decide (x.code = code) && decide (x.scope = scope) then
    { o with ctl := o.ctl.map fun x => if x.code = code ∧ x.scope = scope then { x with own := x.own || own } else x }
  else { o with ctl := o.ctl ++ [{ code := code, scope := scope, own := own }] }

/-- The index at which the endpoint has the operation's path, while that is usable. -/
def Dev.pathIndex (d : Dev) (o : ChanOp) : Option Nat :=
  (List.range 8).find? fun i => decide (d.pathCode o.ep i = o.code) && d.pathUsable o.ep i

/-- The path of an operation that sends or awaits messages can carry them. -/
def Dev.opUsable (d : Dev) (o : ChanOp) : Bool := (d.pathIndex o).isSome

/-- ENDPOINT_TIMEOUT in ns. -/
def Dev.epTimeout (d : Dev) (e : Nat) : Nat := d.rd R.ep_ENDPOINT_TIMEOUT e * 1000000

/-- An operation that holds a HALT enters HALTING (Table 7.9): no further CMD or WDATA, and HALT, after a QUERY where no START or
QUERY of it is live on a usable path (R233). -/
def Dev.startHalting (d : Dev) (o : ChanOp) : Dev :=
  let d := d.unqueue o OpMsg.sequenced
  let o := { o with st := .halting, due := d.time + d.epTimeout o.ep }
  let d := d.setOp o
  if o.live && d.opUsable o then d.sendCtl o else d.tryQuery o

/-- An operation enters HALTING with a HALT of this SCOPE. -/
def Dev.enterHalting (d : Dev) (o : ChanOp) (scope : Nat) (own : Bool) : Dev := d.startHalting (o.addCtl 2 scope own)

/-- An operation ends with its final status: its OPDN record is written in the room held for it (Table 7.9, R148). -/
def Dev.finishOp (d : Dev) (o : ChanOp) (status unitStatus residual failed : Nat) (dup : Bool) : Dev :=
  let d := d.unqueue o fun _ => true
  let d := if status = 8 then d.bump R.ep_UNCERTAIN o.ep else d
  let o := { o with
    st := .done, status := status, unitStatus := unitStatus, residual := residual, failedCmd := failed, dup := dup, doneAt := d.time,
    ctl := [], held := none, heldOn := [] }
  (d.setOp o).append o.pav (.opdn o.opnum o.ep status residual d.time (if o.replay then 1 else 0) failed unitStatus o.path
    ((if dup then 2 else 0) + (if o.moved then 4 else 0))) false

/-- COUNT summed over the data commands of one direction (R226). -/
def ChanOp.total (o : ChanOp) (dir : Nat) : Nat := ((o.cmds.filter fun c => decide (c.dir = dir)).map (·.count)).sum

/-- The RESIDUAL of an operation that the device ends itself (R226): every COUNT where no command of it began, else what is left of the
READ commands and of the WRITE commands. How much of a WRITE the endpoint has taken, and what was transferred of an operation found at
replay, the device does not know: that part is a free value (notes/assumptions/21). -/
def Dev.residual (d : Dev) (o : ChanOp) : Nat × Dev :=
  if o.replay then
    let (n, d) := d.draw
    (Config.free n % 2 ^ 32, d)
  else if !o.startAcked then (o.total 1 + o.total 2, d)
  else if o.total 1 = 0 then (o.total 2 - o.got, d)
  else
    let (n, d) := d.draw
    (o.total 2 - o.got + Config.free n % (o.total 1 + 1), d)

/-- An operation ends with a status of the device: NOT_STARTED when no START of it was acknowledged, else UNCERTAIN (R231). -/
def Dev.endUnknown (d : Dev) (o : ChanOp) : Dev :=
  let status := if o.startAcked || o.replay then 8 else 6
  let (n, d) := d.residual o
  d.finishOp o status 0 n 0xFF false

/-- A protocol error of an operation (R230, R615). -/
def Dev.protocolError (d : Dev) (o : ChanOp) : Dev :=
  let d := d.bump R.ep_PROTOCOL_ERRORS o.ep
  let o := { o with recorded := some (o.recorded.getD 10), held := none, heldOn := [] }
  match o.st with
  | .running | .moving | .querying => (d.bump R.ep_HALTS o.ep).enterHalting o 0 true
  | _ => d.setOp o

/-- An operation enters MOVING (Table 7.9); its endpoint sends a FINAL that it held again. -/
def Dev.enterMoving (d : Dev) (o : ChanOp) : Dev :=
  let d := (d.unqueue o fun _ => true).bump R.ep_FAILOVERS o.ep
  d.tryResume { o with st := .moving, due := d.time + d.epTimeout o.ep, live := false, held := none }

/-- A FINAL is held, and every link of the path that is left has brought it: the path carries no more RDATA (R216). -/
def Dev.finalShort (d : Dev) (o : ChanOp) : Bool := o.held.isSome && (d.opLinks o).all o.heldOn.contains

/-- What an operation does once paths have changed (R195, R202, R213, R216, R228, R233, R242). -/
def Dev.recheckOp (d : Dev) (o : ChanOp) : Dev :=
  let usable := d.opUsable o
  match o.st with
  | .running => if !usable then d.enterMoving o else if d.finalShort o then d.protocolError o else d
  | .moving =>
    if !(o.live && usable) then (d.unqueue o fun _ => true).tryResume o
    else if d.finalShort o then d.protocolError o
    else d
  | .halting | .querying =>
    if !(o.live && usable) then (d.unqueue o fun _ => true).tryQuery o
    else if d.finalShort o then d.protocolError o
    else d.sendCtl o
  | .done => if usable then d else d.setOp { o with live := false }
  | _ => d

/-- Every operation looks at its path again. -/
def Dev.recheckOps (d : Dev) : Dev :=
  d.chan.ops.foldl (fun d o => d.recheckOp (d.again o)) d

/-- The operation that an OPTAG names on the path of a link (R213, R615). -/
def Dev.opOfTag (d : Dev) (n tag : Nat) : Option ChanOp :=
  d.chan.ops.find? fun o => o.live && decide (o.tag = tag) && (codeLinks o.code).contains n

/-- A START or QUERY acknowledged on link `n` (R231, R233). -/
def Dev.firstAcked (d : Dev) (n : Nat) (x : Nat × Nat × Nat × Bool) : Dev :=
  match d.findOp x.1 x.2.1 with
  | none => d
  | some o =>
    if !o.isOpen then d
    else
      let o := { o with startAcked := o.startAcked || x.2.2.2 }
      let o := if o.live && decide (o.tag = x.2.2.1) then { o with ackedOn := o.ackedOn ++ [n] } else o
      (d.setOp o).sendCtl o

/-! ## The bytes of operation messages (Tables 7.5 to 7.7) -/

/-- IDENTITY: offsets 16 to 31. -/
def Dev.identity (d : Dev) (o : ChanOp) : Bytes :=
  leBytes 1 o.pav ++ zeros 1 ++ leBytes 2 (d.rd R.ep_UNIT_ADDR o.ep) ++ leBytes 4 o.gen ++ leBytes 8 o.opnum

/-- The message header. -/
def opHeader (mtype mflags tag mseq idx dlen off : Nat) : Bytes :=
  leBytes 1 mtype ++ leBytes 1 mflags ++ leBytes 2 tag ++ leBytes 4 mseq ++ leBytes 1 idx ++ zeros 1 ++ leBytes 2 dlen ++ leBytes 4 off

/-- A RELEASE message. -/
def releaseBytes (tag : Nat) : Bytes := opHeader 0x05 0 tag 0xFFFFFFFF 0 0 0

/-- The payload of the block that carries a message, with whether poison was met in the WRITE buffer (R211, R230). -/
def Dev.msgBytes (d : Dev) (o : ChanOp) (tag : Nat) (m : OpMsg) : Bytes × Bool × Dev :=
  match m with
  | .start r =>
    (opHeader 0x01 (if r then 1 else 0) tag 0xFFFFFFFF 0 0 0 ++ d.identity o ++ leBytes 1 o.cmds.length ++ zeros 3 ++
      leBytes 4 o.rxNext ++ zeros 8, false, d)
  | .cmd i s =>
    let c := o.cmds.getD i ⟨0, 0, 0, 0, 0⟩
    (opHeader 0x02 0 tag s i 0 0 ++ leBytes 1 c.cmd ++ leBytes 1 c.dflags ++ zeros 2 ++ leBytes 4 c.count ++ leBytes 8 c.arg, false, d)
  | .wdata i off n s =>
    let c := o.cmds.getD i ⟨0, 0, 0, 0, 0⟩
    let (b, bad, d) := d.devRead o.pav (c.buf + off) n
    (opHeader 0x03 0 tag s i n off ++ pad16 b, bad, d)
  | .query => (opHeader 0x04 0 tag 0xFFFFFFFF 0 0 0 ++ d.identity o, false, d)
  | .release => (opHeader 0x05 0 tag 0xFFFFFFFF 0 0 0, false, d)

/-- A message of an endpoint can be decoded (R615). A block longer than the message needs is no error (R212). -/
def opDecodable (b : Bytes) : Bool :=
  let dlen := fieldLE b 10 2
  let idx := fieldLE b 8 1
  match fieldLE b 0 1 with
  | 0x81 => decide (32 ≤ b.length) && decide (dlen = 0) && decide (idx = 0)
  | 0x82 => decide (1 ≤ dlen) && decide (dlen ≤ 240) && decide (16 + dlen ≤ b.length) && decide (idx < 64) &&
      decide (fieldLE b 12 4 + dlen ≤ 16777216)
  | 0x83 => decide (48 ≤ b.length) && decide (dlen = 0) && decide (idx = 0) && decide (fieldLE b 16 1 < 64) &&
      (decide (fieldLE b 40 1 < 64) || decide (fieldLE b 40 1 = 0xFF))
  | _ => false

/-! ## Completion rings (R236 to R239) -/

/-- Entries posted and not freed, earliest first. -/
def Dev.postedOf (d : Dev) (e : Nat) : List (Nat × Bool) := Table.get [] d.chan.posted e

/-- Entries of an endpoint replaced: those released ahead of every other are freed (R239). -/
def Dev.setPosted (d : Dev) (e : Nat) (l : List (Nat × Bool)) : Dev :=
  d.onChan fun c => { c with posted := Table.set [] c.posted e (l.dropWhile (·.2)) }

/-- The completion entry of an operation (Table 7.11a). -/
def ChanOp.entry (o : ChanOp) (phase : Bool) : Bytes :=
  leBytes 8 o.opnum ++ leBytes 2 o.status ++ leBytes 2 o.unitStatus ++ leBytes 4 o.residual ++ leBytes 8 o.doneAt ++
    leBytes 1 o.failedCmd ++ leBytes 1 (if o.replay then 1 else 0) ++ leBytes 1 o.path ++
    leBytes 1 ((if phase then 1 else 0) + (if o.dup then 2 else 0) + (if o.moved then 4 else 0)) ++ zeros 4

/-- A completion posted (R236, R237). -/
def Dev.postOp (d : Dev) (o : ChanOp) : Dev :=
  let k := Table.get 0 d.chan.cqIndex o.ep
  let n := d.rd R.ep_CQ_ENTRIES o.ep
  let d := d.postEntry o.pav (d.rd R.ep_CQ_BASE o.ep) n k (d.rd R.ep_DOORBELL o.ep) (o.entry (decide (k / max 1 n % 2 = 0)))
  let d := d.onChan fun c => { c with cqIndex := Table.set 0 c.cqIndex o.ep (k + 1) }
  d.setPosted o.ep (d.postedOf o.ep ++ [(o.opnum, false)])

/-- Released operations that R206 no longer counts are forgotten. -/
def Dev.pruneOps (d : Dev) (e : Nat) : Dev :=
  d.onChan fun c =>
    let oldest := ((c.ops.filter fun o => decide (o.ep = e) && o.isOpen).map (·.opnum)).foldl min (2 ^ 64)
    { c with ops := c.ops.filter fun o => !(decide (o.ep = e) && decide (o.st = .released) && decide (o.opnum < oldest)) }

end Sys2Proof.Machine
end

