-- ==== Sys2Proof/Machine/Links.lean ====
section
/-! DEFINITION. Machine/Links.lean: the link layer of the channel: blocks, sequences, go-back, credit, the transmit order, link
states and failure (chapter 6). -/

namespace Sys2Proof.Machine

/-! ## Sequences and blocks -/

/-- Sequence `s` precedes `t`. -/
def precedes (s t : Nat) : Bool :=
  let x := (t + 65536 - s) % 65536
  decide (1 ≤ x) && decide (x ≤ 32767)

/-- `s` equals `t` or precedes it. -/
def seqLe (s t : Nat) : Bool := decide (s = t) || precedes s t

/-- The sequence after `s`, and the one before it. -/
def seqNext (s : Nat) : Nat := (s + 1) % 65536

/-- The sequence before `s`. -/
def seqPrev (s : Nat) : Nat := (s + 65535) % 65536

/-- CREDIT that a link advertises (R176): the sequence last delivered and the free receive space. -/
def Link.creditOut (x : Link) : Nat := (seqPrev x.rxData + 512 - min 512 x.passed.length) % 65536

/-- A block's bytes: the header of Table 6.2, the payload and the CRC trailer (R169, R171). -/
def Link.block (x : Link) (kind flags seq : Nat) (payload : Bytes) : Bytes :=
  let b := leBytes 1 (kind * 16 + (payload.length / 16 - 1)) ++ leBytes 1 flags ++ leBytes 2 seq ++ leBytes 2 (seqPrev x.rxData) ++
    leBytes 2 x.creditOut ++ payload
  b ++ leBytes 4 (crc32c b)

/-- Kinds of Table 6.3. -/
def kData : Nat := 1
/-- CONTROL. -/
def kControl : Nat := 2
/-- ACK. -/
def kAck : Nat := 8
/-- NAK. -/
def kNak : Nat := 9
/-- HELLO. -/
def kHello : Nat := 10

/-- A block leaves on link `n`. Its header reports the data stream (R177); a run closes after 32 blocks (R167). -/
def Dev.transmit (d : Dev) (n kind flags seq : Nat) (payload : Bytes) : Dev :=
  (d.onLink n fun x => { x with
    out := x.block kind flags seq payload
    lastTx := d.time
    ackOwed := none
    run := x.run % 32 + 1 }).bump R.link_BLOCKS_TX n

/-- Every departure from UP and each way out of it returns the link's blocks: the streams start again (R173, R196). -/
def Link.cleared (x : Link) (t : Nat) : Link :=
  { x with
    since := t, seen := false, gotSeen := false, sentSeen := false, data := {}, ctl := {}, rxData := 1, rxCtl := 1, dataQ := [],
    ctlQ := [], passed := [], replies := [], nakDone := false, nakOwed := none, ackOwed := none, ctlAckOwed := none, noFrame := false,
    noLock := false, run := 0, credit := 0 }

/-- Link `n` enters a state of Table 6.7 other than UP. Leaving UP is a departure: counted, with the estate alert, and after
more than 8 within 1 s the link stays FAILED (R197); a FAIL_CAUSE other than 0 is recorded (R187). The operation layer then
looks at its paths (R196). -/
def Dev.leaveTo (d : Dev) (n status cause : Nat) : Dev :=
  let up := d.linkUp n
  let d := if cause = 0 then d else d.wr R.link_FAIL_CAUSE cause n
  let d := d.wr R.link_LINK_STATUS status n
  let d := d.onLink n (·.cleared d.time)
  if !up then d
  else
    let d := (d.bump R.link_FAILURES n).alert (0x4000 + n) 0x18 0xFF (d.rd R.link_FAIL_CAUSE n)
    let d := d.onLink n fun x =>
      let l := (x.departs.filter fun t => decide (d.time < t + 1000000000)) ++ [d.time]
      { x with departs := l, stuck := x.stuck || decide (8 < l.length) }
    d.recheckOps

/-- A reference clock is present (R191). -/
def Dev.refPresent (d : Dev) : Bool := d.plat.refA || d.plat.refB

/-- The pair of link `n` looked at again after a change of TWIN or of a UNIT_ID, its status having been `before`: units that now differ
raise the estate alert (R194), and operations look at their paths. -/
def Dev.pairChanged (d : Dev) (n before : Nat) : Dev :=
  let now := d.pairStatus (n / 2)
  if now = before then d
  else (if now = 4 then d.alert (0x4000 + n / 2 * 2) 0x19 0xFF 0 else d).recheckOps

/-- Link `n` enters TRAINING, where its staged entries take effect (R198). -/
def Dev.enterTraining (d : Dev) (n : Nat) : Dev :=
  let d := d.leaveTo n 1 0
  let before := d.pairStatus (n / 2)
  (d.onLink n fun x => { x with
    fec := decide (d.rd R.link_FEC n = 1)
    expected := d.rd R.link_EXPECTED_UNIT n
    twin := decide (d.rd R.link_TWIN n = 1) }).pairChanged n before

/-- A link's retry from FAILED is allowed (R191, R197, Table 6.7). -/
def Dev.mayRetrain (d : Dev) (n : Nat) : Bool :=
  decide (d.rd R.link_ENABLE n = 1) && d.refPresent && !(d.link n).stuck

/-! ## Acknowledges and go-back -/

/-- ACK_TIMEOUT of link `n` that begins now ends then (R179, R198). -/
def Dev.ackDue (d : Dev) (n : Nat) : Nat := d.time + d.rd R.link_ACK_TIMEOUT n

/-- Blocks that an acknowledge `a` covers, and the stream after it, its timer then ending at `due` (R174, R181). -/
def TxStream.acked (x : TxStream) (a due : Nat) : List TxBlock × TxStream :=
  let done := x.unacked.takeWhile fun b => seqLe b.seq a
  if done.isEmpty then ([], x)
  else
    let rest := x.unacked.drop done.length
    (done, { x with unacked := rest, resend := min x.resend rest.length, rounded := false, failed := 0, due := due })

/-- One stream of a link. -/
def Link.stream (x : Link) (control : Bool) : TxStream := if control then x.ctl else x.data

/-- One stream of a link replaced. -/
def Link.setStream (x : Link) (control : Bool) (s : TxStream) : Link := if control then { x with ctl := s } else { x with data := s }

/-- An acknowledge of a stream applied, with what the operation layer learns of it. -/
def Dev.applyAck (d : Dev) (n : Nat) (control : Bool) (a : Nat) : Dev :=
  let x := d.link n
  let (done, s) := (x.stream control).acked a (d.ackDue n)
  let d := d.setLink n (x.setStream control s)
  (done.filterMap (·.op)).foldl (fun d o => d.firstAcked n o) d

/-- A go-back round starts on a stream, or the link fails with cause 1 (R180, R181). -/
def Dev.goBack (d : Dev) (n : Nat) (control : Bool) : Dev :=
  let x := d.link n
  let s := x.stream control
  let failed := if s.rounded then s.failed + 1 else s.failed
  if failed ≥ 16 then d.leaveTo n 5 1
  else
    (d.setLink n { x.setStream control { s with resend := s.unacked.length, rounded := true, failed := failed } with run := 0 }).bump
      R.link_GO_BACKS n

/-- The acknowledge timer of a stream has run out (R179). -/
def Dev.ackTimerDue (d : Dev) (n : Nat) (control : Bool) : Bool :=
  let s := (d.link n).stream control
  !s.unacked.isEmpty && decide (s.resend = 0) && decide (s.due ≤ d.time)

/-! ## Sending -/

/-- The NAK payload (Table 6.5). -/
def Link.nakPayload (x : Link) (stream cause : Nat) : Bytes :=
  leBytes 1 stream ++ leBytes 1 cause ++ leBytes 2 x.rxData ++ leBytes 2 x.rxCtl ++ zeros 10

/-- An ACK block leaves (Table 6.4). -/
def Dev.sendAck (d : Dev) (n : Nat) : Dev :=
  let x := d.link n
  (d.transmit n kAck 0 0 (leBytes 2 (seqPrev x.rxCtl) ++ zeros 14)).onLink n fun x => { x with ctlAckOwed := none }

/-- The next block of a go-back round leaves, with RESEND set; the round's end restarts the timer (R179, R180). -/
def Dev.resendNext (d : Dev) (n : Nat) (control : Bool) : Dev :=
  let s := (d.link n).stream control
  match s.unacked[s.unacked.length - s.resend]? with
  | none => d
  | some b =>
    let d := d.transmit n (if control then kControl else kData) ((if b.twin then 1 else 0) + 2) b.seq b.payload
    d.onLink n fun x => x.setStream control
      { s with resend := s.resend - 1, due := if s.resend = 1 then d.ackDue n else s.due }

/-- A new block of a stream leaves and is kept until it is acknowledged. -/
def Dev.sendNew (d : Dev) (n : Nat) (control : Bool) (b : TxBlock) : Dev :=
  let s := (d.link n).stream control
  let d := d.transmit n (if control then kControl else kData) (if b.twin then 1 else 0) s.next b.payload
  d.onLink n fun x => x.setStream control
    { s with next := seqNext s.next, unacked := s.unacked ++ [{ b with seq := s.next }],
             due := if s.unacked.isEmpty then d.ackDue n else s.due }

/-! ### The slot schedule (R184 to R186) -/

/-- The distinct links on paths of a pavilion's endpoints (R184). -/
def Dev.pavLinks (d : Dev) (p : Nat) : List Nat :=
  ((bitList 4096 (d.rd R.pav_ENDPOINTS p)).flatMap fun e => (List.range 8).flatMap fun i =>
    let c := d.pathCode e i
    if bitOf c 15 then codeLinks c else []).eraseDups

/-- Slots of link `n` that strict pavilion `p` holds (R184). -/
def Dev.linkSlots (d : Dev) (p n : Nat) : Nat :=
  let l := d.pavLinks p
  if d.pavExists p && d.strict p && l.contains n then ceilDiv (96 * elem 1 (d.rd R.pav_SHARES p) 5) l.length else 0

/-- The strict pavilion that holds slot `s` of link `n`: the strict pavilions' slots lie first, by rising number
(notes/assumptions/22). -/
def Dev.slotHolder (d : Dev) (n s : Nat) : Option Nat := holderAt (fun p => d.linkSlots p n) (List.range 64) s

/-- The earliest block waiting on a link that satisfies `f`. -/
def Link.firstOf (x : Link) (f : Nat → Bool) : Option TxData := x.dataQ.find? fun b => f b.pav

/-- What the slot schedule gives the link now (R185): the block whose turn it is, with the place in the schedule after it. A
strict pavilion's slot without a block passes as idle; common slots are skipped when no shared pavilion has a block. -/
def Dev.slotTurn (d : Dev) (n : Nat) : Nat → Nat → Option (Option TxData × Nat)
  | 0, _ => none
  | k + 1, s =>
    let x := d.link n
    match d.slotHolder n s with
    | some p => some (x.firstOf fun q => decide (q = p), (s + 1) % 256)
    | none =>
      let common := fun q => !d.strict q
      match (List.range 64).map (fun i => (x.turn + 1 + i) % 64) |>.find? fun q => common q && (x.firstOf fun r => decide (r = q)).isSome with
      | some q => some (x.firstOf fun r => decide (r = q), (s + 1) % 256)
      | none => d.slotTurn n k ((s + 1) % 256)

/-- A new DATA block may leave (R175). -/
def Link.mayData (x : Link) : Bool := decide (x.data.unacked.length < 512) && seqLe x.data.next x.credit

/-- A new DATA block leaves in its turn; a strict pavilion's own slot leaves the turn of the common slots where it is (R185). Poison in
its WRITE buffer ends its operation in its place (R230). A RELEASE leaves whatever the program has released since (Table 7.9). -/
def Dev.sendData (d : Dev) (n : Nat) (b : TxData) : Dev :=
  let d := d.onLink n fun x => { x with dataQ := x.dataQ.erase b, turn := if d.strict b.pav then x.turn else b.pav }
  match b.msg, d.findOp b.ep b.opnum with
  | .release, _ => d.sendNew n false { seq := 0, twin := b.twin, payload := releaseBytes b.tag }
  | _, none => d
  | _, some o =>
    let (m, bad, d) := d.msgBytes o b.tag b.msg
    if bad then
      (d.bump R.ep_HALTS o.ep).enterHalting { d.again o with recorded := some ((d.again o).recorded.getD 9) } 0 true
    else
      let first := match b.msg with
        | .start _ => some (b.ep, b.opnum, b.tag, true)
        | .query => some (b.ep, b.opnum, b.tag, false)
        | _ => none
      d.sendNew n false { seq := 0, twin := b.twin, payload := m, op := first }

/-- The block boundary of a link in UP: the first block of R182 that waits leaves. -/
def Dev.boundary (d : Dev) (n : Nat) : Dev :=
  let x := d.link n
  -- the turn of the slot schedule, where a new DATA block may leave and no round of the data stream runs
  let turn := if x.mayData && decide (x.data.resend = 0) && !x.dataQ.isEmpty then d.slotTurn n 256 x.slot else none
  let carried := decide (0 < x.data.resend) || (match turn with | some (some _, _) => true | _ => false)
  -- an ACK that no DATA block carries in time (R177, R182)
  let ackNow := x.ctlAckOwed.isSome || (match x.ackOwed with
    | some t => !carried || decide (t + 250 < d.time)
    | none => false)
  match x.nakOwed with
  | some (stream, cause) =>
    ((d.transmit n kNak 0 0 (x.nakPayload stream cause)).onLink n fun x => { x with nakOwed := none, nakDone := true }).bump R.link_NAKS_SENT n
  | none =>
    if 0 < x.ctl.resend then d.resendNext n true
    else
      match x.ctlQ, decide (x.ctl.unacked.length < 16) with
      | b :: t, true => (d.setLink n { x with ctlQ := t }).sendNew n true { seq := 0, twin := b.1, payload := b.2 }
      | _, _ =>
        if ackNow then d.sendAck n
        else if 0 < x.data.resend then d.resendNext n false
        else match turn with
          | some (some b, s) => (d.onLink n fun x => { x with slot := s }).sendData n b
          | some (none, s) => d.onLink n fun x => { x with slot := s }
          | none => d

/-! ## Receiving -/

/-- A NAK owed, at most one for each pair of expected sequences (R178). -/
def Link.oweNak (x : Link) (stream cause : Nat) : Link :=
  if x.nakDone || x.nakOwed.isSome then x else { x with nakOwed := some (stream, cause) }

/-- The KIND of a block. -/
def blockKind (b : Bytes) : Nat := fieldLE b 0 1 / 16

/-- A KIND of Table 6.3 with a LEN in its row (R170). -/
def kindOk (b : Bytes) : Bool :=
  let len := fieldLE b 0 1 % 16
  match blockKind b with
  | 1 => true
  | 2 => decide (len < 4)
  | 8 => decide (len = 0)
  | 9 => decide (len = 0)
  | 10 => decide (len = 1)
  | _ => false

/-- A block arrived whole with a good CRC (R168, R171). -/
def blockGood (o : RxBlock) : Bool :=
  let n := o.bytes.length
  !o.broken && decide (28 ≤ n) && decide (n = 12 + 16 * (fieldLE o.bytes 0 1 % 16 + 1)) &&
    decide (fieldLE o.bytes (n - 4) 4 = crc32c (o.bytes.take (n - 4)))

/-- The FEC codewords that the link has decoded (Table 6.8). -/
def Dev.countFec (d : Dev) (o : RxBlock) : Dev :=
  if (d.link o.link.val).fec then
    (d.bump R.link_FEC_CORRECTED o.link.val (n := o.fecGood)).bump R.link_FEC_UNCORRECTED o.link.val (n := o.fecBad)
  else d

/-- ACKNOWLEDGE and CREDIT of a block's header applied (R174). -/
def Dev.applyHeader (d : Dev) (n : Nat) (b : Bytes) : Dev :=
  (d.applyAck n false (fieldLE b 4 2)).onLink n fun x =>
    if precedes x.credit (fieldLE b 6 2) then { x with credit := fieldLE b 6 2 } else x

/-- A received block of one of `kinds` on a link that receives: framing (R168), CRC, the acknowledge and credit of its header
(R174), KIND and LEN (R170); then `f` is given it. A block of another kind leaves the device as it is. -/
def Dev.receive (d : Dev) (o : RxBlock) (kinds : List Nat) (f : Dev → Dev) : Dev :=
  let d := d.at o.t
  let n := o.link.val
  let x := d.link n
  let hello := decide (d.rd R.link_LINK_STATUS n = 3)
  if !(d.linkUp n || hello) || x.noLock then d
  else if blockGood o && kindOk o.bytes && !kinds.contains (blockKind o.bytes) then d
  else
    let d := d.countFec o
    if x.noFrame && !o.opensRun then d
    else if !blockGood o then
      let d := (d.bump R.link_CRC_ERRORS n).onLink n fun x => { x with noFrame := true }
      if hello then d else d.onLink n fun x => x.oweNak 3 1
    else
      let d := (d.bump R.link_BLOCKS_RX n).onLink n fun x => { x with noFrame := false, lastRx := d.time }
      let d := if hello then d else d.applyHeader n o.bytes
      if !kindOk o.bytes then d.bump R.link_CRC_ERRORS n
      else if hello && decide (blockKind o.bytes ≠ kHello) then d
      else f d

/-- The payload of a block. -/
def blockPayload (b : Bytes) : Bytes := (b.drop 8).take (b.length - 12)

/-- The messages that a link has passed up, from the earliest: those that cannot be decoded, or whose OPTAG names no live operation of
the path, are dealt with (R615), up to one that the operation layer is to take. -/
def passLoop : Nat → Dev → Nat → Dev
  | 0, d, _ => d
  | k + 1, d, n =>
    match (d.link n).passed with
    | [] => d
    | b :: t =>
      match d.opOfTag n (fieldLE b 2 2) with
      | none => passLoop k ((d.onLink n fun x => { x with passed := t }).bump R.link_STRAY_MESSAGES n) n
      | some o => if opDecodable b then d else passLoop k ((d.onLink n fun x => { x with passed := t }).protocolError o) n

/-- The messages at the front that no command takes, dealt with. -/
def Dev.passFront (d : Dev) (n : Nat) : Dev := passLoop (d.link n).passed.length d n

/-- A message of an endpoint passed up, in its order. -/
def Dev.passUp (d : Dev) (n : Nat) (b : Bytes) : Dev := (d.onLink n fun x => { x with passed := x.passed ++ [b] }).passFront n

/-- A block of a sequenced stream (R178). -/
def Dev.takeBlock (d : Dev) (n : Nat) (control : Bool) (b : Bytes) : Dev :=
  let x := d.link n
  let seq := fieldLE b 2 2
  let expected := if control then x.rxCtl else x.rxData
  let owe := fun (x : Link) =>
    if control then { x with ctlAckOwed := some (x.ctlAckOwed.getD d.time) } else { x with ackOwed := some (x.ackOwed.getD d.time) }
  if seq = expected then
    let x := owe { x with nakDone := false }
    if control then d.setLink n { x with rxCtl := seqNext seq, replies := x.replies ++ [blockPayload b] }
    else (d.setLink n { x with rxData := seqNext seq }).passUp n (blockPayload b)
  else if precedes seq expected then d.setLink n (owe x)
  else d.setLink n (x.oweNak (if control then 2 else 1) 2)

/-- A NAK applied to one stream: what precedes the expected sequence is acknowledged, and a round starts where the expected
one is the oldest left and none has started since (R179). -/
def Dev.applyNak (d : Dev) (n : Nat) (control : Bool) (e : Nat) : Dev :=
  let d := d.applyAck n control (seqPrev e)
  let s := (d.link n).stream control
  match s.unacked with
  | b :: _ => if b.seq = e ∧ ¬ s.rounded ∧ d.linkUp n then d.goBack n control else d
  | [] => d

/-- DATA_BLOCK (R168 to R178). -/
def execDataBlock (o : RxBlock) (s : State) : Host.Outcome State Fault Refusal :=
  s.act fun d => d.receive o [kData] fun d => d.takeBlock o.link.val false o.bytes

/-- CONTROL_BLOCK (R174, R178). -/
def execControlBlock (o : RxBlock) (s : State) : Host.Outcome State Fault Refusal :=
  s.act fun d => d.receive o [kControl] fun d => d.takeBlock o.link.val true o.bytes

/-- LINK_ACK_BLOCK (R174): the control stream's acknowledge is in the payload. -/
def execLinkAckBlock (o : RxBlock) (s : State) : Host.Outcome State Fault Refusal :=
  s.act fun d => d.receive o [kAck] fun d => d.applyAck o.link.val true (fieldLE o.bytes 8 2)

/-- LINK_NAK_BLOCK (R179): STREAM 1 names the data stream, 2 the control stream, 3 both. -/
def execLinkNakBlock (o : RxBlock) (s : State) : Host.Outcome State Fault Refusal :=
  s.act fun d => d.receive o [kNak] fun d =>
    let n := o.link.val
    let stream := fieldLE o.bytes 8 1
    let d := if stream = 1 ∨ stream = 3 then d.applyNak n false (fieldLE o.bytes 10 2) else d
    if (stream = 2 ∨ stream = 3) ∧ d.linkUp n then d.applyNak n true (fieldLE o.bytes 12 2) else d

/-! ## Timers and sending -/

/-- ACK_TIMEOUT (R179): a stream's acknowledge timer fires. -/
def execAckTimeout (o : OpAckT) (s : State) : Host.Outcome State Fault Refusal :=
  s.act fun d =>
    let d := d.at o.t
    let n := o.link.val
    if d.linkUp n && d.ackTimerDue n o.control then d.goBack n o.control else d

/-- LINK_DEAD_TIMEOUT (R190): no good block for LINK_DEAD. -/
def execLinkDeadTimeout (o : OpLinkT) (s : State) : Host.Outcome State Fault Refusal :=
  s.act fun d =>
    let d := d.at o.t
    let n := o.link.val
    if d.linkUp n && decide ((d.link n).lastRx + 1000 * d.rd R.link_LINK_DEAD n ≤ d.time) then d.leaveTo n 5 2 else d

/-- ACK_OWED (R177): an acknowledge owed, or 10 µs of silence, draws an ACK block. -/
def execAckOwed (o : OpLinkT) (s : State) : Host.Outcome State Fault Refusal :=
  s.act fun d =>
    let d := d.at o.t
    let n := o.link.val
    let x := d.link n
    if d.linkUp n && (x.ackOwed.isSome || x.ctlAckOwed.isSome || decide (x.lastTx + 10000 ≤ d.time)) then d.sendAck n
    else d

/-- BLOCK_SENT (R175, R182 to R186): a block boundary of a link in UP. -/
def execBlockSent (o : OpLinkT) (s : State) : Host.Outcome State Fault Refusal :=
  s.act fun d =>
    let d := d.at o.t
    if d.linkUp o.link.val then d.boundary o.link.val else d

/-- BLOCK_LOCK_LOST (R190): reception stops while UP continues. -/
def execBlockLockLost (o : OpLinkT) (s : State) : Host.Outcome State Fault Refusal :=
  s.act fun d =>
    let d := d.at o.t
    if d.linkUp o.link.val then d.onLink o.link.val fun x => { x with noLock := true, noFrame := true } else d

/-- BLOCK_LOCK_REGAINED (R190): reception goes on at the next run. -/
def execBlockLockRegained (o : OpLinkT) (s : State) : Host.Outcome State Fault Refusal :=
  s.act fun d =>
    let d := d.at o.t
    if d.linkUp o.link.val then d.onLink o.link.val fun x => { x with noLock := false } else d

/-! ## Bring-up (R187 to R189, Table 6.7) -/

/-- Link `n` moves from one state of Table 6.7 to the next. -/
def Dev.bringUp (d : Dev) (n fromSt toSt : Nat) : Dev :=
  if d.rd R.link_LINK_STATUS n = fromSt then
    (d.wr R.link_LINK_STATUS toSt n).onLink n fun x => { x with since := d.time }
  else d

/-- LINK_TRAINING_DONE (R187). -/
def execLinkTrainingDone (o : OpLinkT) (s : State) : Host.Outcome State Fault Refusal :=
  s.act fun d => (d.at o.t).bringUp o.link.val 1 2

/-- LOCK_GAINED (R187). -/
def execLockGained (o : OpLinkT) (s : State) : Host.Outcome State Fault Refusal :=
  s.act fun d => (d.at o.t).bringUp o.link.val 2 3

/-- LINK_STATE_TIMEOUT (R187): 500 ms in TRAINING, 10 ms in LOCKING or HELLO. -/
def execLinkStateTimeout (o : OpLinkT) (s : State) : Host.Outcome State Fault Refusal :=
  s.act fun d =>
    let d := d.at o.t
    let n := o.link.val
    let passed := d.time - (d.link n).since
    match d.rd R.link_LINK_STATUS n with
    | 1 => if 500000000 ≤ passed then d.leaveTo n 5 3 else d
    | 2 => if 10000000 ≤ passed then d.leaveTo n 5 7 else d
    | 3 => if 10000000 ≤ passed then d.leaveTo n 5 4 else d
    | _ => d

/-- A link that has sent and received a HELLO with SEEN enters UP (R173, R188), and operations look for paths. -/
def Dev.tryUp (d : Dev) (n : Nat) : Dev :=
  let x := d.link n
  if !(x.gotSeen && x.sentSeen) then d
  else
    let d := (d.wr R.link_LINK_STATUS 4 n).bump R.link_BRINGUPS n
    (d.onLink n fun x => { x.cleared d.time with credit := x.peerBlocks, lastRx := d.time, lastTx := d.time }).recheckOps

/-- The HELLO payload of link `n` (Table 6.6). -/
def Dev.helloPayload (d : Dev) (n : Nat) : Bytes :=
  let x := d.link n
  leBytes 1 1 ++ leBytes 1 0 ++ leBytes 1 ((if x.seen then 1 else 0) + (if x.fec then 2 else 0)) ++ leBytes 1 15 ++ leBytes 2 n ++
    leBytes 2 512 ++ leBytes 8 (d.rd R.dev_SERIAL) ++ leBytes 8 (d.rd R.link_BRINGUPS n) ++ zeros 8

/-- HELLO_SEND (R187, R188): a link in HELLO sends HELLO every 10 µs. -/
def execHelloSend (o : OpLinkT) (s : State) : Host.Outcome State Fault Refusal :=
  s.act fun d =>
    let d := d.at o.t
    let n := o.link.val
    let x := d.link n
    if d.rd R.link_LINK_STATUS n ≠ 3 ∨ (x.since ≤ x.lastTx ∧ d.time < x.lastTx + 10000) then d
    else
      let d := (d.transmit n kHello 0 0 (d.helloPayload n)).onLink n fun x => { x with sentSeen := x.sentSeen || x.seen }
      d.tryUp n

/-- HELLO (R188, R189): the peer's unit and port are reported, its SEEN taken, and the link goes to UP or MISWIRED. -/
def execHello (o : RxBlock) (s : State) : Host.Outcome State Fault Refusal :=
  s.act fun d => d.receive o [kHello] fun d =>
    let n := o.link.val
    let b := blockPayload o.bytes
    let before := d.pairStatus (n / 2)
    let unit := fieldLE b 8 8
    let d := (d.wr R.link_PEER_UNIT unit n).wr R.link_PEER_PORT (fieldLE b 4 2) n
    let d := d.onLink n fun x => { x with heard := true, peerMax := fieldLE b 3 1, peerBlocks := fieldLE b 6 2 }
    let d := d.pairChanged n before
    let x := d.link n
    if d.linkUp n then d.recheckOps
    else if x.expected ≠ 0 ∧ x.expected ≠ unit then
      (d.leaveTo n 6 5).alert (0x4000 + n) 0x0B 0xFF (fieldLE b 4 2)
    else if fieldLE b 0 1 = 1 ∧ fieldLE b 1 1 = 1 ∧ bitOf (fieldLE b 2 1) 1 = x.fec then
      (d.onLink n fun x => { x with seen := true, gotSeen := x.gotSeen || bitOf (fieldLE b 2 1) 0 }).tryUp n
    else d

/-- RETRY_DELAY_END (R187, R191, R197, Table 6.7): a MISWIRED link trains again, and a FAILED one that may. -/
def execRetryDelayEnd (o : OpLinkT) (s : State) : Host.Outcome State Fault Refusal :=
  s.act fun d =>
    let d := d.at o.t
    let n := o.link.val
    let st := d.rd R.link_LINK_STATUS n
    if (st = 6 ∨ st = 5 ∧ d.mayRetrain n) ∧ (d.link n).since + 1000000 * d.rd R.link_RETRY_DELAY n ≤ d.time then d.enterTraining n
    else d

end Sys2Proof.Machine
end

