-- ==== Sys2Proof/Machine/ChanOps.lean ====
section
/-! DEFINITION. Machine/ChanOps.lean: starting, stopping and releasing operations (CHST, CHCTL), the endpoint's messages, the
timers of operations, and their records (chapter 7). -/

namespace Sys2Proof.Machine

/-! ## CHST (R208 to R210, Table 7.4) -/

/-- A descriptor as CHST reads it (Table 7.2): the command with its buffer's capability, and whether check 3 of Table 7.4
takes it. -/
def descriptorOf (b : Bytes) (buf : Cap) : ChanCmd × Cap × Bool :=
  let cmd := fieldLE b 0 1
  let n := fieldLE b 4 4
  let c : ChanCmd := { cmd := cmd, dflags := fieldLE b 1 1, count := n, arg := fieldLE b 8 8, buf := buf.cursor.toNat }
  let size := if c.dir = 0 then decide (n = 0) else decide (1 ≤ n) && decide (n ≤ 16777216)
  (c, buf, decide (c.dir ≠ 3) && decide (c.dflags < 4) && decide (fieldLE b 2 2 = 0) && size)

/-- The command list from descriptor `i` on, at most `fuel` further ones, or the index of the descriptor that check 3 of
Table 7.4 refuses (R209). -/
def Dev.readList (p : Nat) (cap : Cap) : Nat → Nat → Dev → List (ChanCmd × Cap) → Except (Nat × Dev) (List (ChanCmd × Cap) × Dev)
  | 0, i, d, _ => .error (i, d)
  | k + 1, i, d, acc =>
    let a := cap.cursor.toNat + 32 * i
    if !cap.covers a 32 || (d.firstUnmapped p a 32).isSome then .error (i, d)
    else
      let (b, _, d) := d.devRead p a 32
      let (buf, d) := d.devCap p (a + 16)
      let (c, buf, ok) := descriptorOf b buf
      if !ok then .error (i, d)
      else if bitOf c.dflags 0 then .ok (acc ++ [(c, buf)], d)
      else Dev.readList p cap k (i + 1) d (acc ++ [(c, buf)])

/-- The index of the first data command whose buffer fails check 4 of Table 7.4. -/
def Dev.badBuffer (d : Dev) (p : Nat) (l : List (ChanCmd × Cap)) : Option Nat :=
  l.findIdx? fun (c, buf) => decide (c.dir ≠ 0) && !d.bufOk p buf c.count (if c.dir = 1 then permLD else permST)

/-- The claimed number of an endpoint (R203). -/
def Dev.claimedNum (d : Dev) (e : Nat) : Nat := max (Table.get 0 d.chan.claimed e) (d.rd R.ep_LAST_OPNUM e)

/-- One more operation of the endpoint stays within R206. -/
def Dev.opsFit (d : Dev) (e : Nat) : Bool :=
  let l := d.chan.ops.filter fun o => decide (o.ep = e)
  match (l.filter (·.isOpen)).map (·.opnum) with
  | [] => true
  | x :: t => decide ((l.filter fun o => decide (t.foldl min x ≤ o.opnum)).length < 256)

/-- The completion ring takes one more entry (R239). -/
def Dev.cqTakes (d : Dev) (e : Nat) : Bool :=
  decide ((d.postedOf e).length + (d.chan.ops.filter fun o => decide (o.ep = e) && !o.posted && decide (o.st ≠ .released)).length <
    d.rd R.ep_CQ_ENTRIES e)

/-- Checks 5 to 10 of Table 7.4. -/
def Dev.chstChecks (d : Dev) (p e opnum : Nat) : Nat :=
  firstReason [
    refuse (decide (d.claimedNum e < opnum)) 0x0106,
    refuse (d.opsFit e) 0x030A,
    refuse (decide (d.rd R.ep_CQ_ENTRIES e ≠ 0) && d.ringMapped p (d.rd R.ep_CQ_BASE e) (32 * d.rd R.ep_CQ_ENTRIES e)) 0x020D,
    refuse (d.cqTakes e) 0x0309,
    refuse (d.choosePath p e).isSome 0x020B,
    refuse (d.roomForOpst p) 0x0305]

/-- The operation started: its number is claimed and its OPST record written (R203, Table 7.9). -/
def Dev.startOp (d : Dev) (p e opnum list : Nat) (cmds : List ChanCmd) : Dev :=
  let i := (d.choosePath p e).getD 0
  let o : ChanOp := {
    pav := p, gen := d.rd R.pav_GENERATION p, ep := e, opnum := opnum, cmds := cmds, list := list, path := i, code := d.pathCode e i }
  let d := d.onChan fun c => { c with ops := c.ops ++ [o], claimed := Table.set 0 c.claimed e opnum }
  (d.append p (.opst opnum e i (codeTwin (d.pathCode e i)) cmds.length d.time) false).bump R.ep_STARTED e

/-- CHST's checks and its effect, once its capability has passed. -/
def chstSubmit (o : OpDev) (c p : Nat) (d : Dev) : Submission :=
  let x := d.core c
  let e := (x.gr o.ra).toNat % 4096
  let opnum := (x.gr o.rb).toNat
  let cap := x.cr o.cx.toNat
  if d.epOwner e ≠ some p ∨ d.removing.contains (p, .endpoint e) then (0x0401, 0, d)
  else if d.rd R.ep_STATE e ≠ 2 then (0x020A, 0, d)
  else
    match Dev.readList p cap 64 0 d [] with
    | .error (i, d) => (0x0107, i, d)
    | .ok (l, d) =>
      match d.badBuffer p l with
      | some i => (0x0108, i, d)
      | none =>
        let r := d.chstChecks p e opnum
        if r ≠ 0 then (r, 0, d) else (0, 0, d.startOp p e opnum cap.cursor.toNat (l.map (·.1)))

/-- CHST's body (R208, R210). -/
def chstBody (o : OpDev) : Body := fun c p d =>
  let x := d.core c
  let cap := x.cr o.cx.toNat
  match d.access p cap cap.cursor.toNat 32 (permLD ||| permLDC ||| permDEV) 32 with
  | .error t => .error t
  | .ok _ =>
    let (reason, detail, d) := chstSubmit o c p (d.drainAll c p)
    .ok { d := d.onCore c (·.submitted o.rd reason detail) }

/-- CHST (R208 to R211). -/
def execChst (o : OpDev) (s : State) : Host.Outcome State Fault Refusal := s.exchange o.core (.chst o) (chstBody o)

/-- A message of the operation has come, or its wait for one begins: ENDPOINT_TIMEOUT and its fourth part run from now (R229, R230,
R244). -/
def ChanOp.heard (o : ChanOp) (t limit : Nat) : ChanOp := { o with msgDue := t + limit, queryDue := t + limit / 4, queried := false }

/-- The completion of an operation whose OPDN record is complete is posted and RELEASE sent (R213, R236, Table 7.9). -/
def Dev.completeOp (d : Dev) (op : ChanOp) : Dev :=
  let d := d.postOp op
  let d := if op.live && d.opUsable op then d.queueData op [.release] else d
  d.setOp { op with posted := true, live := false }

/-! ## CHCTL (R232 to R238) -/

/-- The states in which CHCTL reaches an operation (R232). -/
def ChanOp.reachable (o : ChanOp) : Bool :=
  match o.st with
  | .opening | .running | .moving | .halting => true
  | _ => false

/-- STOP or HALT of one operation, with its SCOPE. STOP of one operation in HALTING adds nothing; in OPENING each waits for START
(R233). -/
def Dev.stopOp (d : Dev) (o : ChanOp) (code scope : Nat) : Dev :=
  let n := o.addCtl code scope false
  match o.st with
  | .opening => d.setOp n
  | .running | .moving => if code = 2 then d.startHalting n else d.sendCtl n
  | .halting => if scope = 1 then d.sendCtl n else d
  | _ => d

/-- CHCTL.STOP and CHCTL.HALT. -/
def stopSubmit (o : OpDev) (code : Nat) (c p : Nat) (d : Dev) : Submission :=
  let x := d.core c
  let e := (x.gr o.ra).toNat % 4096
  if d.epOwner e ≠ some p then (0x0401, 0, d)
  else match d.findOp e (x.gr o.rb).toNat with
    | some op => if op.reachable then (0, 0, d.stopOp op code 0) else (0x020C, 0, d)
    | none => (0x020C, 0, d)

/-- CHCTL.STOPALL and CHCTL.HALTALL: every open operation of the pavilion at the endpoint. -/
def stopAllSubmit (o : OpDev) (code : Nat) (c p : Nat) (d : Dev) : Submission :=
  let e := ((d.core c).gr o.ra).toNat % 4096
  if d.epOwner e ≠ some p then (0x0401, 0, d)
  else
    let l := d.chan.ops.filter fun op => decide (op.ep = e) && op.reachable
    (0, 0, l.foldl (fun d op => d.stopOp (d.again op) code 1) d)

/-- Completions of a pavilion whose OPDN records are complete posted in the order of the records, up to the one that `last` names
(R237). -/
def Dev.postRing (d : Dev) (p : Nat) (last : RecBody → Bool) : Dev :=
  let l := (d.hring p).recs
  let n := (l.takeWhile fun y => !last y.body).length
  (l.take (n + 1)).foldl (fun d y => match y.body with
    | .opdn k e .. =>
      match d.findOp e k with
      | some op => if y.complete && decide (op.pav = p) && decide (op.st = .done) && !op.posted then d.completeOp op else d
      | none => d
    | _ => d) d

/-- CHCTL.RELEASE: posted completions up to L are released, and MARK CONSUMED is written before the answer. The OPDN records that the
MARK follows are complete and their completions posted by then, so that its range covers none that it does not release (R238). -/
def releaseSubmit (o : OpDev) (c p : Nat) (d : Dev) : Submission :=
  let x := d.core c
  let e := (x.gr o.ra).toNat % 4096
  let l := (x.gr o.rb).toNat
  if d.epOwner e ≠ some p then (0x0401, 0, d)
  else
    let posted := d.postedOf e
    if !(posted.any fun y => !y.2 && decide (y.1 ≤ l)) then (0, 0, d)
    else
      let d := (d.syncRing p).postRing p fun _ => false
      let posted := d.postedOf e
      let ks := (posted.filter fun y => !y.2 && decide (y.1 ≤ l)).map (·.1)
      let y := ks.headD 0
      let t := ks.tail
      let d := d.appendMark p (.markConsumed e (t.foldl min y) (t.foldl max y))
      let d := (d.syncRing p).advanceTail p
      let d := d.setPosted e (posted.map fun z => (z.1, z.2 || decide (z.1 ≤ l)))
      let d := (y :: t).foldl (fun d k => match d.findOp e k with
        | some op => d.setOp { op with st := .released }
        | none => d) d
      (0, 0, d.pruneOps e)

/-- CHCTL's body. -/
def chctlBody (o : OpDev) (f : Nat → Nat → Dev → Submission) : Body := controlBody o f

/-- CHCTL.STOP (R232 to R234). -/
def execChctlStop (o : OpDev) (s : State) : Host.Outcome State Fault Refusal :=
  s.exchange o.core (.chctlStop o) (chctlBody o (stopSubmit o 1))
/-- CHCTL.HALT (R232 to R234). -/
def execChctlHalt (o : OpDev) (s : State) : Host.Outcome State Fault Refusal :=
  s.exchange o.core (.chctlHalt o) (chctlBody o (stopSubmit o 2))
/-- CHCTL.STOPALL (R232, R233). -/
def execChctlStopall (o : OpDev) (s : State) : Host.Outcome State Fault Refusal :=
  s.exchange o.core (.chctlStopall o) (chctlBody o (stopAllSubmit o 1))
/-- CHCTL.HALTALL (R232, R233). -/
def execChctlHaltall (o : OpDev) (s : State) : Host.Outcome State Fault Refusal :=
  s.exchange o.core (.chctlHaltall o) (chctlBody o (stopAllSubmit o 2))
/-- CHCTL.RELEASE (R238). -/
def execChctlRelease (o : OpDev) (s : State) : Host.Outcome State Fault Refusal :=
  s.exchange o.core (.chctlRelease o) (chctlBody o (releaseSubmit o))

/-! ## Records of operations -/

/-- OPST_COMPLETE (R203, Table 7.9): LAST_OPNUM is set and START leaves, with the list's messages after it. -/
def execOpstComplete (o : OpOpnumT) (s : State) : Host.Outcome State Fault Refusal :=
  s.act fun d =>
    let d := d.at o.t
    let e := o.ep.val
    match d.findOp e o.opnum.toNat with
    | none => d
    | some op =>
      if op.st ≠ .opening then d
      else
        let d := d.completeRec op.pav fun | .opst n x .. => decide (n = op.opnum) && decide (x = e) | _ => false
        let d := d.wr R.ep_LAST_OPNUM op.opnum e
        let d := { d with hearth := { d.hearth with starter := Table.set 0 d.hearth.starter e (1 + op.pav * 2 ^ 32 + op.gen) } }
        let op := ChanOp.heard { op with st := .running } d.time (d.epTimeout e)
        let d := match d.pathIndex op with
          | some i =>
            let d := (d.setOp op).sendFirst op i (.start false)
            d.queueData (d.again op) (opMsgs op.cmds)
          | none => d.enterMoving op
        let op := d.again op
        if op.ctl.any fun x => decide (x.code = 2) then d.startHalting op else d

/-- OPDN_COMPLETE (R146, R213, R236, R237). What start-up finds or settles is posted at its step 11 (R22). -/
def execOpdnComplete (o : OpOpnumT) (s : State) : Host.Outcome State Fault Refusal :=
  s.act fun d =>
    let d := d.at o.t
    match d.findOp o.ep.val o.opnum.toNat with
    | none => d
    | some op =>
      if op.st ≠ .done ∨ op.posted ∨ ¬ d.plat.presented then d
      else (d.completeRec op.pav (RecBody.isOpdn op.ep op.opnum)).postRing op.pav (RecBody.isOpdn op.ep op.opnum)

/-! ## The endpoint's messages -/

/-- A message that the link layer has passed up is taken: the earliest of its link, of the type named, for an operation that
its OPTAG names on a path of the link (R213, R615). -/
def Dev.takeMsg (d : Dev) (o : RxOp) (mtype : Nat) (f : Dev → ChanOp → Dev) : Dev :=
  let d := d.at o.t
  let n := o.link.val
  let x := d.link n
  match x.passed with
  | [] => d
  | b :: t =>
    if b ≠ o.payload ∨ fieldLE b 0 1 ≠ mtype then d
    else
      let d := d.setLink n { x with passed := t }
      let d := match d.opOfTag n (fieldLE b 2 2) with
        | none => d.bump R.link_STRAY_MESSAGES n
        | some op => if op.isOpen then f d (op.heard d.time (d.epTimeout op.ep)) else d
      d.passFront n

/-- OPENED (R220, R228, R242): an operation in MOVING runs again from RX_NEXT; one in QUERYING is halted. -/
def execOpened (o : RxOp) (s : State) : Host.Outcome State Fault Refusal :=
  s.act fun d => d.takeMsg o 0x81 fun d op =>
    let next := fieldLE o.payload 16 4
    match op.st with
    | .moving =>
      let l := opMsgs op.cmds
      if l.length < next then d.protocolError op
      else
        let op := { op with st := .running }
        (d.setOp op).queueData op (l.drop next)
    | .querying => d.enterHalting op 0 true
    | _ => d.setOp op

/-- The operation acts on a FINAL that has come on link `n` (R216, R226, R230, R241): it is held while an RDATA below MSEQ_END is
missing that another link of the path may still carry. -/
def Dev.takeFinal (d : Dev) (n : Nat) (op : ChanOp) (b : Bytes) : Dev :=
  let status := fieldLE b 32 2
  let ends := fieldLE b 44 4
  let on := if op.heldOn.contains n then op.heldOn else op.heldOn ++ [n]
  if status > 7 ∨ (b.drop 16).take 16 ≠ (d.identity op).take 1 ++ (b.drop 17).take 1 ++ (d.identity op).drop 2 then d.protocolError op
  else if !op.replay && decide (op.rxNext < ends) && (d.opLinks op).any (fun k => !on.contains k) then
    d.setOp { op with held := some b, heldOn := on }
  else if !op.replay && decide (op.rxNext ≠ ends) then d.protocolError op
  else
    let dup := bitOf (fieldLE b 41 1) 0
    let d := if dup then d.bump R.ep_DUPLICATE_FINALS op.ep else d
    d.finishOp op (op.recorded.getD status) (fieldLE b 34 2) (fieldLE b 36 4) (fieldLE b 40 1) dup

/-- FINAL (R216, R241, R242). -/
def execFinal (o : RxOp) (s : State) : Host.Outcome State Fault Refusal :=
  s.act fun d => d.takeMsg o 0x83 fun d op => d.takeFinal o.link.val op o.payload

/-- RDATA (R211, R215, R216): data in order goes to the READ buffer; a FINAL held for it is then acted on. -/
def execRdata (o : RxOp) (s : State) : Host.Outcome State Fault Refusal :=
  s.act fun d => d.takeMsg o 0x82 fun d op =>
    let b := o.payload
    let q := fieldLE b 4 4
    let n := fieldLE b 10 2
    let off := fieldLE b 12 4
    if op.replay ∨ q < op.rxNext then d.setOp op
    else if op.rxNext < q then
      if codeTwin op.code then d.setOp op else d.protocolError op
    else
      match op.cmds[fieldLE b 8 1]? with
      | none => d.protocolError op
      | some c =>
        if c.dir ≠ 2 ∨ c.count < off + n then d.protocolError op
        else
          let d := d.devWrite op.pav (c.buf + off) ((b.drop 16).take n)
          let op := { op with rxNext := op.rxNext + 1, got := op.got + n }
          let d := d.setOp op
          match op.held with
          | some f => if fieldLE f 44 4 ≤ op.rxNext then d.takeFinal o.link.val op f else d
          | none => d

/-- CONTROL_REPLY (R235): the device ignores the endpoint's reply to a STOP or HALT. -/
def execControlReply (o : RxOp) (s : State) : Host.Outcome State Fault Refusal :=
  s.act fun d =>
    let d := d.at o.t
    d.onLink o.link.val fun x => { x with replies := x.replies.erase o.payload }

/-! ## Timers of operations -/

/-- A timer of one operation that has run out. -/
def Dev.opTimer (d : Dev) (o : OpOpnumT) (due : Dev → ChanOp → Bool) (f : Dev → ChanOp → Dev) : Dev :=
  let d := d.at o.t
  match d.findOp o.ep.val o.opnum.toNat with
  | some op => if due d op then f d op else d
  | none => d

/-- QUERY_TIMER (R229): a QUERY under the operation's OPTAG, once for each silence. -/
def execQueryTimer (o : OpOpnumT) (s : State) : Host.Outcome State Fault Refusal :=
  s.act fun d => d.opTimer o
    (fun d op => decide (op.st = .running) && !op.queried && op.live && decide (op.queryDue ≤ d.time))
    fun d op =>
      let op := { op with queried := true }
      ((d.setOp op).queueData op [.query]).bump R.ep_QUERIES op.ep

/-- OPERATION_TIMEOUT (R230): a RUNNING operation with no message for ENDPOINT_TIMEOUT enters HALTING. -/
def execOperationTimeout (o : OpOpnumT) (s : State) : Host.Outcome State Fault Refusal :=
  s.act fun d => d.opTimer o (fun d op => decide (op.st = .running) && decide (op.msgDue ≤ d.time))
    fun d op => (d.bump R.ep_HALTS op.ep).enterHalting op 0 true

/-- MOVING_TIMEOUT (R231): a FINAL received, though it is held, has stopped the time. -/
def execMovingTimeout (o : OpOpnumT) (s : State) : Host.Outcome State Fault Refusal :=
  s.act fun d => d.opTimer o (fun d op => decide (op.st = .moving) && op.held.isNone && decide (op.due ≤ d.time))
    fun d op => d.endUnknown op

/-- HALTING_TIMEOUT (R228, R231). -/
def execHaltingTimeout (o : OpOpnumT) (s : State) : Host.Outcome State Fault Refusal :=
  s.act fun d => d.opTimer o (fun d op => decide (op.st = .halting) && decide (op.due ≤ d.time))
    fun d op => d.endUnknown op

/-- QUERYING_TIMEOUT (R242, R580): no answer within ENDPOINT_TIMEOUT of the end of step 9. -/
def execQueryingTimeout (o : OpOpnumT) (s : State) : Host.Outcome State Fault Refusal :=
  s.act fun d => d.opTimer o (fun d op => decide (op.st = .querying) && decide (op.due ≤ d.time))
    fun d op => d.endUnknown op

end Sys2Proof.Machine
end

