-- ==== Sys2Proof/Machine/Admit.lean ====
section
/-! DEFINITION. Machine/Admit.lean: service classes, the window, the time budget, the checks of admission and the power they
reserve (R97, R118 to R128, R479). -/

namespace Sys2Proof.Machine

/-! ## Service class descriptors (Table 3.8) -/

/-- DEADLINE. -/
def cdDeadline (b : Bytes) : Nat := fieldLE b 0 4
/-- RATE. -/
def cdRate (b : Bytes) : Nat := fieldLE b 4 4
/-- MAX_REQUEST. -/
def cdMaxRequest (b : Bytes) : Nat := fieldLE b 8 2
/-- MAX_DELIVER. -/
def cdMaxDeliver (b : Bytes) : Nat := fieldLE b 10 2
/-- BEATS. -/
def cdBeats (b : Bytes) : Nat := fieldLE b 12 4
/-- CORES. -/
def cdCores (b : Bytes) : Nat := fieldLE b 16 2
/-- CHANNEL_OPS. -/
def cdChannelOps (b : Bytes) : Nat := fieldLE b 18 2
/-- CHANNEL_BYTES. -/
def cdChannelBytes (b : Bytes) : Nat := fieldLE b 20 4
/-- CIPHER_BYTES. -/
def cdCipher (b : Bytes) : Nat := fieldLE b 24 4
/-- COMPRESS_BYTES. -/
def cdCompress (b : Bytes) : Nat := fieldLE b 28 4
/-- HEARTH_BYTES. -/
def cdHearth (b : Bytes) : Nat := fieldLE b 32 4
/-- FLAGS [0]: a deadline class. -/
def cdTimed (b : Bytes) : Bool := bitOf (fieldLE b 36 2) 0
/-- A session with a data stream (Table 3.7). -/
def cdData (b : Bytes) : Bool := b.any (· ≠ 0)

/-- WINDOW (R97): a class with no deadline counts as 1 ms. -/
def cdWindow (b : Bytes) : Nat :=
  min 1024 (max 1 (ceilDiv (cdRate b * (if cdTimed b then cdDeadline b else 1000000)) 1000000000))

/-- The admitted deadline classes of a pavilion: they stay reserved until their sessions are CLOSED (R128). -/
def Dev.classesOf (d : Dev) (p : Nat) : List Bytes :=
  ((d.net.sessions.filter fun s => decide (s.pav = p)).map (·.desc)).filter cdTimed

/-! ## What a pavilion brings -/

/-- The cores that check 3 of Table 4.2 counts: without lost cores (R468) and without the second twin of each pair (R479). -/
def Dev.countedCores (d : Dev) (cores : List Nat) : Nat :=
  (cores.filter fun c => decide ((d.core c).run ≠ .lost) && match (d.core c).twin with | some q => decide (c < q) | none => true).length

/-- T_EP, ns: the largest service time declared among a pavilion's endpoints (R123). -/
def Dev.tEp (d : Dev) (eps : List Nat) : Nat := (eps.map fun e => d.rd R.ep_SERVICE_TIME e * 1000).foldl max 0

/-- Some endpoint of the list has a twin pair among its paths (Table 4.4). -/
def Dev.anyTwinPath (d : Dev) (eps : List Nat) : Bool :=
  eps.any fun e => (List.range 8).any fun i => let c := d.pathCode e i; bitOf c 15 && codeTwin c

/-- The time budget of a class (Table 4.3), each term rounded up. -/
def timeBudget (b : Bytes) (tEp : Nat) (sparing : Bool) : Nat :=
  (if cdMaxRequest b ≤ 4096 then 800 else 950) + 300 +
  ceilDiv (ceilDiv (cdWindow b) (max 1 (cdCores b)) * cdBeats b) 2 +
  ceilDiv (4 * (cdCipher b + cdCompress b)) 25 +
  (cdChannelOps b * (1000 + tEp) + ceilDiv (cdChannelBytes b) 3) +
  ceilDiv (cdHearth b) 64 + 500 + (if sparing then 60000 else 0)

/-! ## Demand and capacity (Table 4.4), in bytes per second; capacities are 256 times the share's -/

/-- RATE times a demand per request, summed. -/
def demand (l : List Bytes) (f : Bytes → Nat) : Nat := (l.map fun b => cdRate b * f b).sum

/-- Demand fits engine share `s` at a folly-round density, which above 4 multiplies the cipher demand by 1,024 / B (R495). -/
def engineFits (l : List Bytes) (s density : Nat) : Bool :=
  decide (256 * 1024 * demand l (fun b => cdMaxRequest b + cdMaxDeliver b + 256 + cdCipher b) ≤
      s * 300000000000 * chunkBytes density) &&
    decide (256 * demand l cdCompress ≤ s * 200000000000)

/-- Demand fits link share `s`. -/
def linkFits (l : List Bytes) (s : Nat) (twin : Bool) : Bool :=
  decide (demand l (fun b => cdChannelBytes b * 264 * (if twin then 2 else 1)) ≤ s * 300000000000)

/-- Demand fits hearth share `s`. -/
def hearthFits (l : List Bytes) (s : Nat) : Bool :=
  decide (256 * demand l (fun b => cdMaxRequest b + 64 + 128 * cdChannelOps b + cdHearth b) ≤ s * 128000000000)

/-- Demand fits host-port share `s`, in and out. -/
def portFits (l : List Bytes) (s : Nat) : Bool :=
  decide (256 * demand l (fun b => cdMaxRequest b + 256) ≤ s * 50000000000) &&
    decide (256 * demand l (fun b => cdMaxDeliver b + 256) ≤ s * 50000000000)

/-! ## Power (R125) -/

/-- The clusters that hold a core of a pavilion with an admitted deadline class, `extra` being counted as one with a class. -/
def Dev.deadlineClusters (d : Dev) (extra : Option Nat := none) : Nat :=
  let cores := (List.range 64).flatMap fun p =>
    if d.pavExists p && (!(d.classesOf p).isEmpty || decide (extra = some p)) then d.pavCores p else []
  bitmap 16 fun k => cores.any fun c => decide (clusterOf c = k)

/-- P_ADMIT, W, for a set of deadline clusters (R125). -/
def Dev.pAdmit (d : Dev) (clusters : Nat) : Nat :=
  let fixed := if Config.is288 then 2030 else 1590
  let l := bitList 16 clusters
  ceilDiv ((fixed + (l.map fun k => elem 2 (d.rd R.pow_FLOOR_POWER) k).sum + 20 * (16 - l.length)) * 10) 91

/-! ## Admission (R121) -/

/-- TB_COAST and PACE_DEFICIT of PACE_FLAGS. -/
def Dev.coasting (d : Dev) : Bool := d.plat.coast

/-- Check 3 of Table 4.2 for the classes of a pavilion that counts `n` cores. -/
def coresFit (l : List Bytes) (n : Nat) : Bool := decide ((l.map cdCores).sum ≤ n)

/-- A class's own beat demand at ADMIT_CEILING. -/
def beatsFit (b : Bytes) (ceiling : Nat) : Bool :=
  decide (cdRate b * cdBeats b * 100 ≤ cdCores b * 2000000000 * ceiling)

/-- The checks of Table 4.2 in order, for a new class of pavilion `p`. -/
def Dev.admitReason (d : Dev) (p : Nat) (b : Bytes) : Nat :=
  let l := d.classesOf p ++ [b]
  let eps := bitList 4096 (d.rd R.pav_ENDPOINTS p)
  let share := fun i => elem 1 (d.rd R.pav_SHARES p) i
  firstReason [
    refuse (!d.plat.coast) 0x0502,
    refuse (!d.plat.deficit) 0x0504,
    refuse (decide (1 ≤ cdCores b) && coresFit l (d.countedCores (d.pavCores p)) && beatsFit b (d.rd R.pow_ADMIT_CEILING)) 0x0501,
    refuse (decide (timeBudget b (d.tEp eps) (decide (d.rd R.pav_SPARING p = 1)) ≤ cdDeadline b)) 0x0506,
    refuse (engineFits l (share 3) (d.rd R.cip_DENSITY 0 p)) 0x0507,
    refuse (linkFits l (share 5) (d.anyTwinPath eps)) 0x0508,
    refuse (hearthFits l (share 4)) 0x0509,
    refuse (portFits l (share 6)) 0x050A,
    refuse (decide (d.pAdmit (d.deadlineClusters (some p)) ≤ d.rd R.pow_POWER_CAP)) 0x0503]

end Sys2Proof.Machine
end

