-- ==== Sys2Proof/Machine/Pace.lean ====
section
/-! DEFINITION. Machine/Pace.lean: the pace monitor, the governor, the pace deficit, and the admitting OPEN_REPLYs that wait for the
governor (R41, R127, R129 to R135). -/

namespace Sys2Proof.Machine

/-- The platform changed by `f`. -/
def Dev.onPlat (d : Dev) (f : Plat → Plat) : Dev := { d with plat := f d.plat }

/-- Every request open at this moment is marked: the timebase coasts (R135), or a pace deficit is raised (R138). -/
def Dev.markOpen (d : Dev) (f : HostReq → HostReq) : Dev :=
  { d with net := { d.net with sessions := d.net.sessions.map fun s => { s with reqs := s.reqs.map f } } }

/-- A request accepted and not yet delivered, marked UNVERIFIED (R135). -/
def HostReq.coasted (r : HostReq) : HostReq := if r.accepted && r.sent.isNone then { r with unverified := true } else r

/-- A request accepted and not yet transmitted, marked as open in a deficit (R138). -/
def HostReq.starved (r : HostReq) : HostReq := if r.accepted && r.sent.isNone then { r with inDeficit := true } else r

/-- Doorbell 0x01FFD in each pavilion that `f` holds for (R134, R135). -/
def Dev.ringPace (d : Dev) (f : Nat → Bool) : Dev :=
  (List.range 64).foldl (fun d p => if d.pavExists p && f p then d.ring p 0x1FFD else d) d

/-- Deadline clusters with 4 consecutive samples below floor (R133). -/
def Dev.lowClusters (d : Dev) : Nat :=
  bitmap 16 fun c => bitOf d.deadlineClusters c && decide (4 ≤ Table.get 0 d.plat.low c)

/-- Each pavilion with a core in each cluster in deficit (R134). -/
def Dev.starving (d : Dev) : List (Nat × Nat) :=
  let low := bitList 16 d.lowClusters
  (List.range 64).flatMap fun p => (low.filter fun c => d.pavExists p && (d.pavCores p).any fun k => decide (clusterOf k = c)).map
    fun c => (p, c)

/-- PACE_DEFICIT is raised, counted and alerted (R133, R134). -/
def Dev.raiseDeficit (d : Dev) : Dev :=
  let d := (d.onPlat fun x => { x with deficit := true }).bump R.pow_DEFICIT_EVENTS
  (d.markOpen (·.starved)).alert 0x1100 0x07 0xFF d.lowClusters

/-- The rules of the deficit, applied after each sample and each change of the deadline clusters (R133, R134). -/
def Dev.deficitRules (d : Dev) : Dev :=
  let d :=
    if d.lowClusters ≠ 0 then (if d.plat.deficit then d else d.raiseDeficit)
    else if d.plat.deficit && (bitList 16 d.deadlineClusters).all fun k => decide (1000 ≤ Table.get 0 d.plat.clean k) then
      d.onPlat fun x => { x with deficit := false }
    else d
  let now := if d.plat.deficit then d.starving else []
  let fresh := (now.filter fun e => !d.plat.paceRung.contains e).map (·.1)
  (d.ringPace fun p => fresh.contains p).onPlat fun x => { x with paceRung := now }

/-- PACE_SAMPLE (R129, R133, R134): the sample of a cluster that ends at a whole microsecond. The effective pace is rounded down to
whole beats/µs. A sample that spans a forward step of the timebase is discarded (R570), and the run of samples goes on after it; a
sample that does not follow the one before starts a new run (notes/assumptions/29). -/
def execPaceSample (o : OpPace) (s : State) : Host.Outcome State Fault Refusal :=
  s.act fun d =>
    let d := d.at o.t
    let c := o.cluster.val
    let last := Table.get 0 d.plat.sampleAt c
    if o.t % 1000 ≠ 0 ∨ d.plat.step < 5 ∨ (last ≠ 0 ∧ o.t ≤ last) ∨ (d.plat.ptpStepAt ≠ 0 ∧ d.time < d.plat.ptpStepAt + 1000) then d
    else
      let pace := min (min o.r0 o.r1) (min o.r2 o.r3)
      let eff := pace * d.rd R.clu_ISSUE_FRACTION c / 100
      let d := d.wr R.clu_PACE_MEASURED (min pace 65535) c
      let d := d.wr R.clu_PACE_MIN (min (d.rd R.clu_PACE_MIN c) eff) c
      let below := decide (eff < 2000)
      let d := if below then d.bump R.clu_BELOW_FLOOR c else d
      let follows := decide (o.t = last + 1000) || decide (last < d.plat.ptpStepAt)
      let run := fun (t : Table Nat) => if follows then Table.get 0 t c else 0
      let d := d.onPlat fun x => { x with
        sampleAt := Table.set 0 x.sampleAt c o.t
        paceLog := Table.set [] x.paceLog c ((eff :: Table.get [] x.paceLog c).take 1000)
        low := Table.set 0 x.low c (if below then run x.low + 1 else 0)
        clean := Table.set 0 x.clean c (if below then 0 else min 1000 (run x.clean + 1)) }
      d.deficitRules

/-- PACE_REPORT (R129): PACE of each cluster, every 1 ms, averaged over its latest 1,000 samples, or over as many as there are, and
rounded down to whole beats/µs (notes/assumptions/29). -/
def execPaceReport (o : OpT0) (s : State) : Host.Outcome State Fault Refusal :=
  s.act fun d =>
    let d := d.at o.t
    if d.plat.reportAt ≠ 0 ∧ d.time < d.plat.reportAt + 1000000 then d
    else
      let d := (List.range 16).foldl (fun d c =>
        let l := Table.get [] d.plat.paceLog c
        if l.isEmpty then d else d.wr R.pow_PACE (withElem 2 (d.rd R.pow_PACE) c (min 65535 (l.sum / l.length)))) d
      d.onPlat fun x => { x with reportAt := d.time }

/-- VCORE of a cluster, mV. -/
def Dev.vcore (d : Dev) (c : Nat) : Nat := elem 2 (d.rd R.pow_VCORE) c

/-- A VCORE within 0.60 V to 0.90 V in steps of 10 mV, not below `mv` unless that is above the range (R130, Table 21.2). -/
def vgrid (mv : Nat) : Nat := min 900 (max 600 (10 * ceilDiv mv 10))

/-- The least VCORE a deadline cluster is held at: 0.68 V, and while the timebase coasts the higher of 0.80 V and its VCORE
when the coasting began (R131, R135). -/
def Dev.vfloor (d : Dev) (c : Nat) : Nat :=
  if d.plat.coast then max 800 (max 680 (Table.get 0 d.plat.coastMv c)) else 680

/-- The least VCORE, in mV, at which a cluster's measured pace is at least `want`; 900 where none is. -/
def leastMv (pace : List Nat) (want : Nat) : Nat :=
  match (List.range 31).find? fun k => decide (want ≤ pace.getD k 0) with
  | some k => 600 + 10 * k
  | none => 900

/-- The cap that the governor keeps the input within: 350 W until the restored POWER_CAP applies at step 9 (R132, R582). -/
def Dev.capNow (d : Dev) : Nat := if d.plat.step < 9 then 350 else d.rd R.pow_POWER_CAP

/-- The first step of R132 that brings the input within the cap, 0 where none is needed; with none that does, the last. -/
def Dev.relief (d : Dev) (draw : List Nat) : Nat :=
  ((List.range 5).find? fun k => decide (draw.getD k 0 ≤ d.capNow)).getD 4

/-- A cluster holds a core of a strict pavilion (R41). -/
def Dev.strictCluster (d : Dev) (c : Nat) : Bool :=
  (List.range 64).any fun p => d.pavExists p && d.strict p && (d.pavCores p).any fun k => decide (clusterOf k = c)

/-- The VCORE that R131 asks for in a cluster before the cap: a deadline cluster's for floor pace with GUARD; with a core of a
strict pavilion the demand admitted is none; otherwise the measured load's. -/
def Dev.wantedMv (d : Dev) (o : OpGovern) : Nat :=
  let c := o.cluster.val
  if bitOf d.deadlineClusters c then max (d.vfloor c) (leastMv o.pace (ceilDiv (2000 * (100 + d.rd R.pow_GUARD)) 100))
  else if d.strictCluster c then 600
  else vgrid o.loadMv

/-- The VCORE and the per cent of beats with issue of a cluster under step `k` of R132. -/
def Dev.governed (d : Dev) (o : OpGovern) (k : Nat) : Nat × Nat :=
  let want := d.wantedMv o
  let pct := if d.capNow < o.draw.getD k 0 then 0 else min 100 o.pct
  if bitOf d.deadlineClusters o.cluster.val then
    let least := min want (max 680 (leastMv o.pace 2000))
    (if k < 3 then want else if k = 3 then max least (min want o.partMv) else least, if k = 4 then pct else 100)
  else
    (if k = 0 then want else if k = 1 then max 600 (min want o.partMv) else 600, if k < 2 then 100 else if k = 2 then pct else 0)

/-- The governor has set every cluster of a pavilion's cores to meet the demand of its deadline classes (R127). -/
def Dev.demandMet (d : Dev) (p : Nat) : Bool :=
  (d.pavCores p).all fun c => let k := clusterOf c
    d.plat.govTimed.contains k && decide (Table.get 0 d.plat.vtarget k ≤ d.vcore k)

/-- The OPEN_REPLYs whose clusters the governor has set leave, and DEAD_TIME of their sessions begins (R84, R127). -/
def Dev.releaseOpens (d : Dev) : Dev :=
  let go := d.net.openWait.filter fun w => d.demandMet w.pav
  let due := d.time + d.rd R.amn_DEAD_TIME * 1000
  { d with net := { d.net with
    openWait := d.net.openWait.filter fun w => !d.demandMet w.pav
    out := (go.map fun w => Out.msg w.tx).reverse ++ d.net.out
    sessions := d.net.sessions.map fun s => if go.any (fun w => decide (w.session = s.id)) then { s with deadDue := due } else s } }

/-- GOVERNOR_EVALUATION (R41, R131, R132, R135, R139): the VCORE a cluster is to reach and the part of its beats in which cores
issue. INPUT_POWER is the mean of what the evaluations of the last 1 ms found (notes/assumptions/29). -/
def execGovernorEvaluation (o : OpGovern) (s : State) : Host.Outcome State Fault Refusal :=
  s.act fun d =>
    let d := d.at o.t
    let c := o.cluster.val
    let last := Table.get 0 d.plat.govAt c
    if d.plat.step < 5 ∨ (last ≠ 0 ∧ d.time < last + 10000) then d
    else
      let k := d.relief o.draw
      let (mv, fraction) := d.governed o k
      let power := (d.time, o.draw.getD k 0) :: d.plat.power.filter fun e => decide (d.time < e.1 + 1000000)
      let timed := bitOf d.deadlineClusters c
      let d := (d.wr R.pow_INPUT_POWER (min 65535 ((power.map (·.2)).sum / power.length))).wr R.clu_ISSUE_FRACTION fraction c
      let d := d.onPlat fun x => { x with
        govAt := Table.set 0 x.govAt c d.time
        vtarget := Table.set 0 x.vtarget c (vgrid mv)
        power := power
        govTimed := if timed then c :: x.govTimed.filter (· ≠ c) else x.govTimed.filter (· ≠ c)
        limited := if k = 0 then x.limited.filter (· ≠ c) else if x.limited.contains c then x.limited else x.limited ++ [c] }
      d.releaseOpens

/-- VCORE_STEP (R130): one step of 10 mV toward the VCORE the governor asks for, at most one per µs. -/
def execVcoreStep (o : OpVcore) (s : State) : Host.Outcome State Fault Refusal :=
  s.act fun d =>
    let d := d.at o.t
    let c := o.cluster.val
    let v := d.vcore c
    let target := Table.get 0 d.plat.vtarget c
    let last := Table.get 0 d.plat.vstepAt c
    let wanted := if o.up then decide (v < target) else decide (target < v)
    if !wanted || decide (target = 0) || (decide (last ≠ 0) && decide (d.time < last + 1000)) then d
    else
      let d := d.wr R.pow_VCORE (withElem 2 (d.rd R.pow_VCORE) c (if o.up then v + 10 else v - 10))
      (d.onPlat fun x => { x with vstepAt := Table.set 0 x.vstepAt c d.time }).releaseOpens

end Sys2Proof.Machine
end

