-- ==== Sys2Proof/Machine/Net.lean ====
section
/-! DEFINITION. Machine/Net.lean: the host ports and the sending side of the Amnor transport: addresses, the message format,
sessions and their keys, counters, the two streams' answers, credit and the changes of session state (R62 to R89, R94, R96,
R104, R107, R112, R114, R137, R138, R147). -/

namespace Sys2Proof.Machine

/-- The host ports and sessions changed by `f`. -/
def Dev.onNet (d : Dev) (f : HostNet → HostNet) : Dev := { d with net := f d.net }

/-! ## Addresses and ports -/

/-- One entry of HOST_ADDR (R65). -/
structure HostAddr where
  ip : Nat
  vlan : Nat
  valid : Bool
  v6 : Bool
  tagged : Bool
deriving DecidableEq, Repr

/-- An entry of HOST_ADDR from its 20 bytes: the address in network byte order, U16 VLAN, U16 flags (R65). -/
def HostAddr.ofBytes (b : Bytes) : HostAddr :=
  let f := fieldLE b 18 2
  { ip := fieldBE b 0 16, vlan := fieldLE b 16 2, valid := bitOf f 0, v6 := bitOf f 1, tagged := bitOf f 2 }

/-- The eight entries of a HOST_ADDR value: 4 × port + entry. -/
def hostAddrs (v : Nat) : List HostAddr := (List.range 8).map fun k => HostAddr.ofBytes ((leBytes 160 v).drop (20 * k))

/-- Entry `slot` of pavilion `p` on a port. -/
def Dev.hostAddr (d : Dev) (p port slot : Nat) : HostAddr :=
  HostAddr.ofBytes ((leBytes 160 (d.rd R.pav_HOST_ADDR p)).drop (20 * (4 * port + slot)))

/-- The VID that frames sent from the entry carry (R62, R65). -/
def HostAddr.vid (a : HostAddr) : Nat := if a.tagged then a.vlan else 0

/-- A session of IP version `v6` may send and receive through the entry (R71). -/
def HostAddr.serves (a : HostAddr) (v6 : Bool) : Bool := a.valid && (a.v6 == v6)

/-- The entry takes a frame to address `ip` of version `v6` that carries `vid`, none when untagged (R65). -/
def HostAddr.takes (a : HostAddr) (ip : Nat) (v6 : Bool) (vid : Option Nat) : Bool :=
  a.valid && decide (a.ip = ip) && (a.v6 == v6) && (if a.tagged then decide (vid = some a.vlan) else decide (vid.getD 0 = 0))

/-- The pavilion and entry that own an address on a port (R67, item 2). -/
def Dev.addrOwner (d : Dev) (port ip : Nat) (v6 : Bool) (vid : Option Nat) : Option (Nat × Nat) :=
  ((List.range 64).flatMap fun p => (List.range 4).map fun k => (p, k)).find? fun e =>
    d.pavExists e.1 && (d.hostAddr e.1 port e.2).takes ip v6 vid

/-- A host port in LINK_STATUS 2. -/
def Dev.portUp (d : Dev) (n : Nat) : Bool := decide (d.rd R.port_LINK_STATUS n = 2)

/-- P of an MTU (R70). -/
def payloadMax (mtu : Nat) (v6 : Bool) : Nat := min 8192 (16 * ((mtu - (if v6 then 108 else 88)) / 16))

/-- The payload ceiling of a session opened now (R71). -/
def Dev.payloadCeiling (d : Dev) (v6 : Bool) : Nat :=
  min (payloadMax (d.rd R.port_MTU 0) v6) (payloadMax (d.rd R.port_MTU 1) v6)

/-! ## IP packets (R68) -/

/-- The ones' complement sum of 16-bit big-endian words, as the Internet checksum takes it (RFC 1071). -/
def sum16 : Bytes → Nat
  | [] => 0
  | [a] => a.toNat * 256
  | a :: b :: t => a.toNat * 256 + b.toNat + sum16 t

/-- The checksum field of bytes whose sum, with that field zero, is `s`. -/
def ckField (s : Nat) : Nat := if s ≠ 0 ∧ s % 65535 = 0 then 0 else 65535 - s % 65535

/-- The UDP datagram that carries a payload between two addresses, its checksum over the pseudo-header and itself; a checksum of zero
is sent as all ones (RFC 768). -/
def udpDatagram (v6 : Bool) (src dst sport dport : Nat) (payload : Bytes) : Bytes :=
  let n := payload.length + 8
  let k := if v6 then 16 else 4
  let head := beBytes 2 sport ++ beBytes 2 dport ++ beBytes 2 n
  let c := ckField (sum16 (beBytes k (src % 256 ^ k) ++ beBytes k (dst % 256 ^ k) ++ beBytes 4 n ++ beBytes 4 17 ++ head ++ [0, 0] ++ payload))
  head ++ beBytes 2 (if c = 0 then 65535 else c) ++ payload

/-- The IP packet around a UDP datagram: DF is set, DSCP and ECN are 0 (R68). The TTL, the identification and the flow label are the
device's (notes/assumptions/28). -/
def ipPacket (v6 : Bool) (src dst : Nat) (udp : Bytes) : Bytes :=
  if v6 then beBytes 4 (6 * 2 ^ 28 + Config.flowLabel.toNat) ++ beBytes 2 udp.length ++ [17, Config.ttl] ++ beBytes 16 src ++ beBytes 16 dst ++ udp
  else
    let head := [0x45, 0] ++ beBytes 2 (20 + udp.length) ++ beBytes 2 (Config.ipId udp).toNat ++ [0x40, 0, Config.ttl, 17]
    let ends := beBytes 4 (src % 2 ^ 32) ++ beBytes 4 (dst % 2 ^ 32)
    head ++ beBytes 2 (ckField (sum16 (head ++ ends))) ++ ends ++ udp

/-- A message to `dst` from entry `slot` of pavilion `p` on a port, in a frame of priority `pcp` (R62, R68, R69). It leaves from the UDP
port that it was sent to (notes/assumptions/28). -/
def Dev.txOf (d : Dev) (port p slot : Nat) (dst : HostSrc) (pcp : Nat) (b : Bytes) : Tx :=
  let a := d.hostAddr p port slot
  { port := port, tag := { pcp := pcp, vid := a.vid }, pav := p, slot := slot, dst := dst, bytes := b
    packet := ipPacket a.v6 a.ip dst.ip.toNat
      (udpDatagram a.v6 a.ip dst.ip.toNat (d.rd R.amn_UDP_PORT) dst.udp.toNat b) }

/-- A frame or message discarded and counted. -/
def Dev.rxDrop (d : Dev) (port : Nat) : Dev := d.bump R.port_RX_DROPPED port

/-! ## Message format (Tables 3.3 to 3.6) -/

/-- The FLAGS of Table 3.5. -/
def fENC : Nat := 1
/-- TWIN. -/
def fTWIN : Nat := 2
/-- RESEND. -/
def fRESEND : Nat := 4
/-- CTL. -/
def fCTL : Nat := 8
/-- REPLAYED. -/
def fREPLAYED : Nat := 16
/-- LATE. -/
def fLATE : Nat := 32
/-- UNVERIFIED. -/
def fUNVERIFIED : Nat := 64
/-- MORE. -/
def fMORE : Nat := 128

/-- Types that only the control stream carries (Table 3.6). -/
def ctlType (t : Nat) : Bool := [0x01, 0x02, 0x09, 0x0A, 0x0B, 0x0C, 0x0D].contains t
/-- Types that only the data stream carries. -/
def dataType (t : Nat) : Bool := [0x03, 0x04, 0x05, 0x06].contains t
/-- Types that a host sends. -/
def hostType (t : Nat) : Bool := [0x01, 0x03, 0x07, 0x08, 0x0A, 0x0B, 0x0C, 0x0D].contains t

/-- The header of Table 3.4. -/
def msgHeader (type flags session seq ack cls len : Nat) : Bytes :=
  leBytes 1 1 ++ leBytes 1 type ++ leBytes 2 flags ++ leBytes 4 session ++ leBytes 8 seq ++ leBytes 8 ack ++
    leBytes 2 cls ++ leBytes 2 len ++ leBytes 4 0

/-- A message protected with GCM or GMAC under a key and FIX (R72, R74). -/
def sealed (enc : Bool) (key fix header payload : Bytes) (iv : Nat) : Bytes :=
  let ivb := leBytes 8 iv
  let text := payload ++ leBytes 4 (crc32c (header ++ payload))
  let body := if enc then gcmCrypt key (fix ++ ivb) text else text
  let tag := if enc then gcmTag key (fix ++ ivb) (header ++ ivb) body else gcmTag key (fix ++ ivb) (header ++ ivb ++ text) []
  header ++ ivb ++ body ++ tag

/-- K_OPEN of an authentication key (R78). -/
def kOpen (ak : Bytes) : Bytes := hkdf ak (zeros 32) (ascii "AMNOR OPEN") 32

/-- The TAG of an OPEN or OPEN_REPLY over HEADER, IV_COUNTER, PAYLOAD and CRC (R78). -/
def openTag (ak : Bytes) (b : Bytes) : Bytes := (hmac (kOpen ak) b).take 16

/-- AK of a pavilion's AUTH_KEY; none where it is unusable (R79, R80). -/
def Dev.authKey (d : Dev) (p ak : Nat) : Option Bytes :=
  if p ≠ 0 ∧ ak = 0xFFFF then some (padTo 32 (Table.get [] d.hearth.pck p))
  else if p = 0 ∧ ak = 0xFFFF then
    if d.rd R.amn_ECK_SET = 1 then some (leBytes 32 (d.rd R.amn_ECK)) else none
  else if p = 0 ∧ ak = 0xFFFE then if d.rd R.amn_ECK_SET = 0 then some (zeros 32) else none
  else if ak < 1024 ∧ d.holdsSlot p ak ∧ (d.keySlot p ak).kind = 5 then some (padTo 32 (d.keySlot p ak).key)
  else none

/-! ## Sessions -/

/-- The session with SESSION `id`. -/
def Dev.sess (d : Dev) (id : Nat) : Option Session := d.net.sessions.find? fun s => decide (s.id = id)

/-- The session with SESSION `id` changed by `f`. -/
def Dev.onSess (d : Dev) (id : Nat) (f : Session → Session) : Dev :=
  d.onNet fun n => { n with sessions := n.sessions.map fun s => if s.id = id then f s else s }

/-- `f` run on the session with SESSION `id`, if it exists. -/
def Dev.withSess (d : Dev) (id : Nat) (f : Session → Dev) : Dev :=
  match d.sess id with
  | some s => f s
  | none => d

/-- The states in which a session sends (Table 3.11). -/
def SessSt.live (s : SessSt) : Bool :=
  match s with
  | .open => true | .stopped => true | .draining => true | .closing => true
  | .opening => false | .suspended => false

/-- STATE of a SESS record (Table 5.5). -/
def SessSt.code (s : SessSt) : Nat :=
  match s with
  | .opening => 0 | .open => 1 | .stopped => 2 | .draining => 3 | .closing => 4 | .suspended => 5

/-- The state that a SESS record's STATE gives. -/
def SessSt.ofCode (n : Nat) : SessSt := if n = 2 then .stopped else if n = 3 then .draining else if n = 4 then .closing else .open

/-- The place of a session's host on a port (R69, R105). -/
def Session.place (s : Session) (port : Nat) : Option (HostSrc × Nat) := if port = 0 then s.place0 else s.place1

/-- The ports a session sends on: those that are up, where its host is known through a VALID entry of the session's IP version (R69,
R71, R105, R107). -/
def Dev.sendPorts (d : Dev) (s : Session) : List Nat :=
  (if s.twin then [0, 1] else [s.port]).filter fun n => d.portUp n && match s.place n with
    | some (_, slot) => (d.hostAddr s.pav n slot).serves s.ipv6
    | none => false

/-- The session can send (R107, Table 3.11). -/
def Dev.canSend (d : Dev) (s : Session) : Bool := s.st.live && !(d.sendPorts s).isEmpty

/-- WINDOW of a session (R97); 0 with no data stream. -/
def Session.window (s : Session) : Nat := if cdData s.desc then cdWindow s.desc else 0

/-- FLOOR (Table 5.5): no REQUEST up to it is unanswered or unretired. -/
def Session.floorNow (s : Session) : Nat := s.reqs.foldl (fun n r => min n (r.seq - 1)) s.answered

/-- The SESS record of a session in state `st` (R147). -/
def Session.record (s : Session) (st : SessSt) : RecBody :=
  .sess s.id st.code (if s.twin then 1 else 0) s.authKey s.floorNow s.ctlAck s.desc

/-! ## Sending -/

/-- The port that a frame leaves from. -/
def Out.port : Out → Nat
  | .msg tx => tx.port
  | .pfc port .. => port
  | .arp port .. => port
  | .advert port .. => port
  | .delayReq port .. => port

/-- A frame enters a port: it leaves at once. A port that is not up sends nothing (R107). -/
def Dev.emit (d : Dev) (x : Out) : Dev := if d.portUp x.port then d.onNet fun n => { n with out := x :: n.out } else d

/-- DEAD_TIME, and KEEPALIVE_TIME, begun now (R116): when they end. -/
def Dev.deadEnd (d : Dev) : Nat := d.time + d.rd R.amn_DEAD_TIME * 1000
/-- KEEPALIVE_TIME begun now. -/
def Dev.kaEnd (d : Dev) : Nat := d.time + d.rd R.amn_KEEPALIVE_TIME * 1000

/-- The priority of a message: 7 on the control stream, DATA_PCP on the data stream. -/
def Dev.msgPcp (d : Dev) (ctl : Bool) : Nat := if ctl then 7 else d.rd R.amn_DATA_PCP % 8

/-- One copy of a session's message leaves under a counter (R69, R72, R74, R87, R104). -/
def Dev.launchAt (d : Dev) (s : Session) (h : HeldTx) (iv : Nat) : Dev :=
  match s.place h.port with
  | none => d
  | some (dst, slot) =>
    let ctl := ctlType h.type || bitOf h.flags 3
    let flags := h.flags ||| (if ctl then fCTL else 0) ||| (if s.twin then fTWIN else 0) ||| (if s.protect then fENC else 0)
    let hd := msgHeader h.type flags s.id h.seq (if ctl then s.ctlAck else s.answered) (if ctl then 0 else s.handle) h.payload.length
    let d := d.emit (.msg (d.txOf h.port s.pav slot dst (d.msgPcp ctl) (sealed s.protect s.kDH s.fixDH hd h.payload iv)))
    if ctl then d.onSess s.id fun s => { s with kaDue := d.kaEnd } else d

/-- MARK CLOSED and the end of a session: its entry is freed, and its generation rises on next use (R84, R147). A deadline class
leaves its clusters (R128, R133). Cancel notices that wait stay owed to the program (R113). -/
def Dev.endSession (d : Dev) (s : Session) : Dev :=
  let d := if s.recorded then d.appendMark s.pav (.markClosed s.id) else d
  let owed := (d.hring s.pav).waiting.contains (.markClosed s.id)
  let d := if owed then d else { d with hearth := { d.hearth with sessOpen := Table.erase d.hearth.sessOpen s.id } }
  (d.onNet fun n => { n with
    sessions := n.sessions.filter (·.id ≠ s.id)
    nakTimers := n.nakTimers.filter (·.1 ≠ s.id)
    openWait := n.openWait.filter (·.session ≠ s.id)
    inQ := n.inQ.filter fun q => !(decide (q.session = s.id) && decide (q.kind = 1))
    pausedTx := n.pausedTx.filter (·.session ≠ s.id) }).deficitRules

/-- A DELIVER that has been posted and not sent is held from now on: it is judged by its post (R107, R137). -/
def HostReq.hold (r : HostReq) : HostReq := if r.deliver.isSome && r.sent.isNone then { r with heldPost := true } else r

/-- A session enters SUSPENDED, which writes no record (R88, R147, R529), and holds its DELIVERs. -/
def Dev.suspend (d : Dev) (id : Nat) : Dev :=
  (d.onSess id fun s => { s with
    st := .suspended
    assembly := none
    snapshot := none
    reqs := s.reqs.map (·.hold) }).onNet fun n =>
    { n with nakTimers := n.nakTimers.filter (·.1 ≠ id), pausedTx := n.pausedTx.filter (·.session ≠ id) }

/-- SUSPENDED, or CLOSED with no unretired request (R89). A resumed session in OPENING keeps its record's state. -/
def Dev.endOrSuspend (d : Dev) (id : Nat) : Dev :=
  d.withSess id fun s => if s.reqs.isEmpty then d.endSession s else d.suspend id

/-- The CLOSE with reason 0x0601 on the counters kept for it; nothing more is sent under the keys (R76, R89). -/
def Dev.spend (d : Dev) (id : Nat) : Dev :=
  d.withSess id fun s =>
    if s.spent then d
    else
      let d := d.onSess id fun s => { s with spent := true }
      let d := (d.sendPorts s).zipIdx.foldl (fun d e =>
        d.launchAt s { session := id, port := e.1, type := 0x0D, flags := 0, seq := 0, payload := padTo 8 (leBytes 2 0x0601) }
          (s.limitIv - 1 + e.2)) d
      d.endOrSuspend id

/-- A deadline request's DELIVER is late: sent after its due time, or for a held one posted later than the due time less
500 ns (R137). -/
def HostReq.late (r : HostReq) (now : Nat) : Bool :=
  decide (r.due ≠ 0) && (match r.deliver with
    | some (_, post) => if r.heldPost then decide (r.due + r.shift < post + 500) else decide (r.due + r.shift < now)
    | none => false)

/-- The FLAGS of the first copy of a DELIVER (R22, R135, R137). -/
def HostReq.firstFlags (r : HostReq) (now : Nat) : Nat :=
  (if r.replayed then fREPLAYED else 0) ||| (if r.late now then fLATE else 0) ||| (if r.unverified then fUNVERIFIED else 0)

/-- A LATE DELIVER counted (R138). -/
def Dev.countLate (d : Dev) (p : Nat) (r : HostReq) : Dev :=
  let d := d.bump R.pow_LATE_COUNT
  let v := d.rd R.pow_LATE_BY_PAVILION
  let d := d.wr R.pow_LATE_BY_PAVILION (withElem 4 v p (min (elem 4 v p + 1) (2 ^ 32 - 1)))
  if r.inDeficit then d.bump R.pow_LATE_IN_DEFICIT else d

/-- The first copy of a DELIVER leaves now: its flags, its counts and its resend timer (R94, R137, R138). -/
def Dev.firstDeliver (d : Dev) (s : Session) (r : HostReq) : Dev :=
  let fl := r.firstFlags d.time
  let d := if r.late d.time then d.countLate s.pav r else d
  d.onSess s.id fun s => { s with reqs := s.reqs.map fun q => if q.seq = r.seq then
    { q with sent := some d.time, dflags := fl, lastSent := d.time, interval := d.rd R.amn_RESEND_TIME * 1000 } else q }

/-- One copy of a message leaves under the session's next counter, or the CLOSE that the counters are kept for in its place
(R76). -/
def Dev.launch (d : Dev) (h : HeldTx) : Dev :=
  d.withSess h.session fun s =>
    if s.spent then d
    else if s.limitIv - 2 < s.txIv then d.spend s.id
    else
      let first := decide (h.type = 0x06) && !bitOf h.flags 2
      let r := if first then s.reqs.find? fun r => decide (r.seq = h.seq) else none
      let d := match r with
        | some r => if r.sent.isNone then d.firstDeliver s r else d
        | none => d
      d.withSess s.id fun s =>
        let fl := match r with
          | some r => ((s.reqs.find? fun q => decide (q.seq = r.seq)).map (·.dflags)).getD h.flags
          | none => h.flags
        if first && r.isNone then d
        else (d.onSess s.id fun s => { s with txIv := s.txIv + 1 }).launchAt s { h with flags := fl } s.txIv

/-- A received PFC frame holds back a priority of a port (R63). -/
def Dev.isPaused (d : Dev) (port pcp : Nat) : Bool := decide (d.time < Table.get 0 d.net.paused (port * 8 + pcp))

/-- A session's message sent on its ports; a copy whose priority is paused waits (R63, R104). -/
def Dev.sendMsg (d : Dev) (id type seq flags : Nat) (payload : Bytes) : Dev :=
  d.withSess id fun s =>
    let ports := d.sendPorts s
    if s.spent ∨ s.st = .suspended then d
    else if s.limitIv - 2 < s.txIv + ports.length - 1 then d.spend id
    else
      let pcp := d.msgPcp (ctlType type || bitOf flags 3)
      ports.foldl (fun d n =>
        let h : HeldTx := { session := id, port := n, type := type, flags := flags, seq := seq, payload := payload }
        if d.isPaused n pcp then d.onNet fun x => { x with pausedTx := x.pausedTx ++ [h] } else d.launch h) d

/-- What waited for the end of a pause leaves. -/
def Dev.releasePaused (d : Dev) : Dev :=
  let free := fun (h : HeldTx) => !d.isPaused h.port (d.msgPcp (ctlType h.type || bitOf h.flags 3))
  let go := d.net.pausedTx.filter free
  go.foldl (fun d h => d.launch h) (d.onNet fun n => { n with pausedTx := n.pausedTx.filter fun h => !free h })

/-- The timebase moves to `t`, and pauses that have ended release their messages. -/
def Dev.netAt (d : Dev) (t : Nat) : Dev := (d.at t).releasePaused

/-! ## DELIVERs -/

/-- A copy of the request's DELIVER waits for the end of a pause (R63). -/
def Dev.deliverWaits (d : Dev) (id seq : Nat) : Bool :=
  d.net.pausedTx.any fun h => decide (h.session = id) && decide (h.type = 0x06) && decide (h.seq = seq)

/-- The DELIVER posted for a request is sent for the first time, unless the session cannot send (R94, R107) or it waits for the end of
a pause already. -/
def Dev.sendDeliver (d : Dev) (id seq : Nat) : Dev :=
  d.withSess id fun s =>
   if d.deliverWaits id seq then d else
    match s.reqs.find? fun r => decide (r.seq = seq) with
    | none => d
    | some r =>
      match r.deliver with
      | none => d
      | some (b, _) => if d.canSend s && r.sent.isNone then d.sendMsg id 0x06 seq 0 b else d

/-- Held DELIVERs are sent, in rising order of sequence (R86, R107). -/
def Dev.sendHeld (d : Dev) (id : Nat) : Dev :=
  d.withSess id fun s =>
    ((s.reqs.filter fun r => r.deliver.isSome && r.sent.isNone).map (·.seq)).mergeSort.foldl (fun d q => d.sendDeliver id q) d

/-- A port leaves LINK_STATUS 2 for status `v`, or stays below it (R107): what waited there for the end of a pause does not leave from
it; sessions that can then send on no port hold their DELIVERs, and the others send what is left. -/
def Dev.portDown (d : Dev) (n v : Nat) : Dev :=
  let d := (d.wr R.port_LINK_STATUS v n).onNet fun x => { x with pausedTx := x.pausedTx.filter (·.port ≠ n) }
  let d := d.onNet fun x => { x with sessions := x.sessions.map fun s => if d.canSend s then s else { s with reqs := s.reqs.map (·.hold) } }
  d.net.sessions.foldl (fun d s => d.sendHeld s.id) d

/-- A DELIVER is sent again, with the flags of its first copy (R94, R137). -/
def Dev.resendDeliver (d : Dev) (id : Nat) (r : HostReq) (interval : Nat) : Dev :=
  match r.deliver with
  | none => d
  | some (b, _) =>
    (d.onSess id fun s => { s with reqs := s.reqs.map fun q => if q.seq = r.seq then
      { q with lastSent := d.time, interval := interval } else q }).sendMsg id 0x06 r.seq (r.dflags ||| fRESEND) b

/-! ## Answers, credit and the control stream -/

/-- CONTROL and CLOSE payloads (Tables 3.6, 3.10). -/
def controlPayload (op scope status target : Nat) : Bytes :=
  leBytes 1 op ++ leBytes 1 scope ++ leBytes 2 status ++ zeros 4 ++ leBytes 8 target

/-- The payload of a CLOSE. -/
def closePayload (reason : Nat) : Bytes := leBytes 2 reason ++ zeros 6

/-- NAK of a message of a stream (Table 3.6). -/
def Dev.sendNak (d : Dev) (id seq cause : Nat) (ctl : Bool) : Dev :=
  d.sendMsg id 0x08 seq (if ctl then fCTL else 0) (leBytes 1 cause ++ zeros 7)

/-- CREDIT (R96). A session with no data stream has no LIMIT to send: it gets none (notes/assumptions/45). -/
def Dev.sendCredit (d : Dev) (id : Nat) : Dev :=
  d.withSess id fun s =>
    if cdData s.desc then d.sendMsg id 0x09 0 0 (leBytes 8 s.limit ++ leBytes 2 s.window ++ zeros 6) else d

/-- The highest n such that every number up to it, from `n` on, satisfies `f`. -/
def runUp (f : Nat → Bool) : Nat → Nat → Nat
  | 0, n => n
  | k + 1, n => if f (n + 1) then runUp f k (n + 1) else n

/-- A table cut to its 1,024 highest keys (R91). -/
def keep1024 {α : Type} (t : Table α) : Table α := t.drop (t.length - 1024)

/-- A sequence lies below a window that holds its 1,024 highest (R91, case 4), or at or below a floor with no entry. -/
def belowWindow {α : Type} (t : Table α) (floor seq : Nat) : Bool :=
  decide (seq ≤ floor) || (decide (1024 ≤ t.length) && decide (seq < (t.head?.map (·.1)).getD 0))

/-- The answer of a control message: stored, and sent unless the session is SUSPENDED (R84, R87, R91). -/
def Dev.answer (d : Dev) (id seq type flags : Nat) (payload : Bytes) : Dev :=
  let d := d.onSess id fun s =>
    let t := keep1024 (Table.set none s.answers seq (some { type := type, flags := flags, payload := payload }))
    { s with answers := t, ctlAck := runUp (fun n => (Table.get none t n).isSome) 1024 s.ctlAck }
  d.withSess id fun s => if s.st = .suspended then d else d.sendMsg id type seq flags payload

/-- The answer to a REQUEST by its outcome: ACCEPT or REJECT (Table 3.6). -/
def Dev.sendOutcome (d : Dev) (id seq outcome flags : Nat) : Dev :=
  if outcome = 0 then d.sendMsg id 0x04 seq flags [] else d.sendMsg id 0x05 seq flags (leBytes 2 outcome ++ zeros 2)

/-- A REQUEST received whose answer has not left: its record is not complete (R91, R146). -/
def Session.unaccepted (s : Session) (seq : Nat) : Bool := s.reqs.any fun r => decide (r.seq = seq) && !r.accepted

/-- ANSWERED after a change of the outcomes (R87). -/
def Session.advance (s : Session) : Session :=
  { s with answered := runUp (fun n => (s.outcomes.any fun e => decide (e.1 = n)) && !s.unaccepted n) 1024 s.answered }

/-- DRAINED (R114), which KEEPALIVE_TIME then repeats. -/
def Dev.sendDrained (d : Dev) (id : Nat) : Dev :=
  (d.onSess id fun s => { s with drained := some d.kaEnd }).sendMsg id 0x0A 0 0 (controlPayload 0x85 0 0 0)

/-- What follows when a session may have no unretired request left: the second CLOSE of a CLOSING session, or DRAINED of a
DRAINING one (R89, R114). -/
def Dev.checkEmpty (d : Dev) (id : Nat) : Dev :=
  d.withSess id fun s =>
    if !s.reqs.isEmpty then d
    else if s.st = .closing then
      let d := d.sendMsg id 0x0D 0 0 (closePayload 0)
      d.withSess id fun s => d.endSession s
    else if s.st = .draining ∧ s.drained.isNone then d.sendDrained id
    else d

/-! ## Session states -/

/-- What the hearth keeps of a session's OPEN beside its SESS record: PROTECT and the IP version (R71, R86, notes/assumptions/45). -/
def Session.openCode (s : Session) : Nat := 1 + (if s.protect then 2 else 0) + (if s.ipv6 then 4 else 0)

/-- A session enters OPEN, STOPPED, DRAINING or CLOSING, with its SESS record, whose room is kept since its OPEN (R147, R148). A STOP
of a DRAINING session ends its DRAINED (notes/assumptions/45). -/
def Dev.enterState (d : Dev) (id : Nat) (st : SessSt) : Dev :=
  d.withSess id fun s =>
    let d := d.onSess id fun s => { s with recorded := true }
    let d := { d with hearth := { d.hearth with sessOpen := Table.set 0 d.hearth.sessOpen id s.openCode } }
    let d := d.appendMark s.pav (s.record st)
    d.onSess id fun s => { s with
      st := st, back := st, standing := false
      drained := if st = .draining then s.drained else none
      assembly := if st = .open then s.assembly else none }

/-- A session moved among OPEN, STOPPED, DRAINING and CLOSING. -/
def Dev.moveState (d : Dev) (id : Nat) (st : SessSt) : Dev :=
  d.withSess id fun s => if s.st = st then d else d.enterState id st

/-- The standing state of a pavilion (R112). -/
def Dev.standingOf (d : Dev) (p : Nat) : SessSt :=
  match Table.get 0 d.net.standingSt p with
  | 1 => .stopped
  | 2 => .draining
  | _ => .open

/-- The first authenticated message moves a session out of OPENING, with its held DELIVERs and the DRAINED owed (R84, R86,
R112). -/
def Dev.leaveOpening (d : Dev) (id : Nat) : Dev :=
  d.withSess id fun s =>
    let st := if !s.resumed then d.standingOf s.pav
      else if s.back = .closing then .closing
      else if s.standing then d.standingOf s.pav else s.back
    let d := (d.enterState id st).onSess id fun s => { s with resumed := true, drained := none }
    (d.sendHeld id).checkEmpty id

/-- A device-made CLOSE: its reason, then SUSPENDED, or CLOSED with no unretired request (R89). -/
def Dev.deviceClose (d : Dev) (id reason : Nat) : Dev :=
  d.withSess id fun s =>
    if s.st = .suspended then if s.reqs.isEmpty then d.endSession s else d
    else (d.sendMsg id 0x0D 0 0 (closePayload reason)).endOrSuspend id

/-! ## Retirement (R94, R147) -/

/-- Runs of consecutive numbers of a rising list: first and last. -/
def runs (l : List Nat) : List (Nat × Nat) :=
  l.foldl (fun acc n => match acc.getLast? with
    | some (a, b) => if b + 1 = n then acc.dropLast ++ [(a, n)] else acc ++ [(n, n)]
    | none => [(n, n)]) []

/-- Requests retired, with a MARK RETIRE for each run of sequences (R19, R94, R147). -/
def Dev.retire (d : Dev) (id : Nat) (seqs : List Nat) : Dev :=
  d.withSess id fun s =>
    if seqs.isEmpty then d
    else
      let d := d.onSess id fun s => { s with reqs := s.reqs.filter fun r => !seqs.contains r.seq }
      let d := d.onNet fun n => { n with
        inQ := n.inQ.filter fun q => !(decide (q.session = id) && decide (q.kind = 1) && seqs.contains q.seq) }
      let d := (runs seqs.mergeSort).foldl (fun d e => d.appendMark s.pav (.markRetire id e.1 e.2)) d
      d.checkEmpty id

/-- An acknowledgement retires the requests it covers whose DELIVER has been sent (R94). -/
def Dev.acknowledge (d : Dev) (id upTo : Nat) (ranges : List (Nat × Nat)) : Dev :=
  d.withSess id fun s =>
    d.retire id ((s.reqs.filter fun r => r.sent.isSome &&
      (decide (r.seq ≤ upTo) || ranges.any fun e => decide (e.1 ≤ r.seq) && decide (r.seq ≤ e.2))).map (·.seq))

end Sys2Proof.Machine
end

