-- ==== Sys2Proof/Machine/Frames.lean ====
section
/-! DEFINITION. Machine/Frames.lean: the receive path of the host ports: frames, their classification, the checks of a message
before the transport takes it, PFC, address resolution and the state of a port's link (R61 to R68, R71, R73 to R76, R78, R81,
R106 to R109, R531, R583). -/

namespace Sys2Proof.Machine

/-! ## Receive buffers (R63, R109) -/

/-- Bytes a message holds of its port's receive buffer: its frame from destination address to the end of its payload, tagged. -/
def rxSize (x : Rx) (v6 : Bool) : Nat := 18 + (if v6 then 40 else 20) + 8 + 60 + x.msg.payload.length

/-- The IP version of the entry that took a message. -/
def Dev.rxV6 (d : Dev) (x : Rx) : Bool := (d.hostAddr x.pav.val x.port.val x.addrSlot.val).v6

/-- Receive occupancy of a priority of a port. -/
def Dev.occupancy (d : Dev) (port pcp : Nat) : Nat :=
  ((d.net.rx.filter fun x => decide (x.port.val = port) && decide (x.pcp.toNat = pcp)).map fun x => rxSize x (d.rxV6 x)).sum

/-- PFC XOFF where a data priority's occupancy exceeds PFC_XOFF, and XON where it has fallen 64 KiB below (R63). -/
def Dev.pfcRules (d : Dev) (port : Nat) : Dev :=
  let limit := d.rd R.port_PFC_XOFF port
  (List.range 7).foldl (fun d i =>
    let k := port * 8 + i
    let n := d.occupancy port i
    if limit < n ∧ k ∉ d.net.xoff then
      (d.onNet fun x => { x with xoff := x.xoff ++ [k] }).emit (.pfc port i true { pcp := Config.framePcp, vid := 0 })
    else if n + 65536 ≤ limit ∧ k ∈ d.net.xoff then
      (d.onNet fun x => { x with xoff := x.xoff.filter (· ≠ k) }).emit (.pfc port i false { pcp := Config.framePcp, vid := 0 })
    else d) d

/-! ## Checks of a message (R73) -/

/-- Payload lengths of the types a host sends (R73, rule 4). -/
def lengthOk (type : Nat) (p : Bytes) : Bool :=
  let n := p.length
  match type with
  | 0x01 => decide (n = 112)
  | 0x03 => decide (n ≤ 8192)
  | 0x07 => decide (8 ≤ n) && decide (fieldLE p 0 2 ≤ 64) && decide (n = 8 + 16 * fieldLE p 0 2)
  | 0x0A => decide (n = 16)
  | 0x0B => decide (24 ≤ n)
  | _ => decide (n = 8)

/-- The SEQUENCE of a type (R73, rule 5). -/
def seqOk (type seq : Nat) : Bool :=
  match type with
  | 0x03 => decide (seq ≠ 0) | 0x0A => decide (seq ≠ 0) | 0x0B => decide (seq ≠ 0) | 0x0D => decide (seq ≠ 0)
  | 0x01 => decide (seq = 0) | 0x07 => decide (seq = 0) | 0x0C => decide (seq = 0)
  | _ => true

/-- Bytes all zero. -/
def allZero (b : Bytes) : Bool := b.all (· = 0)

/-- RES0 fields of a payload (R73, rule 6). CONTROL and DICT answer theirs with 0x0107. -/
def payloadRes0 (type : Nat) (p : Bytes) : Bool :=
  match type with
  | 0x01 => decide (fieldLE p 2 1 < 2) && allZero (slice p 3 1) && allZero (slice p 6 2) && allZero (slice p 12 4) &&
      decide (fieldLE p 100 2 < 2) && allZero (slice p 102 10)
  | 0x07 => allZero (slice p 2 6)
  | 0x08 => allZero (slice p 1 7)
  | 0x0D => allZero (slice p 2 6)
  | _ => true

/-- Rules 4 to 6 of R73. -/
def shapeOk (type seq : Nat) (p : Bytes) : Bool := lengthOk type p && seqOk type seq && payloadRes0 type p

/-- The fields of a message as it came (Tables 3.3, 3.4); its payload may be encrypted. -/
def msgOfBytes (b : Bytes) : Msg :=
  let n := fieldLE b 26 2
  { version := BitVec.ofNat 8 (fieldLE b 0 1), type := BitVec.ofNat 8 (fieldLE b 1 1), flags := BitVec.ofNat 16 (fieldLE b 2 2)
    session := BitVec.ofNat 32 (fieldLE b 4 4), seq := fieldLE b 8 8, ack := fieldLE b 16 8, cls := BitVec.ofNat 16 (fieldLE b 24 2)
    res0 := BitVec.ofNat 32 (fieldLE b 28 4), iv := fieldLE b 32 8, payload := slice b 40 n
    crc := BitVec.ofNat 32 (fieldLE b (40 + n) 4), tag := BitVec.ofNat 128 (fieldLE b (44 + n) 16) }

/-- CTL of a message. -/
def msgCtl (m : Msg) : Bool := m.flags.getLsbD 3
/-- RESEND of a message. -/
def msgResend (m : Msg) : Bool := m.flags.getLsbD 2
/-- ENC of a message. -/
def msgEnc (m : Msg) : Bool := m.flags.getLsbD 0

/-- Rules 1 to 3 of R73 on a UDP payload. -/
def headerOk3 (b : Bytes) : Bool :=
  let t := fieldLE b 1 1
  decide (60 ≤ b.length) && decide (fieldLE b 0 1 = 1) && (ctlType t || dataType t || decide (t = 0x07) || decide (t = 0x08)) &&
    decide (fieldLE b 26 2 ≤ 8192) && decide (fieldLE b 26 2 + 60 = b.length) && decide (fieldLE b 2 2 < 256) &&
    decide (fieldLE b 28 4 = 0)

/-- R81: the type is one a host sends, and on its own stream. -/
def streamOk (m : Msg) : Bool :=
  let t := m.type.toNat
  hostType t && (if ctlType t then msgCtl m else if dataType t then !msgCtl m else true)

/-! ## Sequences not yet answered (R75, R106) -/

/-- The session has answered the sequence of a stream. -/
def Session.answeredSeq (s : Session) (ctl : Bool) (seq : Nat) : Bool :=
  if ctl then decide (seq ≤ s.ctlAck) || (Table.get none s.answers seq).isSome
  else decide (seq ≤ s.answered) || ((s.outcomes.any fun e => decide (e.1 = seq)) && !s.unaccepted seq)

/-- An undamaged copy of the sequence has arrived. -/
def Dev.arrived (d : Dev) (s : Session) (ctl : Bool) (seq : Nat) : Bool :=
  s.answeredSeq ctl seq || (!ctl && s.outcomes.any fun e => decide (e.1 = seq)) ||
    d.net.rx.any fun x => decide (x.msg.session.toNat = s.id) && (msgCtl x.msg == ctl) && decide (x.msg.seq = seq)

/-- A damaged message: discarded, counted, and answered with NAK cause 1 where it names an open session and a sequence not yet
answered; in a twin session the other copy has 2 µs (R75, R106). -/
def Dev.damaged (d : Dev) (port : Nat) (s : Session) (m : Msg) : Dev :=
  let d := d.rxDrop port
  if m.seq = 0 ∨ !s.st.live ∨ s.answeredSeq (msgCtl m) m.seq then d
  else if s.twin then d.onNet fun n => { n with nakTimers := n.nakTimers ++ [(s.id, msgCtl m, m.seq, d.time)] }
  else d.sendNak s.id m.seq 1 (msgCtl m)

/-! ## From a frame to the transport -/

/-- A message that passed its checks waits for the transport. -/
def Dev.enqueue (d : Dev) (x : Rx) : Dev := (d.onNet fun n => { n with rx := n.rx ++ [x] }).pfcRules x.port.val

/-- An OPEN: its tag under K_OPEN of the key it names, its CRC and its shape (R73, R78). With no key to check the tag by, it
goes on to be refused (R79). One with ENC set, which R78 has as 0, is discarded and counted (notes/assumptions/28). -/
def Dev.acceptOpen (d : Dev) (x : Rx) (raw : Bytes) : Dev :=
  let p := x.pav.val
  let m := x.msg
  let ak := fieldLE m.payload 4 2
  let key := match d.authKey p ak with
    | some k => some k
    | none => if p = 0 ∧ ak = 0xFFFE then some (zeros 32) else none
  let covered := raw.take (44 + m.payload.length)
  let tagOk := match key with
    | some k => decide (openTag k covered = raw.drop (44 + m.payload.length))
    | none => true
  if msgEnc m || !tagOk || decide (crc32c (raw.take 32 ++ m.payload) ≠ m.crc.toNat) || !shapeOk 0x01 m.seq m.payload then d.rxDrop x.port.val
  else d.enqueue x

/-- Any other message: its session, its IP version, its tag, its CRC, its shape and its counter (R71, R73, R75, R76, R88), and
the DICT messages unanswered (R531). One that is discarded for its shape or its counter, or as one DICT too many, neither restarts
DEAD_TIME nor proves its host (notes/assumptions/28). -/
def Dev.acceptMsg (d : Dev) (x : Rx) (raw : Bytes) (v6 : Bool) : Dev :=
  let port := x.port.val
  let m := x.msg
  match d.sess m.session.toNat with
  | none => d.rxDrop port
  | some s =>
    if s.pav ≠ x.pav.val ∨ s.st = .suspended ∨ s.ipv6 ≠ v6 then d.rxDrop port
    else
      let n := m.payload.length
      let iv := s.fixHD ++ leBytes 8 m.iv
      let text := slice raw 40 (n + 4)
      let tag := if msgEnc m then gcmTag s.kHD iv (raw.take 40) text else gcmTag s.kHD iv (raw.take (44 + n)) []
      let plain := if msgEnc m then gcmCrypt s.kHD iv text else text
      if tag ≠ raw.drop (44 + n) ∨ crc32c (raw.take 32 ++ plain.take n) ≠ fieldLE plain n 4 then d.damaged port s m
      else if !shapeOk m.type.toNat m.seq (plain.take n) then d.rxDrop port
      else if s.limitIv ≤ m.iv then (d.rxDrop port).spend s.id
      else if m.type = 0x0B ∧ 8 ≤ (d.net.rx.filter fun y => decide (y.msg.type = 0x0B) && decide (y.msg.session = m.session)).length
      then d.rxDrop port
      else d.enqueue { x with msg := { m with payload := plain.take n, crc := BitVec.ofNat 32 (fieldLE plain n 4) } }

/-- A UDP payload addressed to entry `slot` of pavilion `p` (R73, R81, R108, R109, R583). -/
def Dev.acceptUdp (d : Dev) (port p slot pcp : Nat) (v6 : Bool) (src : HostSrc) (b : Bytes) : Dev :=
  let m := msgOfBytes b
  if d.plat.step < 12 ∨ !headerOk3 b ∨ !streamOk m ∨ msgCtl m ≠ decide (pcp = 7) then d.rxDrop port
  else
    let x : Rx := { port := Fin.ofNat 2 port, pcp := BitVec.ofNat 3 pcp, src := src, pav := Fin.ofNat 64 p
                    addrSlot := Fin.ofNat 4 slot, msg := m, t := d.time }
    if m.type = 0x01 then d.acceptOpen x b else d.acceptMsg x b v6

/-- The Internet checksum of bytes with a correct checksum field: all ones once folded. -/
def sumOk (b : Bytes) : Bool := let s := sum16 b; decide (0 < s) && decide (s % 65535 = 0)

/-- The UDP datagram of an IP packet: source address, UDP bytes, and whether the packet is one R67 takes (item 3). The header checksum
of IPv4, of which the spec says nothing, is not looked at (notes/assumptions/28). -/
def ipParse (v6 : Bool) (b : Bytes) : Option (Nat × Nat × Bytes × Bool) :=
  if v6 then
    let n := fieldBE b 4 2
    if b.length < 40 + n ∨ fieldBE b 0 1 / 16 ≠ 6 then none
    else some (fieldBE b 8 16, fieldBE b 24 16, slice b 40 n, decide (fieldBE b 6 1 = 17))
  else
    let n := fieldBE b 2 2
    if b.length < n ∨ n < 20 ∨ fieldBE b 0 1 / 16 ≠ 4 then none
    else some (0xFFFF * 2 ^ 32 + fieldBE b 12 4, 0xFFFF * 2 ^ 32 + fieldBE b 16 4, slice b 20 (n - 20),
      decide (fieldBE b 0 1 = 0x45) && decide (fieldBE b 6 2 % 2 ^ 14 = 0) && decide (fieldBE b 9 1 = 17))

/-- The UDP checksum of a datagram (R68): over the pseudo-header and the datagram; IPv4 may carry zero for none. -/
def udpSumOk (v6 : Bool) (src dst : Nat) (u : Bytes) : Bool :=
  let ck := fieldBE u 6 2
  let n := if v6 then 16 else 4
  if ck = 0 then !v6
  else sumOk (beBytes n src ++ beBytes n dst ++ beBytes 4 u.length ++ beBytes 4 17 ++ u)

/-- An IP packet at a port (R67, R68). PTP and neighbour discovery take theirs: every packet to UDP port 319 or 320, whatever its
address and on a port without PTP too, and every neighbour solicitation (notes/assumptions/28). -/
def Dev.acceptIp (d : Dev) (port pcp : Nat) (vid : Option Nat) (v6 own : Bool) (b : Bytes) : Dev :=
  match ipParse v6 b with
  | none => d.rxDrop port
  | some (src, dst, u, plain) =>
    let udpPort := fieldBE u 2 2
    if plain ∧ (udpPort = 319 ∨ udpPort = 320) then d
    else if v6 ∧ fieldBE b 6 1 = 58 ∧ fieldBE u 0 1 = 135 then d
    else
      match d.addrOwner port dst v6 vid with
      | none => d.rxDrop port
      | some (p, slot) =>
        let n := fieldBE u 4 2
        if !own || !plain || decide (u.length < 8) || decide (n < 8) || decide (u.length < n) ||
            decide (udpPort ≠ d.rd R.amn_UDP_PORT) || !udpSumOk v6 src dst (u.take n) then d.rxDrop port
        else d.acceptUdp port p slot pcp v6 { ip := BitVec.ofNat 128 src, udp := BitVec.ofNat 16 (fieldBE u 0 2) } (slice u 8 (n - 8))

/-- A received frame (R60, R62, R67, R109). The largest has 9,216 bytes with its FCS. One of priority 7 that finds its reserved buffer
full is discarded whatever it carries. ARP and PFC frames are taken by their own functions. -/
def Dev.acceptFrame (d : Dev) (port : Nat) (b : Bytes) : Dev :=
  let et := fieldBE b 12 2
  let tci := fieldBE b 14 2
  let (pcp, vid, et, body) :=
    if et = 0x8100 then (tci / 2 ^ 13, some (tci % 4096), fieldBE b 16 2, b.drop 18) else (0, none, et, b.drop 14)
  let own := decide (fieldLE b 0 6 = d.rd R.port_MAC_ADDR port)
  if 9212 < b.length then d.rxDrop port
  else if pcp = 7 ∧ 65536 < d.occupancy port 7 + b.length then d.bump R.port_CTL_DROPPED port
  else if et = 0x0806 then d
  else if et = 0x8808 ∧ fieldBE body 0 2 = 0x0101 then d
  else if et = 0x0800 then d.acceptIp port pcp vid false own body
  else if et = 0x86DD then d.acceptIp port pcp vid true own body
  else d.rxDrop port

/-- FRAME_RECEIVE (R67), with what the PCS counts (Table 3.12). A port whose link is not up receives nothing. -/
def execFrameReceive (o : OpFrame) (s : State) : Host.Outcome State Fault Refusal :=
  s.act fun d =>
    let d := d.netAt o.t
    let n := o.port.val
    if d.portUp n then
      ((d.bump R.port_FEC_CORRECTED n (n := o.fecGood)).bump R.port_FEC_UNCORRECTED n (n := o.fecBad)).acceptFrame n o.bytes
    else d

/-- PFC_FRAME (R63): the pause of each priority that the frame and PFC_ENABLE name. A pause time counts 512 bit times of
400 Gbit/s. -/
def execPfcFrame (o : OpPfc) (s : State) : Host.Outcome State Fault Refusal :=
  s.act fun d =>
    let port := o.port.val
    if !d.portUp port then d
    else
      let d := (List.range 7).foldl (fun d i =>
        if bitOf (d.rd R.port_PFC_ENABLE port) i && o.enable.getLsbD i then
          let q := (o.times.getD i 0).toNat
          d.onNet fun n => { n with paused := Table.set 0 n.paused (port * 8 + i) (if q = 0 then 0 else d.time + ceilDiv (q * 128) 100) }
        else d) d
      d.releasePaused

/-- The answer to an address resolution for a configured address, from step 9 of start-up on (R66, R583). -/
def Dev.resolve (d : Dev) (o : OpResolve) (v6 : Bool) (f : Tag → Out) : Dev :=
  if !d.portUp o.port.val ∨ d.plat.step < 9 then d
  else
    match d.addrOwner o.port.val o.target.toNat v6 (o.vid.map (·.toNat)) with
    | some (p, slot) => d.emit (f { pcp := Config.framePcp, vid := (d.hostAddr p o.port.val slot).vid })
    | none => d

/-- ARP_REQUEST (R66). -/
def execArpRequest (o : OpResolve) (s : State) : Host.Outcome State Fault Refusal :=
  s.act fun d => d.resolve o false fun tag => .arp o.port.val o.target o.sender tag

/-- NEIGHBOUR_SOLICITATION (R66). -/
def execNeighbourSolicitation (o : OpResolve) (s : State) : Host.Outcome State Fault Refusal :=
  s.act fun d => d.resolve o true fun tag => .advert o.port.val o.target o.sender tag

/-! ## The link of a port (R61, R107) -/

/-- PORT_LINK_UP (R61, R107): a port that trains reaches LINK_STATUS 2, and sessions that can now send their held DELIVERs send
them. -/
def execPortLinkUp (o : OpPortT) (s : State) : Host.Outcome State Fault Refusal :=
  s.act fun d =>
    let n := o.port.val
    let d := d.netAt o.t
    if d.rd R.port_STATE n ≠ 2 ∨ d.rd R.port_LINK_STATUS n ≠ 1 then d
    else
      let d := d.wr R.port_LINK_STATUS 2 n
      d.net.sessions.foldl (fun d s => d.sendHeld s.id) d

/-- PORT_LINK_DOWN (R61, R107): a port leaves LINK_STATUS 2 and trains again. -/
def execPortLinkDown (o : OpPortT) (s : State) : Host.Outcome State Fault Refusal :=
  s.act fun d =>
    let n := o.port.val
    let d := d.netAt o.t
    if d.portUp n then d.portDown n 1 else d

/-- TWIN_NAK_TIMER (R106): 2 µs after a damaged copy, a NAK unless the other copy has arrived undamaged. -/
def execTwinNakTimer (o : OpNakT) (s : State) : Host.Outcome State Fault Refusal :=
  s.act fun d =>
    let d := d.netAt o.t
    let id := o.session.toNat
    match d.net.nakTimers.find? fun e => decide (e.1 = id) && (e.2.1 == o.control) && decide (e.2.2.1 = o.seq) with
    | none => d
    | some e =>
      if d.time < e.2.2.2 + 2000 then d
      else
        let d := d.onNet fun n => { n with nakTimers := n.nakTimers.erase e }
        d.withSess id fun s => if d.arrived s o.control o.seq then d else d.sendNak id o.seq 1 o.control

end Sys2Proof.Machine
end

