-- ==== Sys2Proof/Machine/Sessions.lean ====
section
/-! DEFINITION. Machine/Sessions.lean: opening, resuming, controlling, closing and suspending sessions (R77 to R91, R103,
R111, R112, R114, R612). -/

namespace Sys2Proof.Machine

/-! ## Taking a message from its port's queue (R109) -/

/-- The next message of the queue that `o` stands in: priority 7 goes ahead of the data queues of its port. -/
def Dev.nextRx (d : Dev) (o : Rx) : Option Rx :=
  let mine := d.net.rx.filter fun x => decide (x.port = o.port)
  match mine.find? fun x => decide (x.pcp = 7) with
  | some x => some x
  | none => mine.find? fun x => decide (x.pcp = o.pcp)

/-- `f` takes the message `o`, which is the next of its queue and of the row's type. -/
def Dev.takeRx (d : Dev) (o : Rx) (type : Nat) (f : Dev → Dev) : Dev :=
  let d := d.netAt o.t
  if o.msg.type.toNat = type ∧ d.nextRx o = some o then
    f ((d.onNet fun n => { n with rx := n.rx.erase o }).pfcRules o.port.val)
  else d

/-- A message of session `id` is authenticated: its host's place is learned, DEAD_TIME starts again, and a session in OPENING
leaves it (R69, R84, R88, R105). What the session held for want of a port to send on leaves on the one now learned (R107). -/
def Dev.proveHost (d : Dev) (o : Rx) (id : Nat) : Dev :=
  let place := some (o.src, o.addrSlot.val)
  let d := d.onSess id fun s => { s with
    place0 := if o.port.val = 0 then place else s.place0
    place1 := if o.port.val = 1 then place else s.place1
    port := o.port.val, deadDue := d.deadEnd }
  d.withSess id fun s => if s.st = .opening then d.leaveOpening id else d.sendHeld id

/-- A message of a session that is in service; one that names a SUSPENDED session is discarded (R88). -/
def Dev.sessRx (d : Dev) (o : Rx) (type : Nat) (f : Dev → Nat → Dev) : Dev :=
  d.takeRx o type fun d =>
    let id := o.msg.session.toNat
    match d.sess id with
    | none => d.rxDrop o.port.val
    | some s =>
      if s.st = .suspended then d.rxDrop o.port.val
      else
        let d := d.proveHost o id
        d.withSess id fun _ => f d id

/-- A message of the control stream by its SEQUENCE (R91): a new one is performed by `f`. -/
def Dev.ctlRx (d : Dev) (o : Rx) (type : Nat) (f : Dev → Nat → Dev) : Dev :=
  d.sessRx o type fun d id =>
    d.withSess id fun s =>
      match Table.get none s.answers o.msg.seq with
      | some a => if msgResend o.msg then d.sendMsg id a.type o.msg.seq (a.flags ||| fRESEND) a.payload else d
      | none => if belowWindow s.answers s.ctlAck o.msg.seq then d.sendNak id o.msg.seq 2 true else f d id

/-! ## OPEN (R77 to R83, R86, R103) -/

/-- Fields of an OPEN payload (Table 3.7). -/
structure OpenMsg where
  pav : Nat
  protect : Bool
  twin : Bool
  authKey : Nat
  resume : Nat
  eph : Bytes
  nonce : Bytes
  desc : Bytes
deriving DecidableEq, Repr

/-- An OPEN payload's fields. PROTECT other than 1 counts as 0. -/
def OpenMsg.ofBytes (b : Bytes) : OpenMsg :=
  { pav := fieldLE b 0 1, protect := decide (fieldLE b 1 1 = 1), twin := bitOf (fieldLE b 2 1) 0, authKey := fieldLE b 4 2
    resume := fieldLE b 8 4, eph := slice b 16 32, nonce := slice b 48 16, desc := slice b 64 48 }

/-- A destruction of the pavilion runs (R51). -/
def Dev.destroying (d : Dev) (p : Nat) : Bool := decide (d.pavState p = 5)

/-- The pavilion's destruction is forced. -/
def Dev.forced (d : Dev) (p : Nat) : Bool := (Table.get {} d.pavs p).forced

/-- The sum of WINDOW over the admitted deadline classes of a pavilion (R103). -/
def Dev.windowSum (d : Dev) (p : Nat) : Nat := ((d.classesOf p).map cdWindow).sum

/-- Why a new session is refused, 0 where it is admitted (R83, R103). -/
def Dev.openNewStatus (d : Dev) (m : OpenMsg) (v6 : Bool) : Nat :=
  let p := m.pav
  let entries := d.rd R.amn_INBOUND_ENTRIES 0 p
  let ceiling := d.payloadCeiling v6
  firstReason [
    refuse (d.authKey p m.authKey).isSome 0x0402,
    refuse (!d.destroying p) 0x0204,
    refuse (!cdData m.desc || decide (entries ≠ 0)) 0x020D,
    refuse (!cdData m.desc || decide (cdMaxRequest m.desc ≤ d.rd R.amn_INBOUND_SLOT 0 p - 64)) 0x0105,
    refuse (!cdTimed m.desc || decide (d.windowSum p + cdWindow m.desc ≤ entries)) 0x0309,
    refuse (decide (cdMaxRequest m.desc ≤ ceiling) && decide (cdMaxDeliver m.desc ≤ ceiling)) 0x0105,
    refuse (d.roomFor p 96) 0x0305,
    refuse (decide (d.net.sessions.length < 65536)) 0x0306,
    if cdTimed m.desc then d.admitReason p m.desc else 0]

/-- The session that an OPEN resumes, or why it is refused (R51, R83, R86, R103). -/
def Dev.openResumeStatus (d : Dev) (m : OpenMsg) : Nat :=
  firstReason [
    refuse (d.authKey m.pav m.authKey).isSome 0x0402,
    refuse (!(d.destroying m.pav && d.forced m.pav)) 0x0204,
    refuse (match d.sess m.resume with
      | some s => decide (s.pav = m.pav) && decide (s.st = .suspended) && decide (s.authKey = m.authKey) &&
          (s.protect == m.protect) && (s.twin == m.twin) && decide (s.desc = m.desc)
      | none => false) 0x0206,
    refuse (!cdData m.desc || decide (d.rd R.amn_INBOUND_ENTRIES 0 m.pav ≠ 0)) 0x020D]

/-- The lowest free index of the session table, index 0 last, and its generation; SESSION 0 names no session (Table 3.4). -/
def Dev.freeSession (d : Dev) : Nat :=
  let used := fun (i : Nat) => d.net.sessions.any fun s => decide (s.id % 65536 = i)
  let i := ((List.range 65535).map (· + 1) |>.find? fun i => !used i).getD 0
  let g := Table.get 0 d.net.gens i
  (if i = 0 ∧ g = 0 then 1 else g) * 65536 + i

/-- Keys of a session (R77). -/
def Session.rekey (s : Session) (ak ss hostNonce devNonce : Bytes) (limit : Nat) : Session :=
  let okm := hkdf ss ak (ascii "AMNOR SESSION" ++ leBytes 4 s.id ++ hostNonce ++ devNonce) 72
  { s with kHD := slice okm 0 32, kDH := slice okm 32 32, fixHD := slice okm 64 4, fixDH := slice okm 68 4
           limitIv := limit, txIv := 1, spent := false }

/-- OPEN_REPLY's payload (Table 3.9). -/
def openReply (status handle session answered limit : Nat) (eph nonce : Bytes) (time : Nat) : Bytes :=
  leBytes 2 status ++ leBytes 2 handle ++ leBytes 4 session ++ leBytes 8 answered ++ leBytes 8 limit ++ padTo 32 eph ++
    padTo 16 nonce ++ leBytes 8 time

/-- OPEN_REPLY leaves on the port where the OPEN arrived, or waits for the governor (R127), and is kept for a repeat of the OPEN (R78,
R82). Its TAG is a free value where the OPEN named no usable key. -/
def Dev.replyOpen (d : Dev) (o : Rx) (m : OpenMsg) (session ack : Nat) (payload : Bytes) (waits : Bool := false) : Dev :=
  let hd := msgHeader 0x02 (fCTL ||| (if m.twin then fTWIN else 0)) session 0 ack 0 payload.length
  let b := hd ++ zeros 8 ++ payload ++ leBytes 4 (crc32c (hd ++ payload))
  let (n, d) := d.draw
  let tag := match d.authKey m.pav m.authKey with
    | some k => openTag k b
    | none => leBytes 16 (Config.free n)
  let dead := d.rd R.amn_DEAD_TIME * 1000
  let d := d.onNet fun x => { x with
    opens := (x.opens.filter fun e => decide (d.time ≤ e.at_ + dead)) ++ [{ pav := m.pav, nonce := m.nonce, at_ := d.time, reply := b ++ tag }] }
  let tx := d.txOf o.port.val m.pav o.addrSlot.val o.src 7 (b ++ tag)
  if waits then d.onNet fun x => { x with openWait := x.openWait ++ [{ session := session, pav := m.pav, nonce := m.nonce, tx := tx }] }
  else d.emit (.msg tx)

/-- The fresh ephemeral private key and nonce of an OPEN_REPLY (R77). -/
def Dev.drawKeys (d : Dev) : Bytes × Bytes × Dev :=
  let (a, d) := d.draw
  let (b, d) := d.draw
  (padTo 32 (Config.random a 32), padTo 16 (Config.random b 16), d)

/-- An OPEN that repeats a nonce of the last DEAD_TIME, among the OPENs of its pavilion, gets the same OPEN_REPLY, which for one that
still waits is to come; one whose PAVILION does not own the address is discarded, and counted; another is judged by `f` (R82, Table 3.7,
notes/assumptions/45). -/
def Dev.openRx (d : Dev) (o : Rx) (resume : Bool) (f : Dev → OpenMsg → Dev) : Dev :=
  let m := OpenMsg.ofBytes o.msg.payload
  if decide (m.resume ≠ 0) ≠ resume then d.netAt o.t
  else d.takeRx o 0x01 fun d =>
    if m.pav ≠ o.pav.val then d.rxDrop o.port.val
    else
      match d.net.opens.find? fun e => decide (e.pav = m.pav) && decide (e.nonce = m.nonce) &&
          decide (d.time ≤ e.at_ + d.rd R.amn_DEAD_TIME * 1000) with
      | some e =>
        if d.net.openWait.any fun w => decide (w.pav = m.pav) && decide (w.nonce = m.nonce) then d
        else d.emit (.msg (d.txOf o.port.val m.pav o.addrSlot.val o.src 7 e.reply))
      | none => f d m

/-- A refused OPEN (R83). -/
def Dev.refuseOpen (d : Dev) (o : Rx) (m : OpenMsg) (status : Nat) : Dev :=
  let (priv, nonce, d) := d.drawKeys
  d.replyOpen o m 0 0 (openReply status 0 0 0 0 (x25519Public priv) nonce d.time)

/-- OPEN (R82): a new session admitted or refused. The reply to a deadline class leaves once the governor has set its clusters
(R127). -/
def execOpenNew (o : Rx) (s : State) : Host.Outcome State Fault Refusal :=
  s.act fun d => d.openRx o false fun d m =>
    let v6 := d.rxV6 o
    let status := d.openNewStatus m v6
    if status ≠ 0 then d.refuseOpen o m status
    else
      let (priv, nonce, d) := d.drawKeys
      let id := d.freeSession
      let place := some (o.src, o.addrSlot.val)
      let base : Session := {
        id := id, pav := m.pav, protect := m.protect, twin := m.twin, authKey := m.authKey, desc := m.desc
        handle := id % 65536 % 65535 + 1, ipv6 := v6, ceiling := d.payloadCeiling v6
        place0 := if o.port.val = 0 then place else none, place1 := if o.port.val = 1 then place else none
        port := o.port.val, limit := if cdData m.desc then cdWindow m.desc else 0
        limitAt := d.time, deadDue := d.deadEnd, kaDue := d.kaEnd }
      let x := base.rekey ((d.authKey m.pav m.authKey).getD []) (x25519 priv m.eph) m.nonce nonce (d.rd R.amn_INVOCATION_LIMIT)
      let d := d.onNet fun n => { n with
        sessions := n.sessions ++ [x]
        gens := Table.set 0 n.gens (id % 65536) ((id / 65536 + 1) % 65536) }
      let timed := cdTimed m.desc
      let d := if timed then d.deficitRules else d
      d.replyOpen o m id 0 (openReply 0 (if cdData m.desc then x.handle else 0) id 0 x.limit (x25519Public priv) nonce d.time)
        (timed && !d.demandMet m.pav)

/-- OPEN_RESUME (R86): a suspended session under new keys, in OPENING until its host is proved. -/
def execOpenResume (o : Rx) (s : State) : Host.Outcome State Fault Refusal :=
  s.act fun d => d.openRx o true fun d m =>
    let v6 := d.rxV6 o
    let other := match d.sess m.resume with
      | some s => decide (s.pav = m.pav) && (s.ipv6 != v6)
      | none => false
    let status := d.openResumeStatus m
    if other then d.rxDrop o.port.val
    else if status ≠ 0 then d.refuseOpen o m status
    else
      let (priv, nonce, d) := d.drawKeys
      let place := some (o.src, o.addrSlot.val)
      let ak := (d.authKey m.pav m.authKey).getD []
      let d := d.onSess m.resume fun s =>
        { s.rekey ak (x25519 priv m.eph) m.nonce nonce (d.rd R.amn_INVOCATION_LIMIT) with
          st := .opening, resumed := true
          ceiling := if s.kHD.isEmpty then d.payloadCeiling v6 else s.ceiling
          place0 := if o.port.val = 0 then place else s.place0, place1 := if o.port.val = 1 then place else s.place1
          port := o.port.val, deadDue := d.deadEnd, kaDue := d.kaEnd }
      d.withSess m.resume fun s =>
        d.replyOpen o m s.id s.ctlAck (openReply 0 (if cdData s.desc then s.handle else 0) s.id s.answered s.limit (x25519Public priv)
          nonce d.time)

/-! ## CONTROL (R111 to R114, R612) -/

/-- A CONTROL that R612 answers with 0x0107. -/
def controlBad (b : Bytes) : Bool :=
  let op := fieldLE b 0 1
  decide (op = 0) || decide (4 < op) || decide (1 < fieldLE b 1 1) || !allZero (slice b 4 4) ||
    (decide (op ≠ 4) && decide (fieldLE b 8 8 ≠ 0))

/-- A session whose AUTH_KEY is PCK, or ECK for the estate (R112, R524). -/
def Session.byControlKey (s : Session) : Bool := decide (s.authKey = 0xFFFF)

/-- A well-formed CONTROL of the row's OP: `f` performs it and gives its STATUS (R112). -/
def Dev.controlRx (d : Dev) (o : Rx) (op : Nat) (f : Dev → Nat → Nat → Nat × Dev) (after : Dev → Nat → Nat → Dev) : Dev :=
  let b := o.msg.payload
  if fieldLE b 0 1 ≠ op ∨ controlBad b then d.netAt o.t
  else d.ctlRx o 0x0A fun d id => d.withSess id fun s =>
    let scope := fieldLE b 1 1
    let (status, d) := if scope = 1 ∧ !s.byControlKey then (0x0401, d) else f d id scope
    let d := d.answer id o.msg.seq 0x0A 0 (controlPayload (op + 0x80) scope status (fieldLE b 8 8))
    if status = 0 then after d id scope else d

/-- The sessions that a command acts on: its own, or every one of the pavilion. -/
def Dev.scoped (d : Dev) (id scope : Nat) : List Nat :=
  match d.sess id with
  | none => []
  | some s => if scope = 1 then (d.net.sessions.filter fun x => decide (x.pav = s.pav)).map (·.id) else [id]

/-- STOP, RESUME or DRAIN (R112): its STATUS, and the sessions moved. -/
def Dev.control (d : Dev) (id scope : Nat) (st : SessSt) (standing : Nat) : Nat × Dev :=
  match d.sess id with
  | none => (0, d)
  | some s =>
    if scope = 0 ∧ s.st = .closing then (0x0205, d)
    else
      let ids := d.scoped id scope
      let d := if scope = 1 then d.onNet fun n => { n with
          standingSt := Table.set 0 n.standingSt s.pav standing
          sessions := n.sessions.map fun x => if x.pav = s.pav then { x with standing := true } else x }
        else d
      (0, ids.foldl (fun d i => d.withSess i fun x =>
        if x.st = .open ∨ x.st = .stopped ∨ x.st = .draining then d.moveState i st else d) d)

/-- STOP (R112). -/
def execStop (o : Rx) (s : State) : Host.Outcome State Fault Refusal :=
  s.act fun d => d.controlRx o 1 (fun d id scope => d.control id scope .stopped 1) fun d _ _ => d

/-- RESUME (R112). -/
def execResume (o : Rx) (s : State) : Host.Outcome State Fault Refusal :=
  s.act fun d => d.controlRx o 2 (fun d id scope => d.control id scope .open 0) fun d _ _ => d

/-- DRAIN (R112, R114): answered at once, then DRAINED of each session with no unretired request. -/
def execDrain (o : Rx) (s : State) : Host.Outcome State Fault Refusal :=
  s.act fun d => d.controlRx o 3 (fun d id scope => d.control id scope .draining 2) fun d id scope =>
    (d.scoped id scope).foldl (fun d i => d.withSess i fun x => if x.st = .draining then d.checkEmpty i else d) d

/-- CONTROL_UNDEFINED (R612): STATUS 0x0107 under OP + 0x80, or 0x80 for an undefined OP. -/
def execControlUndefined (o : Rx) (s : State) : Host.Outcome State Fault Refusal :=
  s.act fun d =>
    let b := o.msg.payload
    if !controlBad b then d.netAt o.t
    else d.ctlRx o 0x0A fun d id =>
      let op := fieldLE b 0 1
      let code := if 1 ≤ op ∧ op ≤ 4 then op + 0x80 else 0x80
      d.answer id o.msg.seq 0x0A 0 (controlPayload code (fieldLE b 1 1) 0x0107 (fieldLE b 8 8))

/-- DRAINED_REPEAT (R114). -/
def execDrainedRepeat (o : OpSessT) (s : State) : Host.Outcome State Fault Refusal :=
  s.act fun d =>
    let d := d.netAt o.t
    let id := o.session.toNat
    d.withSess id fun s =>
      match s.drained with
      | some t => if s.st = .draining ∧ t ≤ d.time then d.sendDrained id else d
      | none => d

/-! ## KEEPALIVE, CLOSE and the timers of a session (R84, R88, R89) -/

/-- KEEPALIVE (R88). -/
def execKeepalive (o : Rx) (s : State) : Host.Outcome State Fault Refusal :=
  s.act fun d => d.sessRx o 0x0C fun d _ => d

/-- KEEPALIVE_SEND (R88, R96). -/
def execKeepaliveSend (o : OpSessT) (s : State) : Host.Outcome State Fault Refusal :=
  s.act fun d =>
    let d := d.netAt o.t
    let id := o.session.toNat
    d.withSess id fun s =>
      if s.st = .suspended ∨ d.time < s.kaDue then d
      else (d.sendMsg id 0x0C 0 0 (leBytes 8 d.time)).sendCredit id

/-- CLOSE (R89): reason 0 where the session is then CLOSED, 0x0205 where it has unretired requests and enters CLOSING. -/
def execClose (o : Rx) (s : State) : Host.Outcome State Fault Refusal :=
  s.act fun d => d.ctlRx o 0x0D fun d id => d.withSess id fun s =>
    if s.reqs.isEmpty then
      let d := d.answer id o.msg.seq 0x0D 0 (closePayload 0)
      d.withSess id fun s => d.endSession s
    else (d.moveState id .closing).answer id o.msg.seq 0x0D 0 (closePayload 0x0205)

/-- SESSION_SUSPEND (R88): DEAD_TIME with no authenticated message. -/
def execSessionSuspend (o : OpSessT) (s : State) : Host.Outcome State Fault Refusal :=
  s.act fun d =>
    let d := d.netAt o.t
    let id := o.session.toNat
    d.withSess id fun s => if s.st.live ∧ s.deadDue ≤ d.time then d.suspend id else d

/-- OPENING_TIMEOUT (R84, R86): a new session is discarded, a resumed one returns to SUSPENDED. The time runs from the OPEN_REPLY. -/
def execOpeningTimeout (o : OpSessT) (s : State) : Host.Outcome State Fault Refusal :=
  s.act fun d =>
    let d := d.netAt o.t
    let id := o.session.toNat
    d.withSess id fun s =>
      if s.st = .opening ∧ s.deadDue ≤ d.time ∧ !d.net.openWait.any (fun w => decide (w.session = id)) then
        if s.resumed then d.suspend id else d.endSession s
      else d

end Sys2Proof.Machine
end

