-- ==== Sys2Proof/Machine/Requests.lean ====
section
/-! DEFINITION. Machine/Requests.lean: requests from the REQUEST to the retirement: duplicates, journaling, the inbound ring,
cancel notices, DLVR and the DELIVER, credit (R17 to R19, R91 to R103, R113, R305 to R307, R370). -/

namespace Sys2Proof.Machine

/-! ## The inbound ring (R100 to R102) -/

/-- The address of entry `k` of a pavilion's inbound ring (R100). -/
def Dev.inEntry (d : Dev) (p k : Nat) : Nat :=
  d.rd R.amn_INBOUND_BASE 0 p + d.rd R.amn_INBOUND_SLOT 0 p * (k % max 1 (d.rd R.amn_INBOUND_ENTRIES 0 p))

/-- FULL of entry `k`. -/
def Dev.inFull (d : Dev) (p k : Nat) : Bool × Dev :=
  let (b, _, d) := d.devRead p (d.inEntry p k + 33) 1
  (bitOf (leNat b) 0, d)

/-- The entries of a pavilion that may have FULL set, oldest first: those the program has freed, in ring order, are left
out. -/
def Dev.inRefresh (d : Dev) (p : Nat) : Dev :=
  let go := fun (acc : Bool × Dev) (e : InEntry) =>
    if acc.1 then acc
    else
      let (full, d) := acc.2.inFull p e.index
      if full then (true, d) else (false, d.onNet fun n => { n with inRing := n.inRing.erase e })
  ((d.net.inRing.filter fun e => decide (e.pav = p)).foldl go (false, d)).2

/-- Some entry of the pavilion's ring has FULL set, whoever set it (R100). -/
def Dev.anyFull (d : Dev) (p : Nat) : Bool × Dev :=
  (List.range (d.rd R.amn_INBOUND_ENTRIES 0 p)).foldl (fun acc k => if acc.1 then acc else acc.2.inFull p k) (false, d)

/-- Entries that the admitted deadline classes may still need: the sum of their WINDOW values less their requests in the ring
(R102). -/
def Dev.inNeed (d : Dev) (p : Nat) : Nat :=
  let timed := fun (id : Nat) => match d.sess id with
    | some s => decide (s.pav = p) && cdTimed s.desc
    | none => false
  d.windowSum p - (d.net.inRing.filter fun e => decide (e.pav = p) && decide (e.kind = 1) && timed e.session).length

/-- The request that a placing is about. -/
def Dev.placingReq (d : Dev) (q : Placing) : Option (Session × HostReq) :=
  match d.sess q.session with
  | none => none
  | some s => (s.reqs.find? fun r => decide (r.seq = q.seq)).map fun r => (s, r)

/-- The header of an inbound entry (Table 3.14). -/
def inHead (s : Session) (r : HostReq) (kind : Nat) : Bytes :=
  let fl := 1 ||| (if kind = 1 ∧ r.replayed then 2 else 0) ||| (if bitOf r.rxflags 1 then 4 else 0) |||
    (if bitOf r.rxflags 2 then 8 else 0) ||| (if bitOf r.rxflags 0 then 16 else 0)
  leBytes 4 s.id ++ leBytes 2 s.handle ++ leBytes 2 (if kind = 1 then r.payload.length else 0) ++ leBytes 8 r.seq ++ leBytes 8 r.arrival ++
    leBytes 8 r.due ++ leBytes 1 kind ++ leBytes 1 fl ++ zeros 30

/-- What is to be placed for a request of a session. -/
def Session.placing (s : Session) (r : HostReq) (kind : Nat) : Placing :=
  { pav := s.pav, session := s.id, seq := r.seq, kind := kind, timed := cdTimed s.desc, head := inHead s r kind }

/-- A request or notice written into the next entry: payload and padding, header, doorbell (R102, R370). -/
def Dev.placeNow (d : Dev) (q : Placing) : Dev :=
  let p := q.pav
  let k := Table.get 0 d.net.inIndex p
  let a := d.inEntry p k
  let body := if q.kind = 1 then ((d.placingReq q).map fun e => e.2.payload).getD [] else []
  let d := d.devWrite p (a + 64) (padTo (d.rd R.amn_INBOUND_SLOT 0 p - 64) body)
  let d := (d.devWrite p a q.head).ring p (d.rd R.amn_INBOUND_DOORBELL 0 p)
  let d := d.onNet fun n => { n with
    inIndex := Table.set 0 n.inIndex p (k + 1)
    inRing := n.inRing ++ [{ pav := p, index := k, session := q.session, kind := q.kind }]
    inQ := n.inQ.erase q }
  d.onSess q.session fun s => { s with reqs := s.reqs.map fun x => if x.seq = q.seq ∧ q.kind = 1 then { x with placed := true } else x }

/-- The first that waits in a pavilion and may take the next entry, placed; one of a class without deadline leaves the entries
that deadline classes may need (R102). -/
def Dev.placeOne (d : Dev) (p : Nat) : Bool × Dev :=
  let entries := d.rd R.amn_INBOUND_ENTRIES 0 p
  if entries = 0 then (false, d)
  else
    let d := d.inRefresh p
    let used := (d.net.inRing.filter fun e => decide (e.pav = p)).length
    let (full, d) := d.inFull p (Table.get 0 d.net.inIndex p)
    if full ∨ entries ≤ used then (false, d)
    else
      match d.net.inQ.find? fun q => decide (q.pav = p) && (q.timed || decide (d.inNeed p < entries - used)) with
      | none => (false, d)
      | some q => (true, d.placeNow q)

/-- Every one that can be placed is placed. -/
def placeLoop : Nat → Dev → Nat → Dev
  | 0, d, _ => d
  | n + 1, d, p => let (more, d) := d.placeOne p; if more then placeLoop n d p else d

/-- Requests that now wait are counted once (R102). -/
def Dev.countWaits (d : Dev) (p : Nat) : Dev :=
  let new := d.net.inQ.filter fun q => decide (q.pav = p) && decide (q.kind = 1) && !q.counted
  (d.onNet fun n => { n with inQ := n.inQ.map fun q => if q.pav = p then { q with counted := true } else q }).bump
    R.amn_INBOUND_WAITS 0 p new.length

/-- A request or cancel notice joins the queue of its pavilion, and what can be placed is placed. -/
def Dev.enqueueIn (d : Dev) (q : Placing) : Dev :=
  let d := d.onNet fun n => { n with inQ := n.inQ ++ [q] }
  (placeLoop d.net.inQ.length d q.pav).countWaits q.pav

/-- INBOUND_PLACEMENT (R102). -/
def execInboundPlacement (o : OpPavT) (s : State) : Host.Outcome State Fault Refusal :=
  s.act fun d => ((d.netAt o.t).placeOne o.pav.val).2

/-! ## REQUEST (R91, R96 to R98) -/

/-- Why a new REQUEST is rejected, 0 where it is accepted. -/
def Dev.rejectReason (d : Dev) (s : Session) (seq n : Nat) : Nat :=
  firstReason [
    refuse (!d.destroying s.pav) 0x0204,
    refuse (decide (s.st = .open)) 0x0203,
    refuse (decide (seq ≤ s.limit)) 0x0505,
    refuse (decide (n ≤ cdMaxRequest s.desc)) 0x0105,
    refuse (d.roomFor s.pav (64 + 16 * ceilDiv n 16)) 0x0305]

/-- The outcome of a sequence joins the window of the 1,024 highest (R91). -/
def Session.setOutcome (s : Session) (seq outcome : Nat) : Session :=
  { s with outcomes := keep1024 ((s.outcomes.erase seq).insert seq outcome) }

/-- A new REQUEST: rejected, or journaled (R98, R146). -/
def Dev.newRequest (d : Dev) (o : Rx) (id : Nat) : Dev :=
  d.withSess id fun s =>
    let seq := o.msg.seq
    let d := d.advanceTail s.pav
    let why := d.rejectReason s seq o.msg.payload.length
    if why ≠ 0 then (d.onSess id fun s => (s.setOutcome seq why).advance).sendOutcome id seq why 0
    else
      let due := if cdTimed s.desc then o.t + cdDeadline s.desc else 0
      let rxflags := (if o.port.val = 1 then 1 else 0) ||| (if s.twin then 2 else 0) ||| (if msgEnc o.msg then 4 else 0)
      let d := d.append s.pav (.req id s.handle seq o.t due rxflags o.msg.payload) false
      d.onSess id fun s => { s.setOutcome seq 0 with reqs := s.reqs ++ [{
        seq := seq, arrival := o.t, due := due, rxflags := rxflags, payload := o.msg.payload }] }

/-- REQUEST (R91). -/
def execRequest (o : Rx) (s : State) : Host.Outcome State Fault Refusal :=
  s.act fun d => d.sessRx o 0x03 fun d id =>
    let d := d.acknowledge id o.msg.ack []
    d.withSess id fun s =>
      let seq := o.msg.seq
      match s.outcomes.find? fun e => decide (e.1 = seq) with
      | some e =>
        if !msgResend o.msg || s.unaccepted seq then d else d.sendOutcome id seq e.2 fRESEND
      | none => if belowWindow s.outcomes s.floor seq then d.sendNak id seq 2 false else d.newRequest o id

/-- A request accepted while the timebase coasts or a pace deficit is raised (R135, R138). -/
def Dev.acceptReq (d : Dev) (r : HostReq) : HostReq :=
  { r with accepted := true, unverified := r.unverified || d.plat.coast, inDeficit := r.inDeficit || d.plat.deficit }

/-- REQ_RECORD_COMPLETE (R146): ACCEPT is sent, and the request is placed (R102). -/
def execReqRecordComplete (o : OpSeqT) (s : State) : Host.Outcome State Fault Refusal :=
  s.act fun d =>
    let d := d.netAt o.t
    let id := o.session.toNat
    d.withSess id fun s =>
      if !s.unaccepted o.seq then d
      else
        let d := d.completeRec s.pav fun b => match b with
          | .req i _ q .. => decide (i = id) && decide (q = o.seq)
          | _ => false
        let d := d.onSess id fun s =>
          Session.advance { s with reqs := s.reqs.map fun r => if r.seq = o.seq then d.acceptReq r else r }
        let d := d.sendOutcome id o.seq 0 0
        match s.reqs.find? fun r => decide (r.seq = o.seq) with
        | some r => d.enqueueIn (s.placing r 1)
        | none => d

/-! ## ACK and NAK (R94) -/

/-- The ranges of an ACK. -/
def ackRanges (b : Bytes) : List (Nat × Nat) :=
  (List.range (fieldLE b 0 2)).map fun i => (fieldLE b (8 + 16 * i) 8, fieldLE b (16 + 16 * i) 8)

/-- ACK (R94). On the control stream it acknowledges nothing that the device waits for. -/
def execAck (o : Rx) (s : State) : Host.Outcome State Fault Refusal :=
  s.act fun d => d.sessRx o 0x07 fun d id =>
    if msgCtl o.msg then d else d.acknowledge id o.msg.ack (ackRanges o.msg.payload)

/-- NAK (R94): on the data stream with cause 1, a DELIVER sent and not acknowledged is sent again at once. -/
def execNak (o : Rx) (s : State) : Host.Outcome State Fault Refusal :=
  s.act fun d => d.sessRx o 0x08 fun d id =>
    if msgCtl o.msg then d
    else
      let d := d.acknowledge id o.msg.ack []
      d.withSess id fun s =>
        match s.reqs.find? fun r => decide (r.seq = o.msg.seq) && r.sent.isSome with
        | some r => if fieldLE o.msg.payload 0 1 = 1 ∧ d.canSend s then d.resendDeliver id r r.interval else d
        | none => d

/-- DELIVER_RESEND (R94). -/
def execDeliverResend (o : OpSeqT) (s : State) : Host.Outcome State Fault Refusal :=
  s.act fun d =>
    let d := d.netAt o.t
    let id := o.session.toNat
    d.withSess id fun s =>
      match s.reqs.find? fun r => decide (r.seq = o.seq) && r.sent.isSome with
      | some r =>
        if d.canSend s ∧ r.lastSent + r.interval ≤ d.time then
          d.resendDeliver id r (min (2 * r.interval) (d.rd R.amn_RESEND_CAP * 1000))
        else d
      | none => d

/-! ## CANCEL (R113) -/

/-- CANCEL (R113): a cancel notice for an accepted request that is not retired. Where no entry is free it waits for one as a request
does, and is posted even if the request has been retired by then (R102). -/
def execCancel (o : Rx) (s : State) : Host.Outcome State Fault Refusal :=
  s.act fun d => d.controlRx o 4 (fun d id _ =>
    let seq := fieldLE o.msg.payload 8 8
    match d.sess id with
    | none => (0, d)
    | some s =>
      match s.reqs.find? fun r => decide (r.seq = seq) && r.accepted with
      | some r => (0, d.enqueueIn (s.placing r 2))
      | none => (0x0208, d)) fun d _ _ => d

/-! ## DLVR (R305 to R307) -/

/-- The checks of Table 9.20, then the DELIVER posted, with its payload copied into the hub, and sent if it can be. -/
def dlvrSubmit (_c p a : Nat) (b : Bytes) (d : Dev) : Submission :=
  let id := fieldLE b 0 4
  let len := fieldLE b 4 2
  let seq := fieldLE b 8 8
  let (buf, d) := d.devCap p (a + 16)
  match d.sess id with
  | none => (0x0401, 0, d)
  | some s =>
    let req := s.reqs.find? fun r => decide (r.seq = seq) && r.accepted
    let why := firstReason [
      refuse (decide (s.pav = p)) 0x0401,
      refuse (decide (fieldLE b 6 2 = 0)) 0x0107,
      refuse req.isSome 0x0208,
      refuse (match req with | some r => r.deliver.isNone | none => true) 0x020E,
      refuse (decide (len ≤ min 8192 (cdMaxDeliver s.desc))) 0x0105,
      refuse (decide (len = 0) || d.bufOk p buf len permLD) 0x0108]
    if why ≠ 0 then (why, 0, d)
    else
      let (payload, _, d) := if len = 0 then ([], false, d) else d.devRead p buf.cursor.toNat len
      let held := !d.canSend s
      let d := d.onSess id fun s => { s with reqs := s.reqs.map fun r => if r.seq = seq then
        { r with deliver := some (payload, d.time), heldPost := held } else r }
      (0, 0, d.sendDeliver id seq)

/-- The body of DLVR. -/
def dlvrBody (o : OpDev) : Body := submitBody o 32 dlvrSubmit

/-- DLVR (R305 to R307). -/
def execDlvr (o : OpDev) (s : State) : Host.Outcome State Fault Refusal := s.exchange o.core (.dlvr o) (dlvrBody o)

/-! ## Credit (R96, R97) -/

/-- CREDIT (R96, R97): LIMIT rises to ANSWERED + WINDOW at most, by no more than RATE allows since it last rose, while the
hearth ring can take WINDOW requests. -/
def execCredit (o : OpSessT) (s : State) : Host.Outcome State Fault Refusal :=
  s.act fun d =>
    let d := d.netAt o.t
    let id := o.session.toNat
    d.withSess id fun s =>
      let n := min (s.answered + s.window - s.limit) ((d.time - s.limitAt) * cdRate s.desc / 1000000000)
      if !s.st.live ∨ n = 0 ∨ !d.roomFor s.pav (s.window * (64 + 16 * ceilDiv (cdMaxRequest s.desc) 16)) then d
      else (d.onSess id fun s => { s with limit := s.limit + n, limitAt := d.time }).sendCredit id

end Sys2Proof.Machine
end

