-- ==== Sys2Proof/Machine/Values.lean ====
section
/-! DEFINITION. Machine/Values.lean: what a READ of each entry returns (R521, R523, R551, R557, Table 20.6): the values in
force, and the entries that report other state of the device. -/

namespace Sys2Proof.Machine

/-! ## Units that no pavilion holds (R29, R557) -/

/-- A removed resource that is not freed yet is in no pool (R50, R557). -/
def Dev.beingRemoved (d : Dev) (x : Res) : Bool := d.removing.any fun e => decide (e.2 = x)

/-- A bitmap entry of every pavilion that exists, joined. -/
def Dev.heldUnits (d : Dev) (e : Entry) : Nat :=
  (List.range 64).foldl (fun acc p => if d.pavExists p then acc ||| d.rd e p else acc) 0

/-- A granule that exists, in a stack that passed its test, and is not the device's own (Table 14.1, R584). -/
def Dev.assignable (d : Dev) (g : Nat) : Bool :=
  decide (g < 288) && fitted (g / 36) && !d.plat.badStacks.contains (g / 36) && !deviceGranule g

/-- FREE_CORES: lost cores belong to no pool. -/
def Dev.freeCores (d : Dev) : Nat :=
  let held := d.heldUnits R.pav_CORES
  bitmap 256 fun c => !bitOf held c && decide ((d.core c).run ≠ .lost) && !d.beingRemoved (.core c)

/-- FREE_GRANULES. -/
def Dev.freeGranules (d : Dev) : Nat :=
  let held := d.heldUnits R.pav_GRANULES
  bitmap 288 fun g => d.assignable g && !bitOf held g && !d.beingRemoved (.granule g)

/-- FREE_BANKS. -/
def Dev.freeBanks (d : Dev) : Nat := bitmap 512 fun b => decide (d.bank b = .free)

/-- FREE_ENDPOINTS. -/
def Dev.freeEndpoints (d : Dev) : Nat :=
  let held := d.heldUnits R.pav_ENDPOINTS
  bitmap 4096 fun e => !bitOf held e && !d.beingRemoved (.endpoint e)

/-- FREE_WAY_GROUPS. -/
def Dev.freeWayGroups (d : Dev) : Nat :=
  let held := d.heldUnits R.pav_WAY_GROUPS
  bitmap 128 fun g => !bitOf held g && !d.beingRemoved (.wayGroup g)

/-- The sum of one SHARES byte over the pavilions that exist. -/
def Dev.shareSum (d : Dev) (i : Nat) : Nat :=
  ((List.range 64).map fun p => if d.pavExists p then elem 1 (d.rd R.pav_SHARES p) i else 0).sum

/-- The sum of KEY_SLOTS over the pavilions that exist. -/
def Dev.keySlotSum (d : Dev) : Nat := ((List.range 64).map fun p => if d.pavExists p then d.rd R.pav_KEY_SLOTS p else 0).sum

/-- Key slots removed and not freed yet. -/
def Dev.keySlotsRemoving (d : Dev) : Nat := (d.removing.filter fun e => match e.2 with | .keySlot _ => true | _ => false).length

/-! ## Reports of other state -/

/-- The hottest element of TJ, I16 in units of 0.1 °C (Table 20.2); 0x8000 stands for a stack not fitted. -/
def Dev.tjMax (d : Dev) : Int :=
  let vals := (List.range 15).filterMap fun i =>
    let v := elem 2 (d.rd R.dev_TJ) i
    if 5 ≤ i ∧ i < 13 ∧ !bitOf Config.stacks (i - 5) then none
    else some (if v < 32768 then (v : Int) else (v : Int) - 65536)
  vals.foldl max (vals.headD 0)

/-- An integer as an I16. -/
def i16 (v : Int) : Nat := (v % 65536).toNat

/-- DEVICE_STATUS, whose low byte is STATUS of the I2C window (Tables 19.10, 20.2). -/
def Dev.deviceStatus (d : Dev) : Nat :=
  bitmap 7 fun i => match i with
    | 0 => decide (d.plat.step = 12)
    | 1 => decide (d.rd R.dev_FAULT_CAUSES ≠ 0)
    | 2 => d.alertOpen
    | 3 => d.plat.therm
    | 4 => d.plat.deficit
    | 5 => d.plat.coast
    | _ => !d.plat.limited.isEmpty

/-- PACE_FLAGS (Table 4.5). -/
def Dev.paceFlags (d : Dev) : Nat :=
  bitmap 3 fun i => match i with | 0 => d.plat.deficit | 1 => d.plat.coast | _ => !d.plat.limited.isEmpty

/-- CLOCK_STATUS (Table 21.6): the SerDes PLLs coast while neither reference is present. -/
def Dev.clockStatus (d : Dev) : Nat :=
  bitmap 6 fun i => match i with
    | 0 => d.plat.xtal | 1 => d.plat.refA | 2 => d.plat.refB | 3 => d.plat.onB
    | 4 => !d.plat.refA && !d.plat.refB | _ => d.plat.coast

/-- ns of the timebase since READY_L asserted; 0 before (Table 20.2). -/
def Dev.uptime (d : Dev) : Nat := if d.plat.step = 12 then d.time - d.plat.readyAt else 0

/-- OVERDUE_OPEN: accepted requests past their due time with no DELIVER (Table 4.5). -/
def Dev.overdueOpen (d : Dev) : Nat :=
  (d.net.sessions.map fun s => (s.reqs.filter fun r =>
    r.accepted && decide (r.due ≠ 0) && decide (r.due + r.shift < d.time) && r.deliver.isNone).length).sum

/-- SLOT_OWNER of a slot (Table 20.5). -/
def Dev.slotOwner (d : Dev) (c : Nat) : Nat :=
  if (d.core c).run = .lost then 0xFF else (d.coreOwner c).getD 0xFF

/-- CORE_STATE of a logical core (Table 16.2). -/
def CoreRun.code (r : CoreRun) : Nat :=
  match r with
  | .free => 0 | .stopped => 1 | .running => 2 | .retrying => 3 | .selfTest => 4 | .handingOver => 5 | .wedged => 6 | .lost => 7

/-- OWNERS of a bank (Table 14.4). -/
def BankSt.code (b : BankSt) : Nat :=
  match b with
  | .free => 0xFF | .held p => p | .clearing p => p | .releasing .. => 0xFD | .released .. => 0xFE

/-- RELEASED_BY of a bank (Table 14.7). -/
def BankSt.releaser (b : BankSt) : Nat :=
  match b with
  | .releasing p _ => p | .released p _ => p | _ => 0xFF

/-- Sessions in each state of Table 3.11, in its order; CLOSED sessions have no entry. -/
def Dev.sessionCounts (d : Dev) : Nat :=
  ofElems 4 ([SessSt.opening, .open, .stopped, .draining, .closing, .suspended].map
    (fun st => (d.net.sessions.filter fun s => decide (s.st = st)).length) ++ [0])

/-- KiB occupied in ring `r`, rounded up. -/
def Dev.ringUse (d : Dev) (r : Nat) : Nat := ceilDiv (d.ringUsed r) 1024

/-- KEY_INFO of a pavilion: 24 bytes for each slot it holds (Table 17.8). -/
def Dev.keyInfo (d : Dev) (p : Nat) : Bytes :=
  (List.range (d.rd R.pav_KEY_SLOTS p)).flatMap fun n =>
    let k := d.keySlot p n
    leBytes 1 k.kind ++ zeros 3 ++ leBytes 4 k.fix ++ leBytes 8 k.limit ++ leBytes 8 k.next

/-- The I2C window's registers as they stand (Table 19.10). -/
def Dev.windowNow (d : Dev) : Bytes :=
  leBytes 2 0x7256 ++ leBytes 1 1 ++ leBytes 1 d.deviceStatus ++ leBytes 2 (i16 d.tjMax) ++ leBytes 2 (d.rd R.pow_INPUT_POWER) ++
    leBytes 2 (d.rd R.pow_POWER_CAP) ++ leBytes 2 (d.pAdmit d.deadlineClusters) ++ leBytes 2 d.plat.i2cResult ++ zeros 2 ++
    padTo 16 ((d.alerts.head?.map Alert.bytes).getD []) ++ leBytes 4 d.alertCount ++ leBytes 4 (d.uptime / 1000000000) ++
    leBytes 8 (d.rd R.dev_SERIAL) ++ zeros 16

/-- The value of an entry of block `base` that reports other state of the device, for reader `p`; none for the entries whose
value is kept under their key. -/
def Dev.reported (d : Dev) (p base sub i : Nat) : Option Nat :=
  match base with
  | 0x1000 => match sub with
    | 0x08 => some d.deviceStatus
    | 0x0A => some ((List.range 8).foldl (fun v s => if bitOf Config.stacks s then v else withElem 2 v (5 + s) 0x8000) (d.rd R.dev_TJ))
    | 0x0B => some (i16 d.tjMax)
    | 0x0E => some d.uptime
    | _ => none
  | 0x1100 => match sub with
    | 0x05 => some (d.pAdmit d.deadlineClusters)
    | 0x07 => some d.paceFlags
    | 0x0C => some d.overdueOpen
    | 0x13 => some d.deadlineClusters
    | 0x20 => some d.clockStatus
    | 0x25 => some (d.rd R.pow_COAST_TIME + (if d.plat.coast then d.time - d.plat.coastFrom else 0))
    | _ => none
  | 0x1200 => match sub with
    | 0x03 => some (bitmap 64 fun q => d.pavExists q)
    | 0x04 => some d.freeCores
    | 0x05 => some d.freeGranules
    | 0x06 => some d.freeBanks
    | 0x07 => some d.freeEndpoints
    | 0x09 => some d.freeWayGroups
    | 0x0A => some (ofElems 2 ((List.range 8).map fun k => 256 - d.shareSum k))
    | 0x0B => some (1024 - d.keySlotSum - d.keySlotsRemoving)
    | 0x0E => some (ofElems 2 ((List.range 64).map fun q => (d.classesOf q).length))
    | 0x0F => some (ofElems 2 ((List.range 64).map fun q => ((d.classesOf q).map cdCores).sum))
    | 0x10 => some (leNat (d.alerts.flatMap Alert.bytes))
    | 0x11 => some (bitmap 256 fun c => decide ((d.core c).run = .lost))
    | _ => none
  | 0x3000 => match sub with
    | 0x03 => some (ofElems 1 ((List.range 16).map fun k => d.slotOwner (16 * i + k)))
    | 0x04 => some (ofElems 1 ((List.range 16).map fun k => (d.core (16 * i + k)).run.code))
    | 0x20 => some (ofElems 2 ((List.range 16).map fun k =>
        if d.coreOwner (16 * i + k) = some p then elem 2 (d.rd R.clu_TWIN_PARTNER i) k else 0xFFFF))
    | _ => none
  | 0x3410 => match sub with
    | 0x03 => some (ofElems 8 ((List.range 16).map fun w => if d.wayGroupOwner i (w / 2) = some p then d.wayLock i w else 0))
    | 0x04 => some (bitmap 16 fun w => (d.wayLockedBy i w).isSome)
    | 0x05 => some (bitmap 8 fun g => match d.wayGroupOwner i g with | some q => d.strict q | none => false)
    | _ => none
  | 0x3800 => match sub with
    | 0x03 => some (ofElems 1 ((List.range 32).map fun b => (d.bank (32 * i + b)).code))
    | 0x04 => some (ofElems 1 ((List.range 32).map fun b => (d.bank (32 * i + b)).releaser))
    | 0x07 => some (Table.get 0 d.mem.deferrals i)
    | _ => none
  | 0x3810 => match sub with
    | 0x03 => some (ofElems 2 ((List.range 247).map fun s => d.seg p s))
    | _ => none
  | 0x4000 => match sub with
    | 0x19 => some (d.pairStatus (i / 2))
    | 0x1A => some ((List.range 64).map fun q => d.linkSlots q i).sum
    | _ => none
  | 0x5000 => match sub with
    | 0x0A => some (d.chan.ops.filter fun o => decide (o.ep = i) && o.isOpen).length
    | 0x0B => some (d.postedOf i).length
    | 0x0C => some ((d.epOwner i).getD 0xFF)
    | _ => none
  | 0x6100 => match sub with
    | 0x09 => some d.sessionCounts
    | 0x24 => some (d.net.inQ.filter fun q => decide (q.pav = p) && decide (q.kind = 1)).length
    | _ => none
  | 0x7000 => match sub with
    | 0x04 => some (2031616 - ((List.range 64).map fun q => if d.pavExists q then d.rd R.pav_HEARTH_QUOTA q else 0).sum)
    | 0x11 => some (ofElems 4 ((List.range 64).map fun q => d.ringUse q))
    | 0x12 => some (d.ringUse p)
    | 0x13 => some (elem 4 (d.rd R.hearth_WINDOW_SIZE) p)
    | _ => none
  | 0x7100 => match sub with | 0x07 => some d.strictEngineSlots | _ => none
  | 0x7200 => match sub with | 0x08 => some d.strictEngineSlots | _ => none
  | 0xF000 => match sub with
    | 0x03 => some (leNat ((d.alerts.head?.map Alert.bytes).getD []))
    | 0x04 => some (leNat d.plat.window)
    | 0x05 => some (0x58 + d.rd R.pow_STRAPS / 8 % 4)
    | _ => none
  | _ => none

/-- The value that pavilion `p` reads of instance `i` of an entry. -/
def Dev.valueOf (d : Dev) (p : Nat) (e : Entry) (i : Nat) : Bytes :=
  if e.base = 0x7180 ∧ e.sub = 0x10 then d.keyInfo p
  else leBytes e.size ((d.reported p e.base e.sub i).getD (d.rd e i p))

end Sys2Proof.Machine
end

