-- ==== Sys2Proof/Machine/Dict.lean ====
section
/-! DEFINITION. Machine/Dict.lean: DICT messages: their payload, the checks of R526, segments, snapshots, the record of refusals
and what each change class does with a value (R519 to R536, R541, R614). Each row of the table that writes an entry gives
`Dev.writeRx` the rules of its entry's chapter. -/

namespace Sys2Proof.Machine

/-! ## The payload (Table 19.4) -/

/-- A DICT request. -/
structure DictReq where
  op : Nat
  sub : Nat
  index : Nat
  type : Nat
  offset : Nat
  total : Nat
  /-- MORE of the header. -/
  more : Bool
  data : Bytes
  /-- Check 1 of R526. -/
  wellFormed : Bool
deriving DecidableEq, Repr

/-- The fields of a DICT message. An OP that Table 19.4 does not name and a VLENGTH above 1,024 break its layout. -/
def DictReq.ofMsg (m : Msg) : DictReq :=
  let b := m.payload
  let n := fieldLE b 16 2
  { op := fieldLE b 0 1, sub := fieldLE b 1 1, index := fieldLE b 2 2, type := fieldLE b 6 1, offset := fieldLE b 8 4
    total := fieldLE b 12 4, more := m.flags.getLsbD 7, data := b.drop 24
    wellFormed := decide (fieldLE b 4 2 = 0) && allZero (slice b 7 1) && allZero (slice b 18 2) && allZero (slice b 23 1) &&
      decide (n ≤ 1024) && decide (b.length = 24 + n) && decide (1 ≤ fieldLE b 0 1) && decide (fieldLE b 0 1 ≤ 3) }

/-- A reply (Table 19.4). -/
def dictReply (q : DictReq) (status type offset total : Nat) (data : Bytes) (off : Option (Nat × Nat)) : Bytes :=
  leBytes 1 ((q.op + 0x80) % 256) ++ leBytes 1 q.sub ++ leBytes 2 q.index ++ leBytes 2 status ++ leBytes 1 type ++ zeros 1 ++
    leBytes 4 offset ++ leBytes 4 total ++ leBytes 2 data.length ++ zeros 2 ++ leBytes 2 ((off.map (·.1)).getD 0) ++
    leBytes 1 ((off.map (·.2)).getD 0) ++ zeros 1 ++ data

/-- The rows of the table that DICT messages belong to. -/
inductive DictRow where
  | read | describe | write | create | destroy | enable | disable | commit | discard | destroyMode | load | start | keyWrite
  | ucode | eck | twin | powerCap | alertAck | rangeInval | wayLock | reclaim | inbound | cq | mover | cipherCq | compCq | density
deriving DecidableEq, Repr

/-- The row of a WRITE, by its entry and, for ENABLE and COMMIT, its value. -/
def writeRow (index sub value : Nat) : DictRow :=
  match findEntry index sub with
  | none => .write
  | some (e, _) =>
    if e.base = 0x2000 then
      match e.sub with
      | 0x01 => if value = 0 then .destroy else .create
      | 0x02 => if value = 0 then .discard else .commit
      | 0x12 => .destroyMode
      | 0x20 => .load
      | 0x21 => .start
      | _ => .write
    else if [0x3410, 0x4000, 0x5000, 0x6000, 0x7100, 0x7200].contains e.base ∧ e.sub = 0x01 then
      if value = 0 then .disable else .enable
    else if [0x4000, 0x5000, 0x6000].contains e.base ∧ e.sub = 0x02 then
      if value = 0 then .discard else .commit
    else if e.base = 0x5000 ∧ 0x20 ≤ e.sub then .cq
    else if e.base = 0x6100 ∧ 0x20 ≤ e.sub ∧ e.sub ≤ 0x23 then .inbound
    else if e.base = 0x3800 ∧ 0x10 ≤ e.sub then .mover
    else if e.base = 0x7180 ∧ 0x20 ≤ e.sub ∧ e.sub ≤ 0x22 then .cipherCq
    else if e.base = 0x7280 ∧ 0x20 ≤ e.sub ∧ e.sub ≤ 0x22 then .compCq
    else match e.base, e.sub with
      | 0x7180, 0x11 => .keyWrite
      | 0x1000, 0x31 => .ucode
      | 0x6100, 0x0A => .eck
      | 0x3000, 0x20 => .twin
      | 0x1100, 0x03 => .powerCap
      | 0xF000, 0x02 => .alertAck
      | 0x3400, 0x11 => .rangeInval
      | 0x3410, 0x03 => .wayLock
      | 0x3800, 0x05 => .reclaim
      | 0x7180, 0x05 => .density
      | _, _ => .write

/-- The row of a DICT message; one whose OP is undefined counts as a WRITE of an entry without a row of its own. -/
def DictReq.row (q : DictReq) : DictRow :=
  match q.op with
  | 1 => .read
  | 3 => .describe
  | 2 => writeRow q.index q.sub (leNat q.data)
  | _ => .write

/-! ## The checks of R526 -/

/-- The block state of an entry's block (Table 19.5); block 0x7F00 has none (R550). -/
def Dev.blockState (d : Dev) (e : Entry) (i : Nat) : Nat :=
  match findEntry (e.base + i) 0 with
  | some (st, _) => d.rd st i
  | none => 2

/-- The pavilion of an entry of scope P is `p` (R523). -/
def Dev.ownsEntry (d : Dev) (p : Nat) (e : Entry) (i : Nat) : Bool :=
  match e.own with
  | .block => if e.base = 0x2000 then decide (i = p) else decide (d.epOwner i = some p)
  | _ => true

/-- Check 3 of R526 for a READ (Table 19.3). -/
def Dev.readScope (d : Dev) (p : Nat) (e : Entry) (i : Nat) : Bool :=
  match e.scope with
  | .a => true
  | .p => d.ownsEntry p e i
  | .e => decide (p = 0) || (e.pReads && decide (i = p))

/-- Check 3 of R526 for a WRITE (Table 19.3). -/
def Dev.writeScope (d : Dev) (p : Nat) (e : Entry) (i : Nat) : Bool :=
  match e.scope with
  | .p => d.ownsEntry p e i
  | _ => decide (p = 0)

/-- Entries that accept writes only on a session under PCK or ECK (R524). -/
def needsKey (e : Entry) : Bool :=
  (decide (e.base = 0x2000) && decide (0x20 ≤ e.sub)) || (decide (e.base = 0x3000) && decide (e.sub = 0x20)) ||
    (decide (e.base = 0x7180) && decide (e.sub = 0x11))

/-- Checks 1 to 4 of R526, for a session of pavilion `p` and key `ak`: the entry, or the reason. -/
def Dev.entryCheck (d : Dev) (s : Session) (q : DictReq) : Except Nat (Entry × Nat) :=
  if !q.wellFormed then .error 0x0107
  else match findEntry q.index q.sub with
    | none => .error 0x0103
    | some (e, i) =>
      let reason :=
        match q.op with
        | 1 => firstReason [
            refuse (d.readScope s.pav e i) 0x0401,
            refuse (decide (e.access ≠ .wo) && decide (e.ty ≠ .keyref)) 0x0109]
        | 2 => firstReason [
            refuse (d.writeScope s.pav e i) 0x0401,
            refuse (decide (s.authKey ≠ 0xFFFE) || (decide (e.base = 0x6100) && decide (e.sub = 0x0A))) 0x0401,
            refuse (!needsKey e || s.byControlKey) 0x0403,
            refuse (decide (e.access ≠ .ro)) 0x0109]
        | _ => 0
      if reason = 0 then .ok (e, i) else .error reason

/-- TOTAL meets an entry's size (Tables 19.1, 20.6). -/
def Entry.totalOk (e : Entry) (n : Nat) : Bool :=
  if e.size ≠ 0 then decide (n = e.size) else decide (9 ≤ n) && decide (n ≤ e.max)

/-- The value with the bits that its entry names RES0 cleared: they take no part in check 6 and read back as zero (R4, R526). -/
def Entry.clean (e : Entry) (v : Nat) : Nat :=
  match e.base, e.sub with
  | 0x2000, 0x0F => ofElems 20 ((List.range 8).map fun k => elem 20 v k % 2 ^ 147)
  | 0x3410, 0x03 => ofElems 8 ((List.range 16).map fun w => elem 8 v w &&& (2 ^ 63 + 2 ^ 18 - 1))
  | 0x5000, 0x05 => ofElems 2 ((List.range 8).map fun k => elem 2 v k &&& 0xC07F)
  | 0x6000, 0x06 => v % 128
  | _, _ => v

/-- Check 6 of R526: the value lies in the range that its entry states. -/
def Dev.inRange (d : Dev) (p : Nat) (e : Entry) (i v : Nat) : Bool :=
  match e.rng with
  | .any => true
  | .bool => decide (v ≤ 1)
  | .between lo hi => decide (lo ≤ v) && decide (v ≤ hi)
  | .atLeast s hi => match findEntry (e.base + i) s with
    | some (x, _) => decide (d.rd x i p ≤ v) && decide (v ≤ hi)
    | none => decide (v ≤ hi)
  | .multiple m => decide (v % m = 0)
  | .pow2 zero lo hi => (zero && decide (v = 0)) || (isPow2 v && decide (lo ≤ v) && decide (v ≤ hi))
  | .zeroOr lo hi => decide (v = 0) || (decide (lo ≤ v) && decide (v ≤ hi))

/-- An ENABLE or COMMIT entry. -/
def Entry.isControl (e : Entry) : Bool :=
  ([0x2000, 0x3410, 0x4000, 0x5000, 0x6000, 0x7100, 0x7200].contains e.base && decide (e.sub = 1)) ||
    ([0x2000, 0x4000, 0x5000, 0x6000].contains e.base && decide (e.sub = 2))

/-- Check 7 of R526: what Table 19.6 says of a write of `v`, 0 where it allows it. A creation while the former pavilion is being
destroyed is refused with 0x0201 (R54). -/
def Dev.classReason (d : Dev) (e : Entry) (i v : Nat) : Nat :=
  let st := d.blockState e i
  if e.base = 0x2000 ∧ e.sub = 0x01 ∧ v = 1 ∧ st = 5 then 0x0201
  else if e.isControl then (if st = 1 ∨ st = 5 then 0x0202 else if st = 4 then 0x0212 else 0)
  else match e.change with
    | .staged => if st = 1 ∨ st = 5 then 0x0202 else if st = 4 then 0x0212 else 0
    | .locked => if st = 1 ∨ st = 2 ∨ st = 5 then 0x0102 else if st = 4 then 0x0212 else 0
    | _ => 0

/-! ## Refusals (R541) -/

/-- A refusal recorded in the 0x7F00 entries of pavilion `p`; the offending entry is the one written where no check ran. -/
def Dev.noteRefusal (d : Dev) (p reason index sub : Nat) (off : Option (Nat × Nat)) (source session : Nat) : Dev :=
  let o := off.getD (index, sub)
  let d := (d.wr R.refusal_REASON reason 0 p).wr R.refusal_INDEX index 0 p
  let d := (d.wr R.refusal_SUB sub 0 p).wr R.refusal_OFFENDING_INDEX o.1 0 p
  let d := (d.wr R.refusal_OFFENDING_SUB o.2 0 p).wr R.refusal_TIME d.time 0 p
  ((d.wr R.refusal_SOURCE source 0 p).wr R.refusal_SESSION session 0 p).bump R.refusal_COUNT 0 p

/-! ## Messages -/

/-- A DICT message of a row, new on its session's control stream: `f` performs it. -/
def Dev.dictRx (d : Dev) (o : Rx) (row : DictRow) (f : Dev → Session → DictReq → Dev) : Dev :=
  let q := DictReq.ofMsg o.msg
  if q.row ≠ row then d.netAt o.t
  else d.ctlRx o 0x0B fun d id => d.withSess id fun s => f d s q

/-- The reply to a DICT message; a refusal is recorded (R541). -/
def Dev.dictAnswer (d : Dev) (s : Session) (seq : Nat) (q : DictReq) (status type offset total : Nat) (data : Bytes := [])
    (off : Option (Nat × Nat) := none) (more : Bool := false) : Dev :=
  let d := if status = 0 then d else d.noteRefusal s.pav status q.index q.sub off 0 s.id
  d.answer s.id seq 0x0B (if more then fMORE else 0) (dictReply q status type offset total data off)

/-- The TYPE a reply carries: the entry's, or 0 when it does not exist. -/
def DictReq.typeOf (q : DictReq) : Nat :=
  match findEntry q.index q.sub with
  | some (e, _) => e.ty.code
  | none => 0

/-- DICT_READ (R526, R530). -/
def execDictRead (o : Rx) (s : State) : Host.Outcome State Fault Refusal :=
  s.act fun d => d.dictRx o .read fun d s q =>
    match d.entryCheck s q with
    | .error reason => d.dictAnswer s o.msg.seq q reason q.typeOf q.offset 0
    | .ok (e, i) =>
      if q.offset = 0 then
        let v := d.valueOf s.pav e i
        let d := d.onSess s.id fun s => { s with snapshot := some (q.index, q.sub, v) }
        d.dictAnswer s o.msg.seq q 0 e.ty.code 0 v.length (v.take 1024) none (decide (1024 < v.length))
      else
        let v := match s.snapshot with
          | some (x, y, v) => if x = q.index ∧ y = q.sub then v else []
          | none => []
        if v.length ≤ q.offset then d.dictAnswer s o.msg.seq q 0x010C e.ty.code q.offset 0
        else
          let rest := v.drop q.offset
          d.dictAnswer s o.msg.seq q 0 e.ty.code q.offset v.length (rest.take 1024) none (decide (1024 < rest.length))

/-- The value of a DESCRIBE reply (R527, R553). -/
def Entry.describe (e : Entry) : Bytes :=
  leBytes 1 e.ty.code ++ leBytes 1 e.access.code ++ leBytes 1 e.scope.code ++ leBytes 1 e.change.code ++ leBytes 4 e.size ++
    leBytes 4 e.max ++ zeros 4

/-- DICT_DESCRIBE (R526, R527). -/
def execDictDescribe (o : Rx) (s : State) : Host.Outcome State Fault Refusal :=
  s.act fun d => d.dictRx o .describe fun d s q =>
    match d.entryCheck s q with
    | .error reason => d.dictAnswer s o.msg.seq q reason q.typeOf 0 0
    | .ok (e, _) => d.dictAnswer s o.msg.seq q 0 e.ty.code 0 0 e.describe

/-! ## Writes -/

/-- A write that has passed the checks of R526: the entry, its instance, the writing pavilion, the value as it came and as a
number with its RES0 bits cleared. -/
structure WriteOp where
  entry : Entry
  i : Nat
  p : Nat
  raw : Bytes
  v : Nat
deriving DecidableEq, Repr

/-- What a write comes to: its reason (0 where it takes effect), the offending entry where a consistency check refused it, and
the device after it. -/
structure Verdict where
  reason : Nat
  off : Option (Nat × Nat) := none
  dev : Dev

/-- A write that takes effect. -/
def taken (d : Dev) : Verdict := { reason := 0, dev := d }

/-- A write refused by a rule of its entry's chapter: nothing changes. -/
def turnedDown (d : Dev) (reason : Nat) : Verdict := { reason := reason, dev := d }

/-- A segment fits the assembly held (R528, R529): the same entry and TOTAL, the offset held, and 1,024 bytes with MORE unless it
ends the value. -/
def DictReq.segmentOk (q : DictReq) (a : Option Assembly) : Bool :=
  let rest := q.total - q.offset
  (match a with
    | none => decide (q.offset = 0)
    | some a => decide (a.index = q.index) && decide (a.sub = q.sub) && decide (a.total = q.total) && decide (a.held.length = q.offset)) &&
    (if rest ≤ 1024 then decide (q.data.length = rest) && !q.more else decide (q.data.length = 1024) && q.more)

/-- A WRITE of a row (R526, R528): checks 1 to 5 of each segment; with the last, checks 6 and 7 and the rules of the entry's
chapter, `apply`; `after` follows the answer of a write that took effect. -/
def Dev.writeRx (d : Dev) (o : Rx) (row : DictRow) (apply : Dev → WriteOp → Verdict) (after : Dev → WriteOp → Dev := fun d _ => d) : Dev :=
  d.dictRx o row fun d s q =>
    let seq := o.msg.seq
    let held := (s.assembly.map (·.held.length)).getD 0
    match d.entryCheck s q with
    | .error reason => d.dictAnswer s seq q reason q.typeOf held q.total
    | .ok (e, i) =>
      if q.type ≠ e.ty.code ∨ !e.totalOk q.total then d.dictAnswer s seq q 0x0104 e.ty.code held q.total
      else if !q.segmentOk s.assembly then
        (d.onSess s.id fun s => { s with assembly := none }).dictAnswer s seq q 0x010C e.ty.code 0 q.total
      else
        let raw := ((s.assembly.map (·.held)).getD []) ++ q.data
        if q.more then
          (d.onSess s.id fun s => { s with
            assembly := some { index := q.index, sub := q.sub, total := q.total, held := raw, due := d.deadEnd } }).dictAnswer
            s seq q 0 e.ty.code raw.length q.total
        else
          let d := d.onSess s.id fun s => { s with assembly := none }
          let w : WriteOp := { entry := e, i := i, p := s.pav, raw := raw, v := e.clean (leNat raw) }
          let early := firstReason [refuse (d.inRange w.p e i w.v) 0x0101, d.classReason e i w.v]
          let x := if early ≠ 0 then turnedDown d early else apply d w
          let d := x.dev.dictAnswer s seq q x.reason e.ty.code q.total q.total [] x.off
          if x.reason = 0 then after d w else d

/-- A value set at once: recorded first where its entry is RWS (R536, R614). -/
def Dev.putNow (d : Dev) (w : WriteOp) : Verdict :=
  if w.entry.access = .rws then
    match d.recordDict w.entry w.i w.p w.v with
    | some d => taken (d.wr w.entry w.v w.i w.p)
    | none => turnedDown d 0x0305
  else taken (d.wr w.entry w.v w.i w.p)

/-- A value set as its change class states (R536, Table 19.6): a STAGED entry of a running block holds it as staged. -/
def Dev.putValue (d : Dev) (w : WriteOp) : Verdict :=
  if w.entry.change = .staged ∧ d.blockState w.entry w.i = 2 then taken (d.wrStaged w.entry (some w.v) w.i w.p)
  else d.putNow w

/-- SEGMENT_TIMEOUT (R529). -/
def execSegmentTimeout (o : OpSessT) (s : State) : Host.Outcome State Fault Refusal :=
  s.act fun d =>
    let d := d.netAt o.t
    let id := o.session.toNat
    d.withSess id fun s =>
      match s.assembly with
      | some a =>
        if a.due ≤ d.time then d.onSess id fun s => { s with assembly := none } else d
      | none => d

end Sys2Proof.Machine
end

