-- ==== Sys2Proof/Machine/Resources.lean ====
section
/-! DEFINITION. Machine/Resources.lean: what targets a resource, its quench, and its way to and from the free pool (R29, R50,
R415, R422, R431, R436). -/

namespace Sys2Proof.Machine

/-! ## What touches a granule or a bank -/

/-- A range of bytes of pavilion `p` touches a granule, a bank or the part of the durable window that is removed. -/
def Dev.rangeMeets (d : Dev) (p : Nat) (x : Res) (r : Nat × Nat) : Bool :=
  let a := r.1
  let n := r.2
  match x with
  | .granule g => (List.range 247).any fun s => decide (d.seg p s = g) && meets a n (s * 2 ^ 30) (2 ^ 30)
  | .bank b =>
    let base := 0x3DC0000000 + b / 32 * 2 ^ 21
    let lo := max a base
    let hi := min (a + n) (base + 2 ^ 21)
    if hi ≤ lo then false
    else if lo + 256 ≤ hi then true
    else (List.range 33).any fun i => decide ((lo / 8 + i) * 8 < hi) && decide ((lo / 8 + i) % 32 = b % 32)
  | .window kib => meets a n (0x3E00000000 + d.winSize p) (kib * 1024 - d.winSize p)
  | _ => false

/-- The ranges that the jobs, mover transfers and channel operations of a pavilion target (R50). -/
def Dev.jobRanges (d : Dev) (p : Nat) : List (Nat × Nat) :=
  ((d.mem.moverJobs.filter fun j => decide (j.pav = p)).flatMap fun j =>
    (match j.src with | some a => [(a, j.len)] | none => []) ++ [(j.dst, j.len), (j.addr, 64)]) ++
  ((d.eng.cipherJobs.filter fun j => decide (j.pav = p)).flatMap fun j =>
    [(j.src, cipherIn j.op j.length j.aux), (j.dst, (cipherOut j.op j.length).getD 0)]) ++
  ((d.eng.compJobs.filter fun j => decide (j.pav = p)).flatMap fun j =>
    [(j.src, j.length), (j.arr, 16 * j.chain.length)] ++ j.chain ++ (if j.op = 3 then [(j.ctx, 65600)] else [])) ++
  ((d.chan.ops.filter fun o => decide (o.pav = p) && o.isOpen).flatMap fun o =>
    (o.list, 32 * o.cmds.length) :: (o.cmds.filter fun c => decide (c.dir ≠ 0)).map fun c => (c.buf, c.count))

/-- The endpoints' completion rings of a pavilion. -/
def Dev.cqRing (d : Dev) (e : Nat) : Nat × Nat := (d.rd R.ep_CQ_BASE e, 32 * d.rd R.ep_CQ_ENTRIES e)

/-- A mover ring of a pavilion. -/
def Dev.moverRing (d : Dev) (cl p : Nat) : Nat × Nat := (d.rd R.spad_MOVER_RING cl p, 64 * d.rd R.spad_MOVER_ENTRIES cl p)

/-- The cipher and the compression completion ring of a pavilion. -/
def Dev.engineRings (d : Dev) (p : Nat) : List (Nat × Nat) :=
  [(d.rd R.cip_CQ_BASE 0 p, 32 * d.rd R.cip_CQ_ENTRIES 0 p), (d.rd R.cpr_CQ_BASE 0 p, 32 * d.rd R.cpr_CQ_ENTRIES 0 p)]

/-- The configured rings of a pavilion (R50). -/
def Dev.ringRanges (d : Dev) (p : Nat) : List (Nat × Nat) :=
  ((d.rd R.amn_INBOUND_BASE 0 p, d.rd R.amn_INBOUND_SLOT 0 p * d.rd R.amn_INBOUND_ENTRIES 0 p) ::
    (bitList 4096 (d.rd R.pav_ENDPOINTS p)).map d.cqRing) ++ d.engineRings p ++ (List.range 16).map fun cl => d.moverRing cl p

/-- Completion and mover rings whose endpoint, mover or engine has work (R436, item 4). -/
def Dev.busyRings (d : Dev) (p : Nat) : List (Nat × Nat) :=
  ((d.chan.ops.filter fun o => decide (o.pav = p) && (o.isOpen || !o.posted && decide (o.st = .done))).map fun o => d.cqRing o.ep) ++
  ((d.mem.moverJobs.filter fun j => decide (j.pav = p)).map fun j => d.moverRing j.cluster p) ++
  (if d.cipherCount p + d.compCount p = 0 then [] else d.engineRings p)

/-- Work of pavilion `p` still targets a removed resource (R50, step 2), or its core is in a retry, self-test or sparing
(R469). -/
def Dev.targeted (d : Dev) (p : Nat) (x : Res) : Bool :=
  match x with
  | .core c => match (d.core c).run with
    | .retrying => true | .selfTest => true | .handingOver => true
    | _ => false
  | .endpoint e => d.chan.ops.any fun o => decide (o.ep = e) && (o.isOpen || !o.posted && decide (o.st = .done))
  | .keySlot k => d.eng.cipherJobs.any fun j => decide (j.pav = p) && decide (j.slot = k)
  | .wayGroup _ => false
  | _ => (d.jobRanges p).any (d.rangeMeets p x)

/-! ## Quenching -/

/-- The device granule of a directory entry. -/
def DirEntry.granule (e : DirEntry) (key : Nat) : Nat :=
  let slice := key / 2 ^ 17
  let stack := if Config.is288 then slice / 8 else slice / 16 * 2
  stack * 36 + (e.tag * 2 ^ 19 + key / 16 % 8192 * 64) / 2 ^ 30

/-- Cores that store for pavilion `p`: those it holds, and those a commit has taken from it that are not reset yet (R50). -/
def Dev.storingCores (d : Dev) (p : Nat) : List Nat :=
  d.pavCores p ++ d.removing.filterMap fun e => match e.2 with
    | .core c => if e.1 = p then some c else none
    | _ => none

/-- The committed stores of pavilion `p` to a resource performed: they precede its quench. -/
def Dev.drainTo (d : Dev) (p : Nat) (x : Res) : Dev :=
  (d.storingCores p).foldl (fun d c =>
    (((d.core c).merge.map (·.line)).filter fun l => d.rangeMeets p x (l * 64, 64)).foldl (fun d l => d.drainLine c p l) d) d

/-- The bytes, tags and poison of a granule cleared, and what homes and agents have of pavilion `p`'s lines in it invalidated,
dirty data discarded (R415, R431). -/
def Dev.quenchGranule (d : Dev) (p g : Nat) : Dev :=
  let segs := (List.range 247).filter fun s => decide (d.seg p s = g)
  let d := d.drainTo p (.granule g)
  let d := segs.foldl (fun d s => d.forgetPast p (s * 2 ^ 24) ((s + 1) * 2 ^ 24)) d
  let d := segs.foldl (fun d s =>
    (d.heldLines p (s * 2 ^ 24) ((s + 1) * 2 ^ 24)).foldl (fun d l => d.flushLine p l true) d) d
  let d := d.onMem fun x => { x with
    dir := x.dir.filter fun e => !(decide (e.2.pav = p) && decide (e.2.granule e.1 = g))
    main :=
      { bytes := x.main.bytes.filter fun e => decide (e.1 / 2 ^ 30 ≠ g)
        tags := x.main.tags.filter fun e => decide (e.1 / 2 ^ 26 ≠ g)
        poison := x.main.poison.filter fun e => decide (e.1 / 2 ^ 26 ≠ g) }
    segs := segs.foldl (fun t s => Table.set 0xFFFF t (p * 256 + s) 0xFFFF) x.segs }
  d.bump R.mem_QUENCHES

/-- The pavilion that a bank serves, or last served (Table 14.4). -/
def BankSt.pav : BankSt → Option Nat
  | .free => none
  | .held p => some p
  | .clearing p => some p
  | .releasing p _ => some p
  | .released p _ => some p

/-- A bank cleared; what stores to its cluster's scratchpad replaced is forgotten for the pavilion that held it (R431). -/
def Dev.emptyBank (d : Dev) (b : Nat) : Dev :=
  let d := match (d.bank b).pav with
    | some p =>
      let base := 0x3DC0000000 / 64 + b / 32 * 2 ^ 15
      (d.drainTo p (.bank b)).forgetPast p base (base + 2 ^ 15)
    | none => d
  d.zeroBank b

/-- A bank quenched and powered off (R431, R436). -/
def Dev.quenchBank (d : Dev) (b : Nat) : Dev := (d.emptyBank b).setBank b .free

/-- A way of an L2 emptied but for the lines of pavilions that `keep` names: its dirty lines written back, the others dropped (R412,
R415). -/
def Dev.flushWay (d : Dev) (c w : Nat) (keep : Nat → Bool := fun _ => false) : Dev :=
  ((d.mem.l2.map (·.1)).filter fun k => decide (k / 2 ^ 18 = c) && decide (k % 16 = w) && !keep (d.l2At k).pav).foldl (fun d k =>
    let l := d.l2At k
    let d := d.settle l.pav l.line
    if (d.l2At k).st = .i then d else (d.evict c k).settle l.pav l.line) d

/-- WAY_LOCK elements of a way group cleared (R415). -/
def Dev.clearLocks (d : Dev) (c g : Nat) : Dev :=
  d.wr R.l2_WAY_LOCK (withElem 8 (withElem 8 (d.rd R.l2_WAY_LOCK c) (2 * g) 0) (2 * g + 1) 0) c

/-- A way group flushed, and its locks cleared (R415). -/
def Dev.quenchWayGroup (d : Dev) (n : Nat) : Dev :=
  let c := n / 8
  let g := n % 8
  ((d.flushWay c (2 * g)).flushWay c (2 * g + 1)).clearLocks c g

/-- A physical slot's L1D and victim cache hold nothing any more: no L2 line of its cluster lists it (R381). -/
def Dev.forgetSlot (d : Dev) (cluster slot : Nat) : Dev :=
  d.onMem fun x => { x with l2 := x.l2.map fun e =>
    if e.1 / 2 ^ 18 = cluster then (e.1, { e.2 with slots := e.2.slots &&& ~~~((1 : BitVec 17) <<< slot) }) else e }

/-- The TWIN_PARTNER element of a core (Table 16.2). -/
def Dev.twinPartner (d : Dev) (c : Nat) : Nat := elem 2 (d.rd R.clu_TWIN_PARTNER (c / 16)) (c % 16)

/-- The TWIN_PARTNER element of a core written. -/
def Dev.setTwinPartner (d : Dev) (c v : Nat) : Dev :=
  d.wr R.clu_TWIN_PARTNER (withElem 2 (d.rd R.clu_TWIN_PARTNER (c / 16)) (c % 16) v) (c / 16)

/-- The pairing of a core, if any, dissolved in both elements (R471). -/
def Dev.dissolvePair (d : Dev) (c : Nat) : Dev :=
  let q := d.twinPartner c
  if q = 0xFFFF then d else (d.setTwinPartner c 0xFFFF).setTwinPartner q 0xFFFF

/-- A core reset, after its stores have drained into pavilion `p` (R50, R54): its register file, L1 caches and victim cache are
quenched (R29). A lost core stays lost (R468). What the core reads afterwards is no older than its reset. -/
def Dev.resetCore (d : Dev) (p c : Nat) (run : CoreRun) : Dev :=
  let d := d.drainAll c p
  let x := d.core c
  (d.forgetSlot (clusterOf c) (d.slotOf c)).setCore c
    { run := if x.run = .lost then .lost else run, inSpareSlot := x.inSpareSlot, asOf := d.mem.clock }

/-- An endpoint leaves its pavilion: its completion ring is no longer configured. -/
def Dev.releaseEndpoint (d : Dev) (e : Nat) : Dev :=
  let d := ((d.wr R.ep_CQ_BASE (R.ep_CQ_BASE.default e) e).wr R.ep_CQ_ENTRIES (R.ep_CQ_ENTRIES.default e) e).wr R.ep_DOORBELL
    (R.ep_DOORBELL.default e) e
  d.onChan fun c => { c with
    ops := c.ops.filter fun o => decide (o.ep ≠ e)
    posted := Table.set [] c.posted e []
    cqIndex := Table.set 0 c.cqIndex e 0 }

/-- The window of pavilion `p` cut to `n` bytes: what lies above is quenched (R54, R158), and no CBAR waits for it any more. -/
def Dev.cutWindow (d : Dev) (p n : Nat) : Dev :=
  let kept := fun (a : Nat) => !(decide (a / 2 ^ 33 = p) && decide (n ≤ a % 2 ^ 33))
  let d := d.drainTo p (.window (2 ^ 23))
  let d := d.forgetPast p ((0x3E00000000 + n) / 64) (2 ^ 32)
  let d := d.onMem fun x => { x with
    win := { x.win with bytes := x.win.bytes.filter (fun e => kept e.1), poison := x.win.poison.filter fun e => kept (e.1 * 64) }
    winDurable := x.winDurable.filter fun e => kept e.1
    winPend := x.winPend.filter fun s => kept (s.unit * 16)
    winParity := x.winParity.filter fun e => kept (e.1 * 1024)
    parityLast := x.parityLast.filter fun e => kept (e.1 * 1024)
    winLast := x.winLast.filter fun e => kept (e.1 * 64) }
  (d.storingCores p).foldl (fun d c => d.onCore c fun x => { x with cbar := x.cbar.filter fun k => kept (k * 64) }) d

/-- A resource of pavilion `p` quenched and placed in the free pool (R50, steps 3 and 4). The ring takes the place of removed window
space (R158). -/
def Dev.freeRes (d : Dev) (p : Nat) (x : Res) : Dev :=
  match x with
  | .core c => (d.dissolvePair c).resetCore p c .free
  | .granule g => d.quenchGranule p g
  | .bank b => d.quenchBank b
  | .endpoint e => d.releaseEndpoint e
  | .wayGroup n => d.quenchWayGroup n
  | .keySlot k => d.clearKey p k
  | .window _ =>
    let d := d.cutWindow p (d.winSize p)
    ({ d with removing := d.removing.filter fun e => !(decide (e.1 = p) && decide (e.2 = x)) } : Dev).fitRing p

/-! ## Assignment -/

/-- Granules take the lowest empty segments, in rising device number (R422). -/
def Dev.placeGranules (d : Dev) (p : Nat) (l : List Nat) : Dev :=
  l.foldl (fun d g =>
    match (List.range 247).find? fun s => decide (d.seg p s = 0xFFFF) with
    | some s => d.onMem fun x => { x with segs := Table.set 0xFFFF x.segs (p * 256 + s) g }
    | none => d) d

/-- A bank assigned to pavilion `p` of generation `gen` (R436, items 1, 5 and 6). -/
def Dev.assignBank (d : Dev) (p gen b : Nat) : Dev :=
  match d.bank b with
  | .released q g => if q = p ∧ g = gen then d.setBank b (.held p) else (d.quenchBank b).setBank b (.clearing p)
  | .free => d.setBank b (.clearing p)
  | _ => d

/-- LAST_OPNUM and the claimed number return to 0 where the endpoint last served another pavilion or generation (R204). -/
def Dev.assignEndpoint (d : Dev) (p gen e : Nat) : Dev :=
  if Table.get 0 d.hearth.starter e = 1 + p * 2 ^ 32 + gen then d
  else (d.wr R.ep_LAST_OPNUM 0 e).onChan fun c => { c with claimed := Table.set 0 c.claimed e 0 }

/-- A core assigned to a pavilion: it stays stopped until a START (R45). -/
def Dev.assignCore (d : Dev) (c : Nat) : Dev :=
  d.onCore c fun x => if x.run = .free then { x with run := .stopped } else x

/-! ## Events -/

/-- RESOURCE_REMOVAL (R50, R557): every resource removed from the pavilion that nothing targets any more is freed. -/
def execResourceRemoval (o : OpPavT) (s : State) : Host.Outcome State Fault Refusal :=
  s.act fun d =>
    let d := d.at o.t
    let p := o.pav.val
    d.removing.foldl (fun d e =>
      if e.1 ≠ p ∨ d.targeted p e.2 then d
      else { d.freeRes p e.2 with removing := d.removing.filter (· ≠ e) }) d

/-- BANK_RELEASED (R436, item 4): no store of the pavilion's cores waits for the bank, and no work targets it. -/
def execBankReleased (o : OpBank) (s : State) : Host.Outcome State Fault Refusal :=
  s.act fun d =>
    let b := 32 * o.cluster.val + o.bank.val
    match d.bank b with
    | .releasing p g =>
      let stores := (List.range 256).any fun c => decide (d.coreOwner c = some p) &&
        ((d.core c).merge.any fun e => d.rangeMeets p (.bank b) (e.line * 64, 64))
      if stores || (d.jobRanges p ++ d.busyRings p).any (d.rangeMeets p (.bank b)) then d else d.setBank b (.released p g)
    | _ => d

/-- RECLAIM (R436, item 7): released banks named in the value are quenched and freed. -/
def execReclaim (o : Rx) (s : State) : Host.Outcome State Fault Refusal :=
  s.act fun d => d.writeRx o .reclaim fun d w =>
    taken ((bitList 32 w.v).foldl (fun d k =>
      match d.bank (32 * w.i + k) with
      | .released .. => d.quenchBank (32 * w.i + k)
      | _ => d) d)

end Sys2Proof.Machine
end

