-- ==== Sys2Proof/Machine/Check.lean ====
section
/-! DEFINITION. Machine/Check.lean: the consistency check of each kind of block (R537, Table 19.7) with the rules that the
chapters give it (R40, R49, R50, R65, R123, R140, R141, R158, R184, R192, R200, R393, R420, R422, R493). -/

namespace Sys2Proof.Machine

/-- One test of a consistency check: whether it passes, the reason where it does not, and the offending entry. -/
abbrev CheckItem := Bool × Nat × Nat × Nat

/-- The first test that fails: its reason and offending entry; reason 0 where all pass. -/
def firstFailure (l : List CheckItem) : Nat × Option (Nat × Nat) :=
  match l.find? fun x => !x.1 with
  | some x => (x.2.1, some x.2.2)
  | none => (0, none)

/-! ## Pavilion blocks -/

/-- STAGED entries of a pavilion block (Table 2.7). -/
def pavStaged : List Entry :=
  [R.pav_CORES, R.pav_GRANULES, R.pav_BANKS, R.pav_ENDPOINTS, R.pav_WAY_GROUPS, R.pav_SHARES, R.pav_HEARTH_QUOTA, R.pav_KEY_SLOTS,
    R.pav_HOST_ADDR]

/-- The staged element of WINDOW_SIZE of pavilion `p`, or the one in force (R158). -/
def Dev.stagedWindow (d : Dev) (p : Nat) : Nat := elem 4 (d.rdCheck R.hearth_WINDOW_SIZE) p

/-- The device as it would be with a pavilion's staged values in force and its block running: what the check looks at (R537). -/
def Dev.proposed (d : Dev) (p : Nat) : Dev :=
  let n := d.pavState p
  let d1 := pavStaged.foldl (fun x e => match d.rdStaged e p with | some v => x.wr e v p | none => x) d
  let d1 := d1.wr R.hearth_WINDOW_SIZE (withElem 4 (d.rd R.hearth_WINDOW_SIZE) p (d.stagedWindow p))
  d1.wr R.pav_STATE (if n = 5 then 5 else 2) p

/-- Two VALID entries of a port have the same address and tag (R65). -/
def HostAddr.clashes (a b : HostAddr) : Bool :=
  a.valid && b.valid && decide (a.ip = b.ip) && (a.tagged == b.tagged) && (!a.tagged || decide (a.vlan = b.vlan))

/-- The addresses of a port that pavilions hold: pavilion, entry, address. -/
def Dev.portAddrs (d : Dev) (port : Nat) : List (Nat × Nat × HostAddr) :=
  (List.range 64).flatMap fun p => if d.pavExists p then (List.range 4).map fun k => (p, k, d.hostAddr p port k) else []

/-- A VALID address of pavilion `p` is held twice on a port (R65). -/
def Dev.addrTwice (d : Dev) (p : Nat) : Bool :=
  (List.range 2).any fun port =>
    let l := d.portAddrs port
    (l.filter fun x => decide (x.1 = p)).any fun x => l.any fun y =>
      decide ((y.1, y.2.1) ≠ (x.1, x.2.1)) && x.2.2.clashes y.2.2

/-- A tagged entry of a HOST_ADDR value holds a VID outside 1 to 4,094 (R65). -/
def vlanBad (v : Nat) : Bool := (hostAddrs v).any fun a => a.tagged && !(decide (1 ≤ a.vlan) && decide (a.vlan ≤ 4094))

/-- Clusters that hold a core of the pavilion. -/
def Dev.pavClusters (d : Dev) (p : Nat) : List Nat := (List.range 16).filter fun c => (d.pavCores p).any fun x => decide (clusterOf x = c)

/-- Way groups of a cluster that no strict pavilion holds (R40). -/
def Dev.commonGroups (d : Dev) (c : Nat) : Nat :=
  ((List.range 8).filter fun g => match d.wayGroupOwner c g with | some q => !d.strict q | none => true).length

/-- Group 1 of R537: each entry against the rules of its chapter that relate it to the block's other entries, in rising
subindex. `n` is the device with the staged values in force. -/
def Dev.ownRules (d n : Dev) (p : Nat) : List CheckItem :=
  let b := 0x2000 + p
  let gs := bitList 288 (n.rd R.pav_GRANULES p)
  let share := fun i => elem 1 (n.rd R.pav_SHARES p) i
  let quota := n.rd R.pav_HEARTH_QUOTA p
  let window := elem 4 (n.rd R.hearth_WINDOW_SIZE) p
  let strict := n.strict p
  [ (gs.all n.assignable, 0x0101, b, 0x06),
    (decide (gs.length ≤ 247), 0x0302, b, 0x06),
    (!strict || (n.pavClusters p).all fun c => (List.range 8).any fun g => bitOf (n.rd R.pav_WAY_GROUPS p) (8 * c + g), 0x0303, b, 0x09),
    (decide (share 3 = 0) || decide (12 ≤ share 3), 0x0101, b, 0x0A),
    (!strict || decide (share 5 ≠ 0) || decide (n.rd R.pav_ENDPOINTS p = 0), 0x0304, b, 0x0A),
    (decide (window % 64 = 0) && decide (window + 256 ≤ quota), 0x0308, b, 0x0B),
    (decide (recBytes (unsettled (d.hring p).live) ≤ n.ringAsked p), 0x0305, b, 0x0B),
    (!vlanBad (n.rd R.pav_HOST_ADDR p), 0x0101, b, 0x0F),
    (!n.addrTwice p, 0x0307, b, 0x0F) ]

/-- A destruction has begun to quench the pavilion's resources (R54). -/
def Dev.quenching (d : Dev) (p : Nat) : Bool := (Table.get {} d.pavs p).proceeding

/-- Another pavilion holds unit `k` of bitmap entry `e`; `q` tells which of them count. -/
def Dev.heldElsewhere (d : Dev) (p : Nat) (e : Entry) (k : Nat) (q : Nat → Bool) : Bool :=
  (List.range 64).any fun x => decide (x ≠ p) && d.pavExists x && q x && bitOf (d.rd e x) k

/-- Group 3 of R537 for one bitmap entry: each unit it names is free or already the pavilion's own. -/
def Dev.unitRules (d n : Dev) (p : Nat) (e : Entry) (width : Nat) (res : Nat → Res) : List CheckItem :=
  let us := bitList width (n.rd e p)
  let at_ := (0x2000 + p, e.sub)
  [ (us.all fun k => !d.heldElsewhere p e k (fun x => !d.quenching x), 0x030B, at_),
    (us.all fun k => !d.heldElsewhere p e k (fun x => d.quenching x) && !d.beingRemoved (res k), 0x0201, at_) ]

/-- Group 3 for banks, whose holder is their state (Table 14.4, R436). -/
def Dev.bankRules (d n : Dev) (p : Nat) : List CheckItem :=
  let us := bitList 512 (n.rd R.pav_BANKS p)
  let at_ := (0x2000 + p, 0x07)
  let other := fun (k : Nat) (f : Nat → Bool) => match d.bank k with
    | .held q => decide (q ≠ p) && f q
    | .clearing q => decide (q ≠ p) && f q
    | _ => false
  [ (us.all fun k => !other k (fun q => !d.quenching q), 0x030B, at_),
    (us.all fun k => !other k d.quenching && !d.beingRemoved (.bank k), 0x0201, at_),
    (us.all fun k => match d.bank k with | .releasing .. => false | _ => true, 0x020F, at_) ]

/-- Units of a bitmap entry that the staged value takes away from the pavilion. -/
def Dev.droppedUnits (d n : Dev) (p : Nat) (e : Entry) (width : Nat) : List Nat :=
  (bitList width (d.rd e p)).filter fun k => !bitOf (n.rd e p) k

/-- Space is added to a durable window of which removed space is not quenched yet: it is in no pool (R50, R158;
notes/assumptions/36). -/
def Dev.windowBusy (d n : Dev) (p : Nat) : Bool :=
  d.windowRemoving p && decide (elem 4 (d.rd R.hearth_WINDOW_SIZE) p < elem 4 (n.rd R.hearth_WINDOW_SIZE) p)

/-- Group 3 of R537, and the rings that a commit may not unmap (R50). A lost core is refused where it is newly named (R470). -/
def Dev.units (d n : Dev) (p : Nat) : List CheckItem :=
  let b := 0x2000 + p
  let keeps := fun (l : List Nat) (res : Nat → Res) => l.all fun k => !(d.ringRanges p).any (d.rangeMeets p (res k))
  d.unitRules n p R.pav_CORES 256 Res.core ++
  [ ((bitList 256 (n.rd R.pav_CORES p)).all fun c => decide ((d.core c).run ≠ .lost) || bitOf (d.rd R.pav_CORES p) c, 0x0211, b, 0x05) ] ++
  d.unitRules n p R.pav_GRANULES 288 Res.granule ++ d.bankRules n p ++ d.unitRules n p R.pav_ENDPOINTS 4096 Res.endpoint ++
  d.unitRules n p R.pav_WAY_GROUPS 128 Res.wayGroup ++ [(!d.windowBusy n p, 0x0201, 0x7000, 0x10)] ++
  (if d.pavExists p then
    [ (keeps (d.droppedUnits n p R.pav_GRANULES 288) Res.granule, 0x020D, b, 0x06),
      (keeps (d.droppedUnits n p R.pav_BANKS 512) Res.bank, 0x020D, b, 0x07) ]
  else [])

/-- The strict reservations of every home slice: directory ways and queue entries (R393). -/
def Dev.sliceReserve (d : Dev) (k : Nat) : Nat :=
  ((List.range 64).map fun p => if d.pavExists p && d.strict p then ceilDiv (k * elem 1 (d.rd R.pav_SHARES p) 1) 256 else 0).sum

/-- Group 4 of R537: device-wide sums. -/
def Dev.sums (n : Dev) (p : Nat) : List CheckItem :=
  let b := 0x2000 + p
  let links := (List.range 96).all fun l => decide (((List.range 64).map fun q => n.linkSlots q l).sum ≤ 256)
  let quotas := ((List.range 64).map fun q => if n.pavExists q then n.rd R.pav_HEARTH_QUOTA q else 0).sum
  let shared := fun c => (List.range 64).any fun q => n.pavExists q && !n.strict q && (n.pavClusters q).contains c
  [ ((List.range 8).all fun i => decide (n.shareSum i ≤ 256), 0x0304, b, 0x0A),
    (links, 0x0304, b, 0x0A),
    (decide (quotas ≤ 2031616), 0x0302, b, 0x0B),
    ((List.range 16).all fun c => !shared c || decide (1 ≤ n.commonGroups c), 0x0303, b, 0x09),
    (decide (n.sliceReserve 16 ≤ 15) && decide (n.sliceReserve 64 ≤ 60), 0x0304, b, 0x0A),
    (decide (n.keySlotSum + n.keySlotsRemoving ≤ 1024), 0x0304, b, 0x0C) ]

/-- The beat demand of classes at ADMIT_CEILING fits `k` cores (Table 4.2, check 3). -/
def beatsCovered (l : List Bytes) (k ceiling : Nat) : Bool := decide (demand l cdBeats * 100 ≤ k * 2000000000 * ceiling)

/-- Room for WINDOW requests of every class (R49, item 2). -/
def classRoom (l : List Bytes) : Nat := (l.map fun b => cdWindow b * (64 + 16 * ceilDiv (cdMaxRequest b) 16)).sum

/-- Group 5 of R537: what the pavilion's admitted classes need (R49), and T_EP (R123). -/
def Dev.classNeeds (d n : Dev) (p : Nat) : List CheckItem :=
  let b := 0x2000 + p
  let l := d.classesOf p
  let k := n.countedCores (n.pavCores p)
  let eps := bitList 4096 (n.rd R.pav_ENDPOINTS p)
  let share := fun i => elem 1 (n.rd R.pav_SHARES p) i
  let tNew := n.tEp eps
  let tOld := d.tEp (bitList 4096 (d.rd R.pav_ENDPOINTS p))
  [ (coresFit l k && beatsCovered l k (d.rd R.pow_ADMIT_CEILING), 0x0301, b, 0x05),
    (decide (d.ringAsked p ≤ n.ringAsked p) || decide (classRoom l + 65536 ≤ n.ringAsked p), 0x0302, b, 0x0B),
    (engineFits l (share 3) (d.rd R.cip_DENSITY 0 p) && linkFits l (share 5) (n.anyTwinPath eps) && hearthFits l (share 4) &&
      portFits l (share 6), 0x0304, b, 0x0A),
    (decide (n.pAdmit n.deadlineClusters ≤ d.rd R.pow_POWER_CAP), 0x0503, b, 0x05),
    (decide (tNew ≤ tOld) || l.all (fun c => decide (timeBudget c tNew (decide (d.rd R.pav_SPARING p = 1)) ≤ cdDeadline c)),
      0x0506, b, 0x08) ]

/-- The consistency check of a pavilion block. For a creation it has prerequisites too: former resources freed, and an owner key
whose secret with the device's key is not zero and that was not used before (R44, Table 19.7). -/
def Dev.pavCheck (d : Dev) (p : Nat) (create : Option Bytes) : Nat × Option (Nat × Nat) :=
  let n := d.proposed p
  let owner := leBytes 32 (d.rd R.pav_OWNER_KEY p)
  let prereq : List CheckItem := match create with
    | some priv =>
      [ (!d.removing.any fun e => decide (e.1 = p), 0x0201, 0x2000 + p, 0x00),
        (decide (x25519 priv owner ≠ zeros 32) && !d.hearth.ownerKeys.contains owner, 0x0602, 0x2000 + p, 0x04) ]
    | none => []
  firstFailure (d.ownRules n p ++ prereq ++ d.units n p ++ n.sums p ++ d.classNeeds n p)

/-! ## Other blocks -/

/-- STAGED entries of a block other than a pavilion's. -/
def blockStaged (base : Nat) : List Entry :=
  match base with
  | 0x4000 => [R.link_MEDIUM, R.link_FEC, R.link_TWIN, R.link_EXPECTED_UNIT]
  | 0x5000 => [R.ep_UNIT_ID, R.ep_PATHS, R.ep_PATH_POLICY]
  | 0x6000 => [R.port_MTU, R.port_PFC_ENABLE, R.port_PFC_XOFF, R.port_PTP_ENABLE, R.port_PTP_DOMAIN]
  | _ => []

/-- The check of a link: TWIN of both links of its pair (R192), and for an enable a reference clock (R191). -/
def Dev.linkCheck (d : Dev) (n : Nat) (enable : Bool) : List CheckItem :=
  let partner := n / 2 * 2 + (1 - n % 2)
  [ (decide (d.rdCheck R.link_TWIN n = d.rdCheck R.link_TWIN partner), 0x0209, 0x4000 + n, 0x06) ] ++
    (if enable then [(d.refPresent, 0x0701, 0x4000 + n, 0x00)] else [])

/-- The check of an endpoint: its paths (R200), for an enable its OWNER, and the slots its links then carry (R184). -/
def Dev.endpointCheck (d : Dev) (e : Nat) (enable : Bool) : List CheckItem :=
  let codes := ((List.range 8).map fun i => elem 2 (d.rdCheck R.ep_PATHS e) i).filter fun c => bitOf c 15
  let n := d.wr R.ep_PATHS (d.rdCheck R.ep_PATHS e) e
  let owner := match d.epOwner e with | some p => decide (d.pavState p = 2) | none => false
  let required := match d.epOwner e with | some p => 0x2000 + p | none => 0x5000 + e
  [ (codes.all fun c => decide (c % 128 < (if codeTwin c then 48 else 96)), 0x0101, 0x5000 + e, 0x05),
    (codes.all fun c => !codeTwin c || (codeLinks c).all fun l => decide (d.rd R.link_TWIN l = 1), 0x0209, 0x5000 + e, 0x05),
    (!codes.isEmpty, 0x020B, 0x5000 + e, 0x05) ] ++
    (if enable then [(owner, 0x0201, required, 0x00)] else []) ++
    [ ((List.range 96).all fun l => decide (((List.range 64).map fun q => n.linkSlots q l).sum ≤ 256), 0x0304, 0x5000 + e, 0x05) ]

/-- The check of a host port: a commit may not lower the payload of the port below what an open session's class was promised
(R71); an enable needs a reference clock. -/
def Dev.portCheck (d : Dev) (n : Nat) (enable : Bool) : List CheckItem :=
  let mtu := d.rdCheck R.port_MTU n
  if enable then [(d.refPresent, 0x0701, 0x6000 + n, 0x00)]
  else [ (d.net.sessions.all fun s =>
      decide (payloadMax (d.rd R.port_MTU n) s.ipv6 ≤ payloadMax mtu s.ipv6) ||
        decide (max (cdMaxRequest s.desc) (cdMaxDeliver s.desc) ≤ payloadMax mtu s.ipv6), 0x0105, 0x6000 + n, 0x05) ]

/-- The consistency check of the block of instance `i`; an engine or L2 has nothing more to check. -/
def Dev.blockCheck (d : Dev) (base i : Nat) (enable : Bool) : Nat × Option (Nat × Nat) :=
  firstFailure (match base with
    | 0x4000 => d.linkCheck i enable
    | 0x5000 => d.endpointCheck i enable
    | 0x6000 => d.portCheck i enable
    | _ => [])

end Sys2Proof.Machine
end

