-- ==== Sys2Proof/Machine/Blocks.lean ====
section
/-! DEFINITION. Machine/Blocks.lean: enabling, committing and stopping the blocks of links, endpoints, host ports, L2 caches and
engines (R192, R198, R200, R228, R416, R417, R534 to R538, R614). -/

namespace Sys2Proof.Machine

/-! ## Records and staged values -/

/-- DICT records of several values, all or none (R614): entry, instance, value. -/
def recordAll (p : Nat) : List (Entry × Nat × Nat) → Dev → Option Dev
  | [], d => some d
  | x :: t, d =>
    if x.1.access = .rws then
      match d.recordDict x.1 x.2.1 p x.2.2 with
      | some d => recordAll p t d
      | none => none
    else recordAll p t d

/-- The staged values of a block, with their entries. -/
def Dev.stagedOf (d : Dev) (l : List Entry) (i : Nat) : List (Entry × Nat × Nat) :=
  l.filterMap fun e => (d.rdStaged e i).map fun v => (e, i, v)

/-- Staged values discarded (R538). -/
def Dev.dropStaged (d : Dev) (l : List Entry) (i : Nat) : Dev := l.foldl (fun d e => d.wrStaged e none i) d

/-- Values put in force, no longer staged. -/
def Dev.inForce (d : Dev) (l : List (Entry × Nat × Nat)) : Dev :=
  l.foldl (fun d x => (d.wr x.1 x.2.2 x.2.1).wrStaged x.1 none x.2.1) d

/-! ## What a block does as its values change -/

/-- The PTP ports and the source that the timebase follows (R569): PTP_STATE is 0 while PTP_ENABLE is 0 and leaves it for
acquiring; the source is port 0 while locked, else port 1 while locked. -/
def Dev.ptpSettle (d : Dev) : Dev :=
  let st := fun n =>
    let x := elem 1 (d.rd R.pow_PTP_STATE) n
    if d.rd R.port_PTP_ENABLE n = 0 then 0 else max 1 x
  let d := d.wr R.pow_PTP_STATE (st 0 + 256 * st 1)
  let d := [0, 1].foldl (fun d n => if st n = 0 then d.onPlat fun x => { x with ptp := Table.set {} x.ptp n {} } else d) d
  d.wr R.pow_TB_SOURCE (if st 0 = 2 then 1 else if st 1 = 2 then 2 else 0)

/-- The partner of a link in its twin pair (R192). -/
def pairPartner (n : Nat) : Nat := n / 2 * 2 + (1 - n % 2)

/-- The values that a commit or enable of a block puts in force: its staged values, and with a link the staged TWIN of its partner
(R192). -/
def Dev.takenWith (d : Dev) (base i : Nat) : List (Entry × Nat × Nat) :=
  d.stagedOf (blockStaged base) i ++ (if base = 0x4000 then d.stagedOf [R.link_TWIN] (pairPartner i) else [])

/-- Among values that are to be put in force is a TWIN that changes (R192). -/
def Dev.twinChanges (d : Dev) (l : List (Entry × Nat × Nat)) : Bool :=
  l.any fun x => decide (x.1.base = 0x4000) && decide (x.1.sub = 0x06) && decide (d.rd x.1 x.2.1 ≠ x.2.2)

/-- A link that a commit has changed: it, and with a changed TWIN its partner, leave UP for TRAINING (R192, R198). -/
def Dev.linkChanged (d : Dev) (n : Nat) (twinToo : Bool) : Dev :=
  let d := if d.linkUp n then d.enterTraining n else d
  let d := if twinToo && d.linkUp (pairPartner n) then d.enterTraining (pairPartner n) else d
  d.recheckOps

/-! ## ENABLE 1 -/

/-- A block starts to run (R534, R538). A link may retry again; its departures from UP of the last second still count (R197). -/
def Dev.startBlock (d : Dev) (base i : Nat) : Dev :=
  match base with
  | 0x4000 => (d.onLink i fun x => { x with stuck := false }).enterTraining i
  | 0x6000 => (d.wr R.port_LINK_STATUS 1 i).ptpSettle
  | _ => d

/-- ENABLE 1 of a block that is off or refused (R534, R537, R538): the check, then state 2 or 3. -/
def Dev.enableBlock (d : Dev) (w : WriteOp) : Verdict :=
  let e := w.entry
  match findEntry (e.base + w.i) 0 with
  | none => turnedDown d 0x0103
  | some (st, _) =>
    if d.rd st w.i = 2 then taken d
    else
      let (r, off) := d.blockCheck e.base w.i true
      if r ≠ 0 then { reason := r, off := off, dev := (d.wr st 3 w.i).wr e 0 w.i }
      else
        let l := d.takenWith e.base w.i
        let twin := d.twinChanges l
        match recordAll w.p ((e, w.i, 1) :: l) d with
        | none => turnedDown d 0x0305
        | some d =>
          let d := (((d.inForce l).wr e 1 w.i).wr st 2 w.i).startBlock e.base w.i
          taken (if twin then d.linkChanged w.i true else d)

/-- BLOCK_ENABLE (R537, R538). -/
def execBlockEnable (o : Rx) (s : State) : Host.Outcome State Fault Refusal :=
  s.act fun d => d.writeRx o .enable fun d w => d.enableBlock w

/-! ## ENABLE 0 -/

/-- The L2 of a cluster that holds a core of a strict pavilion or of one with an admitted deadline class (R417). -/
def Dev.l2Protected (d : Dev) (c : Nat) : Bool :=
  (List.range 64).any fun p => d.pavExists p && (d.pavClusters p).contains c && (d.strict p || !(d.classesOf p).isEmpty)

/-- ENABLE 0 of a block (R534): a refused one returns to state 0, a running one stops. -/
def Dev.disableBlock (d : Dev) (w : WriteOp) : Verdict :=
  let e := w.entry
  match findEntry (e.base + w.i) 0 with
  | none => turnedDown d 0x0103
  | some (st, _) =>
    let now := d.rd st w.i
    if now = 0 then taken d
    else if now = 2 ∧ e.base = 0x3410 ∧ d.l2Protected w.i then turnedDown d 0x0207
    else
      match recordAll w.p [(e, w.i, 0)] d with
      | none => turnedDown d 0x0305
      | some d =>
        let d := (d.wr e 0 w.i).wr st (if now = 2 then 5 else 0) w.i
        taken (match e.base with
          | 0x4000 => if now = 2 then d.leaveTo w.i 0 0 else d
          | 0x6000 => d.portDown w.i 0
          | _ => d)

/-- BLOCK_DISABLE (R416, R417, R534). -/
def execBlockDisable (o : Rx) (s : State) : Host.Outcome State Fault Refusal :=
  s.act fun d => d.writeRx o .disable fun d w => d.disableBlock w

/-- BLOCK_STOPPED (R416, R469, R534, Table 7.12): the block's work has ended: no operation of an endpoint is open; an L2, none of whose
cores is in a retry, self-test or sparing, has written back and dropped every line; the others have none. -/
def execBlockStopped (o : OpBlockT) (s : State) : Host.Outcome State Fault Refusal :=
  s.act fun d =>
    let d := d.netAt o.t
    match findEntry o.index.toNat 0 with
    | none => d
    | some (st, i) =>
      if st.base = 0x2000 ∨ st.base = 0x7F00 ∨ d.rd st i ≠ 5 then d
      else if st.base = 0x5000 ∧ (d.chan.ops.any fun x => decide (x.ep = i) && x.isOpen) then d
      else if st.base = 0x3410 ∧ (clusterCores i).any fun c => d.targeted 0 (.core c) then d
      else
        let d := if st.base = 0x3410 then (List.range 16).foldl (fun d w => d.flushWay i w) d else d
        (d.wr st 0 i).dropStaged (blockStaged st.base) i

/-! ## COMMIT -/

/-- COMMIT 1 of a block that is not a pavilion's (R192, R198, R228, R537, R538). -/
def Dev.commitBlock (d : Dev) (w : WriteOp) : Verdict :=
  let base := w.entry.base
  let i := w.i
  if d.blockState w.entry i ≠ 2 then taken d
  else
    let (r, off) := d.blockCheck base i false
    if r ≠ 0 then { reason := r, off := off, dev := d }
    else
      let l := d.takenWith base i
      let twin := d.twinChanges l
      match recordAll w.p l d with
      | none => turnedDown d 0x0305
      | some d =>
        let d := d.inForce l
        taken (match base with
          | 0x4000 => d.linkChanged i twin
          | 0x5000 => d.recheckOps
          | _ => (d.pfcRules i).ptpSettle)

/-- The STAGED entries of a block. -/
def stagedEntries (base : Nat) : List Entry := if base = 0x2000 then pavStaged else blockStaged base

/-- COMMIT_DISCARD (R538). -/
def execCommitDiscard (o : Rx) (s : State) : Host.Outcome State Fault Refusal :=
  s.act fun d => d.writeRx o .discard fun d w => taken (d.dropStaged (stagedEntries w.entry.base) w.i)

end Sys2Proof.Machine
end

