-- ==== Sys2Proof/Machine/Pavilions.lean ====
section
/-! DEFINITION. Machine/Pavilions.lean: creation, receipt, changes of resources, destruction, and loading and starting the cores
of a pavilion (R36, R42 to R54, R58, R158, R275, R469, R472, R610, R611). -/

namespace Sys2Proof.Machine

/-! ## Resources that a pavilion gains and loses -/

/-- The resources that a commit takes from pavilion `p`: what `old` held and `d` holds no more. -/
def Dev.removedFrom (d old : Dev) (p : Nat) : List Res :=
  ((List.range (old.rd R.pav_KEY_SLOTS p)).filter (fun n => decide (d.rd R.pav_KEY_SLOTS p ≤ n))).map Res.keySlot ++
    (old.droppedUnits d p R.pav_CORES 256).map Res.core ++ (old.droppedUnits d p R.pav_BANKS 512).map Res.bank ++
    (old.droppedUnits d p R.pav_WAY_GROUPS 128).map Res.wayGroup ++ (old.droppedUnits d p R.pav_ENDPOINTS 4096).map Res.endpoint ++
    (old.droppedUnits d p R.pav_GRANULES 288).map Res.granule

/-- A way group assigned to a pavilion. Where that is strict, the lines of others leave the group's ways first, so that none of its
fills evicts them (R387). -/
def Dev.assignWayGroup (d : Dev) (p n : Nat) : Dev :=
  if d.strict p then
    let keep := fun (q : Nat) => decide (q = p)
    (d.flushWay (n / 8) (2 * (n % 8)) keep).flushWay (n / 8) (2 * (n % 8) + 1) keep
  else d

/-- The resources that pavilion `p` holds and `old` did not give it, assigned (R387, R422, R436). -/
def Dev.assignNew (d old : Dev) (p : Nat) : Dev :=
  let gen := d.rd R.pav_GENERATION p
  let gained := fun (e : Entry) (w : Nat) => d.droppedUnits old p e w
  let d := d.placeGranules p (gained R.pav_GRANULES 288)
  let d := (gained R.pav_BANKS 512).foldl (fun d b => d.assignBank p gen b) d
  let d := (gained R.pav_ENDPOINTS 4096).foldl (fun d e => d.assignEndpoint p gen e) d
  let d := (gained R.pav_WAY_GROUPS 128).foldl (fun d n => d.assignWayGroup p n) d
  (gained R.pav_CORES 256).foldl (fun d c => d.assignCore c) d

/-- The device with pavilion `p` holding nothing. -/
def Dev.emptied (d : Dev) (p : Nat) : Dev := pavStaged.foldl (fun d e => d.wr e 0 p) d

/-- The staged element of WINDOW_SIZE of pavilion `p` recorded and in force (R142, R158); none where its record finds no room. Space
that it takes away waits for its quench like any removed resource (R50). -/
def Dev.takeWindow (d : Dev) (p : Nat) : Option Dev :=
  let now := d.rd R.hearth_WINDOW_SIZE
  let v := d.stagedWindow p
  let old := elem 4 now p
  if old = v then some d
  else
    match d.recordDict R.hearth_WINDOW_SIZE 0 0 (withElem 4 now p v) with
    | some d =>
      let d := d.wr R.hearth_WINDOW_SIZE (withElem 4 now p v)
      some (if v < old ∧ d.pavExists p then { d with removing := d.removing ++ [(p, .window old)] } else d)
    | none => none

/-! ## Creation -/

/-- Bytes 0 to 143 of the receipt (Table 2.6). -/
def Dev.receiptBody (d : Dev) (p : Nat) (devicePub nonce : Bytes) : Bytes :=
  ascii "PVRC" ++ leBytes 2 1 ++ leBytes 1 p ++ leBytes 1 (d.rd R.pav_MODE p) ++ leBytes 4 (d.rd R.pav_GENERATION p) ++
    leBytes 4 Config.firmware ++ leBytes 8 Config.serial ++ leBytes 8 d.time ++ leBytes 32 (d.rd R.pav_OWNER_KEY p) ++ devicePub ++ nonce ++
    leBytes 2 (countOnes 256 (d.rd R.pav_CORES p)) ++ leBytes 2 (countOnes 288 (d.rd R.pav_GRANULES p)) ++
    leBytes 2 (countOnes 512 (d.rd R.pav_BANKS p)) ++ leBytes 2 (countOnes 4096 (d.rd R.pav_ENDPOINTS p)) ++
    leBytes 4 (d.rd R.pav_HEARTH_QUOTA p) ++ leBytes 2 (d.rd R.pav_KEY_SLOTS p) ++
    leBytes 1 (d.rd R.pav_SPARING p + 2 * d.rd R.pav_TWIN_PERMIT p) ++ zeros 1

/-- PCK (Table 2.5, step 5). -/
def pckOf (ss nonce : Bytes) (p gen : Nat) : Bytes := hkdf ss nonce (ascii "BOLWYN PAVILION" ++ leBytes 1 p ++ leBytes 4 gen) 32

/-- Steps 3 to 6 of Table 2.5 (R43, R610), for a private key and a nonce. -/
def Dev.createPav (d : Dev) (p : Nat) (priv nonce : Bytes) : Dev :=
  let owner := leBytes 32 (d.rd R.pav_OWNER_KEY p)
  let d := (d.inForce (d.stagedOf pavStaged p)).bump R.pav_GENERATION p
  let d := d.assignNew (d.emptied p) p
  let pub := x25519Public priv
  let pck := pckOf (x25519 priv owner) nonce p (d.rd R.pav_GENERATION p)
  let body := d.receiptBody p pub nonce
  let d := d.wr R.pav_RECEIPT (leNat (body ++ edSign Config.identitySeed body)) p
  let d := (d.wr R.pav_STATE 2 p).wr R.pav_ENABLE 1 p
  let d := { d with
    hearth := { d.hearth with ownerKeys := d.hearth.ownerKeys ++ [owner], pck := Table.set [] d.hearth.pck p pck }
    pavs := Table.set {} d.pavs p {}
    net := { d.net with standingSt := Table.set 0 d.net.standingSt p 0 } }
  d.fitDirWays.deficitRules.bump R.est_CREATIONS

/-- PAVILION_CREATE (R43, R44): the check, then the steps of Table 2.5. -/
def execPavilionCreate (o : Rx) (s : State) : Host.Outcome State Fault Refusal :=
  s.act fun d => d.writeRx o .create fun d w =>
    let p := w.i
    if d.pavState p = 2 then taken d
    else
      let (a, d) := d.draw
      let (b, d) := d.draw
      let priv := padTo 32 (Config.random a 32)
      let nonce := padTo 32 (Config.random b 32)
      let (r, off) := d.pavCheck p (some priv)
      if r ≠ 0 then { reason := r, off := off, dev := (d.wr R.pav_STATE 3 p).wr R.pav_ENABLE 0 p }
      else
        match d.takeWindow p with
        | none => turnedDown d 0x0305
        | some d => taken (d.createPav p priv nonce)

/-! ## Changing resources (R48 to R50, R158) -/

/-- COMMIT 1 of a pavilion's block. -/
def Dev.commitPav (d : Dev) (p : Nat) : Verdict :=
  if d.pavState p ≠ 2 then taken d
  else
    let (r, off) := d.pavCheck p none
    if r ≠ 0 then { reason := r, off := off, dev := d }
    else
      match d.takeWindow p with
      | none => turnedDown d 0x0305
      | some d =>
        let l := d.stagedOf pavStaged p
        let moved := l.any fun x => decide (d.rd x.1 p ≠ x.2.2)
        let n := d.inForce l
        let out := n.removedFrom d p
        let n := { n with removing := n.removing ++ out.map fun x => (p, x) }
        let n := (((n.assignNew d p).fitRing p).fitDirWays).deficitRules
        taken (if moved then n.ring p 0x01FFE else n)

/-- COMMIT (R537, R538): all staged values take effect, or none. -/
def execCommit (o : Rx) (s : State) : Host.Outcome State Fault Refusal :=
  s.act fun d => d.writeRx o .commit fun d w => if w.entry.base = 0x2000 then d.commitPav w.i else d.commitBlock w

/-! ## Destruction (R51 to R54, R58) -/

/-- What is kept of a pavilion beside its entries, changed. -/
def Dev.onPav (d : Dev) (p : Nat) (f : Pav → Pav) : Dev := { d with pavs := Table.set {} d.pavs p (f (Table.get {} d.pavs p)) }

/-- Operations of a pavilion with an OPST and no OPDN. -/
def Dev.openOps (d : Dev) (p : Nat) : List ChanOp := d.chan.ops.filter fun o => decide (o.pav = p) && o.isOpen

/-- The device's HALT of every open operation of pavilion `p` (R53): one in OPENING gets it once its START is acknowledged. -/
def Dev.haltAll (d : Dev) (p : Nat) : Dev :=
  (d.openOps p).foldl (fun d o =>
    let o := d.again o
    match o.st with
    | .opening => d.setOp (o.addCtl 2 0 true)
    | .running | .moving => d.enterHalting o 0 true
    | .halting | .querying => d.sendCtl (o.addCtl 2 0 true)
    | _ => d) d

/-- The longest endpoint timeout among the open operations of pavilion `p`, ns. -/
def Dev.haltWait (d : Dev) (p : Nat) : Nat := ((d.openOps p).map fun o => d.epTimeout o.ep).foldl max 0

/-- Destruction becomes forced (R52, R53). -/
def Dev.force (d : Dev) (p : Nat) : Dev :=
  (d.onPav p fun x => { x with forced := true, due := d.time + d.haltWait p }).haltAll p

/-- PAVILION_DESTROY (R51, R58). -/
def execPavilionDestroy (o : Rx) (s : State) : Host.Outcome State Fault Refusal :=
  s.act fun d => d.writeRx o .destroy fun d w =>
    let p := w.i
    if p = 0 then turnedDown d 0x0102
    else match d.pavState p with
      | 2 =>
        let d := (d.wr R.pav_STATE 5 p).wr R.pav_ENABLE 0 p
        let d := { d with pavs := Table.set {} d.pavs p {} }
        taken (if d.rd R.pav_DESTROY_MODE p = 1 then d.force p else d)
      | 3 => taken ((d.wr R.pav_STATE 0 p).wr R.pav_ENABLE 0 p)
      | _ => taken d

/-- DESTROY_MODE (R52). -/
def execDestroyMode (o : Rx) (s : State) : Host.Outcome State Fault Refusal :=
  s.act fun d => d.writeRx o .destroyMode fun d w =>
    let p := w.i
    let x := d.putNow w
    if x.reason = 0 ∧ w.v = 1 ∧ d.pavState p = 5 ∧ !d.forced p ∧ !d.quenching p then taken (x.dev.force p) else x

/-- Sessions of a pavilion. -/
def Dev.pavSessions (d : Dev) (p : Nat) : List Session := d.net.sessions.filter fun s => decide (s.pav = p)

/-- A core of the pavilion is in a retry, self-test or sparing, which a destruction waits for (R469). -/
def Dev.coresBusy (d : Dev) (p : Nat) : Bool := (d.pavCores p).any fun c => d.targeted p (.core c)

/-- The wait of R51 or R53 is over. -/
def Dev.mayProceed (d : Dev) (p : Nat) : Bool :=
  let x := Table.get {} d.pavs p
  decide (d.pavState p = 5) && !x.proceeding && !d.coresBusy p &&
    (if x.forced then (d.openOps p).isEmpty || decide (x.due ≤ d.time)
     else (d.openOps p).isEmpty && (d.pavSessions p).all fun s => s.reqs.isEmpty)

/-- What a forced destruction discards, counted (R53). -/
def Dev.discardWork (d : Dev) (p : Nat) : Dev :=
  let n := ((d.pavSessions p).map fun s => s.reqs.length).sum + (d.openOps p).length
  let d := if n = 0 then d else d.bump R.est_DISCARDED_AT_DESTROY (n := n)
  let d := (d.chan.ops.filter fun o => decide (o.pav = p)).foldl (fun d o => d.unqueue o fun _ => true) d
  let d := d.onChan fun c => { c with ops := c.ops.filter fun o => decide (o.pav ≠ p) }
  d.onNet fun x => { x with
    sessions := x.sessions.map fun s => if s.pav = p then { s with reqs := [] } else s
    inQ := x.inQ.filter fun q => decide (q.pav ≠ p)
    inRing := x.inRing.filter fun q => decide (q.pav ≠ p) }

/-- Step 1 of R54: key slots, PCK and the bit-store copy; jobs of the pavilion are gone. -/
def Dev.quenchKeys (d : Dev) (p : Nat) : Dev :=
  { d with
    eng := { d.eng with
      keys := d.eng.keys.filter fun e => decide (e.1 / 1024 ≠ p)
      high := d.eng.high.filter fun e => decide (e.1 / 1024 ≠ p)
      cipherJobs := d.eng.cipherJobs.filter fun j => decide (j.pav ≠ p)
      cipherDone := d.eng.cipherDone.filter fun j => decide (j.pav ≠ p)
      compJobs := d.eng.compJobs.filter fun j => decide (j.pav ≠ p)
      compDone := d.eng.compDone.filter fun j => decide (j.job.pav ≠ p)
      cipherIndex := Table.set 0 d.eng.cipherIndex p 0
      compIndex := Table.set 0 d.eng.compIndex p 0 }
    hearth := { d.hearth with pck := Table.set [] d.hearth.pck p [] }
    mem := { d.mem with
      bits := d.mem.bits.filter fun e => decide (e.1 / 2 ^ 18 ≠ p)
      bitPoison := d.mem.bitPoison.filter fun e => decide (e.1 / 2 ^ 18 ≠ p)
      bitPast := d.mem.bitPast.filter fun e => decide (e.key / 2 ^ 18 ≠ p)
      dmaLost := d.mem.dmaLost.filter fun e => decide (e.1 ≠ p)
      moverJobs := d.mem.moverJobs.filter fun j => decide (j.pav ≠ p)
      moverIndex := d.mem.moverIndex.filter fun e => decide (e.1 % 64 ≠ p)
      moverAwake := d.mem.moverAwake.filter fun e => decide (e.1 % 64 ≠ p) }
    net := { d.net with inIndex := Table.set 0 d.net.inIndex p 0 } }

/-- Banks of pavilion `p`: held, being cleared, releasing or released (Table 14.4). -/
def Dev.banksOf (d : Dev) (p : Nat) : List Nat :=
  (List.range 512).filter fun b => match d.bank b with
    | .held q | .clearing q | .releasing q _ | .released q _ => decide (q = p)
    | .free => false

/-- Steps 2 to 4 of R54: cores, banks, way groups; granules; rings and window. -/
def Dev.quenchRest (d : Dev) (p : Nat) : Dev :=
  let d := ((d.removing.filter fun e => decide (e.1 = p)).map (·.2)).foldl (fun d x => d.freeRes p x) d
  let d := { d with removing := d.removing.filter fun e => decide (e.1 ≠ p) }
  let d := (d.pavCores p).foldl (fun d c => d.freeRes p (.core c)) d
  let d := (d.banksOf p).foldl (fun d b => d.emptyBank b) d
  let d := (bitList 128 (d.rd R.pav_WAY_GROUPS p)).foldl (fun d g => d.quenchWayGroup g) d
  let d := (bitList 288 (d.rd R.pav_GRANULES p)).foldl (fun d g => d.quenchGranule p g) d
  let d := (bitList 4096 (d.rd R.pav_ENDPOINTS p)).foldl (fun d e => d.releaseEndpoint e) d
  (d.setRing p {}).cutWindow p 0

/-- DESTRUCTION_PROCEED (R53, R54): sessions close, and the resources are quenched in order. -/
def execDestructionProceed (o : OpPavT) (s : State) : Host.Outcome State Fault Refusal :=
  s.act fun d =>
    let d := d.netAt o.t
    let p := o.pav.val
    if !d.mayProceed p then d
    else
      let d := d.discardWork p
      let d := ((d.pavSessions p).map (·.id)).foldl (fun d id => d.deviceClose id 0x0204) d
      ((d.quenchKeys p).quenchRest p).onPav p fun x => { x with proceeding := true }

/-- Values of pavilion `p` returned to their defaults, but for GENERATION: its block's, and its own of scope P. -/
def Dev.forgetPav (d : Dev) (p : Nat) : Dev :=
  let d := R.block2000.foldl (fun d e => if e.sub = 0x11 then d else (d.wr e (e.default p) p).wrStaged e none p) d
  let mine := fun (k : Nat) => decide (k % 64 = p)
  { d with dict := d.dict.filter fun e => !mine e.1, staged := d.staged.filter fun e => !mine e.1 }

/-- DESTRUCTION_COMPLETE (R54): every resource is in the free pool. -/
def execDestructionComplete (o : OpPavT) (s : State) : Host.Outcome State Fault Refusal :=
  s.act fun d =>
    let d := d.at o.t
    let p := o.pav.val
    if d.pavState p = 5 ∧ d.quenching p then
      let d := (d.banksOf p).foldl (fun d b => d.quenchBank b) d
      let d := d.forgetPav p
      let d := { d with
        pavs := Table.set {} d.pavs p {}
        net := { d.net with standingSt := Table.set 0 d.net.standingSt p 0 } }
      d.fitDirWays.deficitRules.bump R.est_DESTRUCTIONS
    else d

/-! ## LOAD and START (R36, R45, R275, R472) -/

/-- LOAD (R45). -/
def execLoadImage (o : Rx) (s : State) : Host.Outcome State Fault Refusal :=
  s.act fun d => d.writeRx o .load fun d w =>
    let a := fieldLE w.raw 0 8
    let b := w.raw.drop 8
    if (d.firstUnmapped w.i a b.length).isSome then turnedDown d 0x0108 else taken (d.devWrite w.i a b)

/-- The state of a core at start (Table 8.10). ENTRY is a U64 and a cursor has 38 bits: what an ENTRY of 2^38 or more makes of it the
spec does not say, and the model takes its low 38 bits (DESIGN CHOICE, notes/assumptions/52). -/
def startArch (entry : Nat) : Arch := { caps := [(1, rootCap)], pcc := { rootCap with cursor := BitVec.ofNat 38 entry } }

/-- A twin is a twin no more: a pairing changed before its START (R472). -/
def Dev.untwin (d : Dev) (c : Nat) : Dev :=
  match (d.core c).twin with
  | some q => (d.onCore q fun x => { x with twin := none, exchange := none }).onCore c fun x => { x with twin := none, exchange := none }
  | none => d

/-- A core begins at ENTRY, `twin` being its partner (R275, R472). -/
def Dev.beginCore (d : Dev) (p c : Nat) (twin : Option Nat) : Dev :=
  let a := startArch (d.rd R.pav_ENTRY p)
  ((d.untwin c).resetCore p c .running).onCore c fun x => { x with arch := a, checkpoint := a, exArch := a, twin := twin }

/-- The core of its pavilion that `c` is paired with, if any (R471). -/
def Dev.partnerIn (d : Dev) (p c : Nat) : Option Nat :=
  let q := d.twinPartner c
  if q ≠ 0xFFFF ∧ d.coreOwner q = some p ∧ (d.core q).run ≠ .lost then some q else none

/-- START of a core that nothing else acts on: with its partner, where it has one. A core in a retry, self-test or sparing
remembers it (R469). -/
def Dev.startCore (d : Dev) (p c : Nat) : Dev :=
  match d.partnerIn p c with
  | some q =>
    if d.targeted p (.core c) then d.onCore c fun x => { x with startOwed := true }
    else if d.targeted p (.core q) then d.onCore q fun x => { x with startOwed := true }
    else (d.beginCore p c (some q)).beginCore p q (some c)
  | none =>
    if d.targeted p (.core c) then d.onCore c fun x => { x with startOwed := true } else d.beginCore p c none

/-- START (R45, R469). -/
def execStart (o : Rx) (s : State) : Host.Outcome State Fault Refusal :=
  s.act fun d => d.writeRx o .start fun d w =>
    let p := w.i
    match (d.pavCores p)[w.v]? with
    | none => turnedDown d 0x0101
    | some c =>
      if (d.core c).run = .lost then turnedDown d 0x0211
      else if d.forced p then turnedDown d 0x0204
      else if ¬(d.pavState p = 2 ∨ d.pavState p = 5) then turnedDown d 0x0201
      else taken (d.startCore p c)

end Sys2Proof.Machine
end

