-- ==== Sys2Proof/Machine/Settings.lean ====
section
/-! DEFINITION. Machine/Settings.lean: the entries whose writes have rules of their own: keys, microcode images, twin pairs, caps,
cache control, rings and the relations between times (R45, R80, R100, R116, R123, R126, R240, R411 to R414, R443, R455, R456, R471,
R483, R491, R495, R515, R548, R613). -/

namespace Sys2Proof.Machine

/-! ## Entries without a row of their own -/

/-- A new SERVICE_TIME leaves T_EP where an admitted class of the endpoint's owner allows it (R123). -/
def Dev.serviceFits (d : Dev) (e v : Nat) : Bool :=
  match d.epOwner e with
  | none => true
  | some p =>
    let eps := bitList 4096 (d.rd R.pav_ENDPOINTS p)
    let t := (d.wr R.ep_SERVICE_TIME v e).tEp eps
    decide (t ≤ d.tEp eps) || (d.classesOf p).all fun c => decide (timeBudget c t (decide (d.rd R.pav_SPARING p = 1)) ≤ cdDeadline c)

/-- What an entry's chapter asks of a value beside its range: relations of Tables 3.13 and 7.12, and R123. Each relation binds the
entry that the table states it for: RESEND_CAP, DEAD_TIME and ENDPOINT_TIMEOUT have it in their ranges (R116, R244). That a write of
RESEND_TIME, KEEPALIVE_TIME or SERVICE_TIME within its own range is taken, though it leaves the other entry short of the relation, is
the model's reading (DEDUCED, notes/assumptions/52). -/
def Dev.relation (d : Dev) (w : WriteOp) : Nat :=
  match w.entry.base, w.entry.sub with
  | 0x6100, 0x08 => refuse (decide (4 * d.rd R.amn_KEEPALIVE_TIME ≤ w.v)) 0x0101
  | 0x5000, 0x07 => refuse (d.serviceFits w.i w.v) 0x0506
  | 0x5000, 0x08 => refuse (decide (d.rd R.ep_SERVICE_TIME w.i ≤ 1000 * w.v)) 0x0101
  | _, _ => 0

/-- UDP_PORT: in force from the next start-up (R116, R536). It gets no DICT record until then (R614); the device area keeps it
(notes/assumptions/52). -/
def Dev.putUdpPort (d : Dev) (w : WriteOp) : Verdict := taken { d with hearth := { d.hearth with stagedPort := some w.v } }

/-- DICT_WRITE (R526, R528, R536): an entry that has no row of its own. -/
def execDictWrite (o : Rx) (s : State) : Host.Outcome State Fault Refusal :=
  s.act fun d => d.writeRx o .write fun d w =>
    let r := d.relation w
    if r ≠ 0 then turnedDown d r
    else if w.entry.base = 0x6100 ∧ w.entry.sub = 0x03 then d.putUdpPort w
    else if w.entry.base = 0x7000 ∧ w.entry.sub = 0x10 then taken (d.wrStaged w.entry (some w.v))
    else d.putValue w

/-! ## Keys -/

/-- A KEY_WRITE waits for every job submitted before it that names its slot (R485). -/
def Dev.keyWriteWaits (d : Dev) (o : Rx) : Bool :=
  let q := DictReq.ofMsg o.msg
  let n := fieldLE q.data 0 2
  decide (q.row = .keyWrite) &&
    match d.sess o.msg.session.toNat with
    | none => false
    | some s => (d.eng.cipherJobs.any fun j => decide (j.pav = s.pav) && decide (j.slot = n)) ||
        d.eng.cipherDone.any fun j => decide (j.pav = s.pav) && decide (j.slot = n)

/-- KEY_WRITE (R483 to R485). While it waits for a job its message stays where it is. -/
def execKeyWrite (o : Rx) (s : State) : Host.Outcome State Fault Refusal :=
  s.act fun d => if (d.netAt o.t).keyWriteWaits o then d.netAt o.t else d.writeRx o .keyWrite fun d w =>
    let n := fieldLE w.raw 0 2
    let key := slice w.raw 2 80
    if !d.holdsSlot w.p n then turnedDown d 0x0603
    else
      let r := d.keyRefused w.p n key
      if r ≠ 0 then turnedDown d r else taken (d.loadKey w.p n key)

/-- ECK (R80, R89): the bootstrap sessions close with 0x0401 once it is set. Which sessions those are the spec says only as "bootstrap":
the model closes the estate's sessions opened with AUTH_KEY 0xFFFE, and no other (DESIGN CHOICE, notes/assumptions/45). -/
def execEck (o : Rx) (s : State) : Host.Outcome State Fault Refusal :=
  s.act fun d => d.writeRx o .eck (fun d w => taken ((d.wr R.amn_ECK w.v).wr R.amn_ECK_SET 1)) fun d _ =>
    ((d.net.sessions.filter fun s => decide (s.pav = 0) && decide (s.authKey = 0xFFFE)).map (·.id)).foldl
      (fun d id => d.deviceClose id 0x0401) d

/-! ## Microcode images (R455, R456) -/

/-- The 32-bit little-endian words of a byte string. -/
def words32 : Bytes → List Nat
  | a :: b :: c :: e :: t => leNat [a, b, c, e] :: words32 t
  | _ => []

/-- Both parities of a stored word are odd (R448, R455). Bits [31:26] are RES0 and ignored (R4). -/
def ucodeWordOk (w : Nat) : Bool :=
  decide ((countOnes 12 (bitsOf w 23 12) + bitsOf w 25 25) % 2 = 1) &&
    decide ((countOnes 12 (bitsOf w 11 0) + bitsOf w 24 24) % 2 = 1)

/-- SEQ of a sequencing word; 8 for an operation word (Tables 15.1, 15.2). -/
def ucodeSeq (w : Nat) : Nat := if bitOf w 23 then bitsOf w 22 20 else 8

/-- The words that follow the word `w` at `a` in the same routine: a call comes back to the next word. -/
def ucodeNext (a w : Nat) : List Nat :=
  let next := (a + 1) % 8192
  match ucodeSeq w with
  | 0 => [w % 8192]
  | 1 | 2 => [next, w % 8192]
  | 3 | 8 => [next]
  | _ => []

/-- The addresses of a routine, as a bit set, found from those of `todo`. -/
def ucodeReach (img : Array Nat) : Nat → List Nat → Nat → Nat
  | 0, _, seen => seen
  | _ + 1, [], seen => seen
  | fuel + 1, a :: todo, seen =>
    if bitOf seen a then ucodeReach img fuel todo seen
    else ucodeReach img fuel (ucodeNext a (img.getD a 0) ++ todo) (withBit seen a true)

/-- The targets of the calls among the words at `l`. -/
def ucodeCalls (img : Array Nat) (l : List Nat) : List Nat :=
  (l.filterMap fun a => let w := img.getD a 0; if ucodeSeq w = 3 then some (w % 8192) else none).eraseDups

/-- Calls nest at most `n` deep below the routines that start at `l`. -/
def ucodeDepthOk (img : Array Nat) : Nat → List Nat → Bool
  | 0, l => l.isEmpty
  | n + 1, l => l.isEmpty || ucodeDepthOk img n (ucodeCalls img (bitList 8192 (ucodeReach img 32768 l 0)))

/-- The static call depth is at most 8. The image fixes the entry addresses (R447), which the spec does not list: every call of
the store counts (notes/assumptions/30). -/
def ucodeDepth8 (img : Array Nat) : Bool := ucodeDepthOk img 8 (ucodeCalls img (List.range 8192))

/-- An image passes the checks of R456, but for its RELEASE. Its RES0 bytes are ignored (R4). -/
def ucodeImageOk (b : Bytes) : Bool :=
  let words := words32 (slice b 64 32768)
  decide (b.length = 32896) && decide (slice b 0 4 = ascii "UCIM") && decide (fieldLE b 4 2 = 1) &&
    decide (fieldLE b 12 4 = 8192) && words.all ucodeWordOk &&
    edVerify Config.plequinKey (b.take 32832) (b.drop 32832) && ucodeDepth8 words.toArray

/-- UCODE_IMAGE (R456). -/
def execUcodeImage (o : Rx) (s : State) : Host.Outcome State Fault Refusal :=
  s.act fun d => d.writeRx o .ucode fun d w =>
    let release := fieldLE w.raw 8 4
    if !ucodeImageOk w.raw then turnedDown d 0x010A
    else if release < d.rd R.dev_UCODE_RELEASE then turnedDown d 0x010B
    else
      let d := { d with hearth := { d.hearth with ucodeStaged := w.raw } }
      taken (d.wr R.dev_UCODE_STAGED release)

/-! ## Twin pairs (R471) -/

/-- Why the pair of cores `c` and `q` of pavilion `p` is refused, 0 where it is not. -/
def Dev.pairRefused (d : Dev) (p c q : Nat) : Nat :=
  firstReason [
    refuse (decide (d.rd R.pav_TWIN_PERMIT p = 1) && decide (d.coreOwner c = some p) && decide (d.coreOwner q = some p)) 0x0401,
    refuse (decide (clusterOf c ≠ clusterOf q) && decide (d.twinPartner c = 0xFFFF) && decide (d.twinPartner q = 0xFFFF)) 0x0210,
    refuse (decide ((d.core c).run ≠ .lost) && decide ((d.core q).run ≠ .lost)) 0x0211]

/-- Elements of TWIN_PARTNER written in rising slots: each change forms or dissolves a pair, or its reason refuses the write. -/
def pairChanges (p cluster v seen : Nat) : List Nat → Dev → Except Nat Dev
  | [], d => .ok d
  | k :: t, d =>
    let c := 16 * cluster + k
    let x := elem 2 v k
    if x = elem 2 seen k then pairChanges p cluster v seen t d
    else if d.coreOwner c ≠ some p then .error 0x0401
    else if x = 0xFFFF then pairChanges p cluster v seen t (d.dissolvePair c)
    else if 256 ≤ x then .error 0x0101
    else
      let r := d.pairRefused p c x
      if r ≠ 0 then .error r else pairChanges p cluster v seen t ((d.setTwinPartner c x).setTwinPartner x c)

/-- TWIN_PARTNER (R471). -/
def execTwinPartner (o : Rx) (s : State) : Host.Outcome State Fault Refusal :=
  s.act fun d => d.writeRx o .twin fun d w =>
    let seen := (d.reported w.p 0x3000 0x20 w.i).getD 0
    match pairChanges w.p w.i w.v seen (List.range 16) d with
    | .ok d => taken d
    | .error r => turnedDown d r

/-! ## Power and alerts -/

/-- A write of POWER_CAP, by DICT or through the I2C window (R126). -/
def Dev.putPowerCap (d : Dev) (w : WriteOp) : Verdict :=
  if w.v < d.pAdmit d.deadlineClusters then turnedDown d 0x0503 else d.putNow w

/-- POWER_CAP (R126). -/
def execPowerCap (o : Rx) (s : State) : Host.Outcome State Fault Refusal :=
  s.act fun d => d.writeRx o .powerCap fun d w => d.putPowerCap w

/-- ALERT_ACK (R548). -/
def execAlertAck (o : Rx) (s : State) : Host.Outcome State Fault Refusal :=
  s.act fun d => d.writeRx o .alertAck fun d w => taken (if w.v = 1 then { d with alertOpen := false } else d)

/-! ## Cache control (R411 to R414) -/

/-- A line of pavilion `p` lies in a locked way of some cluster. -/
def Dev.lockedLine (d : Dev) (p line : Nat) : Bool :=
  d.mem.l2.any fun e => decide (e.2.st ≠ .i) && decide (e.2.pav = p) && decide (e.2.line = line) &&
    (d.wayLockedBy (e.1 / 2 ^ 18) (e.1 % 16)).isSome

/-- RANGE_INVAL (R413, R414). -/
def execRangeInval (o : Rx) (s : State) : Host.Outcome State Fault Refusal :=
  s.act fun d => d.writeRx o .rangeInval fun d w =>
    let base := fieldLE w.raw 0 8
    let n := fieldLE w.raw 8 8
    if n = 0 then taken d
    else
      let ls := d.heldLines w.p (base / 64) ((base + n - 1) / 64 + 1)
      let d := if ls.any (d.lockedLine w.p) then d.bump R.coh_LOCKED_INVAL else d
      taken (ls.foldl (fun d l => d.flushLine w.p l false) d)

/-- The ways of cluster `c` whose elements strict pavilion `p` writes (R411). -/
def Dev.ownWays (d : Dev) (c p : Nat) : List Nat :=
  if d.strict p then (List.range 16).filter fun w => decide (d.wayGroupOwner c (w / 2) = some p) else []

/-- A way emptied and bound to a region whose lines leave the other ways (R412). -/
def Dev.lockWay (d : Dev) (c p w v : Nat) : Dev :=
  let d := d.flushWay c w
  let ks := (d.mem.l2.filter fun e => decide (e.1 / 2 ^ 18 = c) && decide (e.2.st ≠ .i) && decide (e.2.pav = p) &&
    decide (e.2.line / 2 ^ 14 = v % 2 ^ 18)).map (·.1)
  let d := ks.foldl (fun d k => (d.evict c k).settle p (d.l2At k).line) d
  d.wr R.l2_WAY_LOCK (withElem 8 (d.rd R.l2_WAY_LOCK c) w v) c

/-- WAY_LOCK (R411, R412). -/
def execWayLock (o : Rx) (s : State) : Host.Outcome State Fault Refusal :=
  s.act fun d => d.writeRx o .wayLock fun d w =>
    let c := w.i
    let own := d.ownWays c w.p
    let seen := (d.reported w.p 0x3410 0x03 c).getD 0
    let locked := own.filter fun k => bitOf (elem 8 w.v k) 63
    let regions := locked.map fun k => elem 8 w.v k % 2 ^ 18
    if (List.range 16).any fun k => !own.contains k && decide (elem 8 w.v k ≠ elem 8 seen k) then turnedDown d 0x0401
    else if regions.eraseDups.length ≠ regions.length then turnedDown d 0x0101
    else if !locked.isEmpty && decide (locked.length = own.length) then turnedDown d 0x0303
    else taken (own.foldl (fun d k =>
      let v := elem 8 w.v k
      if v = d.wayLock c k then d
      else if bitOf v 63 then d.lockWay c w.p k v
      else d.wr R.l2_WAY_LOCK (withElem 8 (d.rd R.l2_WAY_LOCK c) k v) c) d)

/-! ## Rings: their device index becomes 0 with each write of their entries (R613) -/

/-- INBOUND_CONFIG (R100, R103). -/
def execInboundConfig (o : Rx) (s : State) : Host.Outcome State Fault Refusal :=
  s.act fun d => d.writeRx o .inbound fun d w =>
    let p := w.p
    let (full, d) := (d.inRefresh p).anyFull p
    let n := d.wr w.entry w.v 0 p
    let entries := n.rd R.amn_INBOUND_ENTRIES 0 p
    let r := firstReason [
      refuse (!full && !(d.net.inQ.any fun q => decide (q.pav = p) && decide (q.kind = 1))) 0x020D,
      refuse (n.ringMapped p (n.rd R.amn_INBOUND_BASE 0 p) (n.rd R.amn_INBOUND_SLOT 0 p * entries)) 0x0108,
      refuse (decide (d.rd R.amn_INBOUND_ENTRIES 0 p ≤ entries) || decide (d.windowSum p ≤ entries)) 0x0309,
      refuse (decide (w.entry.sub ≠ 0x22) ||
        (d.pavSessions p).all fun s => !cdData s.desc || decide (cdMaxRequest s.desc + 64 ≤ w.v)) 0x0105]
    if r ≠ 0 then turnedDown d r
    else
      let x := d.putNow w
      { x with dev := if x.reason = 0 then x.dev.onNet fun y => { y with inIndex := Table.set 0 y.inIndex p 0 } else x.dev }

/-- CQ_CONFIG (R240). -/
def execCqConfig (o : Rx) (s : State) : Host.Outcome State Fault Refusal :=
  s.act fun d => d.writeRx o .cq fun d w =>
    let e := w.i
    if (d.chan.ops.any fun x => decide (x.ep = e) && (x.isOpen || !x.posted && decide (x.st = .done))) || !(d.postedOf e).isEmpty then
      turnedDown d 0x020D
    else
      let x := d.putNow w
      { x with dev := if x.reason = 0 then x.dev.onChan fun y => { y with cqIndex := Table.set 0 y.cqIndex e 0 } else x.dev }

/-- MOVER_CONFIG (R443). -/
def execMoverConfig (o : Rx) (s : State) : Host.Outcome State Fault Refusal :=
  s.act fun d => d.writeRx o .mover fun d w =>
    let p := w.p
    let n := d.wr w.entry w.v w.i p
    let ring := n.moverRing w.i p
    let ruled := decide (w.entry.sub ≠ 0x13)
    if ruled && ((d.moverJob w.i p).isSome || !n.ringMapped p ring.1 ring.2) then turnedDown d 0x020D
    else
      let x := d.putNow w
      { x with dev :=
          if x.reason = 0 then x.dev.onMem fun y => { y with moverIndex := Table.set 0 y.moverIndex (w.i * 64 + p) 0 } else x.dev }

/-- CIPHER_CQ_CONFIG (R491). -/
def execCipherCqConfig (o : Rx) (s : State) : Host.Outcome State Fault Refusal :=
  s.act fun d => d.writeRx o .cipherCq fun d w =>
    if d.cipherCount w.p ≠ 0 then turnedDown d 0x020D
    else
      let x := d.putNow w
      { x with dev := if x.reason = 0 then x.dev.onEng fun y => { y with cipherIndex := Table.set 0 y.cipherIndex w.p 0 } else x.dev }

/-- COMPRESSION_CQ_CONFIG (R515). -/
def execCompressionCqConfig (o : Rx) (s : State) : Host.Outcome State Fault Refusal :=
  s.act fun d => d.writeRx o .compCq fun d w =>
    if d.compCount w.p ≠ 0 then turnedDown d 0x020D
    else
      let x := d.putNow w
      { x with dev := if x.reason = 0 then x.dev.onEng fun y => { y with compIndex := Table.set 0 y.compIndex w.p 0 } else x.dev }

/-- DENSITY (R495). -/
def execDensity (o : Rx) (s : State) : Host.Outcome State Fault Refusal :=
  s.act fun d => d.writeRx o .density fun d w =>
    if engineFits (d.classesOf w.p) (elem 1 (d.rd R.pav_SHARES w.p) 3) w.v then d.putNow w else turnedDown d 0x0507

end Sys2Proof.Machine
end

