-- ==== Sys2Proof/Machine/Board.lean ====
section
/-! DEFINITION. Machine/Board.lean: clocks and the timebase, the I2C window, temperature, the TAP and the open-drain outputs (R126,
R135, R543 to R546, R562 to R571, R585, R586, R593, R594, R600). -/

namespace Sys2Proof.Machine

/-! ## Reference clocks (R562 to R564) -/

/-- Both references lost: links in UP fail, and ports are down (R190, R564). -/
def Dev.refsGone (d : Dev) : Dev :=
  let d := ((List.range 96).filter d.linkUp).foldl (fun d n => d.leaveTo n 5 6) d
  (d.portDown 0 0).portDown 1 0

/-- A reference is present again: running ports that are down train (R564). -/
def Dev.refsBack (d : Dev) : Dev :=
  [0, 1].foldl (fun d n => if d.rd R.port_STATE n = 2 ∧ d.rd R.port_LINK_STATUS n = 0 then d.wr R.port_LINK_STATUS 1 n else d) d

/-- The SerDes PLLs follow REFCLK_B or REFCLK_A; a change is a switch, counted (R563). They run from step 4 of start-up on. -/
def Dev.followB (d : Dev) (b : Bool) : Dev :=
  if d.plat.onB == b || decide (d.plat.step < 4) then d else (d.onPlat fun x => { x with onB := b }).bump R.pow_REF_SWITCHES

/-- A reference is lost: the PLLs switch where they followed it and the other is present, else they coast (R562 to R564). -/
def Dev.refLost (d : Dev) : Dev :=
  if !d.refPresent then d.refsGone
  else if d.plat.onB then (if d.plat.refB then d else d.followB false)
  else if d.plat.refA then d else d.followB true

/-! ## XTAL and the timebase (R135, R564 to R566) -/

/-- TB_COAST is raised (R135, R565). A deadline cluster steps down no further; the rise to 0.80 V comes with its next
evaluation, within the cap. -/
def Dev.startCoast (d : Dev) : Dev :=
  let timed := bitList 16 d.deadlineClusters
  let d := d.onPlat fun x => { x with
    coast := true
    coastFrom := d.time
    coastMv := (List.range 16).map fun c => (c, d.vcore c)
    vtarget := timed.foldl (fun t c => Table.set 0 t c (max (Table.get 0 t c) (d.vcore c))) x.vtarget }
  (d.markOpen (·.coasted)).ringPace fun p => !(d.classesOf p).isEmpty

/-- The input itself appears or goes: all that it does under a thermal stop, where nothing acts on it (R586). -/
def Dev.setInput (d : Dev) (i : ClockIn) (b : Bool) : Dev :=
  d.onPlat fun x => match i with
    | .refA => { x with refA := b }
    | .refB => { x with refB := b }
    | .xtal => { x with xtal := b }

/-- CLOCK_LOSS (R562, R565). -/
def execClockLoss (o : OpClock) (s : State) : Host.Outcome State Fault Refusal :=
  s.board fun d =>
    if d.thermalStop then d.setInput o.input false else
    let d := if d.plat.step < 4 then d else d.netAt o.t
    match o.input with
    | .refA => if d.plat.refA then (d.onPlat fun x => { x with refA := false }).refLost else d
    | .refB => if d.plat.refB then (d.onPlat fun x => { x with refB := false }).refLost else d
    | .xtal =>
      if !d.plat.xtal then d
      else
        -- lost before step 4, XTAL is absent there (R581)
        let d := (d.onPlat fun x => { x with
          xtal := false
          xtalKept := false
          xtalWait := x.xtalWait || decide (x.step = 3) }).bump R.pow_XTAL_LOSSES
        if d.plat.step < 4 ∨ d.plat.coast then d else d.startCoast

/-- CLOCK_PRESENT (R562, R564). The frequency monitors run from VIN. -/
def execClockPresent (o : OpClock) (s : State) : Host.Outcome State Fault Refusal :=
  s.board fun d =>
    if d.thermalStop then d.setInput o.input true else
    let d := if d.plat.step < 4 then d else d.netAt o.t
    if !d.plat.vin then d
    else match o.input with
      | .xtal => d.onPlat fun x => { x with xtal := true }
      | .refA =>
        if d.plat.refA then d
        else
          let n := d.onPlat fun x => { x with refA := true, refASince := d.time }
          if d.refPresent then n else (n.followB false).refsBack
      | .refB =>
        if d.plat.refB then d
        else
          let n := d.onPlat fun x => { x with refB := true, refBSince := d.time }
          if d.refPresent then n else (n.followB true).refsBack

/-- REF_RETURN (R563): the preferred reference has been present for 1 s. -/
def execRefReturn (o : OpT0) (s : State) : Host.Outcome State Fault Refusal :=
  s.act fun d =>
    let d := d.at o.t
    let x := d.plat
    match d.rd R.pow_REF_PREFER with
    | 0 => if x.onB && x.refA && decide (x.refASince + 1000000000 ≤ d.time) then d.followB false else d
    | 1 => if !x.onB && x.refB && decide (x.refBSince + 1000000000 ≤ d.time) then d.followB true else d
    | _ => d

/-- TB_COAST_CLEAR (R566): the timebase PLL has locked to a returned XTAL. -/
def execTbCoastClear (o : OpT0) (s : State) : Host.Outcome State Fault Refusal :=
  s.act fun d =>
    let d := d.at o.t
    if d.plat.coast && d.plat.xtal then d.accrueCoast.onPlat fun x => { x with coast := false } else d

/-! ## PTP (R569 to R571) -/

/-- PTP_STATE of a port: 0 disabled, 1 acquiring, 2 locked, 3 holdover. -/
def Dev.ptpState (d : Dev) (n : Nat) : Nat := elem 1 (d.rd R.pow_PTP_STATE) n

/-- A port's PTP_STATE changed, and the source of the timebase with it. -/
def Dev.setPtpState (d : Dev) (n v : Nat) : Dev := (d.wr R.pow_PTP_STATE (withElem 1 (d.rd R.pow_PTP_STATE) n v)).ptpSettle

/-- PTP runs on a port. -/
def Dev.ptpRuns (d : Dev) (n : Nat) : Bool := decide (d.ptpState n ≠ 0) && d.portUp n

/-- The record of a port's PTP. -/
def Dev.onPtp (d : Dev) (n : Nat) (f : Ptp → Ptp) : Dev :=
  d.onPlat fun x => { x with ptp := Table.set {} x.ptp n (f (Table.get {} x.ptp n)) }

/-- PTP_SYNC (R64, R569): the Sync is timestamped; a port in holdover acquires again. A Sync of another domain is no concern of the
port's. -/
def execPtpSync (o : OpSync) (s : State) : Host.Outcome State Fault Refusal :=
  s.act fun d =>
    let d := d.netAt o.t
    let n := o.port.val
    if !d.ptpRuns n ∨ o.domain.toNat ≠ d.rd R.port_PTP_DOMAIN n then d
    else
      let d := d.onPtp n fun x => { x with lastSync := d.time, sync := some (o.sent, d.time) }
      if d.ptpState n = 3 then (d.onPtp n fun x => { x with good := 0, offsets := [] }).setPtpState n 1 else d

/-- DELAY_REQ_SEND (R64, R569): the Delay_Req is timestamped as it leaves, at priority 7. -/
def execDelayReqSend (o : OpPtp) (s : State) : Host.Outcome State Fault Refusal :=
  s.act fun d =>
    let d := d.netAt o.t
    let n := o.port.val
    let x := Table.get {} d.plat.ptp n
    if !d.ptpRuns n ∨ x.lastSync = 0 ∨ d.time < x.askedAt + x.interval * 1000 then d
    else (d.onPtp n fun x => { x with asked := true, askedAt := d.time }).emit
      (.delayReq n (d.rd R.port_PTP_DOMAIN n) { pcp := 7, vid := 0 })

/-- The mean of a port's latest offsets (R570). -/
def Ptp.mean (x : Ptp) : Int := x.offsets.foldl (· + ·) 0 / (max 1 x.offsets.length : Nat)

/-- A forward step of the timebase by `k` ns (R570, R571). The timestamps and offsets of exchanges move with it. -/
def Dev.stepTimebase (d : Dev) (k : Nat) : Dev :=
  let d := { d with time := d.time + k }
  let d := d.markOpen fun r => if r.accepted && r.sent.isNone then { r with shift := r.shift + k } else r
  let d := d.onPlat fun x => { x with
    ptpStepAt := d.time
    ptp := x.ptp.map fun e => (e.1, { e.2 with
      offsets := e.2.offsets.map (· + (k : Int))
      sync := e.2.sync.map fun y => (y.1, y.2 + k)
      askedAt := e.2.askedAt + k }) }
  d.bump R.pow_PTP_STEPS

/-- The correction after an exchange with mean offset `m` (R570): a step where the timebase is far behind, else a rate of a free
size within ±200 ppm that brings the offset toward 0 (notes/assumptions/31). -/
def Dev.correct (d : Dev) (m : Int) : Dev :=
  if m < -(d.rd R.pow_PTP_STEP_LIMIT : Int) then d.stepTimebase (-m).toNat
  else if m.natAbs ≤ 1000 then d
  else
    let (n, d) := d.draw
    let r : Int := (Config.free n % 200001 : Nat)
    d.onPlat fun x => { x with slew := if 0 < m then -r else r }

/-- The offset that an exchange gives, timebase less master's time (R64, R570, IEEE 1588-2019): half the difference of the Sync's
transit as measured and the Delay_Req's. -/
def Ptp.offset (x : Ptp) (got : Nat) : Int :=
  match x.sync with
  | some (t1, t2) => (((t2 : Int) - t1) - ((got : Int) - x.askedAt)) / 2
  | none => 0

/-- DELAY_RESP (R64, R565, R569, R570): an exchange ends, and its timestamps give the offset. What is measured while XTAL is lost is
discarded. -/
def execDelayResp (o : OpDelayResp) (s : State) : Host.Outcome State Fault Refusal :=
  s.act fun d =>
    let d := d.netAt o.t
    let n := o.port.val
    let x := Table.get {} d.plat.ptp n
    if !d.ptpRuns n || !x.asked || decide (o.domain.toNat ≠ d.rd R.port_PTP_DOMAIN n) then d
    else
      let off := x.offset o.got
      let d := d.onPtp n fun x => { x with asked := false, interval := o.interval }
      if d.plat.coast then d
      else
        let d := (d.wr R.pow_PTP_OFFSET (off % 2 ^ 64).toNat).onPtp n fun x => { x with
          good := if off.natAbs ≤ 1000 then x.good + 1 else 0
          offsets := (off :: x.offsets).take 16 }
        let x := Table.get {} d.plat.ptp n
        let d := if d.ptpState n = 1 ∧ 16 ≤ x.good then d.setPtpState n 2 else d
        if d.rd R.pow_TB_SOURCE = n + 1 then d.correct x.mean else d

/-- PTP_HOLDOVER (R569): 8 s with no Sync on a locked port. -/
def execPtpHoldover (o : OpPtp) (s : State) : Host.Outcome State Fault Refusal :=
  s.act fun d =>
    let d := d.netAt o.t
    let n := o.port.val
    if d.ptpState n = 2 ∧ (Table.get {} d.plat.ptp n).lastSync + 8000000000 ≤ d.time then d.setPtpState n 3 else d

/-! ## The I2C window (R543 to R546) -/

/-- One byte of a write transfer at an offset. -/
def Dev.i2cByte (d : Dev) (a : Nat) (b : Byte) : Dev :=
  match a with
  | 0x08 => d.onPlat fun x => { x with capBytes := (some b.toNat, x.capBytes.2) }
  | 0x09 => d.onPlat fun x => { x with capBytes := (x.capBytes.1, some b.toNat) }
  | 0x0E => if b = 1 then { d with alertOpen := false } else d
  | _ => d.onPlat fun x => { x with i2cResult := 0x0109 }

/-- I2C_WRITE_TRANSFER (R544, R546): the offset, then bytes from there. -/
def execI2cWriteTransfer (o : OpI2cWrite) (s : State) : Host.Outcome State Fault Refusal :=
  s.act fun d =>
    let d := d.at o.t
    if d.plat.step < 6 then d
    else
      let a := o.offset.toNat
      let d := d.onPlat fun x => { x with capBytes := (none, none), i2cOffset := (a + o.bytes.length) % 256 }
      o.bytes.zipIdx.foldl (fun d e => d.i2cByte ((a + e.2) % 256) e.1) d

/-- I2C_READ_TRANSFER (R544, R545): bytes of the present copy from the offset. -/
def execI2cReadTransfer (o : OpI2cRead) (s : State) : Host.Outcome State Fault Refusal :=
  s.act fun d =>
    let d := d.at o.t
    if d.plat.step < 6 then d
    else d.onPlat fun x => { x with
      i2cOut := (List.range o.count).map fun k => x.window.getD ((x.i2cOffset + k) % 256) 0xFF
      i2cOffset := (x.i2cOffset + o.count) % 256 }

/-- A write of POWER_CAP as the estate's, in the order of R526, refused while I2C_WRITES is 0 (R546). -/
def Dev.i2cCap (d : Dev) (v : Nat) : Verdict :=
  let w : WriteOp := { entry := R.pow_POWER_CAP, i := 0, p := 0, raw := leBytes 2 v, v := v }
  if d.rd R.i2c_I2C_WRITES = 0 then turnedDown d 0x0401
  else if !d.inRange 0 w.entry 0 v then turnedDown d 0x0101
  else d.putPowerCap w

/-- I2C_POWER_CAP (R546): the STOP of a transfer that wrote both bytes of POWER_CAP. -/
def execI2cPowerCap (o : OpI2cCap) (s : State) : Host.Outcome State Fault Refusal :=
  s.act fun d =>
    let d := d.at o.t
    let v := o.watts.toNat
    if d.plat.capBytes ≠ (some (v % 256), some (v / 256)) then d
    else
      let x := (d.onPlat fun y => { y with capBytes := (none, none) }).i2cCap v
      let d := if x.reason = 0 then x.dev else x.dev.noteRefusal 0 x.reason 0x1100 0x03 none 1 0
      d.onPlat fun y => { y with i2cResult := x.reason }

/-- I2C_ALERT_ACK (R546). -/
def execI2cAlertAck (o : OpT0) (s : State) : Host.Outcome State Fault Refusal :=
  s.act fun d =>
    let d := d.at o.t
    if d.plat.step < 6 then d else { d with alertOpen := false }

/-- I2C_WINDOW_REFRESH (R545). -/
def execI2cWindowRefresh (o : OpT0) (s : State) : Host.Outcome State Fault Refusal :=
  s.act fun d =>
    let d := d.at o.t
    if d.plat.step < 6 then d else d.onPlat fun x => { x with window := d.windowNow }

/-! ## Temperature (R585, R586) -/

/-- A die's reading in TJ. The readings of single clusters that come with a compute die's are free values (notes/assumptions/32). -/
def Dev.readTj (d : Dev) (die : Nat) (tj : Int) : Dev :=
  let d := d.wr R.dev_TJ (withElem 2 (d.rd R.dev_TJ) die (i16 tj))
  if die < 4 then (List.range 4).foldl (fun d k => let (n, d) := d.draw; d.wr R.clu_TJ (Config.free n % 65536) (4 * die + k)) d else d

/-- THERM_ASSERT (R585). -/
def execThermAssert (o : OpTherm) (s : State) : Host.Outcome State Fault Refusal :=
  s.act fun d =>
    let d := (d.at o.t).readTj o.die o.tj
    if d.plat.step < 5 ∨ d.plat.therm ∨ d.tjMax < 1150 then d
    else ((d.onPlat fun x => { x with therm := true }).bump R.dev_THERM_EVENTS).alert 0x1000 0x0C 0xFF (i16 d.tjMax)

/-- THERM_RELEASE (R585). -/
def execThermRelease (o : OpTherm) (s : State) : Host.Outcome State Fault Refusal :=
  s.act fun d =>
    let d := (d.at o.t).readTj o.die o.tj
    if d.tjMax ≤ 1100 then d.onPlat fun x => { x with therm := false } else d

/-- THERMAL_STOP (R586): nothing more acts, and the device area keeps a record of the stop. -/
def execThermalStop (o : OpTherm) (s : State) : Host.Outcome State Fault Refusal :=
  s.act fun d =>
    let d := (d.at o.t).readTj o.die o.tj
    if d.plat.step < 5 ∨ d.tjMax < 1250 then d
    else { d with thermalStop := true, hearth := { d.hearth with thermal := true } }

/-! ## The TAP (R600) -/

/-- The instruction that loading `i` leaves in the TAP: one that takes control of the pins is accepted only while RESET_L is low, and
a code that is no instruction of the TAP selects BYPASS. -/
def tapLoads (resetLow : Bool) (i : TapInstr) : TapInstr :=
  match i with
  | .extest | .clamp | .highz | .extestPulse | .extestTrain => if resetLow then i else .bypass
  | .other => .bypass
  | _ => i

/-- TAP_INSTRUCTION (R600). -/
def execTapInstruction (o : OpTap) (s : State) : Host.Outcome State Fault Refusal :=
  s.board fun d => if d.plat.vin then d.onPlat fun x => { x with tap := tapLoads x.resetLow o.instr } else d

/-! ## Open-drain outputs: true while driven low (Tables 22.5 and 22.6) -/

/-- READY_L. -/
def Dev.readyL (d : Dev) : Bool := decide (d.plat.step = 12) && !d.thermalStop

/-- ALERT_L. -/
def Dev.alertL (d : Dev) : Bool := decide (6 ≤ d.plat.step) && d.alertOpen && !d.thermalStop

/-- FAULT_L. -/
def Dev.faultL (d : Dev) : Bool :=
  d.thermalStop || (decide (2 ≤ d.plat.step) &&
    (decide (d.rd R.dev_FAULT_CAUSES ≠ 0) || d.plat.xtalWait || d.plat.bootFailed || !d.plat.badStacks.isEmpty))

/-- THERM_L. -/
def Dev.thermL (d : Dev) : Bool := d.thermalStop || (decide (5 ≤ d.plat.step) && d.plat.therm)

/-! ## SDA and the lanes (R543, R594): a condition later in Table 22.6 overrides an earlier one -/

/-- SDA serves as an I2C target's. -/
def Dev.sdaServes (d : Dev) : Bool := decide (6 ≤ d.plat.step) && !d.thermalStop

/-- The receivers of every lane are terminated. -/
def Dev.rxTerminated (d : Dev) : Bool := decide (5 ≤ d.plat.step) && !d.thermalStop

/-- The transmitters of link `n` are in electrical idle: until it trains, and while it is DISABLED (Tables 6.7, 22.6). -/
def Dev.linkIdle (d : Dev) (n : Nat) : Bool :=
  d.thermalStop || decide (d.plat.step < 9) || decide (d.rd R.link_LINK_STATUS n = 0)

/-- The transmitters of host port `n` are in electrical idle: until it trains, and while it is down (Tables 3.12, 22.6). -/
def Dev.portIdle (d : Dev) (n : Nat) : Bool :=
  d.thermalStop || decide (d.plat.step < 9) || decide (d.rd R.port_LINK_STATUS n = 0)

end Sys2Proof.Machine
end

