-- ==== Sys2Proof/Machine/CapOps.lean ====
section
/-! DEFINITION. Machine/CapOps.lean: the capability instructions (R31 to R33, R295, Table 9.13). -/

namespace Sys2Proof.Machine

/-- A copy of a capability with its tag kept only where `ok` holds. -/
def Cap.tagIf (c : Cap) (ok : Bool) : Cap := { c with tag := c.tag && ok }

/-- A derivation from a capability: a sealed source yields tag 0 (R33). -/
def Cap.derive (c : Cap) (f : Cap → Cap) : Cap := (f c).tagIf (decide (c.otype = 0))

/-- The cursor moved by a value modulo 2^38 (R295). -/
def Cap.curAdd (c : Cap) (v : BitVec 38) : Cap := c.derive fun c => { c with cursor := c.cursor + v }

/-- CURSET (Table 9.13): the tag is lost when the value exceeds 38 bits. -/
def Cap.curSet (c : Cap) (v : Word) : Cap :=
  (c.derive fun c => { c with cursor := v.setWidth 38 }).tagIf (decide (v.toNat < 2 ^ 38))

/-- CDERIV (Table 9.13). -/
def Cap.narrow (c : Cap) (len mask : Word) : Cap :=
  { tag := c.tag && decide (c.otype = 0) && decide (len.toNat < 2 ^ 38) && c.covers c.cursor.toNat len.toNat
    perms := c.perms &&& mask.setWidth 8
    otype := 0
    base := c.cursor
    len := len.setWidth 38
    cursor := c.cursor }

/-- PERMCUT (Table 9.13). -/
def Cap.cutPerms (c : Cap) (mask : Word) : Cap := c.derive fun c => { c with perms := c.perms &&& mask.setWidth 8 }

/-- A capability that can seal: tagged, unsealed, with SEAL (R33). -/
def Cap.isKey (k : Cap) : Bool := k.tag && decide (k.otype = 0) && k.has permSEAL

/-- SEALTO (Table 9.13). -/
def Cap.sealAs (c key : Cap) : Cap :=
  { c with
    otype := key.cursor.setWidth 6
    tag := c.tag && decide (c.otype = 0) && key.isKey && decide (2 ≤ key.cursor.toNat) && decide (key.cursor.toNat ≤ 63) &&
      key.covers key.cursor.toNat 1 }

/-- SEALOFF (Table 9.13). -/
def Cap.unseal (c key : Cap) : Cap :=
  { c with
    otype := 0
    tag := c.tag && decide (2 ≤ c.otype.toNat) && key.isKey && decide (key.cursor.toNat = c.otype.toNat) }

/-- ENTRYMK (Table 9.13). -/
def Cap.entry (c : Cap) : Cap := { c with otype := 1, tag := c.tag && decide (c.otype = 0) && c.has permEX }

/-- The body of an instruction that writes capability register RD (R295); `z` tells that Z takes the result's tag. -/
def capBody (o : OpCap) (z : Bool) (f : Core → Cap) : Body := regBody fun x =>
  let v := f x
  let y := x.wcr (capOf o.rd) v
  .ok (if z then y.wbit bitZ v.tag else y)

/-- The body of an instruction that copies a field of a capability into general register RD (R295). -/
def capRead (o : OpCap) (f : Cap → Nat) : Body := regBody fun x =>
  .ok (x.wgr o.rd (Word.ofNat (f (x.cr (capOf o.ra)))))

/-- CAPCPY (R295): tag and OTYPE included. -/
def execCapcpy (o : OpCap) (s : State) : Host.Outcome State Fault Refusal :=
  s.instr o.core (capBody o false fun x => x.cr (capOf o.ra))
/-- CURADD (R295). -/
def execCuradd (o : OpCap) (s : State) : Host.Outcome State Fault Refusal :=
  s.instr o.core (capBody o false fun x => (x.cr (capOf o.ra)).curAdd ((x.gr o.rb).setWidth 38))
/-- CURSET (R295). -/
def execCurset (o : OpCap) (s : State) : Host.Outcome State Fault Refusal :=
  s.instr o.core (capBody o false fun x => (x.cr (capOf o.ra)).curSet (x.gr o.rb))
/-- CURADDI (R295): cd = RD, cs = RA, sign-extended IMM16. -/
def execCuraddi (o : OpI) (s : State) : Host.Outcome State Fault Refusal :=
  s.instr o.core (regBody fun x => .ok (x.wcr (capOf o.rd) ((x.cr (capOf o.ra)).curAdd (o.imm.signExtend 38))))
/-- CDERIV (R295): cs = CX, length RA, mask RB; Z := tag. -/
def execCderiv (o : OpCap) (s : State) : Host.Outcome State Fault Refusal :=
  s.instr o.core (capBody o true fun x => (x.cr o.cx.toNat).narrow (x.gr o.ra) (x.gr o.rb))
/-- PERMCUT (R295). -/
def execPermcut (o : OpCap) (s : State) : Host.Outcome State Fault Refusal :=
  s.instr o.core (capBody o false fun x => (x.cr (capOf o.ra)).cutPerms (x.gr o.rb))
/-- SEALTO (R295): key = CX; Z := tag. -/
def execSealto (o : OpCap) (s : State) : Host.Outcome State Fault Refusal :=
  s.instr o.core (capBody o true fun x => (x.cr (capOf o.ra)).sealAs (x.cr o.cx.toNat))
/-- SEALOFF (R295): key = CX; Z := tag. -/
def execSealoff (o : OpCap) (s : State) : Host.Outcome State Fault Refusal :=
  s.instr o.core (capBody o true fun x => (x.cr (capOf o.ra)).unseal (x.cr o.cx.toNat))
/-- ENTRYMK (R295); Z := tag. -/
def execEntrymk (o : OpCap) (s : State) : Host.Outcome State Fault Refusal :=
  s.instr o.core (capBody o true fun x => (x.cr (capOf o.ra)).entry)
/-- TAGCLR (R295). -/
def execTagclr (o : OpCap) (s : State) : Host.Outcome State Fault Refusal :=
  s.instr o.core (capBody o false fun x => { x.cr (capOf o.ra) with tag := false })
/-- RDTAG (R295). -/
def execRdtag (o : OpCap) (s : State) : Host.Outcome State Fault Refusal :=
  s.instr o.core (capRead o fun c => if c.tag then 1 else 0)
/-- RDPERM (R295). -/
def execRdperm (o : OpCap) (s : State) : Host.Outcome State Fault Refusal := s.instr o.core (capRead o (·.perms.toNat))
/-- RDTYPE (R295). -/
def execRdtype (o : OpCap) (s : State) : Host.Outcome State Fault Refusal := s.instr o.core (capRead o (·.otype.toNat))
/-- RDBASE (R295). -/
def execRdbase (o : OpCap) (s : State) : Host.Outcome State Fault Refusal := s.instr o.core (capRead o (·.base.toNat))
/-- RDLEN (R295). -/
def execRdlen (o : OpCap) (s : State) : Host.Outcome State Fault Refusal := s.instr o.core (capRead o (·.len.toNat))
/-- RDCUR (R295). -/
def execRdcur (o : OpCap) (s : State) : Host.Outcome State Fault Refusal := s.instr o.core (capRead o (·.cursor.toNat))
/-- RDPCC (R295): pcc with its cursor at this instruction. -/
def execRdpcc (o : OpCap) (s : State) : Host.Outcome State Fault Refusal :=
  s.instr o.core (capBody o false fun x => x.arch.pcc)

end Sys2Proof.Machine
end

