-- ==== Sys2Proof/Machine/CohEvents.lean ====
section
/-! DEFINITION. Machine/CohEvents.lean: the coherence messages as commands of their own, each delivered where it is in flight,
and the timers of chapter 13. -/

namespace Sys2Proof.Machine

/-- Messages that only a home sends. -/
def CohKind.fromHome : CohKind → Bool
  | .snps | .snpi | .fwd | .kill | .complete | .wback => true
  | _ => false

/-- A message in flight that its home sent to the same agent before `m`: messages from one home to one agent arrive in the order sent
(R399). -/
def Dev.overtakes (d : Dev) (m : CohMsg) : Bool :=
  m.kind.fromHome && (d.mem.msgs.takeWhile fun r => r ≠ m).any fun r =>
    r.kind.fromHome && decide (r.agent = m.agent) && decide ((d.home r.pav r.line).map (·.1) = (d.home m.pav m.line).map (·.1))

/-- The oldest message in flight that satisfies `q` is delivered, unless an earlier one to its agent has still to arrive (R399). -/
def Dev.deliverOne (d : Dev) (q : CohMsg → Bool) : Dev :=
  match d.mem.msgs.find? q with
  | some m => if d.overtakes m then d else d.take m
  | none => d

/-- Messages of kind `k` about a line at an agent. -/
def isMsg (k : CohKind) (o : OpLine) (m : CohMsg) : Bool :=
  decide (m.kind = k) && decide (m.agent = o.agent.val) && m.isFor o.pav o.line.toNat

/-- A request that its agent does not make in the line's present state (R380): RDS and RDX of a line it holds, UPG of one it
does not hold in S or K; any request for a line in its writeback buffer (R401); or a line that no granule backs. -/
def Dev.badRequest (d : Dev) (m : CohMsg) : Bool :=
  let st := d.lstate m.agent m.pav m.line
  (d.lineAddr m.pav m.line).isNone ||
    d.mem.wbBuf.any (fun e => decide (e.agent = m.agent) && decide (e.pav = m.pav) && decide (e.line = m.line)) ||
    match m.kind with
    | .rds | .rdx => decide (st ≠ .i)
    | .upg => decide (st ≠ .s) && decide (st ≠ .k)
    | _ => false

/-- A request about a line arrives at its home: one in flight, or one turned away whose delay has passed (R406), else a new one of an agent that has none
outstanding for the line. -/
def Dev.arrive (d : Dev) (m : CohMsg) : Dev :=
  let q := fun (r : CohMsg) => decide (r.kind = m.kind) && decide (r.agent = m.agent) && r.isFor m.pav m.line
  if d.mem.msgs.any q then d.deliverOne q
  else match d.mem.turned.find? q with
    | some r => if d.time < r.due then d else (d.onMem fun x => { x with turned := x.turned.erase r }).deliver r
    | none =>
      let waits := d.mem.outstanding.any fun r =>
        decide (r.agent = m.agent) && decide (r.pav = m.pav) && decide (r.line = m.line)
      if waits || d.badRequest m then d
      else
        let d : Dev := if m.kind.cached then d.onMem fun x => { x with outstanding := x.outstanding ++
          [{ agent := m.agent, pav := m.pav, line := m.line }] } else d
        d.deliver m
/-- A request of kind `k` from an agent. -/
def reqOf (k : CohKind) (o : OpLine) : CohMsg := { kind := k, agent := o.agent, pav := o.pav, line := o.line.toNat }

/-- RDS (R395). -/
def execRds (o : OpLine) (s : State) : Host.Outcome State Fault Refusal := s.act fun d => d.arrive (reqOf .rds o)
/-- RDX (R395, R397). -/
def execRdx (o : OpLine) (s : State) : Host.Outcome State Fault Refusal := s.act fun d => d.arrive (reqOf .rdx o)
/-- UPG (R395). -/
def execUpg (o : OpLine) (s : State) : Host.Outcome State Fault Refusal := s.act fun d => d.arrive (reqOf .upg o)
/-- RDU (R395). -/
def execRdu (o : OpLine) (s : State) : Host.Outcome State Fault Refusal := s.act fun d => d.arrive (reqOf .rdu o)

/-- WRU (R395): an uncached partial write of bytes within one line. -/
def execWru (o : OpWru) (s : State) : Host.Outcome State Fault Refusal :=
  let n := min o.bytes.length (64 - o.off.val)
  let m : CohMsg :=
    { kind := .wru, agent := o.agent, pav := o.pav, line := o.line.toNat
      unc := .write (maskOf o.off n) (BitVec.ofNat 512 (leNat (o.bytes.take n) * 2 ^ (8 * o.off.val))) 0 }
  s.act fun d => d.arrive m

/-- FATOM (R404): a far atomic. -/
def execFatom (o : OpFatom) (s : State) : Host.Outcome State Fault Refusal :=
  let m : CohMsg :=
    { kind := .fatom, agent := o.agent, pav := o.pav, line := o.addr.toNat / 64
      unc := .atom (o.addr.toNat % 64) o.four o.kind o.operand o.compare }
  s.act fun d => d.arrive m

/-- The oldest message that satisfies `q` delivered, in the state. -/
def State.delivered (s : State) (q : CohMsg → Bool) : Host.Outcome State Fault Refusal :=
  s.act fun d => d.deliverOne q

/-- WB (R400): the home takes the writeback with this id. -/
def execWb (o : OpWb) (s : State) : Host.Outcome State Fault Refusal :=
  s.delivered fun m => decide (m.kind = .wb) && decide (m.agent = o.agent.val) && decide (m.wbId = some o.id)

/-- WBACK (R400): the agent frees its writeback buffer entry. -/
def execWback (o : OpWb) (s : State) : Host.Outcome State Fault Refusal :=
  s.delivered fun m => decide (m.kind = .wback) && decide (m.agent = o.agent.val) && decide (m.wbId = some o.id)

/-- A message of kind `k` about a line delivered. -/
def State.message (s : State) (k : CohKind) (o : OpLine) : Host.Outcome State Fault Refusal :=
  s.delivered (isMsg k o)

/-- SNPS (R395). -/
def execSnps (o : OpLine) (s : State) : Host.Outcome State Fault Refusal := s.message .snps o
/-- SNPI (R395). -/
def execSnpi (o : OpLine) (s : State) : Host.Outcome State Fault Refusal := s.message .snpi o
/-- FWD (R395). -/
def execFwd (o : OpLine) (s : State) : Host.Outcome State Fault Refusal := s.message .fwd o
/-- KILL (R409, R410). -/
def execKill (o : OpLine) (s : State) : Host.Outcome State Fault Refusal := s.message .kill o
/-- DATA (R397). -/
def execDataMsg (o : OpLine) (s : State) : Host.Outcome State Fault Refusal := s.message .data o
/-- RSP (R395, R400). -/
def execRsp (o : OpLine) (s : State) : Host.Outcome State Fault Refusal := s.message .rsp o
/-- NP (R396). -/
def execNp (o : OpLine) (s : State) : Host.Outcome State Fault Refusal := s.message .np o
/-- IACK (R397). -/
def execIack (o : OpLine) (s : State) : Host.Outcome State Fault Refusal := s.message .iack o
/-- COMPLETE (R397, R399). -/
def execComplete (o : OpLine) (s : State) : Host.Outcome State Fault Refusal := s.message .complete o
/-- DONE (R398, R399). -/
def execDone (o : OpLine) (s : State) : Host.Outcome State Fault Refusal := s.message .done o

/-- REQUEST_RETRY (R406): a request that was turned away is sent again, once its delay has passed, and arrives at its home. -/
def execRequestRetry (o : OpLineT) (s : State) : Host.Outcome State Fault Refusal :=
  s.act fun d =>
    let d := d.at o.t
    match d.mem.turned.find? (fun m => decide (m.agent = o.agent.val) && m.isFor o.pav o.line.toNat && decide (m.due ≤ d.time)) with
    | some m => (d.onMem fun x => { x with turned := x.turned.erase m }).deliver m
    | none => d

/-- HOME_TIMEOUT (R409, R410): agent `o.agent` has not answered the snoop of the line's open transaction in time. -/
def execHomeTimeout (o : OpLineT) (s : State) : Host.Outcome State Fault Refusal :=
  s.act fun d =>
    let d := d.at o.t
    let p := o.pav.val
    let line := o.line.toNat
    let n := o.agent.val
    match d.mem.txns.find? (fun t => decide (t.req.pav = p) && decide (t.req.line = line) && t.wait.contains n &&
        decide (t.due ≤ d.time)), d.lineAddr p line with
    | some t, some a =>
      let bad : Line := { d.memLine a with poison := 15 }
      let d := d.putMemLine a bad
      let d : Dev := match d.dirFind p a with
        | some k => d.setDir k { d.dirAt k with presence := subAgent (d.dirAt k).presence n }
        | none => d
      -- a snoop still in flight is met by its agent before the KILL
      let d := d.send { kind := .kill, agent := n, pav := p, line := line }
      let got := d.mem.outstanding.any fun r => decide (r.agent = t.req.agent) && decide (r.pav = p) && decide (r.line = line) && r.gotData
      let sent := d.mem.msgs.any fun m => decide (m.kind = .data) && decide (m.agent = t.req.agent) && m.isFor p line
      -- the transaction goes on as without the agent (R396): the poisoned line comes from memory where no DATA has left
      let d := d.answerTxn { kind := .np, agent := n, pav := p, line := line } (if got || sent then { t with dataFrom := none } else t)
      let d := d.onMem fun x => { x with timedOut := x.timedOut ++ [(n, p, line)] }
      let d := d.logAddr R.coh_POISON_LOG p (64 * line)
      (d.bump R.coh_TIMEOUTS).alert 0x3400 0x0B p (homeSlice a + 256 * n)
    | _, _ => d

end Sys2Proof.Machine
end

