-- ==== Sys2Proof/Machine/CoreEvents.lean ====
section
/-! DEFINITION. Machine/CoreEvents.lean: events of one core that no instruction names: a merging-buffer entry drains, an
interrupt is taken, an undefined word is fetched (R265, R273, R279, R380, R439). -/

namespace Sys2Proof.Machine

/-- The addresses of the 8-byte words that a merging-buffer entry writes. -/
def MergeEntry.words (e : MergeEntry) : List Nat :=
  (List.range 8).filterMap fun i => if e.mask.extractLsb' (8 * i) 8 = 0 then none else some (64 * e.line + 8 * i)

/-- The mover's writes to words that a core writes in the same bank cycle are discarded whole: they are noted in its job and
counted (R439, R442). -/
def Dev.loseWords (d : Dev) (cluster p : Nat) (ws : List Nat) : Dev :=
  match d.mem.moverJobs.find? (fun j => decide (j.cluster = cluster) && decide (j.pav = p) && decide (j.status = 0)) with
  | none => d
  | some j =>
    let hit := ws.filter fun w => decide (j.dst ≤ w) && decide (w < j.dst + j.len) && !j.lost.contains w
    let d := d.onMem fun m => { m with
      moverJobs := m.moverJobs.map fun k => if k = j then { j with lost := j.lost ++ hit } else k }
    hit.foldl (fun d w => match bankOfOff (w % 2 ^ 30) with
      | some b => d.bump R.spad_WORDS_LOST (b / 32)
      | none => d) d

/-- A device agent other than a mover loses its coming writes of these words to a core's writes (R439). -/
def Dev.loseDma (d : Dev) (p : Nat) (ws : List Nat) : Dev :=
  d.onMem fun x => { x with dmaLost := x.dmaLost ++ (ws.map fun a => (p, a)).filter fun e => !x.dmaLost.contains e }

/-- MERGING_BUFFER_DRAIN (R380): an entry leaves the merging buffer and is performed; `collide` tells whose write to the same
scratchpad words is requested in the same bank cycle (R439). -/
def execMergingBufferDrain (o : OpDrain) (s : State) : Host.Outcome State Fault Refusal :=
  s.act fun d =>
    match d.coreOwner o.core, (d.core o.core).merge[o.idx.val]? with
    | some p, some e =>
      let d : Dev := match o.collide, placeOf (64 * e.line) with
        | .mover, .scratchpad => (List.range 16).foldl (fun d cl => d.loseWords cl p e.words) d
        | .device, .scratchpad => d.loseDma p e.words
        | _, _ => d
      d.drainAt o.core p o.idx
    | _, _ => d

/-- An interrupt taken at a boundary where it is the trap due (R340). -/
def Dev.takeInterrupt (d : Dev) (c num : Nat) : Dev :=
  if !d.coreReady c then d
  else match d.coreOwner c with
    | none => d
    | some p =>
      match d.dueTrap c p with
      | some t => if t.num = num then d.takeTrap c p t else d
      | none => d

/-- DOORBELL_INTERRUPT (R265): trap 0x10. A twin takes it at an exchange (R474). -/
def execDoorbellInterrupt (o : OpCoreT) (s : State) : Host.Outcome State Fault Refusal :=
  s.act fun d => (d.at o.t).takeInterrupt o.core 0x10

/-- CORE_TIMER (R273): trap 0x11, after a doorbell that is due. -/
def execCoreTimer (o : OpCoreT) (s : State) : Host.Outcome State Fault Refusal :=
  s.act fun d => (d.at o.t).takeInterrupt o.core 0x11

/-- UNDEFINED_OPCODE_WORD (R279): a word that is no instruction raises trap 0x01; a word that is one does nothing here,
since its own command executes it. -/
def execUndefinedOpcodeWord (o : OpWord) (s : State) : Host.Outcome State Fault Refusal :=
  if (decodeWord o.core o.word).isSome then .next s
  else s.instr o.core fun c _ d => .error { num := 0x01, fault := (d.core c).cursor }

end Sys2Proof.Machine
end

