-- ==== Sys2Proof/Machine/Decimal.lean ====
section
/-! DEFINITION. Machine/Decimal.lean: the packed-decimal and block instructions (R299 to R301, R311 to R317). -/

namespace Sys2Proof.Machine

/-! ## Packed decimal (Table 10.2) -/

/-- The nibbles of an operand from its lowest address: the sign, then the digits from digit 0. -/
def nibbles (b : Bytes) : List Nat := b.flatMap fun x => [x.toNat % 16, x.toNat / 16]

/-- A nibble pair is malformed: byte 0 holds the sign, whose nibble is 0xC, 0xD or 0xF, and a digit; any other byte two
digits (R312). -/
def badByte (i : Nat) (x : Byte) : Bool :=
  let lo := x.toNat % 16
  let hi := x.toNat / 16
  decide (9 < hi) || (if i = 0 then !(lo == 0xC || lo == 0xD || lo == 0xF) else decide (9 < lo))

/-- The offset of the first malformed byte (R313). -/
def firstBad (b : Bytes) : Option Nat := (b.zipIdx.find? fun e => badByte e.2 e.1).map (·.2)

/-- The value of a well-formed operand (R311, R312). -/
def decValue (b : Bytes) : Int :=
  match nibbles b with
  | [] => 0
  | s :: ds =>
    let m : Nat := ds.foldr (fun x acc => x + 10 * acc) 0
    if s = 0xD then -(m : Int) else m

/-- `n` decimal digits of `m`, digit 0 first. -/
def digitsOf : Nat → Nat → List Nat
  | 0, _ => []
  | n + 1, m => m % 10 :: digitsOf n (m / 10)

/-- Bytes from nibbles, two to a byte, low first. -/
def packNibbles : List Nat → Bytes
  | lo :: hi :: t => BitVec.ofNat 8 (lo + 16 * hi) :: packNibbles t
  | _ => []

/-- The low 2L − 1 digits of a magnitude with the sign of a negative or other value; all digits zero carry 0xC (R314). -/
def decBytes (l m : Nat) (neg : Bool) : Bytes :=
  let m := m % 10 ^ (2 * l - 1)
  packNibbles ((if neg && decide (m ≠ 0) then 0xD else 0xC) :: digitsOf (2 * l - 1) m)

/-- The bits that a stored result gives (R314). -/
def Core.decFlags (x : Core) (z n v : Bool) : Core := ((x.wbit bitZ z).wbit bitN n).wbit bitV v

/-- The operand length L (R299). -/
def decLen (o : OpDec) : Nat := o.l.toNat + 1

/-- The range check of one operand at the offset in a general register, with no alignment rule (R299). -/
def Dev.decRange (d : Dev) (p : Nat) (x : Core) (o : OpDec) (field : BitVec 5) (n : Nat) (perm : BitVec 8) : Except Stop Nat :=
  d.access p (x.cr o.cx.toNat) (x.ea o.cx field 0) n perm 1

/-- Trap 0x0B at the first malformed byte (R313). -/
def badTrap (a : Nat) (b : Bytes) : Option Trap := (firstBad b).map fun i => { num := 0x0B, fault := a + i }

/-- The body of a decimal instruction with two sources (R313 to R316): `f` gives the bytes stored at RD and the result
that the bits describe, or none for a zero divisor. `size` is the bytes stored. -/
def decBody (o : OpDec) (size : Nat) (f : Int → Int → Option (Bytes × Bool × Bool × Bool)) : Body := fun c p d =>
  let x := d.core c
  match d.decRange p x o o.ra (decLen o) permLD, d.decRange p x o o.rb (decLen o) permLD, d.decRange p x o o.rd size permST with
  | .error t, _, _ => .error t
  | _, .error t, _ => .error t
  | _, _, .error t => .error t
  | .ok a, .ok b, .ok r =>
    match d.loadBytes c p a (decLen o) (back := o.back) with
    | .error t => .error t
    | .ok (ba, d) =>
      match d.loadBytes c p b (decLen o) (back := o.backB) with
      | .error t => .error t
      | .ok (bb, d) =>
        match badTrap a ba, badTrap b bb with
        | some t, _ => .error { toTrap := t, left := some d }
        | none, some t => .error { toTrap := t, left := some d }
        | none, none =>
          match f (decValue ba) (decValue bb) with
          | none => .error { num := 0x07, fault := x.cursor, left := some d }
          | some (out, z, n, v) => .ok { d := (d.storeBytes c p r out).onCore c fun x => x.decFlags z n v }

/-- A result of DADD, DSUB or DMUL stored in L bytes (R315). -/
def decStore (l : Nat) (v : Int) : Option (Bytes × Bool × Bool × Bool) :=
  let m := v.natAbs % 10 ^ (2 * l - 1)
  some (decBytes l v.natAbs (decide (v < 0)), decide (m = 0), decide (v < 0) && decide (m ≠ 0),
    decide (10 ^ (2 * l - 1) ≤ v.natAbs))

/-- DADD (R315). -/
def dadd (o : OpDec) : Body := decBody o (decLen o) fun a b => decStore (decLen o) (a + b)
/-- DSUB (R315). -/
def dsub (o : OpDec) : Body := decBody o (decLen o) fun a b => decStore (decLen o) (a - b)
/-- DMUL (R315). -/
def dmul (o : OpDec) : Body := decBody o (decLen o) fun a b => decStore (decLen o) (a * b)
/-- DDIV (R316): the quotient at RD, the remainder with the dividend's sign at RD + L; Z and N describe the quotient. -/
def ddiv (o : OpDec) : Body := decBody o (2 * (decLen o)) fun a b =>
  if b = 0 then none
  else
    let q := a.tdiv b
    let r := a.tmod b
    some (decBytes (decLen o) q.natAbs (decide (q < 0)) ++ decBytes (decLen o) r.natAbs (decide (r < 0)), decide (q = 0),
      decide (q < 0), false)

/-- DCVT.DB (R317): the value modulo 2^64 into general register RD. -/
def dcvtDb (o : OpDec) : Body := fun c p d =>
  let x := d.core c
  match d.decRange p x o o.ra (decLen o) permLD with
  | .error t => .error t
  | .ok a =>
    match d.loadBytes c p a (decLen o) (back := o.back) with
    | .error t => .error t
    | .ok (b, d) =>
      match badTrap a b with
      | some t => .error { toTrap := t, left := some d }
      | none =>
        let v := decValue b
        let w := BitVec.ofInt 64 v
        .ok { d := d.onCore c fun x => (x.wgr o.rd w).decFlags (decide (w = 0)) w.msb (decide (w.toInt ≠ v)) }

/-- DCVT.BD (R317): the decimal of RB, taken as signed, stored at RD. -/
def dcvtBd (o : OpDec) : Body := fun c p d =>
  let x := d.core c
  match d.decRange p x o o.rd (decLen o) permST with
  | .error t => .error t
  | .ok a =>
    match decStore (decLen o) (x.gr o.rb).toInt with
    | none => .ok { d := d }
    | some (out, z, n, v) => .ok { d := (d.storeBytes c p a out).onCore c fun x => x.decFlags z n v }

/-- DADD (R299, R315). -/
def execDadd (o : OpDec) (s : State) : Host.Outcome State Fault Refusal := s.exchange o.core (.dadd o) (dadd o)
/-- DSUB (R299, R315). -/
def execDsub (o : OpDec) (s : State) : Host.Outcome State Fault Refusal := s.exchange o.core (.dsub o) (dsub o)
/-- DMUL (R299, R315). -/
def execDmul (o : OpDec) (s : State) : Host.Outcome State Fault Refusal := s.exchange o.core (.dmul o) (dmul o)
/-- DDIV (R299, R316). -/
def execDdiv (o : OpDec) (s : State) : Host.Outcome State Fault Refusal := s.exchange o.core (.ddiv o) (ddiv o)
/-- DCVT.DB (R299, R317). -/
def execDcvtDb (o : OpDec) (s : State) : Host.Outcome State Fault Refusal := s.exchange o.core (.dcvtDb o) (dcvtDb o)
/-- DCVT.BD (R299, R317). -/
def execDcvtBd (o : OpDec) (s : State) : Host.Outcome State Fault Refusal := s.exchange o.core (.dcvtBd o) (dcvtBd o)

/-! ## Block instructions (R300, R301) -/

/-- A capability with its cursor moved on, as MOVB and CRCM record their progress (R301). -/
def Cap.advance (c : Cap) (n : Nat) : Cap := { c with cursor := c.cursor + BitVec.ofNat 38 n }

/-- The bytes done when a block instruction of `n` bytes stops at a 64-byte boundary; `at k` tells that k bytes done
stand at one. Without a stop it runs to its end. -/
def stopAt (stop : Option Nat) (n : Nat) (boundary : Nat → Bool) : Nat :=
  match stop with
  | some k => if 0 < k ∧ k < n ∧ boundary k then k else n
  | none => n

/-- The stretches of a block instruction, each of which ends at a commit point (R450): the source of each is loaded and passed to
`put`. Where a machine check stops one, those before it stand, and `record` notes the bytes done (R301). -/
def stretches (c p : Nat) (put : Nat → Bytes → Dev → Dev) (record : Nat → Dev → Dev) :
    List (Nat × Nat) → List Nat → Nat → Dev → Except Stop Dev
  | [], _, _, d => .ok d
  | e :: t, back, done, d =>
    match d.loadBytes c p e.1 e.2 (hint := true) (back := back) with
    | .error s => .error { s with left := some (if done = 0 then s.left.getD d else record done (s.left.getD d)) }
    | .ok (b, d) => stretches c p put record t (back.drop (pieces 8 (e.2 + 1) e.1 e.2).length) (done + e.2) (put e.1 b d)

/-- MOVB (R300, R301): upward, or downward where the destination overlaps the source from above. -/
def movb (o : OpBlk) : Body := fun c p d =>
  let x := d.core c
  let n := (x.gr o.rb).toNat
  let cs := x.cr (capOf o.ra)
  let cd := x.cr (capOf o.rd)
  let src := cs.cursor.toNat
  let dst := cd.cursor.toNat
  if n = 0 then .ok { d := d }
  else match d.access p cs src n permLD 1, d.access p cd dst n permST 1 with
    | .error t, _ => .error t
    | _, .error t => .error t
    | .ok _, .ok _ =>
      let down := decide (src < dst) && decide (dst < src + n)
      let k := stopAt o.stop n fun k => decide ((if down then dst + n - k else dst + k) % 64 = 0)
      let record := fun (k : Nat) (d : Dev) => d.onCore c fun x =>
        let x := x.wgr o.rb (Word.ofNat (n - k))
        if down then x
        else if capOf o.ra = capOf o.rd then x.wcr (capOf o.ra) (cs.advance k)
        else (x.wcr (capOf o.ra) (cs.advance k)).wcr (capOf o.rd) (cd.advance k)
      -- the stretches between 64-byte boundaries of the destination, as addresses of the source
      let l := (pieces 64 (k + 1) (if down then dst + n - k else dst) k).map fun e => (e.1 + src - dst, e.2)
      match stretches c p (fun a b d => d.storeBytes c p (a + dst - src) b (hint := true)) record (if down then l.reverse else l)
          o.back 0 d with
      | .error t => .error t
      | .ok d => .ok { d := record k d, pcc := if k < n then some x.arch.pcc else none }

/-- CRCM (R300, R301): the CRC-32C state in RD [31:0] over RB bytes at CX. -/
def crcm (o : OpBlk) : Body := fun c p d =>
  let x := d.core c
  let n := (x.gr o.rb).toNat
  let cs := x.cr o.cx.toNat
  let src := cs.cursor.toNat
  if n = 0 then .ok { d := d }
  else match d.access p cs src n permLD 1 with
    | .error t => .error t
    | .ok _ =>
      let k := stopAt o.stop n fun k => decide ((src + k) % 64 = 0)
      let record := fun (k : Nat) (d : Dev) => d.onCore c fun x =>
        ((x.wgr o.rb (Word.ofNat (n - k))).wgr o.rd (x.gr o.rd)).wcr o.cx.toNat (cs.advance k)
      -- RD holds the state from one commit point to the next
      let put := fun (_ : Nat) (b : Bytes) (d : Dev) => d.onCore c fun x =>
        x.wgr o.rd ((crcState ((x.gr o.rd).setWidth 32) b).setWidth 64)
      match stretches c p put record (pieces 64 (k + 1) src k) o.back 0 d with
      | .error t => .error t
      | .ok d => .ok { d := record k d, pcc := if k < n then some x.arch.pcc else none }

/-- MOVB (R300, R301). -/
def execMovb (o : OpBlk) (s : State) : Host.Outcome State Fault Refusal := s.exchange o.core (.movb o) (movb o)
/-- CRCM (R300, R301). -/
def execCrcm (o : OpBlk) (s : State) : Host.Outcome State Fault Refusal := s.exchange o.core (.crcm o) (crcm o)

end Sys2Proof.Machine
end

