-- ==== Sys2Proof/Machine/SoftFloat.lean ====
section
/-! DEFINITION. Machine/SoftFloat.lean: IEEE 754-2019 arithmetic on binary32 and binary64, exact and then rounded once
(R318 to R327). -/

namespace Sys2Proof.Machine

/-- A binary format: precision in bits, and exponent bits. -/
structure Fmt where
  p : Nat
  ebits : Nat

/-- binary32. -/
def fmt32 : Fmt := { p := 24, ebits := 8 }
/-- binary64. -/
def fmt64 : Fmt := { p := 53, ebits := 11 }

/-- The exponent bias. -/
def Fmt.bias (m : Fmt) : Nat := 2 ^ (m.ebits - 1) - 1
/-- The exponent of the least normal number. -/
def Fmt.emin (m : Fmt) : Int := 1 - (m.bias : Int)
/-- The weight of the sign bit. -/
def Fmt.signBit (m : Fmt) : Nat := 2 ^ (m.p + m.ebits - 1)
/-- The encoding of +∞. -/
def Fmt.inf (m : Fmt) : Nat := (2 ^ m.ebits - 1) * 2 ^ (m.p - 1)
/-- The encoding of the largest finite number. -/
def Fmt.maxFinite (m : Fmt) : Nat := m.inf - 1
/-- The quiet bit of a NaN: bit 22 or 51 (R321). -/
def Fmt.quiet (m : Fmt) : Nat := 2 ^ (m.p - 2)
/-- The positive default NaN with a zero payload (R322). -/
def Fmt.nan (m : Fmt) : Nat := m.inf + m.quiet

/-- Flags in the order of Table 10.3: bit 0 NV, 1 DZ, 2 OF, 3 UF, 4 NX. -/
abbrev FFlags := BitVec 5

/-- Flags of Table 10.3. -/
def fNV : FFlags := 1
/-- Flags of Table 10.3. -/
def fDZ : FFlags := 2
/-- Flags of Table 10.3. -/
def fOF : FFlags := 4
/-- Flags of Table 10.3. -/
def fUF : FFlags := 8
/-- Flags of Table 10.3. -/
def fNX : FFlags := 16

/-- Rounding modes (Table 10.3). -/
inductive Rm where
  | rne | rtz | rup | rdn | rna
deriving DecidableEq, Repr

/-- RM as bits 0x010 to 0x012 hold it; 5, 6 and 7 round as roundTiesToEven (R319). -/
def Rm.ofBits : Nat → Rm
  | 1 => .rtz
  | 2 => .rup
  | 3 => .rdn
  | 4 => .rna
  | _ => .rne

/-- What an encoding stands for: a finite value is ±m × 2^e. -/
inductive FVal where
  | nan
  | inf (s : Bool)
  | fin (s : Bool) (m : Nat) (e : Int)
deriving DecidableEq, Repr

/-- The value of an encoding; subnormals are exact (R318). -/
def Fmt.val (m : Fmt) (v : Nat) : FVal :=
  let s := decide (m.signBit ≤ v)
  let mag := v % m.signBit
  let ex := mag / 2 ^ (m.p - 1)
  let fr := mag % 2 ^ (m.p - 1)
  if ex = 2 ^ m.ebits - 1 then (if fr = 0 then .inf s else .nan)
  else if ex = 0 then .fin s fr (m.emin - (m.p - 1 : Nat))
  else .fin s (fr + 2 ^ (m.p - 1)) (m.emin + (ex : Int) - 1 - (m.p - 1 : Nat))

/-- An encoding is a NaN. -/
def Fmt.isNan (m : Fmt) (v : Nat) : Bool := decide (m.val v = .nan)
/-- An encoding is a signalling NaN. -/
def Fmt.isSnan (m : Fmt) (v : Nat) : Bool := m.isNan v && decide (v / m.quiet % 2 = 0)
/-- A NaN quieted (R321). -/
def Fmt.quieten (m : Fmt) (v : Nat) : Nat := if v / m.quiet % 2 = 0 then v + m.quiet else v
/-- An encoding with the given sign. -/
def Fmt.withSign (m : Fmt) (s : Bool) (mag : Nat) : Nat := mag % m.signBit + if s then m.signBit else 0

/-- Rounding up in magnitude, from the kept value `k`, the remainder `r` of `2^sh`, and whether more follows (R319). -/
def roundsUp (rm : Rm) (s : Bool) (k r sh : Nat) (sticky : Bool) : Bool :=
  let twice := 2 * r
  let unit := 2 ^ sh
  let inexact := decide (r ≠ 0) || sticky
  match rm with
  | .rne => decide (unit < twice) || (decide (unit = twice) && (sticky || decide (k % 2 = 1)))
  | .rtz => false
  | .rup => inexact && !s
  | .rdn => inexact && s
  | .rna => decide (unit ≤ twice)

/-- ±(m × 2^e), or a value just above it in magnitude when `sticky`, kept to a multiple of 2^q: the kept integer, and
whether it is inexact. With `sticky`, q must be above e. -/
def roundAt (rm : Rm) (s : Bool) (m : Nat) (e q : Int) (sticky : Bool) : Nat × Bool :=
  if q ≤ e then (m * 2 ^ (e - q).toNat, sticky)
  else
    let sh := (q - e).toNat
    let k := m / 2 ^ sh
    let r := m % 2 ^ sh
    (if roundsUp rm s k r sh sticky then k + 1 else k, decide (r ≠ 0) || sticky)

/-- A non-zero exact result rounded once (R320): tininess is detected after rounding. -/
def Fmt.round (f : Fmt) (rm : Rm) (s : Bool) (m : Nat) (e : Int) (sticky : Bool) : Nat × FFlags :=
  let top : Int := e + m.log2
  let prec : Int := (f.p : Int) - 1
  let q := max (top - prec) (f.emin - prec)
  let (k, inexact) := roundAt rm s m e q sticky
  let mag := if k < 2 ^ (f.p - 1) then k else ((q + prec - f.emin).toNat) * 2 ^ (f.p - 1) + k
  if f.inf ≤ mag then
    let toInf := match rm with | .rne | .rna => true | .rtz => false | .rup => !s | .rdn => s
    (f.withSign s (if toInf then f.inf else f.maxFinite), fOF ||| fNX)
  else
    let (k', _) := roundAt rm s m e (top - prec) sticky
    let tiny := decide (top < f.emin) && !(decide (top = f.emin - 1) && decide (k' = 2 ^ f.p))
    (f.withSign s mag, (if inexact then fNX else 0) ||| (if tiny && inexact then fUF else 0))

/-- An exact finite result, zero with the given sign, rounded. -/
def Fmt.finish (f : Fmt) (rm : Rm) (s : Bool) (m : Nat) (e : Int) (zeroSign : Bool) : Nat × FFlags :=
  if m = 0 then (f.withSign zeroSign 0, 0) else f.round rm s m e false

/-- The NaN result of operands in the order FA, FB, FC (R321, R322): the first NaN quieted, else the default NaN, with
NV for a signalling operand or an invalid operation. -/
def Fmt.nanResult (f : Fmt) (ops : List Nat) (invalid : Bool) : Nat × FFlags :=
  let nv := invalid || ops.any f.isSnan
  (match ops.find? f.isNan with | some v => f.quieten v | none => f.nan, if nv then fNV else 0)

/-- The exact sum of two finite values as a signed integer times a power of two. -/
def exactSum (s1 : Bool) (m1 : Nat) (e1 : Int) (s2 : Bool) (m2 : Nat) (e2 : Int) : Int × Int :=
  let e := min e1 e2
  let a : Int := (m1 * 2 ^ (e1 - e).toNat : Nat)
  let b : Int := (m2 * 2 ^ (e2 - e).toNat : Nat)
  ((if s1 then -a else a) + (if s2 then -b else b), e)

/-- A sum of finite values rounded; an exact zero has the common sign of two zeros, else + or, rounding down, −. -/
def Fmt.sum (f : Fmt) (rm : Rm) (s1 : Bool) (m1 : Nat) (e1 : Int) (s2 : Bool) (m2 : Nat) (e2 : Int) : Nat × FFlags :=
  let (v, e) := exactSum s1 m1 e1 s2 m2 e2
  let zs := if m1 = 0 ∧ m2 = 0 ∧ s1 = s2 then s1 else decide (rm = .rdn)
  f.finish rm (decide (v < 0)) v.natAbs e zs

/-- FADD, and FSUB with the second operand's sign inverted (R296). -/
def Fmt.add (f : Fmt) (rm : Rm) (a b : Nat) (neg : Bool) : Nat × FFlags :=
  match f.val a, f.val b with
  | .nan, _ | _, .nan => f.nanResult [a, b] false
  | .inf s, .inf t => if s = (t != neg) then (f.withSign s f.inf, 0) else f.nanResult [a, b] true
  | .inf s, .fin .. => (f.withSign s f.inf, 0)
  | .fin .., .inf t => (f.withSign (t != neg) f.inf, 0)
  | .fin s m e, .fin t n g => f.sum rm s m e (t != neg) n g

/-- FMUL. -/
def Fmt.mul (f : Fmt) (rm : Rm) (a b : Nat) : Nat × FFlags :=
  match f.val a, f.val b with
  | .nan, _ | _, .nan => f.nanResult [a, b] false
  | .inf s, .inf t => (f.withSign (s != t) f.inf, 0)
  | .inf s, .fin t n _ => if n = 0 then f.nanResult [a, b] true else (f.withSign (s != t) f.inf, 0)
  | .fin s m _, .inf t => if m = 0 then f.nanResult [a, b] true else (f.withSign (s != t) f.inf, 0)
  | .fin s m e, .fin t n g => f.finish rm (s != t) (m * n) (e + g) (s != t)

/-- FDIV. -/
def Fmt.div (f : Fmt) (rm : Rm) (a b : Nat) : Nat × FFlags :=
  match f.val a, f.val b with
  | .nan, _ | _, .nan => f.nanResult [a, b] false
  | .inf _, .inf _ => f.nanResult [a, b] true
  | .inf s, .fin t _ _ => (f.withSign (s != t) f.inf, 0)
  | .fin s _ _, .inf t => (f.withSign (s != t) 0, 0)
  | .fin s m e, .fin t n g =>
    if n = 0 then (if m = 0 then f.nanResult [a, b] true else (f.withSign (s != t) f.inf, fDZ))
    else if m = 0 then (f.withSign (s != t) 0, 0)
    else
      let k := 2 * f.p + 4
      let num := m * 2 ^ k
      f.round rm (s != t) (num / n) (e - g - k) (decide (num % n ≠ 0))

/-- FSQRT. -/
def Fmt.sqrt (f : Fmt) (rm : Rm) (a : Nat) : Nat × FFlags :=
  match f.val a with
  | .nan => f.nanResult [a] false
  | .inf s => if s then f.nanResult [a] true else (f.inf, 0)
  | .fin s m e =>
    if m = 0 then (f.withSign s 0, 0)
    else if s then f.nanResult [a] true
    else
      let k := 2 * f.p + 4 + if (e - (2 * f.p + 4 : Nat)) % 2 = 0 then 0 else 1
      let v := m * 2 ^ k
      let r := Nat.sqrt v
      f.round rm false r ((e - k) / 2) (decide (r * r ≠ v))

/-- FMADD and its forms: ±(FA × FB) ± FC with one rounding (R297, R323). -/
def Fmt.fma (f : Fmt) (rm : Rm) (a b c : Nat) (negP negC : Bool) : Nat × FFlags :=
  let zeroInf := match f.val a, f.val b with
    | .inf _, .fin _ 0 _ | .fin _ 0 _, .inf _ => true
    | _, _ => false
  match f.val a, f.val b, f.val c with
  | .nan, _, _ | _, .nan, _ | _, _, .nan => f.nanResult [a, b, c] zeroInf
  | .fin s m e, .fin t n g, .fin u k h => f.sum rm ((s != t) != negP) (m * n) (e + g) (u != negC) k h
  | .fin .., .fin .., .inf u => (f.withSign (u != negC) f.inf, 0)
  | va, vb, vc =>
    if zeroInf then f.nanResult [a, b, c] true
    else
      let sg := fun (v : FVal) => match v with | .inf s => s | .fin s _ _ => s | .nan => false
      let ps := (sg va != sg vb) != negP
      match vc with
      | .inf u => if ps = (u != negC) then (f.withSign ps f.inf, 0) else f.nanResult [a, b, c] true
      | _ => (f.withSign ps f.inf, 0)

/-- Two values compared: none when unordered. -/
def Fmt.cmp (f : Fmt) (a b : Nat) : Option Ordering :=
  match f.val a, f.val b with
  | .nan, _ | _, .nan => none
  | .inf s, .inf t => some (if s = t then .eq else if s then .lt else .gt)
  | .inf s, _ => some (if s then .lt else .gt)
  | _, .inf t => some (if t then .gt else .lt)
  | .fin s m e, .fin t n g =>
    let (v, _) := exactSum s m e (!t) n g
    some (if v < 0 then .lt else if v = 0 then .eq else .gt)

/-- FMIN (`max` false) and FMAX: minimumNumber and maximumNumber, with −0 less than +0 (R327). -/
def Fmt.minMax (f : Fmt) (max : Bool) (a b : Nat) : Nat × FFlags :=
  let nv := if f.isSnan a || f.isSnan b then fNV else 0
  if f.isNan a && f.isNan b then f.nanResult [a, b] false
  else if f.isNan a then (b, nv)
  else if f.isNan b then (a, nv)
  else
    let aLess := match f.cmp a b with
      | some .lt => true
      | some .eq => decide (f.signBit ≤ a)
      | _ => false
    (if aLess != max then a else b, 0)

/-- A finite value rounded to an integer: the signed integer, and whether it differs (R325, R326). -/
def roundToInt (rm : Rm) (s : Bool) (m : Nat) (e : Int) : Int × Bool :=
  let (k, inexact) := roundAt rm s m e 0 false
  (if s then -(k : Int) else k, inexact)

/-- FRND: roundToIntegralExact; a zero result keeps the sign of FA (R326). -/
def Fmt.rint (f : Fmt) (rm : Rm) (a : Nat) : Nat × FFlags :=
  match f.val a with
  | .nan => f.nanResult [a] false
  | .inf _ => (a, 0)
  | .fin s m e =>
    let (v, inexact) := roundToInt rm s m e
    let (r, _) := f.finish rm s v.natAbs 0 s
    (r, if inexact then fNX else 0)

/-- FCVT.L and its forms to a 64-bit integer (R325, Table 10.4). -/
def Fmt.toInt (f : Fmt) (rm : Rm) (a : Nat) (unsigned : Bool) : Word × FFlags :=
  let lo : Int := if unsigned then 0 else -(2 ^ 63)
  let hi : Int := if unsigned then 2 ^ 64 - 1 else 2 ^ 63 - 1
  match f.val a with
  | .nan => (BitVec.ofInt 64 lo, fNV)
  | .inf s => (BitVec.ofInt 64 (if s then lo else hi), fNV)
  | .fin s m e =>
    let (v, inexact) := roundToInt rm s m e
    if v < lo then (BitVec.ofInt 64 lo, fNV)
    else if hi < v then (BitVec.ofInt 64 hi, fNV)
    else (BitVec.ofInt 64 v, if inexact then fNX else 0)

/-- FCVT.FL and FCVT.FLU from an integer (R326). -/
def Fmt.ofInt (f : Fmt) (rm : Rm) (v : Int) : Nat × FFlags := f.finish rm (decide (v < 0)) v.natAbs 0 false

/-- FCVT between the formats (R324): a NaN's payload moves between bits [50:29] and [21:0]. -/
def convert (src dst : Fmt) (rm : Rm) (a : Nat) : Nat × FFlags :=
  match src.val a with
  | .nan =>
    let s := decide (src.signBit ≤ a)
    let fr := a % src.quiet
    let payload := if src.p > dst.p then fr / 2 ^ (src.p - dst.p) else fr * 2 ^ (dst.p - src.p)
    (dst.withSign s (dst.nan + payload), if src.isSnan a then fNV else 0)
  | .inf s => (dst.withSign s dst.inf, 0)
  | .fin s m e => dst.finish rm s m e s

/-- FCMP's conditions (Table 9.7): BD, and whether it raises invalid; 13 to 15 are reserved. -/
def Fmt.cond (f : Fmt) (c : BitVec 4) (a b : Nat) : Option (Bool × Bool) :=
  let o := f.cmp a b
  let sn := f.isSnan a || f.isSnan b
  let nan := f.isNan a || f.isNan b
  let lt := decide (o = some .lt)
  let eq := decide (o = some .eq)
  let gt := decide (o = some .gt)
  match c.toNat with
  | 0 => some (eq, sn)
  | 1 => some (!eq, sn)
  | 2 => some (lt, nan)
  | 3 => some (lt || eq, nan)
  | 4 => some (gt, nan)
  | 5 => some (gt || eq, nan)
  | 6 => some (o.isNone, sn)
  | 7 => some (o.isSome, sn)
  | 8 => some (lt, sn)
  | 9 => some (lt || eq, sn)
  | 10 => some (gt, sn)
  | 11 => some (gt || eq, sn)
  | 12 => some (eq, nan)
  | _ => none

end Sys2Proof.Machine
end

