-- ==== Sys2Proof/Machine/Float.lean ====
section
/-! DEFINITION. Machine/Float.lean: the floating-point instructions, FP_SIGNAL and FLOATING_POINT_TRAP (R287, R296 to R298,
R318 to R332). An operation that can raise a flag issues into the core's queue and signals later; the moves of R296
raise none and write at once. -/

namespace Sys2Proof.Machine

/-- The format that FN [5] P selects (R296). -/
def fmtOf (p : Bool) : Fmt := if p then fmt64 else fmt32

/-- An operand of a format: binary32 uses bits [31:0] (R248). -/
def operand (p : Bool) (v : Word) : Nat := if p then v.toNat else v.toNat % 2 ^ 32

/-- The rounding mode in RM (R319). -/
def Core.rm (x : Core) : Rm := Rm.ofBits (x.arch.bits.extractLsb' 0x010 3).toNat

/-- An operation issues (R329): its result and flags are written when it signals. -/
def Core.issue (x : Core) (dest : PReg) (v : Word) (flags : FFlags) : Core :=
  let x := x.claim dest
  { x with fpq := x.fpq ++ [{ cursor := x.arch.pcc.cursor, dest := some dest, value := v, flags := flags, enables := x.fpEnables }] }

/-- The body of an operation on FA and FB with its result in FD (R296). -/
def fpBody (o : OpF) (f : Fmt → Rm → Nat → Nat → Nat × FFlags) : Body := regBody fun x =>
  let r := f (fmtOf o.p) x.rm (operand o.p (x.fr o.fa)) (operand o.p (x.fr o.fb))
  .ok (x.issue (.fp o.fd.toNat) (Word.ofNat r.1) r.2)

/-- The body of a move between f registers: no flag, no quieting (R296). -/
def fpMove (o : OpF) (f : Fmt → Nat → Nat → Nat) : Body := regBody fun x =>
  .ok (x.wr (.fp o.fd.toNat) (Word.ofNat (f (fmtOf o.p) (operand o.p (x.fr o.fa)) (operand o.p (x.fr o.fb)))))

/-- The body of a conversion to a general register (R325). -/
def fpToInt (o : OpF) (unsigned : Bool) (rm : Core → Rm) : Body := regBody fun x =>
  let r := (fmtOf o.p).toInt (rm x) (operand o.p (x.fr o.fa)) unsigned
  .ok (x.issue (x.arch.gpr o.fd) r.1 r.2)

/-- The body of a conversion from a general register (R326). -/
def fpOfInt (o : OpF) (v : Word → Int) : Body := regBody fun x =>
  let r := (fmtOf o.p).ofInt x.rm (v (x.gr o.fa))
  .ok (x.issue (.fp o.fd.toNat) (Word.ofNat r.1) r.2)

/-- The body of a fused multiply-add (R297). -/
def fmaBody (o : OpFma) (negP negC : Bool) : Body := regBody fun x =>
  let r := (fmtOf o.p).fma x.rm (operand o.p (x.fr o.fa)) (operand o.p (x.fr o.fb)) (operand o.p (x.fr o.fc)) negP negC
  .ok (x.issue (.fp o.fd.toNat) (Word.ofNat r.1) r.2)

/-- The body of FCMP (R287): BD takes the condition at once, and the invalid flag is raised as Table 9.7 states, which
signals trap 0x0A where its enable applies (R329). Earlier operations have then signalled, so that the trap names the earliest of
them in program order (R330). -/
def fcmpBody (o : OpCmp) (p : Bool) : Body := regBody fun x =>
  match (fmtOf p).cond o.cond (operand p (x.fr o.ra)) (operand p (x.fr o.rb)) with
  | none => .error x.illegal.stop
  | some (v, invalid) =>
    match x.bitGuard o.bd.toNat with
    | .error t => .error t
    | .ok _ =>
      let trap := invalid && decide (x.fpEnables &&& fNV ≠ 0)
      let y := if trap then x.signalAll else x
      let y := (if invalid then y.raise fNV else y).wbit o.bd.toNat v
      .ok (if trap then { y with fpTrap := some (y.fpTrap.getD x.arch.pcc.cursor) } else y)

/-- FCMP.S (R287). -/
def execFcmpS (o : OpCmp) (s : State) : Host.Outcome State Fault Refusal :=
  s.instr o.core (fcmpBody o false)

/-- FCMP.D (R287). -/
def execFcmpD (o : OpCmp) (s : State) : Host.Outcome State Fault Refusal :=
  s.instr o.core (fcmpBody o true)

/-- FADD (R296). -/
def execFadd (o : OpF) (s : State) : Host.Outcome State Fault Refusal :=
  s.instr o.core (fpBody o fun f rm a b => f.add rm a b false)

/-- FSUB (R296). -/
def execFsub (o : OpF) (s : State) : Host.Outcome State Fault Refusal :=
  s.instr o.core (fpBody o fun f rm a b => f.add rm a b true)

/-- FMUL (R296). -/
def execFmul (o : OpF) (s : State) : Host.Outcome State Fault Refusal :=
  s.instr o.core (fpBody o fun f rm a b => f.mul rm a b)

/-- FDIV (R296). -/
def execFdiv (o : OpF) (s : State) : Host.Outcome State Fault Refusal :=
  s.instr o.core (fpBody o fun f rm a b => f.div rm a b)

/-- FSQRT (R296). -/
def execFsqrt (o : OpF) (s : State) : Host.Outcome State Fault Refusal :=
  s.instr o.core (fpBody o fun f rm a _ => f.sqrt rm a)

/-- FMIN (R327). -/
def execFmin (o : OpF) (s : State) : Host.Outcome State Fault Refusal :=
  s.instr o.core (fpBody o fun f _ a b => f.minMax false a b)

/-- FMAX (R327). -/
def execFmax (o : OpF) (s : State) : Host.Outcome State Fault Refusal :=
  s.instr o.core (fpBody o fun f _ a b => f.minMax true a b)

/-- FNEG (R296). -/
def execFneg (o : OpF) (s : State) : Host.Outcome State Fault Refusal :=
  s.instr o.core (fpMove o fun f a _ => f.withSign (decide (a < f.signBit)) a)

/-- FABS (R296). -/
def execFabs (o : OpF) (s : State) : Host.Outcome State Fault Refusal :=
  s.instr o.core (fpMove o fun f a _ => f.withSign false a)

/-- FCPYS (R296): the magnitude of FA with the sign of FB. -/
def execFcpys (o : OpF) (s : State) : Host.Outcome State Fault Refusal :=
  s.instr o.core (fpMove o fun f a b => f.withSign (decide (f.signBit ≤ b)) a)

/-- FMOV (R296, R248). -/
def execFmov (o : OpF) (s : State) : Host.Outcome State Fault Refusal :=
  s.instr o.core (fpMove o fun _ a _ => a)

/-- FCVT (R324): FD in format P from FA in the other format. -/
def execFcvt (o : OpF) (s : State) : Host.Outcome State Fault Refusal :=
  s.instr o.core (regBody fun x =>
    let r := convert (fmtOf !o.p) (fmtOf o.p) x.rm (operand (!o.p) (x.fr o.fa))
    .ok (x.issue (.fp o.fd.toNat) (Word.ofNat r.1) r.2))

/-- FCVT.L (R325). -/
def execFcvtL (o : OpF) (s : State) : Host.Outcome State Fault Refusal :=
  s.instr o.core (fpToInt o false (·.rm))

/-- FCVT.LU (R325). -/
def execFcvtLu (o : OpF) (s : State) : Host.Outcome State Fault Refusal :=
  s.instr o.core (fpToInt o true (·.rm))

/-- FCVT.FL (R326): the FA field names a general register. -/
def execFcvtFl (o : OpF) (s : State) : Host.Outcome State Fault Refusal :=
  s.instr o.core (fpOfInt o (·.toInt))

/-- FCVT.FLU (R326). -/
def execFcvtFlu (o : OpF) (s : State) : Host.Outcome State Fault Refusal :=
  s.instr o.core (fpOfInt o fun v => (v.toNat : Int))

/-- FRND (R326). -/
def execFrnd (o : OpF) (s : State) : Host.Outcome State Fault Refusal :=
  s.instr o.core (fpBody o fun f rm a _ => f.rint rm a)

/-- FMVFG (R296): the FD field names a general register. -/
def execFmvfg (o : OpF) (s : State) : Host.Outcome State Fault Refusal :=
  s.instr o.core (regBody fun x => .ok (x.wgr o.fd (Word.ofNat (operand o.p (x.fr o.fa)))))

/-- FMVGF (R296, R248): the FA field names a general register. -/
def execFmvgf (o : OpF) (s : State) : Host.Outcome State Fault Refusal :=
  s.instr o.core (regBody fun x => .ok (x.wr (.fp o.fd.toNat) (Word.ofNat (operand o.p (x.gr o.fa)))))

/-- FCVT.LZ (R325). -/
def execFcvtLz (o : OpF) (s : State) : Host.Outcome State Fault Refusal :=
  s.instr o.core (fpToInt o false fun _ => .rtz)

/-- FCVT.LUZ (R325). -/
def execFcvtLuz (o : OpF) (s : State) : Host.Outcome State Fault Refusal :=
  s.instr o.core (fpToInt o true fun _ => .rtz)

/-- FMADD (R297): FA × FB + FC. -/
def execFmadd (o : OpFma) (s : State) : Host.Outcome State Fault Refusal :=
  s.instr o.core (fmaBody o false false)

/-- FMSUB (R297): FA × FB − FC. -/
def execFmsub (o : OpFma) (s : State) : Host.Outcome State Fault Refusal :=
  s.instr o.core (fmaBody o false true)

/-- FNMADD (R297): −(FA × FB) − FC. -/
def execFnmadd (o : OpFma) (s : State) : Host.Outcome State Fault Refusal :=
  s.instr o.core (fmaBody o true true)

/-- FNMSUB (R297): −(FA × FB) + FC. -/
def execFnmsub (o : OpFma) (s : State) : Host.Outcome State Fault Refusal :=
  s.instr o.core (fmaBody o true false)

/-- FP_SIGNAL (R329): the earliest issued operation of a core signals. -/
def execFpSignal (o : OpCore) (s : State) : Host.Outcome State Fault Refusal :=
  s.act fun d => d.onCore o.core (·.signal)

/-- FLOATING_POINT_TRAP (R330, R331): a pending trap 0x0A is taken at a boundary, after a machine check that is due. Twins take it at
their next exchange (R351). -/
def execFloatingPointTrap (o : OpCore) (s : State) : Host.Outcome State Fault Refusal :=
  s.act fun d =>
    if !d.coreReady o.core || (d.core o.core).twin.isSome then d
    else match d.coreOwner o.core, (d.core o.core).mchecks, (d.core o.core).fpTrapDue with
      | some p, [], some t => d.takeTrap o.core p t
      | _, _, _ => d

end Sys2Proof.Machine
end

