-- ==== Sys2Proof/Machine/Retry.lean ====
section
/-! DEFINITION. Machine/Retry.lean: instruction retry, the core self-test, sparing and lost cores, and twin execution (R453, R458 to
R478). -/

namespace Sys2Proof.Machine

/-! ## Retry (R461 to R463) -/

/-- A core restored from a checkpoint: what was not committed is discarded, with what was fetched ahead (R462). -/
def Core.restart (x : Core) (a : Arch) : Core :=
  { x with arch := a, checkpoint := a, fpq := [], exchange := none, fbuf := none }

/-- An event of a core's cluster counted. -/
def Dev.tally (d : Dev) (e : Entry) (c : Nat) : Dev := d.bump e (clusterOf c)

/-- What started a retry, counted; a line whose parity failed is invalidated (R453, R461), and its L2 lists the core no longer
(R381). -/
def Dev.retryEvent (d : Dev) (c p : Nat) (e : RetryEvent) : Dev :=
  match e with
  | .compare => d.tally R.clu_MISMATCHES c
  | .microcode .. => d.bump R.dev_UCODE_CHECKS
  | .registerEcc => d.tally R.clu_REG_ECC c
  | .cacheParity line => (d.onCore c fun x =>
    let x := x.dropL1 line.toNat
    { x with l1i := x.l1i.filter fun l => decide (l.2.line ≠ line.toNat) }).unlistSlot c p line.toNat

/-- A START that waited for the core to resume (R469). -/
def Dev.resumed (d : Dev) (c p : Nat) : Dev :=
  if (d.core c).startOwed then (d.onCore c fun x => { x with startOwed := false }).startCore p c else d

/-- The core stops issue, drains its stores and begins its self-test (R464). -/
def Dev.beginSelfTest (d : Dev) (c p : Nat) : Dev :=
  ((d.drainAll c p).onCore c fun x => { x with run := .selfTest }).tally R.clu_SELFTESTS c

/-- One retry of a core (R462, R463): it succeeds, fails for the first or second time, or fails for the third. -/
def Dev.retry (d : Dev) (c p : Nat) (e : RetryEvent) (success : Bool) : Dev :=
  let n := (d.core c).retry.count + 1
  let d := (d.retryEvent c p e).tally R.clu_RETRIES c
  let d := d.onCore c fun x =>
    let y := if x.exchange.isSome then x else x.restart x.checkpoint
    { y with retry := { x.retry with
      count := n
      start := if n = 1 then d.time else x.retry.start
      firstFail := if n = 1 then d.time else x.retry.firstFail } }
  if success then (d.onCore c fun x => { x with run := .running, retry := { x.retry with count := 0 } }).resumed c p
  else if n < 3 then d.onCore c fun x => { x with run := .retrying }
  else d.beginSelfTest c p

/-- INSTRUCTION_RETRY (R453, R461 to R464). -/
def execInstructionRetry (o : OpRetry) (s : State) : Host.Outcome State Fault Refusal :=
  s.act fun d =>
    let d := d.at o.t
    let c := o.core.val
    match d.coreOwner c, (d.core c).run with
    | some p, .running => d.retry c p o.event o.success
    | some p, .retrying => d.retry c p o.event o.success
    | _, _ => d

/-! ## Sparing and lost cores (R465 to R468) -/

/-- Another core of the cluster is being handed to the spare. -/
def Dev.spareTaken (d : Dev) (c : Nat) : Bool :=
  decide (d.rd R.clu_SPARE (clusterOf c) ≠ 0xFF) || (clusterCores (clusterOf c)).any fun k => decide (k ≠ c) && decide ((d.core k).run = .handingOver)

/-- The physical slot of a core is retired; with slot 16 the spare is. -/
def Dev.retireCore (d : Dev) (c : Nat) : Dev :=
  let k := clusterOf c
  let s := d.slotOf c
  let d := d.wr R.clu_RETIRED (withBit (d.rd R.clu_RETIRED k) s true) k
  if s = 16 then d.wr R.clu_SPARE 0xFE k else d

/-- The core is lost (R468). -/
def Dev.loseCore (d : Dev) (c p : Nat) : Dev :=
  let d := ((d.drainAll c p).retireCore c).forgetSlot (clusterOf c) (d.slotOf c)
  let d := d.setCore c { run := .lost, inSpareSlot := (d.core c).inSpareSlot }
  ((d.tally R.clu_LOST c).ring p 0x1FFE).alert (0x3000 + clusterOf c) 0x16 p c

/-- The logical core moves to its cluster's spare: the failed slot is retired, and the spare's caches are empty (R466, R467). -/
def Dev.moveToSpare (d : Dev) (c : Nat) : Dev :=
  let k := clusterOf c
  let d := (d.retireCore c).forgetSlot k (d.slotOf c)
  (d.wr R.clu_SPARE (c % 16) k).onCore c fun x => { x with
    inSpareSlot := true, l1d := [], victim := [], l1i := [], fbuf := none, streams := [], pred := [] }

/-- What a confirmed fault of a core in service leads to (R466, R468). -/
def Dev.faultConfirmed (d : Dev) (c p : Nat) : Dev :=
  if d.spareTaken c then d.loseCore c p else d.onCore c fun x => { x with run := .handingOver }

/-- The end of the self-test of a twin that has given up (R476, step 5): its logical core is stopped, in place or in the spare, or lost. -/
def Dev.endGivenUp (d : Dev) (c p : Nat) (confirmed : Bool) : Dev :=
  let back := fun (d : Dev) => (d.onCore c fun x => { x with run := .stopped, retry := { passed := x.retry.passed } }).resumed c p
  if !confirmed then back d
  else if d.spareTaken c then d.loseCore c p
  else back ((d.moveToSpare c).tally R.clu_SPARINGS c)

/-! ## Twin execution: giving up (R476) -/

/-- The instruction that an exchange stands for, as core `c` executes it, and its meaning (R473). -/
def exchangeOf (i : Instr) (c : Fin 256) : Option (Instr × Body) :=
  match i with
  | .ldB o => some (.ldB { o with core := c }, loadGr o 1 true)
  | .ldBu o => some (.ldBu { o with core := c }, loadGr o 1 false)
  | .ldH o => some (.ldH { o with core := c }, loadGr o 2 true)
  | .ldHu o => some (.ldHu { o with core := c }, loadGr o 2 false)
  | .ldW o => some (.ldW { o with core := c }, loadGr o 4 true)
  | .ldWu o => some (.ldWu { o with core := c }, loadGr o 4 false)
  | .ldL o => some (.ldL { o with core := c }, loadGr o 8 false)
  | .fldS o => some (.fldS { o with core := c }, loadFr o 4)
  | .fldD o => some (.fldD { o with core := c }, loadFr o 8)
  | .stB o => some (.stB { o with core := c }, storeGr o 1)
  | .stH o => some (.stH { o with core := c }, storeGr o 2)
  | .stW o => some (.stW { o with core := c }, storeGr o 4)
  | .stL o => some (.stL { o with core := c }, storeGr o 8)
  | .fstS o => some (.fstS { o with core := c }, storeFr o 4)
  | .fstD o => some (.fstD { o with core := c }, storeFr o 8)
  | .ldc o => some (.ldc { o with core := c }, ldcBody o)
  | .stc o => some (.stc { o with core := c }, stcBody o)
  | .ldABu o => some (.ldABu { o with core := c }, loadAcq o 1)
  | .ldAHu o => some (.ldAHu { o with core := c }, loadAcq o 2)
  | .ldAWu o => some (.ldAWu { o with core := c }, loadAcq o 4)
  | .ldAL o => some (.ldAL { o with core := c }, loadAcq o 8)
  | .stRB o => some (.stRB { o with core := c }, storeRel o 1)
  | .stRH o => some (.stRH { o with core := c }, storeRel o 2)
  | .stRW o => some (.stRW { o with core := c }, storeRel o 4)
  | .stRL o => some (.stRL { o with core := c }, storeRel o 8)
  | .ldcA o => some (.ldcA { o with core := c }, ldcABody o)
  | .stcR o => some (.stcR { o with core := c }, stcRBody o)
  | .swap o => some (.swap { o with core := c }, atomBody o .swap)
  | .cas o => some (.cas { o with core := c }, atomBody o .cas)
  | .aadd o => some (.aadd { o with core := c }, atomBody o .add)
  | .aand o => some (.aand { o with core := c }, atomBody o .and)
  | .aor o => some (.aor { o with core := c }, atomBody o .or)
  | .axor o => some (.axor { o with core := c }, atomBody o .xor)
  | .amax o => some (.amax { o with core := c }, atomBody o .max)
  | .amin o => some (.amin { o with core := c }, atomBody o .min)
  | .amaxu o => some (.amaxu { o with core := c }, atomBody o .maxu)
  | .aminu o => some (.aminu { o with core := c }, atomBody o .minu)
  | .swapc o => some (.swapc { o with core := c }, atomCapBody o false)
  | .casc o => some (.casc { o with core := c }, atomCapBody o true)
  | .bld o => some (.bld { o with core := c }, bldBody o)
  | .bst o => some (.bst { o with core := c }, pbitBody o false id false)
  | .bset o => some (.bset { o with core := c }, pbitBody o false (fun _ => true) true)
  | .bclr o => some (.bclr { o with core := c }, pbitBody o false (fun _ => false) false)
  | .btas o => some (.btas { o with core := c }, pbitBody o true (fun _ => true) false)
  | .btac o => some (.btac { o with core := c }, pbitBody o true (fun _ => false) false)
  | .wspill o => some (.wspill { o with core := c }, wspill o)
  | .wfill o => some (.wfill { o with core := c }, wfill o)
  | .rsr o => some (.rsr { o with core := c }, rsrBody o)
  | .bankrel o => some (.bankrel { o with core := c }, bankrelBody o)
  | .dadd o => some (.dadd { o with core := c }, dadd o)
  | .dsub o => some (.dsub { o with core := c }, dsub o)
  | .dmul o => some (.dmul { o with core := c }, dmul o)
  | .ddiv o => some (.ddiv { o with core := c }, ddiv o)
  | .dcvtDb o => some (.dcvtDb { o with core := c }, dcvtDb o)
  | .dcvtBd o => some (.dcvtBd { o with core := c }, dcvtBd o)
  | .movb o => some (.movb { o with core := c }, movb o)
  | .crcm o => some (.crcm { o with core := c }, crcm o)
  | .gcmEnc o => some (.gcmEnc { o with core := c }, ciphBody o)
  | .gcmDec o => some (.gcmDec { o with core := c }, ciphBody o)
  | .gmacGen o => some (.gmacGen { o with core := c }, ciphBody o)
  | .gmacVer o => some (.gmacVer { o with core := c }, ciphBody o)
  | .xtsEnc o => some (.xtsEnc { o with core := c }, ciphBody o)
  | .xtsDec o => some (.xtsDec { o with core := c }, ciphBody o)
  | .keyload o => some (.keyload { o with core := c }, ciphBody o)
  | .keyclear o => some (.keyclear { o with core := c }, ciphBody o)
  | .compress o => some (.compress { o with core := c }, cmprBody o)
  | .decompress o => some (.decompress { o with core := c }, cmprBody o)
  | .stream o => some (.stream { o with core := c }, cmprBody o)
  | .chst o => some (.chst { o with core := c }, chstBody o)
  | .chctlStop o => some (.chctlStop { o with core := c }, chctlBody o (stopSubmit o 1))
  | .chctlHalt o => some (.chctlHalt { o with core := c }, chctlBody o (stopSubmit o 2))
  | .chctlStopall o => some (.chctlStopall { o with core := c }, chctlBody o (stopAllSubmit o 1))
  | .chctlHaltall o => some (.chctlHaltall { o with core := c }, chctlBody o (stopAllSubmit o 2))
  | .chctlRelease o => some (.chctlRelease { o with core := c }, chctlBody o (releaseSubmit o))
  | .dlvr o => some (.dlvr { o with core := c }, dlvrBody o)
  | _ => none

/-- The exchange that a twin had presented, performed by the survivor alone (R476, step 2). -/
def Dev.performAlone (d : Dev) (c p : Nat) : Dev :=
  match (d.core c).exchange with
  | none => d
  | some (i, _) =>
    let d := d.onCore c fun x => { x with exchange := none }
    match exchangeOf i (Fin.ofNat 256 c) with
    | some (_, body) => d.perform1 c p body
    | none => d

/-- The survivor `q` of a pair carries on with what the first twin `c` was performing for both (R473): the stores that a later CBAR
covers, the lines and windows that it waits for, and its place in the order of stores. -/
def Dev.inherit (d : Dev) (c q : Nat) : Dev :=
  let x := d.core c
  (d.onMem fun m => { m with
    winPend := m.winPend.map fun (s : WinStore) => if s.by_ = c then { s with by_ := q } else s }).onCore q fun y => { y with
    stored := (x.stored ++ y.stored).eraseDups
    observed := (x.observed ++ y.observed).eraseDups
    cbar := (x.cbar ++ y.cbar).eraseDups
    asOf := max x.asOf y.asOf
    readAt := x.readAt
    bitReadAt := x.bitReadAt }

/-- A trap for which a frame is to be written next on core `c`: an asynchronous machine check, trap 0x0A or an interrupt. -/
def Dev.frameDue (d : Dev) (c p : Nat) : Bool :=
  (d.uncondTrap c).isSome || (d.core c).fpTrapDue.isSome || (d.interrupt c p).isSome

/-- Twin `c` gives up, and its partner carries on alone (R476, steps 1 to 4). A self-test that it runs goes on. With `midFrame` the
partner is writing the frame of a trap that is due, and its machine check wedges it (R342, Table 11.4, cause 4). -/
def Dev.giveUp (d : Dev) (c p : Nat) (midFrame : Bool := false) : Dev :=
  match (d.core c).twin with
  | none => d
  | some q =>
    let caught := midFrame && decide ((d.core q).run = .running) && d.frameDue q p
    let d := d.drainAll c p
    let d : Dev := if c < q then d.inherit c q else d
    let d := (d.dissolvePair c).onCore c fun x => { x with
      run := if x.run = .selfTest then .selfTest else .stopped
      twin := none, exchange := none, retry := { x.retry with gaveUp := decide (x.run = .selfTest), count := 0 } }
    let d := d.onCore q fun x => { x with twin := none, mchecks := x.mchecks ++ [4] }
    let d := (d.tally R.clu_TWIN_GIVEUPS c).alert (0x3000 + clusterOf c) 0x24 p (c + 256 * q)
    if caught then (d.onCore q fun x => { x with exchange := none }).wedge q p 4 else d.performAlone q p

/-- TWIN_GIVE_UP (R476): a twin whose own retries have failed. -/
def execTwinGiveUp (o : OpGiveUp) (s : State) : Host.Outcome State Fault Refusal :=
  s.act fun d =>
    let d := d.at o.t
    let c := o.core.val
    match d.coreOwner c with
    | some p => if (d.core c).run = .selfTest ∧ !(d.core c).retry.disagree then d.giveUp c p o.midFrame else d
    | none => d

/-- TWIN_TIMEOUT (R477): a twin silent while its partner's exchange waits; it is stopped. -/
def execTwinTimeout (o : OpGiveUp) (s : State) : Host.Outcome State Fault Refusal :=
  s.act fun d =>
    let d := d.at o.t
    let c := o.core.val
    match d.coreOwner c, (d.core c).twin with
    | some p, some q =>
      match (d.core q).exchange with
      | some (_, due) => if (d.core c).exchange.isNone ∧ due ≤ d.time then d.giveUp c p o.midFrame else d
      | none => d
    | _, _ => d

/-! ## The end of a self-test (R465, R475) -/

/-- A twin's finding in a disagreement resumes it from its checkpoint. -/
def Dev.resumeTwin (d : Dev) (c p : Nat) : Dev :=
  (d.onCore c fun x => { x.restart x.exArch with run := .running, retry := { passed := x.retry.passed }, exRetries := 0 }).resumed c p

/-- Both findings of a disagreement between first twin `a` and second twin `b` (R475). -/
def Dev.settleDisagreement (d : Dev) (a b p : Nat) (fa fb : Bool) : Dev :=
  let plain := fun (d : Dev) => (d.onCore a fun x => { x with retry := { x.retry with disagree := false } }).onCore b fun x =>
    { x with retry := { x.retry with disagree := false } }
  let d := plain d
  match fa, fb with
  | true, false => ((d.giveUp a p).endGivenUp a p true).resumeTwin b p
  | false, true => ((d.giveUp b p).endGivenUp b p true).resumeTwin a p
  | false, false => (((d.giveUp b p).endGivenUp b p false).resumeTwin a p).tally R.clu_TWIN_DISAGREE b
  | true, true => ((d.giveUp b p).endGivenUp b p true).faultConfirmed a p

/-- A self-test of a twin in a disagreement ends: once both have, the pair goes its ways. -/
def Dev.disagreeEnd (d : Dev) (c q p : Nat) (confirmed : Bool) : Dev :=
  match (d.core q).retry.finding with
  | none => d.onCore c fun x => { x with retry := { x.retry with finding := some confirmed } }
  | some other => if c < q then d.settleDisagreement c q p confirmed other else d.settleDisagreement q c p other confirmed

/-- A self-test of a core that runs alone, or of a twin that has given up, ends (R465, R476). -/
def Dev.selfTestEnd (d : Dev) (c p : Nat) (confirmed : Bool) : Dev :=
  let x := d.core c
  let passed := if confirmed then [] else (d.time :: x.retry.passed).filter fun t => decide (d.time < t + 1000000000)
  let bad := confirmed || decide (3 ≤ passed.length)
  if x.retry.gaveUp then (d.onCore c fun x => { x with retry := { x.retry with passed := passed } }).endGivenUp c p bad
  else if bad then d.faultConfirmed c p
  else (d.onCore c fun x => { x.restart x.checkpoint with run := .running, retry := { passed := passed } }).resumed c p

/-- SELF_TEST_END (R465, R468, R475, R476). A twin whose own retries failed has given up by then. -/
def execSelfTestEnd (o : OpSelfTest) (s : State) : Host.Outcome State Fault Refusal :=
  s.act fun d =>
    let d := d.at o.t
    let c := o.core.val
    match d.coreOwner c with
    | none => d
    | some p =>
      if (d.core c).run ≠ .selfTest ∨ (d.core c).retry.finding.isSome then d
      else
        let d := if o.confirmed then d else d.tally R.clu_SELFTEST_PASSED c
        match (d.core c).retry.disagree, (d.core c).twin with
        | true, some q => d.disagreeEnd c q p o.confirmed
        | _, _ => (d.giveUp c p).selfTestEnd c p o.confirmed

/-! ## The spare (R466, R467) -/

/-- SPARE_AWAKE (R466, step 4): the spare wakes for the core that needs it. -/
def execSpareAwake (o : OpClusterT) (s : State) : Host.Outcome State Fault Refusal :=
  s.act fun d =>
    let d := d.at o.t
    let k := o.cluster.val
    if d.rd R.clu_SPARE k ≠ 0xFF then d
    else (clusterCores k).foldl (fun d c =>
      match (d.core c).run with
      | .retrying | .selfTest | .handingOver => d.onCore c fun x => { x with retry := { x.retry with spareAwake := true } }
      | _ => d) d

/-- The core of a cluster that is being handed to the spare. -/
def Dev.handing (d : Dev) (k : Nat) : Option Nat := (clusterCores k).find? fun c => decide ((d.core c).run = .handingOver)

/-- CHECKPOINT_TRANSFER (R466, step 5). -/
def execCheckpointTransfer (o : OpClusterT) (s : State) : Host.Outcome State Fault Refusal :=
  s.act fun d =>
    let d := d.at o.t
    match d.handing o.cluster.val with
    | none => d
    | some c =>
      let x := (d.core c).retry
      if !x.spareAwake || x.inSpare then d
      else (d.moveToSpare c).onCore c fun x => { x with retry := { x.retry with inSpare := true } }

/-- Machine check class 0x03 of a core that has moved to the spare (R467): taken at its first boundary, or due while it is in WAIT, which
begins again. -/
def Dev.spareCheck (d : Dev) (c p : Nat) : Dev :=
  if (d.core c).waiting.isSome then d.onCore c fun x => { x with waiting := some d.time, mchecks := x.mchecks ++ [3] }
  else d.takeTrap c p { num := 0x1F, fault := 0, cls := 3 }

/-- SPARE_FIRST_COMMIT (R466, step 6; R467). -/
def execSpareFirstCommit (o : OpClusterT) (s : State) : Host.Outcome State Fault Refusal :=
  s.act fun d =>
    let d := d.at o.t
    let k := o.cluster.val
    match d.handing k with
    | none => d
    | some c =>
      match d.coreOwner c, (d.core c).retry.inSpare with
      | some p, true =>
        let took := d.time - (d.core c).retry.start
        let d := ((d.tally R.clu_SPARINGS c).wr R.clu_LAST_SPARE_TIME (min took (2 ^ 32 - 1)) k).alert (0x3000 + k) 0x15 p c
        let d := d.onCore c fun x => { x.restart x.checkpoint with run := .running, retry := {} }
        (d.spareCheck c p).resumed c p
      | _, _ => d

/-! ## Exchanges (R473 to R475, R478) -/

/-- Both twins take the pending trap 0x0A or the interrupt that is due (R351, R474): it is entered once, and both hold the same
state. -/
def Dev.pairInterrupt (d : Dev) (a p : Nat) : Dev :=
  match (d.core a).fpTrapDue with
  | some t => d.takeTrap a p t
  | none =>
    match d.interrupt a p with
    | some t => d.takeTrap a p t
    | none => d

/-- The second twin receives what the first holds after an exchange (R473), which is the checkpoint of both (R475). -/
def Dev.shareResult (d : Dev) (a b : Nat) : Dev :=
  let x := d.core a
  let y := d.core b
  (d.setCore b { y with
    run := if x.run = .wedged then .wedged else y.run
    arch := x.arch, checkpoint := x.arch, fpq := x.fpq, fpTrap := x.fpTrap, fpHeld := x.fpHeld, exArch := x.arch, exRetries := 0, exchange := none }).onCore a
    fun x => { x with exArch := x.arch, exRetries := 0, exchange := none }

/-- The two requests of an exchange differ (R475): neither is performed, and both twins retry from the last exchange, three times; then
both run the self-test. -/
def Dev.disagreement (d : Dev) (a b p : Nat) : Dev :=
  let again := decide ((d.core a).exRetries < 3)
  [a, b].foldl (fun d c =>
    let d := d.onCore c fun x => { x.restart x.exArch with exRetries := x.exRetries + 1 }
    if again then d.tally R.clu_RETRIES c
    else (d.onCore c fun x => { x with retry := { x.retry with disagree := true, finding := none } }).beginSelfTest c p) d

/-- Both twins' requests meet at the first twin `a` (R473, R475). What the first twin's access meets is what both see. A pending trap
0x0A is taken in place of the access (R340, R351). -/
def Dev.meet (d : Dev) (a b p : Nat) : Dev :=
  let d := (d.onCore a (·.signalAll)).onCore b (·.signalAll)
  match (d.core a).exchange, (d.core b).exchange with
  | some (i, _), some (j, _) =>
    match exchangeOf i (Fin.ofNat 256 a), exchangeOf j (Fin.ofNat 256 a) with
    | some (x, body), some (y, _) =>
      if x.spelled = y.spelled ∧ (d.core a).arch = (d.core b).arch then
        let d := d.onCore a fun x => { x with exchange := none }
        if (d.core a).fpTrapDue.isSome then (d.pairInterrupt a p).shareResult a b
        else
          let d := d.perform1 a p body
          ((if (d.core a).run = .running then d.pairInterrupt a p else d)).shareResult a b
      else d.disagreement a b p
    | _, _ => d
  | _, _ => d

/-- TWIN_EXCHANGE (R473, R475, R478). -/
def execTwinExchange (o : OpCoreT) (s : State) : Host.Outcome State Fault Refusal :=
  s.act fun d =>
    let d := d.at o.t
    let c := o.core.val
    match d.coreOwner c, (d.core c).twin with
    | some p, some q =>
      if (d.core c).run = .running ∧ (d.core q).run = .running then d.meet (min c q) (max c q) p else d
    | _, _ => d

/-- IDLE_EXCHANGE (R474): an exchange with no access, once both twins have come to the same boundary. -/
def execIdleExchange (o : OpCoreT) (s : State) : Host.Outcome State Fault Refusal :=
  s.act fun d =>
    let d := d.at o.t
    let c := o.core.val
    match d.coreOwner c, (d.core c).twin with
    | some p, some q =>
      let a := min c q
      let b := max c q
      let d := (d.onCore a (·.signalAll)).onCore b (·.signalAll)
      if d.coreReady a && d.coreReady b && decide ((d.core a).arch = (d.core b).arch) then (d.pairInterrupt a p).shareResult a b else d
    | _, _ => d

end Sys2Proof.Machine
end

