-- ==== Sys2Proof/Machine/Scan.lean ====
section
/-! DEFINITION. Machine/Scan.lean: what a start-up reads back from a journal ring (R151, R159, R160). A place of the scan is its distance
from the tail that the control block gives. -/

namespace Sys2Proof.Machine

/-- The lines under `n` bytes of a ring of `size` bytes from offset `o`. -/
def ringLines (size o n : Nat) : List Nat := (List.range ((o % 64 + n + 63) / 64)).map fun k => (o / 64 + k) % (size / 64)

/-- The offset of a place of the scan. -/
def Ring.offAt (x : Ring) (pos : Nat) : Nat := (x.ctl.off + pos) % x.ctl.size

/-- The LAP expected at a place of the scan (R149, R151). -/
def Ring.lapAt (x : Ring) (pos : Nat) : Nat := (x.ctl.lap + (x.ctl.off + pos) / x.ctl.size) % 2 ^ 32

/-- `n` bytes from a place of the scan. -/
def Ring.read (x : Ring) (pos n : Nat) : Bytes :=
  let o := x.offAt pos
  (((ringLines x.ctl.size o n).flatMap fun i => leBytes 64 (Table.get 0 x.lines i).toNat).drop (o % 64)).take n

/-- Some of `n` bytes from a place of the scan lie in a lost line. -/
def Ring.lostAt (x : Ring) (pos n : Nat) : Bool := (ringLines x.ctl.size (x.offAt pos) n).any x.lost.contains

/-- TYPE and LENGTH of the record header at a place of the scan, where it can be read and passes the first three tests of R151. -/
def Ring.header (x : Ring) (pos : Nat) : Option (Nat × Nat) :=
  if x.ctl.size < pos + 48 || x.lostAt pos 16 then none
  else
    let b := x.read pos 16
    let type := fieldLE b 0 1
    let len := fieldLE b 4 4
    if 1 ≤ type ∧ type ≤ 6 ∧ 48 ≤ len ∧ len ≤ 8256 ∧ len % 16 = 0 ∧ pos + len ≤ x.ctl.size ∧ fieldLE b 8 4 = x.lapAt pos then
      some (type, len)
    else none

/-- The record of this TYPE and LENGTH at a place of the scan, where its CRC passes (R151). -/
def Ring.recordAt (x : Ring) (pos type len : Nat) : Option Record :=
  let b := x.read pos len
  if fieldLE b 12 4 = crc32c (b.take 12 ++ b.drop 16) then
    (RecBody.ofBytes type (b.drop 16)).map fun y =>
      { body := y, carried := bitOf (fieldLE b 2 2) 0, complete := true, off := x.offAt pos, lap := x.lapAt pos }
  else none

/-- The places that the lines' check areas name as first headers, in the order of the scan (R160). -/
def Ring.marks (x : Ring) : List Nat :=
  let l := (x.heads.filter fun e => !x.lost.contains e.1).map fun e => 64 * e.1 + e.2 - 1
  ((l.filter fun a => decide (x.ctl.off ≤ a)) ++ l.filter fun a => decide (a < x.ctl.off)).map fun a =>
    (a + x.ctl.size - x.ctl.off) % x.ctl.size

/-- The first of them in a later line than a place's that satisfies `f`. -/
def Ring.nextMark (x : Ring) (pos : Nat) (f : Nat → Bool) : Option Nat :=
  x.marks.find? fun q => decide ((x.ctl.off + pos) / 64 < (x.ctl.off + q) / 64) && f q

/-- What the scan of a ring finds: the records that count, the TYPE of each that a lost line has made invalid (0 where its header is not
readable), the operations that are to be queried again, and the place where it stops. -/
structure Scan where
  recs : List Record := []
  lost : List Nat := []
  again : List (Nat × Nat) := []
  stop : Nat

/-- An OPST or OPDN that a lost line has made invalid while its header and key can be read counts as an OPST with no OPDN (R160): its
endpoint and number, and that OPST. Its PATH is a free value where the line with it is lost. -/
def Ring.salvage (x : Ring) (free pos type : Nat) : Option (Nat × Nat × Record) :=
  if ¬(type = 2 ∨ type = 3) ∨ x.lostAt (pos + 16) 16 then none
  else
    let b := x.read pos 64
    let ep := fieldLE b 24 2
    let opnum := fieldLE b 16 8
    let path := if type = 2 then fieldLE b 26 1 else if x.lostAt (pos + 32) 16 then Config.free (free + pos) % 8 else fieldLE b 44 1
    some (ep, opnum, { body := .opst opnum ep path false 0 0, complete := true, off := x.offAt pos, lap := x.lapAt pos })

/-- The scan from a place on (R151). A record in a lost line does not stop it (R160): behind one whose header is not readable it goes on
at the first later line that names a header, if a record of the scan's begins there. -/
def Ring.scan (x : Ring) (free : Nat) : Nat → Nat → Scan
  | 0, pos => { stop := pos }
  | fuel + 1, pos =>
    if x.ctl.size < pos + 48 then { stop := pos }
    else if x.lostAt pos 16 then
      match x.nextMark pos fun _ => true with
      | none => { stop := pos }
      | some q =>
        let o := x.scan free fuel q
        if o.stop = q then { stop := pos } else { o with lost := 0 :: o.lost }
    else match x.header pos with
      | none => { stop := pos }
      | some (type, len) =>
        if x.lostAt pos len then
          let o := x.scan free fuel (pos + len)
          let y := x.salvage free pos type
          { o with
            recs := (y.map (·.2.2)).toList ++ o.recs
            lost := type :: o.lost
            again := (y.map fun e => (e.1, e.2.1)).toList ++ o.again }
        else match x.recordAt pos type len with
          | none => { stop := pos }
          | some y =>
            let o := x.scan free fuel (pos + len)
            { o with recs := y :: o.recs }

/-- The records that count: an operation that is queried again has no OPDN (R160). -/
def Scan.kept (o : Scan) : List Record :=
  o.recs.filter fun y => match y.body with
    | .opdn opnum ep .. => !o.again.contains (ep, opnum)
    | _ => true

/-- How many records lie at the place where the scan stops and beyond: those with a header of the lap expected there. -/
def Ring.discards (x : Ring) : Nat → Nat → Nat
  | 0, _ => 0
  | fuel + 1, pos =>
    match x.header pos with
    | some (_, len) => x.discards fuel (pos + len) + 1
    | none =>
      match x.nextMark pos fun q => (x.header q).isSome with
      | some q => x.discards fuel q
      | none => 0

/-- The parity line of a line's stripe recomputed (R159). -/
def Ring.reparity (x : Ring) (i : Nat) : Ring :=
  { x with
    parity := Table.set 0 x.parity (i / 16)
      (((List.range 16).map (· + i / 16 * 16)).foldl (fun a k => a ^^^ Table.get 0 x.lines k) 0) }

/-- A ring after its scan: the records that count, and the head where the scan stopped, at the next line if that one is lost. -/
def Ring.resume (x : Ring) (o : Scan) : Ring :=
  let h := x.ctl.off + o.stop
  let h := if x.lost.contains (h % x.ctl.size / 64) && decide (h % 64 ≠ 0) then (h / 64 + 1) * 64 else h
  let head := h % x.ctl.size
  { x with
    recs := o.kept
    past := 0
    waiting := []
    head := head
    lap := (x.ctl.lap + h / x.ctl.size) % 2 ^ 32 }.reparity (head / 64)

/-- A record that a lost line costs is counted, and the estate alerted (R160, Table 19.11a). -/
def Dev.recordLost (d : Dev) (r type : Nat) : Dev :=
  (d.bump R.hearth_LOST_RECORDS).alert 0x7000 0x0C (if r < 64 then r else 0) type

/-- Ring `r` scanned, with its counts and alerts. -/
def Dev.scanRing (d : Dev) (r : Nat) : Dev :=
  let x := d.hring r
  if x.ctl.seq = 0 then d
  else
    let fuel := x.ctl.size / 48 + 1
    let o := x.scan d.fresh fuel 0
    let n := x.discards fuel o.stop
    let d := { d with fresh := d.fresh + x.ctl.size }.setRing r (x.resume o)
    let d := if n = 0 then d else d.bump R.hearth_DISCARDED (n := n)
    o.lost.foldl (fun d t => d.recordLost r t) d

/-- The records of ring `r` that were not complete when the volatile state is lost: of each, any of its lines may have been written
(R146, R159). -/
def Dev.tearRing (d : Dev) (r : Nat) : Dev :=
  let l := (d.hring r).recs.filter fun y => !y.complete
  l.foldl (fun d y =>
    let (n, d) := d.draw
    d.setRing r ((d.hring r).putRecord r (d.ringSize r) y (Config.free n).testBit)) d

/-- What MRAM holds of a ring. -/
def Ring.cold (x : Ring) : Ring :=
  { ctl0 := x.ctl0, ctl1 := x.ctl1, lines := x.lines, heads := x.heads, parity := x.parity, lost := x.lost }

end Sys2Proof.Machine
end

