-- ==== Sys2Proof/Machine/Startup.lean ====
section
/-! DEFINITION. Machine/Startup.lean: loss of the volatile state, the supply and RESET_L, and the steps of start-up (R21, R22, R142, R151,
R152, R160, R242, R375, R431, R457, R470, R540, R561, R567, R568, R576 to R586, R598). -/

namespace Sys2Proof.Machine

/-! ## What a reset leaves (Table 12.4, R142, R155) -/

/-- The durable windows after a loss of the volatile state (R155): of the stores that MRAM may not hold yet, those that a CBAR covers are
in it, and each of the others may be or not, in any combination (notes/assumptions/2). -/
def Dev.settleWindow (d : Dev) : Dev :=
  let (n, d) := d.draw
  let l := (d.mem.winPend.zipIdx.filter fun e => e.1.covered || (Config.free n).testBit e.2).map (·.1)
  d.onMem fun x => { l.foldl (fun (x : Mem) s => x.winPut (s.unit / 4) [s]) x with winPend := [] }

/-- Entries whose values are kept under the key `k`: in the device area the pavilion table, which holds the blocks of pavilions that
exist, and every GENERATION (R43), LAST_OPNUM, and what is counted or kept since manufacture (R142, R204, R610); and which slots of a
cluster are retired and which core its spare has (R10, R467). -/
def Dev.survives (d : Dev) (k : Nat) : Bool :=
  let index := k / 64 / 256
  let sub := k / 64 % 256
  (decide (0x2000 ≤ index) && decide (index < 0x2040) && decide (sub ≤ 0x12) && (d.pavExists (index - 0x2000) || decide (sub = 0x11))) ||
    (decide (0x5000 ≤ index) && decide (index < 0x6000) && decide (sub = 0x09)) ||
    [(0x1000, 0x0D), (0x1200, 0x0C), (0x1200, 0x0D), (0x7000, 0x05), (0x7000, 0x0D), (0x6100, 0x0A), (0x6100, 0x0B)].contains (index, sub)

/-- SPARE and RETIRED of a cluster. -/
def isSparing (k : Nat) : Bool :=
  let index := k / 64 / 256
  decide (0x3000 ≤ index) && decide (index < 0x3010) && [5, 6].contains (k / 64 % 256)

/-- The hearth after a loss of the volatile state. -/
def Dev.coldHearth (d : Dev) : Hearth :=
  { d.hearth with
    rings := (d.hearth.rings.map fun e => (e.1, e.2.cold)).filter fun e => decide (e.2 ≠ {})
    saved := if d.plat.step < 9 then d.hearth.saved else d.dict.filter fun e => d.survives e.1 }

/-- RELEASE of a microcode image (Table 15.3). -/
def ucodeRelease (b : Bytes) : Nat := fieldLE b 8 4

/-- The device with its volatile state lost: what MRAM holds stays, and the board's levels, and which physical slots serve (R10, R21,
R375, R467). -/
def Dev.cold (d : Dev) : Dev :=
  let d := ((devRing :: List.range 64).foldl (fun d r => d.tearRing r) d).settleWindow
  let n : Dev := {
    fresh := d.fresh
    dict := d.dict.filter fun e => isSparing e.1
    cores := (d.cores.filter fun e => e.2.inSpareSlot).map fun e => (e.1, { inSpareSlot := true })
    mem := {
      win := { bytes := d.mem.winDurable, poison := d.mem.win.poison }
      winDurable := d.mem.winDurable
      winParity := d.mem.winParity
      segs := d.mem.segs }
    eng := { keys := d.eng.keys, high := d.eng.high }
    hearth := d.coldHearth
    plat := {
      vin := d.plat.vin, por := d.plat.por, resetLow := d.plat.resetLow
      xtal := d.plat.xtal, refA := d.plat.refA, refB := d.plat.refB } }
  let n := if d.hearth.ucodeStaged.isEmpty then n else n.wr R.dev_UCODE_STAGED (ucodeRelease d.hearth.ucodeStaged)
  if d.hearth.ucodeRunning.isEmpty then n else n.wr R.dev_UCODE_RELEASE (ucodeRelease d.hearth.ucodeRunning)

/-! ## Supply, power-on reset and RESET_L (R21, R576 to R578, R586) -/

/-- A step of Table 21.4 has ended at `t`, in µs from step 1 or from the release of RESET_L. From step 5 on the timebase runs. -/
def Dev.endStep (d : Dev) (n t : Nat) : Dev :=
  let s := d.rd R.pow_STARTUP_STEPS
  let d := if 5 ≤ n then { d with time := max d.time (d.plat.stepAt + (t - elem 4 s (n - 2)) * 1000) } else d
  (d.wr R.pow_STARTUP_STEPS (withElem 4 s (n - 1) t)).onPlat fun x => { x with step := n, stepAt := d.time }

/-- POR_REARM (R21, R574): VIN falls below 1.2 V. It also ends a thermal stop (R586). Clock inputs count as absent until the monitors
run again. -/
def execPorRearm (_o : OpT0) (s : State) : Host.Outcome State Fault Refusal :=
  s.board fun d => d.cold.onPlat fun x => { x with vin := false, por := false, xtal := false, refA := false, refB := false }

/-- VIN_RISE (R576): VIN rises through 2.6 V and power-on reset arms. -/
def execVinRise (_o : OpT0) (s : State) : Host.Outcome State Fault Refusal :=
  s.board fun d => if d.plat.vin || d.thermalStop then d else (d.onPlat fun x => { x with vin := true }).endStep 1 0

/-- POR_RELEASE (R561, R576, R578, R598): power-on reset releases, if RESET_L is high, and the straps are sampled. -/
def execPorRelease (o : OpStraps) (s : State) : Host.Outcome State Fault Refusal :=
  s.board fun d =>
    if d.thermalStop || !d.plat.vin || d.plat.por || d.plat.resetLow || decide (d.plat.step ≠ 1) then d
    else
      let cause := if d.hearth.thermal then 3 else 1
      let d := (d.wr R.pow_STRAPS (o.oscDly.val + 8 * o.i2cAddr.val + 32 * o.bootSel.val)).wr R.pow_RESET_CAUSE cause
      let d := { d with hearth := { d.hearth with thermal := false } }
      (d.endStep 2 o.t).onPlat fun x => { x with por := true }

/-- RESET_L_ASSERT (R576, R586): the volatile state is lost, unless power-on reset holds the device, or a thermal stop does. -/
def execResetLAssert (_o : OpT0) (s : State) : Host.Outcome State Fault Refusal :=
  s.board fun d =>
    if d.thermalStop || !d.plat.por then d.onPlat fun x => { x with resetLow := true }
    else (d.cold.wr R.pow_STRAPS (d.rd R.pow_STRAPS)).onPlat fun x => { x with resetLow := true, xtalKept := d.plat.xtal }

/-- RESET_L_RELEASE (R576 to R578, R600): start-up begins at step 2, where power-on reset has released; the oscillator delay is skipped
where XTAL stayed present. -/
def execResetLRelease (_o : OpT0) (s : State) : Host.Outcome State Fault Refusal :=
  s.board fun d =>
    let d := d.onPlat fun x => { x with resetLow := false, tap := .bypass }
    if d.thermalStop || !d.plat.por || decide (d.plat.step ≠ 0) then d
    else
      let d := (d.wr R.pow_RESET_CAUSE 2).onPlat fun x => { x with byReset := true }
      let d := d.endStep 2 0
      if d.plat.xtalKept then d.endStep 3 0 else d

/-! ## Steps 3 to 8 -/

/-- The oscillator delay that the OSC_DLY strap selects, µs (R561). -/
def Dev.oscDelay (d : Dev) : Nat := ([500, 1000, 2000, 5000, 10000, 20000, 50000, 100000][d.rd R.pow_STRAPS % 8]?).getD 0

/-- XTAL looked for at `t`, µs from the start (R581). -/
def Dev.lookForXtal (d : Dev) (o : OpXtal) : Dev :=
  d.onPlat fun x => { x with xtal := o.present, xtalWait := !o.present, xtalLook := o.t }

/-- OSC_DELAY_END (R561, R581): the delay has run since the straps were sampled, and XTAL is looked for. -/
def execOscDelayEnd (o : OpXtal) (s : State) : Host.Outcome State Fault Refusal :=
  s.act fun d =>
    if d.plat.step ≠ 2 ∨ o.t < elem 4 (d.rd R.pow_STARTUP_STEPS) 1 + d.oscDelay then d
    else (d.endStep 3 o.t).lookForXtal o

/-- XTAL_RECHECK (R581): XTAL, found absent, is looked for again after one further delay. -/
def execXtalRecheck (o : OpXtal) (s : State) : Host.Outcome State Fault Refusal :=
  s.act fun d =>
    if d.plat.step ≠ 3 ∨ !d.plat.xtalWait ∨ o.t < d.plat.xtalLook + d.oscDelay then d
    else d.lookForXtal o

/-- STARTUP_CLOCKS_LOCKED (R567): the timebase starts 1,000,000 ns after its last record, or at 0. -/
def execStartupClocksLocked (o : OpT0) (s : State) : Host.Outcome State Fault Refusal :=
  s.act fun d =>
    if d.plat.step ≠ 3 ∨ d.plat.xtalWait ∨ !d.plat.xtal then d
    else
      let t := if d.hearth.timebase = 0 then 0 else d.hearth.timebase + 1000000
      let d := { d with time := t }
      (d.endStep 4 o.t).onPlat fun x => { x with onB := !x.refA && x.refB, refASince := t, refBSince := t }

/-- STARTUP_RAMP_DONE (R572): every VCORE is at 0.70 V. -/
def execStartupRampDone (o : OpT0) (s : State) : Host.Outcome State Fault Refusal :=
  s.act fun d =>
    if d.plat.step ≠ 4 then d
    else (d.wr R.pow_VCORE (ofElems 2 (List.replicate 16 700))).endStep 5 o.t

/-- GROUNDSKEEPER_BOOT (R581): one firmware copy verifies, or start-up stops here. -/
def execGroundskeeperBoot (o : OpBoot) (s : State) : Host.Outcome State Fault Refusal :=
  s.act fun d =>
    if d.plat.step ≠ 5 ∨ d.plat.bootFailed then d
    else if o.copyA || o.copyB then
      let d := d.endStep 6 o.t
      d.onPlat fun x => { x with window := d.windowNow }
    else d.onPlat fun x => { x with bootFailed := true }

/-- The running microcode image of this start-up (R457). -/
def Dev.loadMicrocode (d : Dev) : Dev :=
  let b := d.hearth.ucodeStaged
  if b.isEmpty then d
  else
    let d := { d with hearth := { d.hearth with ucodeStaged := [] } }.wr R.dev_UCODE_STAGED 0
    if ucodeImageOk b && decide (d.rd R.dev_UCODE_RELEASE ≤ ucodeRelease b) then
      { d with hearth := { d.hearth with ucodeRunning := b } }.wr R.dev_UCODE_RELEASE (ucodeRelease b)
    else d

/-- The pavilion that the pavilion table gives a logical core, 0xFF for none; the table is applied later, at step 9. -/
def Dev.savedOwner (d : Dev) (c : Nat) : Nat :=
  ((List.range 64).find? fun p =>
    let st := Table.get 0 d.hearth.saved (R.pav_STATE.key p 0)
    (decide (p = 0) || decide (st = 2) || decide (st = 5)) && bitOf (Table.get 0 d.hearth.saved (R.pav_CORES.key p 0)) c).getD 0xFF

/-- A physical slot is retired (Table 16.2). -/
def Dev.retireSlot (d : Dev) (cluster slot : Nat) : Dev := d.wr R.clu_RETIRED (withBit (d.rd R.clu_RETIRED cluster) slot true) cluster

/-- A physical slot is retired already. -/
def Dev.slotRetired (d : Dev) (cluster slot : Nat) : Bool := bitOf (d.rd R.clu_RETIRED cluster) slot

/-- The slot of core `c` fails its self-test, or is retired since an earlier one (R467, R470): the spare takes its logical number, or the
core is lost. -/
def Dev.slotFails (d : Dev) (c : Nat) : Dev :=
  let k := clusterOf c
  let d := d.retireSlot k (d.slotOf c)
  if d.rd R.clu_SPARE k = 0xFF then
    (d.wr R.clu_SPARE (c % 16) k).onCore c fun x => { x with inSpareSlot := true }
  else ((d.onCore c fun x => { x with run := .lost }).bump R.clu_LOST k).alert (0x3000 + k) 0x16 (d.savedOwner c) c

/-- The self-tests of one cluster's slots (R470); a retired slot is never used again (R467). -/
def Dev.clusterTests (d : Dev) (k : Nat) (failed : Nat → Bool) : Dev :=
  let d := if failed 16 && !d.slotRetired k 16 then (d.retireSlot k 16).wr R.clu_SPARE 0xFE k else d
  ((clusterCores k).filter fun c => failed (d.slotOf c) || d.slotRetired k (d.slotOf c)).foldl (fun d c => d.slotFails c) d

/-- MICROCODE_LOAD (R457, R470). -/
def execMicrocodeLoad (o : OpUcode) (s : State) : Host.Outcome State Fault Refusal :=
  s.act fun d =>
    if d.plat.step ≠ 6 then d
    else
      let d := d.loadMicrocode.endStep 7 o.t
      (List.range 16).foldl (fun d k => d.clusterTests k fun s => o.failed.any fun f => decide (f.val = 17 * k + s)) d

/-- MEMORY_QUENCH_DONE (R431, R584): memory and scratchpads are zero; BOOT_SEL level 1 has tested the stacks. -/
def execMemoryQuenchDone (o : OpQuench) (s : State) : Host.Outcome State Fault Refusal :=
  s.act fun d =>
    if d.plat.step ≠ 7 then d
    else
      let bad := (List.range 8).filter fun k => fitted k && o.failed.any fun f => decide (f.val = k)
      let d := d.endStep 8 o.t
      if bitsOf (d.rd R.pow_STRAPS) 6 5 = 1 then d.onPlat fun x => { x with badStacks := bad } else d

/-! ## Step 9: configuration (R142, R152, R540, R614) -/

/-- The bodies of a ring's records. -/
def Dev.bodies (d : Dev) (r : Nat) : List RecBody := (d.hring r).recs.map (·.body)

/-- Values put in a table in place of what it has. -/
def overlay (t saved : Table Nat) : Table Nat := saved.foldl (fun (t : Table Nat) e => (t.erase e.1).insert e.1 e.2) t

/-- The values of the device area put in force: a block of the pavilion table that is no pavilion's is in state 0, and the estate runs. -/
def Dev.applySaved (d : Dev) : Dev :=
  let d := { d with dict := overlay d.dict d.hearth.saved }
  let d : Dev := (List.range 64).foldl (fun d p => if d.pavExists p then d else (d.wr R.pav_STATE 0 p).wr R.pav_ENABLE 0 p) d
  let d : Dev := if d.pavState 0 = 2 then d else (d.wr R.pav_STATE 2).wr R.pav_ENABLE 1
  { d with hearth := { d.hearth with saved := [] } }

/-- A DICT record of ring `r` applied. The pavilion table governs the blocks of pavilions, and an endpoint's record counts in the ring
of the pavilion that holds it. -/
def Dev.applyDict (d : Dev) (r : Nat) (b : RecBody) : Dev :=
  match b with
  | .dict index sub _ v =>
    match findEntry index sub with
    | none => d
    | some (e, i) =>
      if e.base = 0x2000 ∨ (e.base = 0x5000 ∧ e.scope = .p ∧ d.epOwner i ≠ some r) then d
      else d.wr e v i (if r < 64 then r else 0)
  | _ => d

/-- UDP_PORT as last written takes effect at the start-up after (R116), and is recorded as a value in force (R614). Where its record finds
no room it stays for the start-up after that. -/
def Dev.applyStagedPort (d : Dev) : Dev :=
  match d.hearth.stagedPort with
  | none => d
  | some v =>
    let d := d.wr R.amn_UDP_PORT v
    match d.recordDict R.amn_UDP_PORT 0 0 v with
    | some d => { d with hearth := { d.hearth with stagedPort := none } }
    | none => d

/-- What pavilion `p` holds again after start-up (R45, R142): its banks, its stopped cores, and its window and ring at their sizes. A
forced destruction waits anew (R53, R611). -/
def Dev.restorePav (d : Dev) (p : Nat) : Dev :=
  let d := (bitList 512 (d.rd R.pav_BANKS p)).foldl (fun d b => d.setBank b (.held p)) d
  let d := (d.pavCores p).foldl (fun d c => d.assignCore c) d
  (d.cutWindow p (d.winSize p)).fitRing p

/-- Segment maps and key slots of the pavilions that exist; a slot counts on from HIGH (R142, R487). -/
def Dev.keepHeld (d : Dev) : Dev :=
  let segs := d.mem.segs.filter fun e => d.pavExists (e.1 / 256) && bitOf (d.rd R.pav_GRANULES (e.1 / 256)) e.2
  let mine := fun (k : Nat) => d.pavExists (k / 1024) && decide (k % 1024 < d.rd R.pav_KEY_SLOTS (k / 1024))
  let keys := (d.eng.keys.filter fun e => mine e.1).map fun e => (e.1, { e.2 with next := Table.get 0 d.eng.high e.1 })
  { d with
    mem := { d.mem with segs := segs }
    eng := { d.eng with keys := keys, high := d.eng.high.filter fun e => mine e.1 } }

/-- Blocks whose ENABLE can be written, with their instances. -/
def enableBlocks : List (Nat × Nat) := [(0x3410, 16), (0x4000, 96), (0x5000, 4096), (0x6000, 2), (0x7100, 24), (0x7200, 16)]

/-- One block at start-up (R540): ENABLE 1 is checked again. -/
def Dev.enableAtStart (d : Dev) (base i : Nat) : Dev :=
  match findEntry (base + i) 0, findEntry (base + i) 1 with
  | some (st, _), some (en, _) =>
    if d.rd en i ≠ 1 then d.wr st 0 i
    else
      let r := (d.blockCheck base i true).1
      if r = 0 then (d.wr st 2 i).startBlock base i
      else ((d.wr st 3 i).wr en 0 i).alert (base + i) 1 (if base = 0x5000 then (d.epOwner i).getD 0xFF else 0xFF) r
  | _, _ => d

/-- Every block at start-up, in rising index; without a reference clock the ports stay down (R564). -/
def Dev.enableAll (d : Dev) : Dev :=
  let d := enableBlocks.foldl (fun d b => (List.range b.2).foldl (fun d i => d.enableAtStart b.1 i) d) d
  if d.refPresent then d else (d.portDown 0 0).portDown 1 0

/-! ## Step 9: operations and sessions (R85, R93, R204, R242) -/

/-- LAST_OPNUM is at least the number of an OPST record (R204). -/
def Dev.numberUsed (d : Dev) (b : RecBody) : Dev :=
  match b with
  | .opst opnum ep .. => d.wr R.ep_LAST_OPNUM (max opnum (d.rd R.ep_LAST_OPNUM ep)) ep
  | _ => d

/-- The operation that a record of pavilion `p`, with the records after it, leaves at replay (R22, R242): an OPST with no OPDN is in
QUERYING, and an OPDN that no later MARK CONSUMED covers has a completion to post. -/
def Dev.replayedOp (d : Dev) (p : Nat) (l : List RecBody) (b : RecBody) (later : List RecBody) : Option ChanOp :=
  let gen := d.rd R.pav_GENERATION p
  match b with
  | .opst opnum ep path .. =>
    if l.any (RecBody.isOpdn ep opnum) then none
    else some {
      pav := p, gen := gen, ep := ep, opnum := opnum, st := .querying, path := path, code := d.pathCode ep path, replay := true
      due := d.time + d.epTimeout ep }
  | .opdn opnum ep status residual done source failed unitStatus path cflags =>
    if later.any (RecBody.consumes ep opnum) then none
    else some {
      pav := p, gen := gen, ep := ep, opnum := opnum, st := .done, path := path, code := d.pathCode ep path
      replay := decide (source = 1), status := status, unitStatus := unitStatus, residual := residual, failedCmd := failed
      doneAt := done, dup := bitOf cflags 1, moved := bitOf cflags 2 }
  | _ => none

/-- Each record with those after it. -/
def withLater : List RecBody → List (RecBody × List RecBody)
  | [] => []
  | b :: t => (b, t) :: withLater t

/-- The operations that replay finds in pavilion `p`'s ring, one for each number, on the endpoints it holds (R152). -/
def Dev.replayOps (d : Dev) (p : Nat) : Dev :=
  let l := d.bodies p
  let ops := ((withLater l).filterMap fun e => d.replayedOp p l e.1 e.2).filter fun o => bitOf (d.rd R.pav_ENDPOINTS p) o.ep
  ops.foldl (fun d o => if (d.findOp o.ep o.opnum).isSome then d else d.onChan fun c => { c with ops := c.ops ++ [o] }) d

/-- The session that a record names. -/
def RecBody.session : RecBody → Option Nat
  | .req session .. => some session
  | .sess session .. => some session
  | .markRetire session .. => some session
  | .markClosed session => some session
  | _ => none

/-- A request of the session that a record holds, if it lies above the floor. -/
def replayedReq (id floor : Nat) (b : RecBody) : Option HostReq :=
  match b with
  | .req session _ seq arrival due rxflags payload =>
    if session = id ∧ floor < seq then some {
      seq := seq, arrival := arrival, due := due, rxflags := rxflags, payload := payload, accepted := true, replayed := true
      unverified := true }
    else none
  | _ => none

/-- A sequence is retired by a MARK. -/
def retiredBy (l : List RecBody) (id seq : Nat) : Bool :=
  l.any fun
    | .markRetire s f n => decide (s = id) && decide (f ≤ seq) && decide (seq ≤ n)
    | _ => false

/-- A request joins a list in rising order of sequence, once (R152). -/
def addReq (r : HostReq) : List HostReq → List HostReq
  | [] => [r]
  | x :: t => if r.seq < x.seq then r :: x :: t else if r.seq = x.seq then x :: t else x :: addReq r t

/-- Session `id` of pavilion `p` as the records give it: SUSPENDED, with its window rebuilt (R85, R93). What is accepted above FLOOR is
known by its REQ record. PROTECT and the IP version come from beside its SESS record (notes/assumptions/45). -/
def Dev.restoredSession (d : Dev) (p : Nat) (l : List RecBody) (id st options authKey floor ctlFloor : Nat) (desc : Bytes) : Session :=
  let reqs := (l.filterMap (replayedReq id floor)).foldl (fun a r => addReq r a) []
  let code := Table.get 0 d.hearth.sessOpen id
  let base : Session := {
    id := id, pav := p, st := .suspended, back := SessSt.ofCode st, resumed := true, recorded := true, twin := bitOf options 0
    protect := bitOf code 1, ipv6 := bitOf code 2, ceiling := d.payloadCeiling (bitOf code 2)
    authKey := authKey, desc := desc, handle := id % 65536 % 65535 + 1, floor := floor, answered := floor
    ctlAck := ctlFloor, limitAt := d.time
    reqs := reqs.filter fun r => !retiredBy l id r.seq }
  let s := (reqs.foldl (fun s r => s.setOutcome r.seq 0) base).advance
  { s with limit := s.answered + s.window }

/-- A session that a SESS record and no MARK CLOSED names is restored from its last one (R147). One that has lost every SESS record is
closed, and its requests that are not retired are discarded, each counted (R160). -/
def Dev.restoreSession (d : Dev) (p : Nat) (l : List RecBody) (id : Nat) : Dev :=
  let d := d.onNet fun n => { n with
    gens := Table.set 0 n.gens (id % 65536) (max (Table.get 0 n.gens (id % 65536)) ((id / 65536 + 1) % 65536)) }
  if l.contains (.markClosed id) then d
  else
    match l.reverse.find? fun
      | .sess s .. => decide (s = id)
      | _ => false with
    | some (.sess _ st options authKey floor ctlFloor desc) =>
      d.onNet fun n => { n with sessions := n.sessions ++ [d.restoredSession p l id st options authKey floor ctlFloor desc] }
    | _ =>
      let gone := ((l.filterMap (replayedReq id 0)).foldl (fun a r => addReq r a) []).filter fun r => !retiredBy l id r.seq
      let d := gone.foldl (fun d _ => d.recordLost p 1) d
      d.appendMark p (.markClosed id)

/-- The sessions of pavilion `p`. -/
def Dev.restoreSessions (d : Dev) (p : Nat) : Dev :=
  let l := d.bodies p
  ((l.filterMap RecBody.session).eraseDups).foldl (fun d id => d.restoreSession p l id) d

/-- HEARTH_REPLAY_SCAN (R22, R142, R151, R152, R159, R160, R540, R611): the device area is read, and every line, with its findings; then
each ring is scanned. -/
def execHearthReplayScan (o : OpScrub) (s : State) : Host.Outcome State Fault Refusal :=
  s.act fun d =>
    if d.plat.step ≠ 8 then d
    else
      let d := (d.endStep 9 o.t).applySaved
      let rings := devRing :: List.range 64
      let d := o.findings.foldl Dev.scrubFinding d
      let d := rings.foldl (fun d r => d.scanRing r) d
      let d := rings.foldl (fun d r => (d.bodies r).foldl (fun d b => d.applyDict r b) d) d
      let held := (List.range 64).filter d.pavExists
      let d := held.foldl (fun d p => d.restorePav p) d.applyStagedPort.keepHeld
      let d := held.foldl (fun d p => (d.bodies p).foldl Dev.numberUsed d) d.fitDirWays
      let d := held.foldl (fun d p => (d.replayOps p).restoreSessions p) d
      let d := (held.filter fun p => decide (d.pavState p = 5) && decide (d.rd R.pav_DESTROY_MODE p = 1)).foldl (fun d p => d.force p) d
      let d := { d with hearth := { d.hearth with sessOpen := d.hearth.sessOpen.filter fun e => (d.sess e.1).isSome } }
      d.enableAll.onPlat fun x => { x with scanAt := d.time }

/-! ## Steps 10 to 12 -/

/-- IN_DOUBT_SETTLE (R22, R242): no operation is open any more. -/
def execInDoubtSettle (o : OpT0) (s : State) : Host.Outcome State Fault Refusal :=
  s.act fun d => if d.plat.step ≠ 9 ∨ d.chan.ops.any ChanOp.isOpen then d else d.endStep 10 o.t

/-- REPLAY_PRESENT (R22, R85, R102): completions are posted in the order of their OPDN records, then the requests of each session
presented in rising sequence. -/
def execReplayPresent (o : OpT0) (s : State) : Host.Outcome State Fault Refusal :=
  s.act fun d =>
    if d.plat.step ≠ 10 then d
    else
      let d := (d.endStep 11 o.t).onPlat fun x => { x with presented := true }
      let d := (List.range 64).foldl (fun d p => (d.syncRing p).postRing p fun _ => false) d
      let waiting := d.net.sessions.flatMap fun x => x.reqs.map fun r => x.placing r 1
      waiting.foldl (fun d q => d.enqueueIn q) d

/-- READY (Table 21.4, step 12): READY_L is asserted. Each fitted stack's first pass lasts SCRUB_PERIOD (R429). -/
def execReady (o : OpT0) (s : State) : Host.Outcome State Fault Refusal :=
  s.act fun d =>
    if d.plat.step ≠ 11 then d
    else
      let d := (d.endStep 12 o.t).bump R.dev_STARTUPS
      let t := d.rd R.pow_STARTUP_STEPS
      let d := d.wr R.mem_SCRUB_CURRENT (ofElems 1 ((List.range 8).map fun n => if fitted n then d.rd R.mem_SCRUB_PERIOD else 0))
      (d.wr R.hearth_REPLAY_TIME (elem 4 t 11 - elem 4 t 7)).onPlat fun x => { x with readyAt := d.time }

end Sys2Proof.Machine
end

