-- ==== Sys2Proof/Machine/Dispatch.lean ====
section
/-! DEFINITION. Machine/Dispatch.lean: one arm per command, each a call of its meaning. -/

namespace Sys2Proof.Machine

def exec (i : Instr) (s : State) : Host.Outcome State Fault Refusal :=
  match i with
  | .add o => Sys2Proof.Machine.execAdd o s
  | .sub o => Sys2Proof.Machine.execSub o s
  | .andR o => Sys2Proof.Machine.execAnd o s
  | .orR o => Sys2Proof.Machine.execOr o s
  | .xorR o => Sys2Proof.Machine.execXor o s
  | .andn o => Sys2Proof.Machine.execAndn o s
  | .shl o => Sys2Proof.Machine.execShl o s
  | .shr o => Sys2Proof.Machine.execShr o s
  | .sar o => Sys2Proof.Machine.execSar o s
  | .ror o => Sys2Proof.Machine.execRor o s
  | .minR o => Sys2Proof.Machine.execMin o s
  | .maxR o => Sys2Proof.Machine.execMax o s
  | .minu o => Sys2Proof.Machine.execMinu o s
  | .maxu o => Sys2Proof.Machine.execMaxu o s
  | .clz o => Sys2Proof.Machine.execClz o s
  | .popc o => Sys2Proof.Machine.execPopc o s
  | .mul o => Sys2Proof.Machine.execMul o s
  | .mulh o => Sys2Proof.Machine.execMulh o s
  | .mulhu o => Sys2Proof.Machine.execMulhu o s
  | .div o => Sys2Proof.Machine.execDiv o s
  | .divu o => Sys2Proof.Machine.execDivu o s
  | .rem o => Sys2Proof.Machine.execRem o s
  | .remu o => Sys2Proof.Machine.execRemu o s
  | .cmp o => Sys2Proof.Machine.execCmp o s
  | .fcmpS o => Sys2Proof.Machine.execFcmpS o s
  | .fcmpD o => Sys2Proof.Machine.execFcmpD o s
  | .fadd o => Sys2Proof.Machine.execFadd o s
  | .fsub o => Sys2Proof.Machine.execFsub o s
  | .fmul o => Sys2Proof.Machine.execFmul o s
  | .fdiv o => Sys2Proof.Machine.execFdiv o s
  | .fsqrt o => Sys2Proof.Machine.execFsqrt o s
  | .fmin o => Sys2Proof.Machine.execFmin o s
  | .fmax o => Sys2Proof.Machine.execFmax o s
  | .fneg o => Sys2Proof.Machine.execFneg o s
  | .fabs o => Sys2Proof.Machine.execFabs o s
  | .fcpys o => Sys2Proof.Machine.execFcpys o s
  | .fmov o => Sys2Proof.Machine.execFmov o s
  | .fcvt o => Sys2Proof.Machine.execFcvt o s
  | .fcvtL o => Sys2Proof.Machine.execFcvtL o s
  | .fcvtLu o => Sys2Proof.Machine.execFcvtLu o s
  | .fcvtFl o => Sys2Proof.Machine.execFcvtFl o s
  | .fcvtFlu o => Sys2Proof.Machine.execFcvtFlu o s
  | .frnd o => Sys2Proof.Machine.execFrnd o s
  | .fmvfg o => Sys2Proof.Machine.execFmvfg o s
  | .fmvgf o => Sys2Proof.Machine.execFmvgf o s
  | .fcvtLz o => Sys2Proof.Machine.execFcvtLz o s
  | .fcvtLuz o => Sys2Proof.Machine.execFcvtLuz o s
  | .fmadd o => Sys2Proof.Machine.execFmadd o s
  | .fmsub o => Sys2Proof.Machine.execFmsub o s
  | .fnmadd o => Sys2Proof.Machine.execFnmadd o s
  | .fnmsub o => Sys2Proof.Machine.execFnmsub o s
  | .fpSignal o => Sys2Proof.Machine.execFpSignal o s
  | .floatingPointTrap o => Sys2Proof.Machine.execFloatingPointTrap o s
  | .capcpy o => Sys2Proof.Machine.execCapcpy o s
  | .curadd o => Sys2Proof.Machine.execCuradd o s
  | .curset o => Sys2Proof.Machine.execCurset o s
  | .curaddi o => Sys2Proof.Machine.execCuraddi o s
  | .cderiv o => Sys2Proof.Machine.execCderiv o s
  | .permcut o => Sys2Proof.Machine.execPermcut o s
  | .sealto o => Sys2Proof.Machine.execSealto o s
  | .sealoff o => Sys2Proof.Machine.execSealoff o s
  | .entrymk o => Sys2Proof.Machine.execEntrymk o s
  | .tagclr o => Sys2Proof.Machine.execTagclr o s
  | .rdtag o => Sys2Proof.Machine.execRdtag o s
  | .rdperm o => Sys2Proof.Machine.execRdperm o s
  | .rdtype o => Sys2Proof.Machine.execRdtype o s
  | .rdbase o => Sys2Proof.Machine.execRdbase o s
  | .rdlen o => Sys2Proof.Machine.execRdlen o s
  | .rdcur o => Sys2Proof.Machine.execRdcur o s
  | .rdpcc o => Sys2Proof.Machine.execRdpcc o s
  | .dadd o => Sys2Proof.Machine.execDadd o s
  | .dsub o => Sys2Proof.Machine.execDsub o s
  | .dmul o => Sys2Proof.Machine.execDmul o s
  | .ddiv o => Sys2Proof.Machine.execDdiv o s
  | .dcvtDb o => Sys2Proof.Machine.execDcvtDb o s
  | .dcvtBd o => Sys2Proof.Machine.execDcvtBd o s
  | .movb o => Sys2Proof.Machine.execMovb o s
  | .crcm o => Sys2Proof.Machine.execCrcm o s
  | .bop o => Sys2Proof.Machine.execBop o s
  | .bopn o => Sys2Proof.Machine.execBopn o s
  | .addi o => Sys2Proof.Machine.execAddi o s
  | .andi o => Sys2Proof.Machine.execAndi o s
  | .ori o => Sys2Proof.Machine.execOri o s
  | .xori o => Sys2Proof.Machine.execXori o s
  | .shi o => Sys2Proof.Machine.execShi o s
  | .ldi o => Sys2Proof.Machine.execLdi o s
  | .slo o => Sys2Proof.Machine.execSlo o s
  | .cmpi o => Sys2Proof.Machine.execCmpi o s
  | .jmp o => Sys2Proof.Machine.execJmp o s
  | .call o => Sys2Proof.Machine.execCall o s
  | .bld o => Sys2Proof.Machine.execBld o s
  | .bst o => Sys2Proof.Machine.execBst o s
  | .bset o => Sys2Proof.Machine.execBset o s
  | .bclr o => Sys2Proof.Machine.execBclr o s
  | .btas o => Sys2Proof.Machine.execBtas o s
  | .btac o => Sys2Proof.Machine.execBtac o s
  | .ldB o => Sys2Proof.Machine.execLdB o s
  | .ldBu o => Sys2Proof.Machine.execLdBu o s
  | .ldH o => Sys2Proof.Machine.execLdH o s
  | .ldHu o => Sys2Proof.Machine.execLdHu o s
  | .ldW o => Sys2Proof.Machine.execLdW o s
  | .ldWu o => Sys2Proof.Machine.execLdWu o s
  | .ldL o => Sys2Proof.Machine.execLdL o s
  | .ldc o => Sys2Proof.Machine.execLdc o s
  | .stB o => Sys2Proof.Machine.execStB o s
  | .stH o => Sys2Proof.Machine.execStH o s
  | .stW o => Sys2Proof.Machine.execStW o s
  | .stL o => Sys2Proof.Machine.execStL o s
  | .stc o => Sys2Proof.Machine.execStc o s
  | .fldS o => Sys2Proof.Machine.execFldS o s
  | .fldD o => Sys2Proof.Machine.execFldD o s
  | .fstS o => Sys2Proof.Machine.execFstS o s
  | .fstD o => Sys2Proof.Machine.execFstD o s
  | .ldABu o => Sys2Proof.Machine.execLdABu o s
  | .ldAHu o => Sys2Proof.Machine.execLdAHu o s
  | .ldAWu o => Sys2Proof.Machine.execLdAWu o s
  | .ldAL o => Sys2Proof.Machine.execLdAL o s
  | .stRB o => Sys2Proof.Machine.execStRB o s
  | .stRH o => Sys2Proof.Machine.execStRH o s
  | .stRW o => Sys2Proof.Machine.execStRW o s
  | .stRL o => Sys2Proof.Machine.execStRL o s
  | .ldcA o => Sys2Proof.Machine.execLdcA o s
  | .stcR o => Sys2Proof.Machine.execStcR o s
  | .swap o => Sys2Proof.Machine.execSwap o s
  | .cas o => Sys2Proof.Machine.execCas o s
  | .aadd o => Sys2Proof.Machine.execAadd o s
  | .aand o => Sys2Proof.Machine.execAand o s
  | .aor o => Sys2Proof.Machine.execAor o s
  | .axor o => Sys2Proof.Machine.execAxor o s
  | .amax o => Sys2Proof.Machine.execAmax o s
  | .amin o => Sys2Proof.Machine.execAmin o s
  | .amaxu o => Sys2Proof.Machine.execAmaxu o s
  | .aminu o => Sys2Proof.Machine.execAminu o s
  | .swapc o => Sys2Proof.Machine.execSwapc o s
  | .casc o => Sys2Proof.Machine.execCasc o s
  | .wspill o => Sys2Proof.Machine.execWspill o s
  | .wfill o => Sys2Proof.Machine.execWfill o s
  | .bs o => Sys2Proof.Machine.execBs o s
  | .bc o => Sys2Proof.Machine.execBc o s
  | .trap o => Sys2Proof.Machine.execTrap o s
  | .eret o => Sys2Proof.Machine.execEret o s
  | .ret o => Sys2Proof.Machine.execRet o s
  | .retc o => Sys2Proof.Machine.execRetc o s
  | .jmpc o => Sys2Proof.Machine.execJmpc o s
  | .callc o => Sys2Proof.Machine.execCallc o s
  | .fence o => Sys2Proof.Machine.execFence o s
  | .cbar o => Sys2Proof.Machine.execCbar o s
  | .fbar o => Sys2Proof.Machine.execFbar o s
  | .wait o => Sys2Proof.Machine.execWait o s
  | .waitEnd o => Sys2Proof.Machine.execWaitEnd o s
  | .rsr o => Sys2Proof.Machine.execRsr o s
  | .wsr o => Sys2Proof.Machine.execWsr o s
  | .rcr o => Sys2Proof.Machine.execRcr o s
  | .wcr o => Sys2Proof.Machine.execWcr o s
  | .arm o => Sys2Proof.Machine.execArm o s
  | .disarm o => Sys2Proof.Machine.execDisarm o s
  | .bget o => Sys2Proof.Machine.execBget o s
  | .bankrel o => Sys2Proof.Machine.execBankrel o s
  | .isync o => Sys2Proof.Machine.execIsync o s
  | .chst o => Sys2Proof.Machine.execChst o s
  | .chctlStop o => Sys2Proof.Machine.execChctlStop o s
  | .chctlHalt o => Sys2Proof.Machine.execChctlHalt o s
  | .chctlStopall o => Sys2Proof.Machine.execChctlStopall o s
  | .chctlHaltall o => Sys2Proof.Machine.execChctlHaltall o s
  | .chctlRelease o => Sys2Proof.Machine.execChctlRelease o s
  | .dlvr o => Sys2Proof.Machine.execDlvr o s
  | .gcmEnc o => Sys2Proof.Machine.execGcmEnc o s
  | .gcmDec o => Sys2Proof.Machine.execGcmDec o s
  | .gmacGen o => Sys2Proof.Machine.execGmacGen o s
  | .gmacVer o => Sys2Proof.Machine.execGmacVer o s
  | .xtsEnc o => Sys2Proof.Machine.execXtsEnc o s
  | .xtsDec o => Sys2Proof.Machine.execXtsDec o s
  | .keyload o => Sys2Proof.Machine.execKeyload o s
  | .keyclear o => Sys2Proof.Machine.execKeyclear o s
  | .cipherChunk o => Sys2Proof.Machine.execCipherChunk o s
  | .cipherCompletion o => Sys2Proof.Machine.execCipherCompletion o s
  | .cipherSelfCheckEnd o => Sys2Proof.Machine.execCipherSelfCheckEnd o s
  | .compress o => Sys2Proof.Machine.execCompress o s
  | .decompress o => Sys2Proof.Machine.execDecompress o s
  | .stream o => Sys2Proof.Machine.execStream o s
  | .compressionChunk o => Sys2Proof.Machine.execCompressionChunk o s
  | .compressionCompletion o => Sys2Proof.Machine.execCompressionCompletion o s
  | .compressionSelfCheckEnd o => Sys2Proof.Machine.execCompressionSelfCheckEnd o s
  | .mergingBufferDrain o => Sys2Proof.Machine.execMergingBufferDrain o s
  | .doorbellInterrupt o => Sys2Proof.Machine.execDoorbellInterrupt o s
  | .coreTimer o => Sys2Proof.Machine.execCoreTimer o s
  | .instructionRetry o => Sys2Proof.Machine.execInstructionRetry o s
  | .selfTestEnd o => Sys2Proof.Machine.execSelfTestEnd o s
  | .spareAwake o => Sys2Proof.Machine.execSpareAwake o s
  | .checkpointTransfer o => Sys2Proof.Machine.execCheckpointTransfer o s
  | .spareFirstCommit o => Sys2Proof.Machine.execSpareFirstCommit o s
  | .twinExchange o => Sys2Proof.Machine.execTwinExchange o s
  | .idleExchange o => Sys2Proof.Machine.execIdleExchange o s
  | .twinGiveUp o => Sys2Proof.Machine.execTwinGiveUp o s
  | .twinTimeout o => Sys2Proof.Machine.execTwinTimeout o s
  | .rds o => Sys2Proof.Machine.execRds o s
  | .rdx o => Sys2Proof.Machine.execRdx o s
  | .upg o => Sys2Proof.Machine.execUpg o s
  | .wb o => Sys2Proof.Machine.execWb o s
  | .fatom o => Sys2Proof.Machine.execFatom o s
  | .rdu o => Sys2Proof.Machine.execRdu o s
  | .wru o => Sys2Proof.Machine.execWru o s
  | .snps o => Sys2Proof.Machine.execSnps o s
  | .snpi o => Sys2Proof.Machine.execSnpi o s
  | .fwd o => Sys2Proof.Machine.execFwd o s
  | .kill o => Sys2Proof.Machine.execKill o s
  | .dataMsg o => Sys2Proof.Machine.execDataMsg o s
  | .rsp o => Sys2Proof.Machine.execRsp o s
  | .np o => Sys2Proof.Machine.execNp o s
  | .iack o => Sys2Proof.Machine.execIack o s
  | .complete o => Sys2Proof.Machine.execComplete o s
  | .done o => Sys2Proof.Machine.execDone o s
  | .wback o => Sys2Proof.Machine.execWback o s
  | .requestRetry o => Sys2Proof.Machine.execRequestRetry o s
  | .homeTimeout o => Sys2Proof.Machine.execHomeTimeout o s
  | .patrolPassEnd o => Sys2Proof.Machine.execPatrolPassEnd o s
  | .bankClearDone o => Sys2Proof.Machine.execBankClearDone o s
  | .bankReleased o => Sys2Proof.Machine.execBankReleased o s
  | .moverDescriptor o => Sys2Proof.Machine.execMoverDescriptor o s
  | .moverCompletion o => Sys2Proof.Machine.execMoverCompletion o s
  | .reqRecordComplete o => Sys2Proof.Machine.execReqRecordComplete o s
  | .opstComplete o => Sys2Proof.Machine.execOpstComplete o s
  | .opdnComplete o => Sys2Proof.Machine.execOpdnComplete o s
  | .inboundPlacement o => Sys2Proof.Machine.execInboundPlacement o s
  | .carryForward o => Sys2Proof.Machine.execCarryForward o s
  | .controlBlockRewrite o => Sys2Proof.Machine.execControlBlockRewrite o s
  | .windowLineWrite o => Sys2Proof.Machine.execWindowLineWrite o s
  | .hearthScrub o => Sys2Proof.Machine.execHearthScrub o s
  | .timebaseRecord o => Sys2Proof.Machine.execTimebaseRecord o s
  | .paceSample o => Sys2Proof.Machine.execPaceSample o s
  | .paceReport o => Sys2Proof.Machine.execPaceReport o s
  | .governorEvaluation o => Sys2Proof.Machine.execGovernorEvaluation o s
  | .vcoreStep o => Sys2Proof.Machine.execVcoreStep o s
  | .frameReceive o => Sys2Proof.Machine.execFrameReceive o s
  | .pfcFrame o => Sys2Proof.Machine.execPfcFrame o s
  | .arpRequest o => Sys2Proof.Machine.execArpRequest o s
  | .neighbourSolicitation o => Sys2Proof.Machine.execNeighbourSolicitation o s
  | .portLinkUp o => Sys2Proof.Machine.execPortLinkUp o s
  | .portLinkDown o => Sys2Proof.Machine.execPortLinkDown o s
  | .openNew o => Sys2Proof.Machine.execOpenNew o s
  | .openResume o => Sys2Proof.Machine.execOpenResume o s
  | .request o => Sys2Proof.Machine.execRequest o s
  | .ack o => Sys2Proof.Machine.execAck o s
  | .nak o => Sys2Proof.Machine.execNak o s
  | .stop o => Sys2Proof.Machine.execStop o s
  | .resume o => Sys2Proof.Machine.execResume o s
  | .drain o => Sys2Proof.Machine.execDrain o s
  | .cancel o => Sys2Proof.Machine.execCancel o s
  | .controlUndefined o => Sys2Proof.Machine.execControlUndefined o s
  | .drainedRepeat o => Sys2Proof.Machine.execDrainedRepeat o s
  | .keepalive o => Sys2Proof.Machine.execKeepalive o s
  | .keepaliveSend o => Sys2Proof.Machine.execKeepaliveSend o s
  | .close o => Sys2Proof.Machine.execClose o s
  | .sessionSuspend o => Sys2Proof.Machine.execSessionSuspend o s
  | .openingTimeout o => Sys2Proof.Machine.execOpeningTimeout o s
  | .deliverResend o => Sys2Proof.Machine.execDeliverResend o s
  | .credit o => Sys2Proof.Machine.execCredit o s
  | .twinNakTimer o => Sys2Proof.Machine.execTwinNakTimer o s
  | .dictRead o => Sys2Proof.Machine.execDictRead o s
  | .dictWrite o => Sys2Proof.Machine.execDictWrite o s
  | .dictDescribe o => Sys2Proof.Machine.execDictDescribe o s
  | .segmentTimeout o => Sys2Proof.Machine.execSegmentTimeout o s
  | .blockEnable o => Sys2Proof.Machine.execBlockEnable o s
  | .blockDisable o => Sys2Proof.Machine.execBlockDisable o s
  | .blockStopped o => Sys2Proof.Machine.execBlockStopped o s
  | .commit o => Sys2Proof.Machine.execCommit o s
  | .commitDiscard o => Sys2Proof.Machine.execCommitDiscard o s
  | .resourceRemoval o => Sys2Proof.Machine.execResourceRemoval o s
  | .pavilionCreate o => Sys2Proof.Machine.execPavilionCreate o s
  | .pavilionDestroy o => Sys2Proof.Machine.execPavilionDestroy o s
  | .destroyMode o => Sys2Proof.Machine.execDestroyMode o s
  | .destructionProceed o => Sys2Proof.Machine.execDestructionProceed o s
  | .destructionComplete o => Sys2Proof.Machine.execDestructionComplete o s
  | .loadImage o => Sys2Proof.Machine.execLoadImage o s
  | .start o => Sys2Proof.Machine.execStart o s
  | .keyWrite o => Sys2Proof.Machine.execKeyWrite o s
  | .ucodeImage o => Sys2Proof.Machine.execUcodeImage o s
  | .eck o => Sys2Proof.Machine.execEck o s
  | .twinPartner o => Sys2Proof.Machine.execTwinPartner o s
  | .powerCap o => Sys2Proof.Machine.execPowerCap o s
  | .alertAck o => Sys2Proof.Machine.execAlertAck o s
  | .rangeInval o => Sys2Proof.Machine.execRangeInval o s
  | .wayLock o => Sys2Proof.Machine.execWayLock o s
  | .reclaim o => Sys2Proof.Machine.execReclaim o s
  | .inboundConfig o => Sys2Proof.Machine.execInboundConfig o s
  | .cqConfig o => Sys2Proof.Machine.execCqConfig o s
  | .moverConfig o => Sys2Proof.Machine.execMoverConfig o s
  | .cipherCqConfig o => Sys2Proof.Machine.execCipherCqConfig o s
  | .compressionCqConfig o => Sys2Proof.Machine.execCompressionCqConfig o s
  | .density o => Sys2Proof.Machine.execDensity o s
  | .i2cWriteTransfer o => Sys2Proof.Machine.execI2cWriteTransfer o s
  | .i2cReadTransfer o => Sys2Proof.Machine.execI2cReadTransfer o s
  | .i2cPowerCap o => Sys2Proof.Machine.execI2cPowerCap o s
  | .i2cAlertAck o => Sys2Proof.Machine.execI2cAlertAck o s
  | .i2cWindowRefresh o => Sys2Proof.Machine.execI2cWindowRefresh o s
  | .linkTrainingDone o => Sys2Proof.Machine.execLinkTrainingDone o s
  | .lockGained o => Sys2Proof.Machine.execLockGained o s
  | .linkStateTimeout o => Sys2Proof.Machine.execLinkStateTimeout o s
  | .helloSend o => Sys2Proof.Machine.execHelloSend o s
  | .hello o => Sys2Proof.Machine.execHello o s
  | .retryDelayEnd o => Sys2Proof.Machine.execRetryDelayEnd o s
  | .dataBlock o => Sys2Proof.Machine.execDataBlock o s
  | .controlBlock o => Sys2Proof.Machine.execControlBlock o s
  | .linkAckBlock o => Sys2Proof.Machine.execLinkAckBlock o s
  | .linkNakBlock o => Sys2Proof.Machine.execLinkNakBlock o s
  | .ackTimeout o => Sys2Proof.Machine.execAckTimeout o s
  | .linkDeadTimeout o => Sys2Proof.Machine.execLinkDeadTimeout o s
  | .ackOwed o => Sys2Proof.Machine.execAckOwed o s
  | .blockSent o => Sys2Proof.Machine.execBlockSent o s
  | .opened o => Sys2Proof.Machine.execOpened o s
  | .rdata o => Sys2Proof.Machine.execRdata o s
  | .final o => Sys2Proof.Machine.execFinal o s
  | .controlReply o => Sys2Proof.Machine.execControlReply o s
  | .queryTimer o => Sys2Proof.Machine.execQueryTimer o s
  | .operationTimeout o => Sys2Proof.Machine.execOperationTimeout o s
  | .movingTimeout o => Sys2Proof.Machine.execMovingTimeout o s
  | .haltingTimeout o => Sys2Proof.Machine.execHaltingTimeout o s
  | .queryingTimeout o => Sys2Proof.Machine.execQueryingTimeout o s
  | .clockLoss o => Sys2Proof.Machine.execClockLoss o s
  | .clockPresent o => Sys2Proof.Machine.execClockPresent o s
  | .refReturn o => Sys2Proof.Machine.execRefReturn o s
  | .tbCoastClear o => Sys2Proof.Machine.execTbCoastClear o s
  | .ptpSync o => Sys2Proof.Machine.execPtpSync o s
  | .delayReqSend o => Sys2Proof.Machine.execDelayReqSend o s
  | .delayResp o => Sys2Proof.Machine.execDelayResp o s
  | .ptpHoldover o => Sys2Proof.Machine.execPtpHoldover o s
  | .vinRise o => Sys2Proof.Machine.execVinRise o s
  | .porRelease o => Sys2Proof.Machine.execPorRelease o s
  | .resetLAssert o => Sys2Proof.Machine.execResetLAssert o s
  | .resetLRelease o => Sys2Proof.Machine.execResetLRelease o s
  | .porRearm o => Sys2Proof.Machine.execPorRearm o s
  | .oscDelayEnd o => Sys2Proof.Machine.execOscDelayEnd o s
  | .xtalRecheck o => Sys2Proof.Machine.execXtalRecheck o s
  | .startupClocksLocked o => Sys2Proof.Machine.execStartupClocksLocked o s
  | .startupRampDone o => Sys2Proof.Machine.execStartupRampDone o s
  | .groundskeeperBoot o => Sys2Proof.Machine.execGroundskeeperBoot o s
  | .microcodeLoad o => Sys2Proof.Machine.execMicrocodeLoad o s
  | .memoryQuenchDone o => Sys2Proof.Machine.execMemoryQuenchDone o s
  | .hearthReplayScan o => Sys2Proof.Machine.execHearthReplayScan o s
  | .inDoubtSettle o => Sys2Proof.Machine.execInDoubtSettle o s
  | .replayPresent o => Sys2Proof.Machine.execReplayPresent o s
  | .ready o => Sys2Proof.Machine.execReady o s
  | .thermAssert o => Sys2Proof.Machine.execThermAssert o s
  | .thermRelease o => Sys2Proof.Machine.execThermRelease o s
  | .thermalStop o => Sys2Proof.Machine.execThermalStop o s
  | .blockLockLost o => Sys2Proof.Machine.execBlockLockLost o s
  | .blockLockRegained o => Sys2Proof.Machine.execBlockLockRegained o s
  | .patrolRead o => Sys2Proof.Machine.execPatrolRead o s
  | .tapInstruction o => Sys2Proof.Machine.execTapInstruction o s
  | .undefinedOpcodeWord o => Sys2Proof.Machine.execUndefinedOpcodeWord o s

end Sys2Proof.Machine
end

