-- ==== Sys2Proof/Safety.lean ====
section
/-! DEFINITION. Safety.lean: the terms that claims use: memories in canonical form, a core that comes to its next instruction, and a
device that a thermal stop has stopped. -/

namespace Sys2Proof.Machine

/-! ## Memories in canonical form -/

/-- Addresses, granules and units strictly rising, and nothing listed that an unlisted one reads as. -/
abbrev Ram.Wf (m : Ram) : Prop := Table.Wf 0 m.bytes ∧ Table.Wf false m.tags ∧ Table.Wf false m.poison

/-- Main memory, scratchpads, durable windows, MRAM with its parity lines, the bit store and the segment maps are in canonical form. -/
abbrev Memory.wf (m : Mem) : Prop :=
  (m.main.Wf ∧ m.spad.Wf ∧ m.win.Wf) ∧ (Table.Wf 0 m.winDurable ∧ Table.Wf 0 m.winParity) ∧ Table.Wf false m.bits ∧
    Table.Wf false m.bitPoison ∧ Table.Wf 0xFFFF m.segs

/-! ## A core at its next instruction -/

/-- Logical core `c` of pavilion `p` comes to its next instruction in `d`: it runs and waits for nothing, no trap or interrupt is due,
and the fetch passes the checks of R255, leaving `d'` (the instruction caches may have taken a line). -/
structure Dev.Issues (d : Dev) (c p : Nat) (d' : Dev) : Prop where
  ready : d.coreReady c = true
  owner : d.coreOwner c = some p
  calm : d.dueTrap c p = none
  fetched : d.fetch c p = .ok d'

/-! ## What an instruction leaves -/

/-- A function that names one key's value. -/
def only {α β : Type} [DecidableEq α] (k : α) (v : β) : α → Option β := fun q => if q = k then some v else none

/-- A function that names the values of the first key listed. -/
def these {α β : Type} [DecidableEq α] (l : List (α × β)) : α → Option β := fun q => (l.find? (fun e => decide (e.1 = q))).map (·.2)

/-- The condition bits Z, N, C and V that an instruction writes when `f` is set. -/
def condBits (f z n : Bool) (c v : Option Bool) : Nat → Option Bool := fun k =>
  if !f then none else if k = 0 then some z else if k = 1 then some n else if k = 2 then c else if k = 3 then v else none

/-- What an instruction does to its core `x0` as it commits: the general and floating-point registers, capability registers and
core-local bits it writes (`none`: not written), the special registers as it leaves them, the load values it owes, the
floating-point operations it issues, and the pcc. By default it writes nothing and the pcc goes on to the next word. -/
structure Effect (x0 : Core) where
  reg : PReg → Option Word := fun _ => none
  cap : Nat → Option Cap := fun _ => none
  bit : Nat → Option Bool := fun _ => none
  arm : BitVec 4096 := x0.arch.arm
  ttb : Cap := x0.arch.ttb
  shs : Cap := x0.arch.shs
  wbase : Nat := x0.arch.wbase
  wold : Nat := x0.arch.wold
  tcmp : Word := x0.arch.tcmp
  owed : List Owed := []
  issued : List FpOp := []
  pcc : Cap := { x0.arch.pcc with cursor := x0.arch.pcc.cursor + 4 }

/-- `x` is `x0` with an effect and nothing else. Every register that the instruction does not write holds what it held, or the load
value that was owed to it (R267), unless the instruction owes that register a value itself (R269). k0 and c0 read as zero and null
(R246); a load value owed to k0 is discarded (R269). -/
structure Effect.Holds {x0 : Core} (e : Effect x0) (x : Core) : Prop where
  regs : ∀ r, (∀ i, r ≠ .cap i) → r ≠ .z → x.get r = if r = .k 0 then 0 else (e.reg r).getD ((x0.dropOwed e.owed).settleOwed.get r)
  caps : ∀ i, x.cr i = if i = 0 then {} else (e.cap i).getD ((x0.dropOwed e.owed).settleOwed.cr i)
  bits : ∀ n, x.arch.bit n = (e.bit n).getD ((x0.dropOwed e.owed).settleOwed.arch.bit n)
  special : x.arch.arm = e.arm ∧ x.arch.ttb = e.ttb ∧ x.arch.shs = e.shs ∧ x.arch.wbase = e.wbase ∧ x.arch.wold = e.wold ∧
    x.arch.tcmp = e.tcmp
  pcc : x.arch.pcc = e.pcc
  owed : x.arch.owed = e.owed.filter fun o => decide (o.reg ≠ .k 0)
  /-- The operations issued and not signalled, their destinations apart: `regs` tells what each register reads. -/
  issued : x.fpq.map (fun o => { o with dest := none }) = (x0.fpq ++ e.issued).map (fun o => { o with dest := none })
  checkpoint : x.checkpoint = x.arch
  retry : x.retry = { x0.retry with count := 0 }
  rest : { x with arch := x0.arch, fpq := x0.fpq, checkpoint := x0.checkpoint, retry := x0.retry } = x0

/-- Core `c` of `d` commits with an effect, giving `t`; nothing else of the device changes. -/
structure Dev.Commits (d : Dev) (c : Nat) (e : Effect (d.core c)) (t : Dev) : Prop where
  core : e.Holds (t.core c)
  others : ∀ k, k ≠ c → t.core k = d.core k
  rest : { t with cores := d.cores } = d

/-- Command `i` on `d` answers the next state whose device is `t`; the queue stays. -/
def Answers (i : Instr) (q : List Instr) (d t : Dev) : Prop := exec i { pending := q, dev := d } = .next { pending := q, dev := t }

/-- Command `i` on `d` answers a next state in which core `c` of `d'` has committed with an effect; the queue stays. -/
def Completes (i : Instr) (q : List Instr) (d d' : Dev) (c : Nat) (e : Effect (d'.core c)) : Prop :=
  ∃ t, Answers i q d t ∧ d'.Commits c e t

/-- Command `i` on `d` answers a next state in which core `c` of pavilion `p`, as `d'` has it, has taken a trap. -/
def Traps (i : Instr) (q : List Instr) (d d' : Dev) (c p : Nat) (t : Trap) : Prop :=
  Answers i q d (d'.takeTrap c p t)

/-- An instruction completes on core `c` as a submission does: the reason code and detail in `rd`, and Z for success (R209, R304). -/
def Submits (i : Instr) (q : List Instr) (d d' : Dev) (c : Nat) (rd : BitVec 5) (reason detail : Nat) : Prop :=
  Completes i q d d' c {
    reg := only ((d'.core c).arch.gpr rd) (BitVec.ofNat 64 (reason + 2 ^ 16 * detail)), bit := only 0x000 (decide (reason = 0)) }

/-- An integer instruction of format A completes with a result and the bits C and V at the width that W selects: `res`, `cy` and
`ov` are the result, C and V of a width from the two operands. -/
def Dev.AluDoes (d' : Dev) (i : Instr) (q : List Instr) (d : Dev) (o : OpA) (res : (w : Nat) → BitVec w → BitVec w → BitVec w)
    (cy ov : (w : Nat) → BitVec w → BitVec w → Option Bool) : Prop :=
  let x := d'.core o.core
  let a := x.gr o.ra
  let b := x.gr o.rb
  if o.w then
    let r := res 32 (a.setWidth 32) (b.setWidth 32)
    Completes i q d d' o.core
      { reg := only (x.arch.gpr o.rd) (r.signExtend 64)
        bit := condBits o.f (decide (r = 0)) r.msb (cy 32 (a.setWidth 32) (b.setWidth 32)) (ov 32 (a.setWidth 32) (b.setWidth 32)) }
  else
    let r := res 64 a b
    Completes i q d d' o.core
      { reg := only (x.arch.gpr o.rd) r
        bit := condBits o.f (decide (r = 0)) r.msb (cy 64 a b) (ov 64 a b) }

/-- The divisor is zero at the operand width (R309). -/
def divByZero (o : OpA) (x : Core) : Bool :=
  if o.w then decide ((x.gr o.rb).setWidth 32 = (0 : BitVec 32)) else decide (x.gr o.rb = 0)

/-- The dividend is the most negative value of the operand width, and the divisor −1 (R309). -/
def divMinByMinusOne (o : OpA) (x : Core) : Bool :=
  if o.w then decide ((x.gr o.ra).setWidth 32 = (0x80000000 : BitVec 32)) && decide ((x.gr o.rb).setWidth 32 = (0xFFFFFFFF : BitVec 32))
  else decide (x.gr o.ra = 0x8000000000000000) && decide (x.gr o.rb = 0xFFFFFFFFFFFFFFFF)

/-- An instruction may write core-local bit `n`: it is no reserved bit of Table 8.6, and IE only with SYS in pcc (R260). -/
def Core.MaySet (x : Core) (n : Nat) : Prop :=
  ¬ ((0x005 ≤ n ∧ n ≤ 0x007) ∨ (0x00D ≤ n ∧ n ≤ 0x00F) ∨ (0x013 ≤ n ∧ n ≤ 0x017) ∨ n = 0x01D ∨ n = 0x01E ∨
    (0x020 ≤ n ∧ n ≤ 0x0FF)) ∧ (n = 0x004 → x.sys = true)

/-- The byte that a core's merging buffer holds for pavilion-relative address `k`, if any (R380). -/
def Core.pendingByte (x : Core) (k : Nat) : Option Byte :=
  match x.mergeOf (k / 64) with
  | some e => if e.mask.getLsbD (k % 64) then some (e.data.extractLsb' (8 * (k % 64)) 8) else none
  | none => none

/-! ## Messages of a host -/

/-- Message `o` is the next of its queue and of type `type`; `d2` is the device with `o` taken from the queue (R109). -/
def Dev.Takes (d : Dev) (o : Rx) (type : Nat) (d2 : Dev) : Prop :=
  o.msg.type.toNat = type ∧ (d.netAt o.t).nextRx o = some o ∧
    d2 = ((d.netAt o.t).onNet fun n => { n with rx := n.rx.erase o }).pfcRules o.port.val

/-- Message `o` of type `type` is taken for a session in service; `d3` is the device with its host proved (R69, R84, R88), and `s` the
session as it then stands. -/
def Dev.Hears (d : Dev) (o : Rx) (type : Nat) (d3 : Dev) (s : Session) : Prop :=
  ∃ d2 s0, d.Takes o type d2 ∧ d2.sess o.msg.session.toNat = some s0 ∧ s0.st ≠ .suspended ∧
    d3 = d2.proveHost o o.msg.session.toNat ∧ d3.sess o.msg.session.toNat = some s

/-- As `Hears`, for a message of the control stream whose sequence is new (R91). -/
def Dev.HearsNew (d : Dev) (o : Rx) (type : Nat) (d3 : Dev) (s : Session) : Prop :=
  d.Hears o type d3 s ∧ Table.get none s.answers o.msg.seq = none ∧ belowWindow s.answers s.ctlAck o.msg.seq = false

/-- A WRITE of row `row` ends its value and passes checks 1 to 7 (R526, R528): `d1` is the device as the rules of the entry's chapter
meet it, the assembly gone, `s` its session and `w` the write. -/
structure Dev.Writes (d : Dev) (o : Rx) (row : DictRow) (d1 : Dev) (s : Session) (w : WriteOp) : Prop where
  runs : d.thermalStop = false
  row : (DictReq.ofMsg o.msg).row = row
  typed : (DictReq.ofMsg o.msg).type = w.entry.ty.code ∧ w.entry.totalOk (DictReq.ofMsg o.msg).total = true
  segment : (DictReq.ofMsg o.msg).segmentOk s.assembly = true ∧ (DictReq.ofMsg o.msg).more = false
  pav : w.p = s.pav
  raw : w.raw = ((s.assembly.map (·.held)).getD []) ++ (DictReq.ofMsg o.msg).data
  value : w.v = w.entry.clean (leNat w.raw)
  heard : ∃ d3, d.HearsNew o 0x0B d3 s ∧ d3.entryCheck s (DictReq.ofMsg o.msg) = .ok (w.entry, w.i) ∧
    d1 = d3.onSess s.id fun x => { x with assembly := none }
  range : d1.inRange w.p w.entry w.i w.v = true
  change : d1.classReason w.entry w.i w.v = 0

/-- Command `i` on `d` answers the write `w` of message `o` with a reason, 0 where it took effect; the device is `t` but for the reply
and, with another reason, the record of the refusal (R541). -/
def Replies (i : Instr) (q : List Instr) (d : Dev) (o : Rx) (s : Session) (w : WriteOp) (t : Dev) (reason : Nat)
    (off : Option (Nat × Nat) := none) : Prop :=
  let r := DictReq.ofMsg o.msg
  Answers i q d (t.dictAnswer s o.msg.seq r reason w.entry.ty.code r.total r.total [] off)

/-- The session has counters left for its next messages (R76). -/
def Session.HasCounters (s : Session) : Prop := s.spent = false ∧ s.txIv + 16 ≤ s.limitIv

/-! ## A stopped device -/

/-- A thermal stop holds the device (R586). -/
abbrev Dev.ThermallyStopped (d : Dev) : Prop := d.thermalStop = true

end Sys2Proof.Machine
end

