-- ==== Sys2Proof/WellFormed.lean ====
section
/-! DEFINITION. WellFormed.lean: the operand values that a command can have: what the widths of the spec's fields and the sizes of
its messages and blocks allow. A command that is not well-formed stands for nothing the hardware meets. -/

namespace Sys2Proof

/-- A timebase value (R564), 64 bits of ns. -/
def timeOk (t : Nat) : Bool := decide (t < 2 ^ 64)

/-- A sequence number: 8 bytes of a header (Table 3.3). -/
def seqFits (n : Nat) : Bool := decide (n < 2 ^ 64)

/-- The fields of a message fit their places, and the payload its longest form (Tables 3.3 and 3.4, R71). -/
def Msg.ok (m : Msg) : Bool := seqFits m.seq && seqFits m.ack && decide (m.iv < 2 ^ 64) && decide (m.payload.length ≤ 8192)

/-- A finding of the background read in a window names one of its lines (R153, R159). -/
def hearthFindingOk (f : HearthPlace × HearthFinding) : Bool :=
  match f.1 with
  | .window _ line => decide (line < 2 ^ 27)
  | _ => true

/-- A well-formed command. -/
def Instr.wf (i : Instr) : Bool :=
  match i with
  | .add _ => true
  | .sub _ => true
  | .andR _ => true
  | .orR _ => true
  | .xorR _ => true
  | .andn _ => true
  | .shl _ => true
  | .shr _ => true
  | .sar _ => true
  | .ror _ => true
  | .minR _ => true
  | .maxR _ => true
  | .minu _ => true
  | .maxu _ => true
  | .clz _ => true
  | .popc _ => true
  | .mul _ => true
  | .mulh _ => true
  | .mulhu _ => true
  | .div _ => true
  | .divu _ => true
  | .rem _ => true
  | .remu _ => true
  | .cmp o => decide (o.cond.toNat < 12)
  | .fcmpS o => decide (o.cond.toNat < 13)
  | .fcmpD o => decide (o.cond.toNat < 13)
  | .fadd _ => true
  | .fsub _ => true
  | .fmul _ => true
  | .fdiv _ => true
  | .fsqrt _ => true
  | .fmin _ => true
  | .fmax _ => true
  | .fneg _ => true
  | .fabs _ => true
  | .fcpys _ => true
  | .fmov _ => true
  | .fcvt _ => true
  | .fcvtL _ => true
  | .fcvtLu _ => true
  | .fcvtFl _ => true
  | .fcvtFlu _ => true
  | .frnd _ => true
  | .fmvfg _ => true
  | .fmvgf _ => true
  | .fcvtLz _ => true
  | .fcvtLuz _ => true
  | .fmadd _ => true
  | .fmsub _ => true
  | .fnmadd _ => true
  | .fnmsub _ => true
  | .fpSignal _ => true
  | .floatingPointTrap _ => true
  | .capcpy _ => true
  | .curadd _ => true
  | .curset _ => true
  | .curaddi _ => true
  | .cderiv _ => true
  | .permcut _ => true
  | .sealto _ => true
  | .sealoff _ => true
  | .entrymk _ => true
  | .tagclr _ => true
  | .rdtag _ => true
  | .rdperm _ => true
  | .rdtype _ => true
  | .rdbase _ => true
  | .rdlen _ => true
  | .rdcur _ => true
  | .rdpcc _ => true
  | .dadd _ => true
  | .dsub _ => true
  | .dmul _ => true
  | .ddiv _ => true
  | .dcvtDb _ => true
  | .dcvtBd _ => true
  | .movb _ => true
  | .crcm _ => true
  | .bop _ => true
  | .bopn _ => true
  | .addi _ => true
  | .andi _ => true
  | .ori _ => true
  | .xori _ => true
  | .shi _ => true
  | .ldi _ => true
  | .slo _ => true
  | .cmpi _ => true
  | .jmp _ => true
  | .call _ => true
  | .bld _ => true
  | .bst _ => true
  | .bset _ => true
  | .bclr _ => true
  | .btas _ => true
  | .btac _ => true
  | .ldB _ => true
  | .ldBu _ => true
  | .ldH _ => true
  | .ldHu _ => true
  | .ldW _ => true
  | .ldWu _ => true
  | .ldL _ => true
  | .ldc _ => true
  | .stB _ => true
  | .stH _ => true
  | .stW _ => true
  | .stL _ => true
  | .stc _ => true
  | .fldS _ => true
  | .fldD _ => true
  | .fstS _ => true
  | .fstD _ => true
  | .ldABu _ => true
  | .ldAHu _ => true
  | .ldAWu _ => true
  | .ldAL _ => true
  | .stRB _ => true
  | .stRH _ => true
  | .stRW _ => true
  | .stRL _ => true
  | .ldcA _ => true
  | .stcR _ => true
  | .swap _ => true
  | .cas _ => true
  | .aadd _ => true
  | .aand _ => true
  | .aor _ => true
  | .axor _ => true
  | .amax _ => true
  | .amin _ => true
  | .amaxu _ => true
  | .aminu _ => true
  | .swapc _ => true
  | .casc _ => true
  | .wspill _ => true
  | .wfill _ => true
  | .bs _ => true
  | .bc _ => true
  | .trap _ => true
  | .eret _ => true
  | .ret _ => true
  | .retc _ => true
  | .jmpc _ => true
  | .callc _ => true
  | .fence _ => true
  | .cbar _ => true
  | .fbar _ => true
  | .wait _ => true
  | .waitEnd o => timeOk o.t
  | .rsr _ => true
  | .wsr _ => true
  | .rcr _ => true
  | .wcr _ => true
  | .arm _ => true
  | .disarm _ => true
  | .bget _ => true
  | .bankrel _ => true
  | .isync _ => true
  | .chst _ => true
  | .chctlStop _ => true
  | .chctlHalt _ => true
  | .chctlStopall _ => true
  | .chctlHaltall _ => true
  | .chctlRelease _ => true
  | .dlvr _ => true
  | .gcmEnc _ => true
  | .gcmDec _ => true
  | .gmacGen _ => true
  | .gmacVer _ => true
  | .xtsEnc _ => true
  | .xtsDec _ => true
  | .keyload _ => true
  | .keyclear _ => true
  | .cipherChunk o => timeOk o.t
  | .cipherCompletion o => timeOk o.t
  | .cipherSelfCheckEnd o => timeOk o.t
  | .compress _ => true
  | .decompress _ => true
  | .stream _ => true
  | .compressionChunk o => timeOk o.t
  | .compressionCompletion o => timeOk o.t
  | .compressionSelfCheckEnd o => timeOk o.t
  | .mergingBufferDrain _ => true
  | .doorbellInterrupt o => timeOk o.t
  | .coreTimer o => timeOk o.t
  | .instructionRetry o => timeOk o.t
  | .selfTestEnd o => timeOk o.t
  | .spareAwake o => timeOk o.t
  | .checkpointTransfer o => timeOk o.t
  | .spareFirstCommit o => timeOk o.t
  | .twinExchange o => timeOk o.t
  | .idleExchange o => timeOk o.t
  | .twinGiveUp o => timeOk o.t
  | .twinTimeout o => timeOk o.t
  | .rds _ => true
  | .rdx _ => true
  | .upg _ => true
  | .wb o => decide (o.id < 2 ^ 64)
  | .fatom _ => true
  | .rdu _ => true
  | .wru o => decide (o.off.val + o.bytes.length ≤ 64)
  | .snps _ => true
  | .snpi _ => true
  | .fwd _ => true
  | .kill _ => true
  | .dataMsg _ => true
  | .rsp _ => true
  | .np _ => true
  | .iack _ => true
  | .complete _ => true
  | .done _ => true
  | .wback o => decide (o.id < 2 ^ 64)
  | .requestRetry o => timeOk o.t
  | .homeTimeout o => timeOk o.t
  | .patrolPassEnd o => timeOk o.t
  | .bankClearDone _ => true
  | .bankReleased _ => true
  | .moverDescriptor o => timeOk o.t
  | .moverCompletion o => timeOk o.t
  | .reqRecordComplete o => timeOk o.t && seqFits o.seq
  | .opstComplete o => timeOk o.t
  | .opdnComplete o => timeOk o.t
  | .inboundPlacement o => timeOk o.t
  | .carryForward o => timeOk o.t
  | .controlBlockRewrite o => timeOk o.t
  | .windowLineWrite o => timeOk o.t && decide (o.line < 2 ^ 27)
  | .hearthScrub o => timeOk o.t && o.findings.all hearthFindingOk
  | .timebaseRecord o => timeOk o.t
  | .paceSample o => timeOk o.t && decide (o.r0 < 2 ^ 16) && decide (o.r1 < 2 ^ 16) && decide (o.r2 < 2 ^ 16) && decide (o.r3 < 2 ^ 16)
  | .paceReport o => timeOk o.t
  | .governorEvaluation o => timeOk o.t && decide (o.pace.length = 31) && decide (o.loadMv < 2 ^ 16) &&
      decide (o.draw.length = 5) && o.draw.all (fun w => decide (w < 2 ^ 16)) && decide (o.partMv < 2 ^ 16) && decide (o.pct ≤ 100)
  | .vcoreStep o => timeOk o.t
  | .frameReceive o => timeOk o.t && decide (o.bytes.length ≤ 9212)
  | .pfcFrame o => decide (o.times.length = 8)
  | .arpRequest _ => true
  | .neighbourSolicitation _ => true
  | .portLinkUp o => timeOk o.t
  | .portLinkDown o => timeOk o.t
  | .openNew o => timeOk o.t && o.msg.ok
  | .openResume o => timeOk o.t && o.msg.ok
  | .request o => timeOk o.t && o.msg.ok
  | .ack o => timeOk o.t && o.msg.ok
  | .nak o => timeOk o.t && o.msg.ok
  | .stop o => timeOk o.t && o.msg.ok
  | .resume o => timeOk o.t && o.msg.ok
  | .drain o => timeOk o.t && o.msg.ok
  | .cancel o => timeOk o.t && o.msg.ok
  | .controlUndefined o => timeOk o.t && o.msg.ok
  | .drainedRepeat o => timeOk o.t
  | .keepalive o => timeOk o.t && o.msg.ok
  | .keepaliveSend o => timeOk o.t
  | .close o => timeOk o.t && o.msg.ok
  | .sessionSuspend o => timeOk o.t
  | .openingTimeout o => timeOk o.t
  | .deliverResend o => timeOk o.t && seqFits o.seq
  | .credit o => timeOk o.t
  | .twinNakTimer o => timeOk o.t && seqFits o.seq
  | .dictRead o => timeOk o.t && o.msg.ok
  | .dictWrite o => timeOk o.t && o.msg.ok
  | .dictDescribe o => timeOk o.t && o.msg.ok
  | .segmentTimeout o => timeOk o.t
  | .blockEnable o => timeOk o.t && o.msg.ok
  | .blockDisable o => timeOk o.t && o.msg.ok
  | .blockStopped o => timeOk o.t
  | .commit o => timeOk o.t && o.msg.ok
  | .commitDiscard o => timeOk o.t && o.msg.ok
  | .resourceRemoval o => timeOk o.t
  | .pavilionCreate o => timeOk o.t && o.msg.ok
  | .pavilionDestroy o => timeOk o.t && o.msg.ok
  | .destroyMode o => timeOk o.t && o.msg.ok
  | .destructionProceed o => timeOk o.t
  | .destructionComplete o => timeOk o.t
  | .loadImage o => timeOk o.t && o.msg.ok
  | .start o => timeOk o.t && o.msg.ok
  | .keyWrite o => timeOk o.t && o.msg.ok
  | .ucodeImage o => timeOk o.t && o.msg.ok
  | .eck o => timeOk o.t && o.msg.ok
  | .twinPartner o => timeOk o.t && o.msg.ok
  | .powerCap o => timeOk o.t && o.msg.ok
  | .alertAck o => timeOk o.t && o.msg.ok
  | .rangeInval o => timeOk o.t && o.msg.ok
  | .wayLock o => timeOk o.t && o.msg.ok
  | .reclaim o => timeOk o.t && o.msg.ok
  | .inboundConfig o => timeOk o.t && o.msg.ok
  | .cqConfig o => timeOk o.t && o.msg.ok
  | .moverConfig o => timeOk o.t && o.msg.ok
  | .cipherCqConfig o => timeOk o.t && o.msg.ok
  | .compressionCqConfig o => timeOk o.t && o.msg.ok
  | .density o => timeOk o.t && o.msg.ok
  | .i2cWriteTransfer o => timeOk o.t
  | .i2cReadTransfer o => timeOk o.t
  | .i2cPowerCap o => timeOk o.t
  | .i2cAlertAck o => timeOk o.t
  | .i2cWindowRefresh o => timeOk o.t
  | .linkTrainingDone o => timeOk o.t
  | .lockGained o => timeOk o.t
  | .linkStateTimeout o => timeOk o.t
  | .helloSend o => timeOk o.t
  | .hello o => timeOk o.t && decide (o.bytes.length ≤ 268)
  | .retryDelayEnd o => timeOk o.t
  | .dataBlock o => timeOk o.t && decide (o.bytes.length ≤ 268)
  | .controlBlock o => timeOk o.t && decide (o.bytes.length ≤ 268)
  | .linkAckBlock o => timeOk o.t && decide (o.bytes.length ≤ 268)
  | .linkNakBlock o => timeOk o.t && decide (o.bytes.length ≤ 268)
  | .ackTimeout o => timeOk o.t
  | .linkDeadTimeout o => timeOk o.t
  | .ackOwed o => timeOk o.t
  | .blockSent o => timeOk o.t
  | .opened o => timeOk o.t && decide (o.payload.length ≤ 256)
  | .rdata o => timeOk o.t && decide (o.payload.length ≤ 256)
  | .final o => timeOk o.t && decide (o.payload.length ≤ 256)
  | .controlReply o => timeOk o.t && decide (o.payload.length ≤ 256)
  | .queryTimer o => timeOk o.t
  | .operationTimeout o => timeOk o.t
  | .movingTimeout o => timeOk o.t
  | .haltingTimeout o => timeOk o.t
  | .queryingTimeout o => timeOk o.t
  | .clockLoss o => timeOk o.t
  | .clockPresent o => timeOk o.t
  | .refReturn o => timeOk o.t
  | .tbCoastClear o => timeOk o.t
  | .ptpSync o => timeOk o.t && timeOk o.sent
  | .delayReqSend o => timeOk o.t
  | .delayResp o => timeOk o.t && timeOk o.got && decide (o.interval < 2 ^ 32)
  | .ptpHoldover o => timeOk o.t
  | .vinRise o => timeOk o.t
  | .porRelease o => timeOk o.t
  | .resetLAssert o => timeOk o.t
  | .resetLRelease o => timeOk o.t
  | .porRearm o => timeOk o.t
  | .oscDelayEnd o => timeOk o.t
  | .xtalRecheck o => timeOk o.t
  | .startupClocksLocked o => timeOk o.t
  | .startupRampDone o => timeOk o.t
  | .groundskeeperBoot o => timeOk o.t
  | .microcodeLoad o => timeOk o.t && decide o.failed.Nodup
  | .memoryQuenchDone o => timeOk o.t && decide o.failed.Nodup
  | .hearthReplayScan o => timeOk o.t && o.findings.all hearthFindingOk
  | .inDoubtSettle o => timeOk o.t
  | .replayPresent o => timeOk o.t
  | .ready o => timeOk o.t
  | .thermAssert o => timeOk o.t && decide (-32768 ≤ o.tj) && decide (o.tj ≤ 32767)
  | .thermRelease o => timeOk o.t && decide (-32768 ≤ o.tj) && decide (o.tj ≤ 32767)
  | .thermalStop o => timeOk o.t && decide (-32768 ≤ o.tj) && decide (o.tj ≤ 32767)
  | .blockLockLost o => timeOk o.t
  | .blockLockRegained o => timeOk o.t
  | .patrolRead o => timeOk o.t && decide (o.line < 36 * 2 ^ 24)
  | .tapInstruction _ => true
  | .undefinedOpcodeWord _ => true

end Sys2Proof
end

