-- ==== Sys2Proof/Certificates/Slice0/Obligations.lean ====
section
/-! DEFINITION. Certificates/Slice0/Obligations.lean: the statements for the provers, one for each group of commands and each kind of
state. -/

open Sys2Proof Sys2Proof.Machine

/-- A step with a command waiting performs it with the rest of the queue; with none the block idles (notes/assumptions/4, a choice of
the model). No command stops the device. -/
def Obligations.StepRunsFront : Prop :=
  ((∀ (c : Instr) (rest : List Instr) (d : Dev), step { pending := c :: rest, dev := d } = exec c { pending := rest, dev := d }) ∧
   ∀ d : Dev, step { pending := [], dev := d } = .next { pending := [], dev := d }) ∧
  (∀ (i : Instr) (s : State), ∃ d : Dev, exec i s = .next { pending := s.pending, dev := d })

/-- R283 and R284: every ALU operation at both widths, with the frame in `Completes`. -/
def Obligations.AluResults : Prop :=
  ∀ (q : List Instr) (d d' : Dev) (p : Nat) (o : OpA), d.Issues o.core p d' →
    let quiet : (w : Nat) → BitVec w → BitVec w → Option Bool := fun _ _ _ => none
    let right : (w : Nat) → BitVec w → BitVec w → Option Bool := fun w a b =>
      if b.toNat % w = 0 then none else some (a.getLsbD (b.toNat % w - 1))
    let left : (w : Nat) → BitVec w → BitVec w → Option Bool := fun w a b =>
      if b.toNat % w = 0 then none else some (a.getLsbD (w - b.toNat % w))
    d'.AluDoes (.add o) q d o (fun _ a b => a + b) (fun w a b => some (decide (2 ^ w ≤ a.toNat + b.toNat)))
      (fun w a b => some (decide (a.toInt + b.toInt < -(2 ^ (w - 1) : Int)) || decide ((2 ^ (w - 1) : Int) ≤ a.toInt + b.toInt))) ∧
    d'.AluDoes (.sub o) q d o (fun _ a b => a - b) (fun _ a b => some (decide (a.toNat < b.toNat)))
      (fun w a b => some (decide (a.toInt - b.toInt < -(2 ^ (w - 1) : Int)) || decide ((2 ^ (w - 1) : Int) ≤ a.toInt - b.toInt))) ∧
    d'.AluDoes (.andR o) q d o (fun _ a b => a &&& b) quiet quiet ∧
    d'.AluDoes (.orR o) q d o (fun _ a b => a ||| b) quiet quiet ∧
    d'.AluDoes (.xorR o) q d o (fun _ a b => a ^^^ b) quiet quiet ∧
    d'.AluDoes (.andn o) q d o (fun _ a b => a &&& ~~~b) quiet quiet ∧
    d'.AluDoes (.shl o) q d o (fun w a b => BitVec.ofNat w (a.toNat * 2 ^ (b.toNat % w))) left quiet ∧
    d'.AluDoes (.shr o) q d o (fun w a b => BitVec.ofNat w (a.toNat / 2 ^ (b.toNat % w))) right quiet ∧
    d'.AluDoes (.sar o) q d o (fun w a b => BitVec.ofInt w (a.toInt / 2 ^ (b.toNat % w))) right quiet ∧
    d'.AluDoes (.ror o) q d o (fun w a b => a >>> (b.toNat % w) ||| a <<< (w - b.toNat % w)) right quiet ∧
    d'.AluDoes (.minR o) q d o (fun _ a b => if b.toInt < a.toInt then b else a) quiet quiet ∧
    d'.AluDoes (.maxR o) q d o (fun _ a b => if a.toInt < b.toInt then b else a) quiet quiet ∧
    d'.AluDoes (.minu o) q d o (fun _ a b => if b.toNat < a.toNat then b else a) quiet quiet ∧
    d'.AluDoes (.maxu o) q d o (fun _ a b => if a.toNat < b.toNat then b else a) quiet quiet ∧
    d'.AluDoes (.clz o) q d o
      (fun w a _ => BitVec.ofNat w (((List.range w).find? fun i => a.getLsbD (w - 1 - i)).getD w)) quiet quiet ∧
    d'.AluDoes (.popc o) q d o (fun w a _ => BitVec.ofNat w ((List.range w).countP fun i => a.getLsbD i)) quiet quiet

/-- Table 9.4 and Table 10.1. -/
def Obligations.MulDivResults : Prop :=
  (∀ (q : List Instr) (d d' : Dev) (p : Nat) (o : OpA), d.Issues o.core p d' →
     let x := d'.core o.core
     let quiet : (w : Nat) → BitVec w → BitVec w → Option Bool := fun _ _ _ => none
     d'.AluDoes (.mul o) q d o (fun w a b => BitVec.ofNat w (a.toNat * b.toNat)) quiet quiet ∧
     d'.AluDoes (.mulh o) q d o (fun w a b => BitVec.ofInt w (a.toInt * b.toInt / 2 ^ w)) quiet quiet ∧
     d'.AluDoes (.mulhu o) q d o (fun w a b => BitVec.ofNat w (a.toNat * b.toNat / 2 ^ w)) quiet quiet ∧
     (divByZero o x = false →
       d'.AluDoes (.divu o) q d o (fun w a b => BitVec.ofNat w (a.toNat / b.toNat)) quiet quiet ∧
       d'.AluDoes (.remu o) q d o (fun w a b => BitVec.ofNat w (a.toNat % b.toNat)) quiet quiet ∧
       (divMinByMinusOne o x = false →
         d'.AluDoes (.div o) q d o (fun w a b => BitVec.ofInt w (a.toInt.tdiv b.toInt)) quiet quiet ∧
         d'.AluDoes (.rem o) q d o (fun w a b => BitVec.ofInt w (a.toInt.tmod b.toInt)) quiet quiet)) ∧
     (divMinByMinusOne o x = true →
       let corner (z n : Bool) : Nat → Option Bool := fun k =>
         if k = 0x003 ∨ k = 0x01F then some true else condBits o.f z n none none k
       Completes (.div o) q d d' o.core {
         reg := only (x.arch.gpr o.rd) (if o.w then 0xFFFFFFFF80000000 else 0x8000000000000000), bit := corner false true } ∧
       Completes (.rem o) q d d' o.core { reg := only (x.arch.gpr o.rd) 0, bit := corner true false })) ∧
  (∀ (q : List Instr) (d d' : Dev) (p : Nat) (o : OpA), d.Issues o.core p d' → divByZero o (d'.core o.core) = true →
     let t : Trap := { num := 0x07, fault := (d'.core o.core).cursor }
     Traps (.div o) q d d' o.core p t ∧ Traps (.divu o) q d d' o.core p t ∧ Traps (.rem o) q d d' o.core p t ∧
       Traps (.remu o) q d d' o.core p t)

/-- Table 9.5. -/
def Obligations.Immediates : Prop :=
  ∀ (q : List Instr) (d d' : Dev) (p : Nat) (o : OpI), d.Issues o.core p d' →
    let x := d'.core o.core
    let a := x.gr o.ra
    let s : Word := o.imm.signExtend 64
    let z : Word := o.imm.setWidth 64
    let n := o.imm.toNat % 64
    let writes (i : Instr) (v : Word) : Prop := Completes i q d d' o.core { reg := only (x.arch.gpr o.rd) v }
    let shift (w k : Nat) (v : BitVec w) : BitVec w :=
      match o.imm.toNat / 64 % 4 with
      | 0 => BitVec.ofNat w (v.toNat * 2 ^ k)
      | 1 => BitVec.ofNat w (v.toNat / 2 ^ k)
      | 2 => BitVec.ofInt w (v.toInt / 2 ^ k)
      | _ => v >>> k ||| v <<< (w - k)
    writes (.addi o) (a + s) ∧ writes (.andi o) (a &&& z) ∧ writes (.ori o) (a ||| z) ∧ writes (.xori o) (a ^^^ z) ∧
    writes (.ldi o) s ∧ writes (.slo o) (a * 65536 ||| z) ∧
    writes (.shi o) (if o.imm.getLsbD 8 then (shift 32 (n % 32) (a.setWidth 32)).signExtend 64 else shift 64 n a) ∧
    Completes (.cmpi o) q d d' o.core {
      bit := condBits true (decide (a = s)) (a - s).msb (some (decide (a.toNat < s.toNat)))
        (some (decide (a.toInt - s.toInt < -(2 ^ 63 : Int)) || decide ((2 ^ 63 : Int) ≤ a.toInt - s.toInt))) }

/-- Tables 9.6 and 9.8, the rules for BD that R287 and R288 share, and the reserved conditions and bits. -/
def Obligations.BitInstructions : Prop :=
  (∀ (q : List Instr) (d d' : Dev) (p : Nat),
     (∀ o : OpCmp, d.Issues o.core p d' → (d'.core o.core).MaySet o.bd.toNat →
       let x := d'.core o.core
       let a := x.gr o.ra
       let b := x.gr o.rb
       let holds : List Bool := [decide (a = b), decide (a ≠ b), decide (a.toInt < b.toInt), decide (b.toInt ≤ a.toInt),
         decide (a.toInt ≤ b.toInt), decide (b.toInt < a.toInt), decide (a.toNat < b.toNat), decide (b.toNat ≤ a.toNat),
         decide (a.toNat ≤ b.toNat), decide (b.toNat < a.toNat), decide (a &&& b ≠ 0), decide (a &&& b = 0)]
       ∀ v, holds[o.cond.toNat]? = some v → Completes (.cmp o) q d d' o.core { bit := only o.bd.toNat v }) ∧
     (∀ o : OpBop, d.Issues o.core p d' → (d'.core o.core).MaySet o.bd.toNat →
       let x := d'.core o.core
       let bd := x.arch.bit o.bd.toNat
       let ba := x.arch.bit o.ba.toNat
       let f := o.bfn.toNat
       Completes (.bop o) q d d' o.core {
         bit := only o.bd.toNat (if f = 0 then ba else if f = 1 then bd && ba else if f = 2 then bd || ba else xor bd ba) } ∧
       Completes (.bopn o) q d d' o.core {
         bit := only o.bd.toNat (if f = 0 then !ba else if f = 1 then bd && !ba else if f = 2 then bd || !ba else !(xor bd ba)) })) ∧
  (∀ (q : List Instr) (d d' : Dev) (p : Nat),
     (∀ o : OpCmp, d.Issues o.core p d' →
       let illegal : Trap := { num := 0x01, fault := (d'.core o.core).cursor }
       let reserved : Trap := { num := 0x0E, fault := o.bd.toNat }
       (12 ≤ o.cond.toNat → Traps (.cmp o) q d d' o.core p illegal) ∧
       (13 ≤ o.cond.toNat → Traps (.fcmpS o) q d d' o.core p illegal ∧ Traps (.fcmpD o) q d d' o.core p illegal) ∧
       (¬ (d'.core o.core).MaySet o.bd.toNat →
         (o.cond.toNat < 12 → Traps (.cmp o) q d d' o.core p reserved) ∧
         (o.cond.toNat < 13 → Traps (.fcmpS o) q d d' o.core p reserved ∧ Traps (.fcmpD o) q d d' o.core p reserved))) ∧
     (∀ o : OpBop, d.Issues o.core p d' → ¬ (d'.core o.core).MaySet o.bd.toNat →
       let reserved : Trap := { num := 0x0E, fault := o.bd.toNat }
       Traps (.bop o) q d d' o.core p reserved ∧ Traps (.bopn o) q d d' o.core p reserved))

/-- Tables 9.14 and 9.15 at issue: what is queued, what the destination reads, and that nothing else changes. -/
def Obligations.FloatIssues : Prop :=
  ∀ (q : List Instr) (d d' : Dev) (p : Nat),
    (∀ o : OpF, d.Issues o.core p d' →
      let x := d'.core o.core
      let f := if o.p then fmt64 else fmt32
      let a := if o.p then (x.fr o.fa).toNat else (x.fr o.fa).toNat % 2 ^ 32
      let b := if o.p then (x.fr o.fb).toNat else (x.fr o.fb).toNat % 2 ^ 32
      let rm := Rm.ofBits (x.arch.bits.extractLsb' 0x010 3).toNat
      let issues (i : Instr) (r : PReg) (v : Word) (flags : BitVec 5) : Prop :=
        Completes i q d d' o.core {
          reg := only r v
          issued := [{ cursor := x.arch.pcc.cursor, dest := none, value := v, flags := flags, enables := x.arch.bits.extractLsb' 0x018 5 }] }
      let fd (i : Instr) (r : Nat × FFlags) : Prop := issues i (.fp o.fd.toNat) (BitVec.ofNat 64 r.1) r.2
      let gd (i : Instr) (r : Word × FFlags) : Prop := issues i (x.arch.gpr o.fd) r.1 r.2
      fd (.fadd o) (f.add rm a b false) ∧ fd (.fsub o) (f.add rm a b true) ∧ fd (.fmul o) (f.mul rm a b) ∧
      fd (.fdiv o) (f.div rm a b) ∧ fd (.fsqrt o) (f.sqrt rm a) ∧ fd (.fmin o) (f.minMax false a b) ∧
      fd (.fmax o) (f.minMax true a b) ∧ fd (.frnd o) (f.rint rm a) ∧
      fd (.fcvt o) (if o.p then convert fmt32 fmt64 rm ((x.fr o.fa).toNat % 2 ^ 32) else convert fmt64 fmt32 rm (x.fr o.fa).toNat) ∧
      gd (.fcvtL o) (f.toInt rm a false) ∧ gd (.fcvtLu o) (f.toInt rm a true) ∧ gd (.fcvtLz o) (f.toInt .rtz a false) ∧
      gd (.fcvtLuz o) (f.toInt .rtz a true) ∧ fd (.fcvtFl o) (f.ofInt rm (x.gr o.fa).toInt) ∧
      fd (.fcvtFlu o) (f.ofInt rm (x.gr o.fa).toNat)) ∧
    (∀ o : OpFma, d.Issues o.core p d' →
      let x := d'.core o.core
      let f := if o.p then fmt64 else fmt32
      let get (r : BitVec 5) : Nat := if o.p then (x.fr r).toNat else (x.fr r).toNat % 2 ^ 32
      let rm := Rm.ofBits (x.arch.bits.extractLsb' 0x010 3).toNat
      let fd (i : Instr) (negP negC : Bool) : Prop :=
        let r := f.fma rm (get o.fa) (get o.fb) (get o.fc) negP negC
        Completes i q d d' o.core {
          reg := only (.fp o.fd.toNat) (BitVec.ofNat 64 r.1)
          issued := [{ cursor := x.arch.pcc.cursor, dest := none, value := BitVec.ofNat 64 r.1, flags := r.2
                       enables := x.arch.bits.extractLsb' 0x018 5 }] }
      fd (.fmadd o) false false ∧ fd (.fmsub o) false true ∧ fd (.fnmadd o) true true ∧ fd (.fnmsub o) true false)

/-- The moves of R296, bit by bit, with R248 for binary32. -/
def Obligations.FloatMoves : Prop :=
  ∀ (q : List Instr) (d d' : Dev) (p : Nat) (o : OpF), d.Issues o.core p d' →
    let x := d'.core o.core
    let a := x.fr o.fa
    let b := x.fr o.fb
    let sign : Word := if o.p then 0x8000000000000000 else 0x80000000
    let kept (v : Word) : Word := if o.p then v else v &&& 0xFFFFFFFF
    let fd (i : Instr) (v : Word) : Prop := Completes i q d d' o.core { reg := only (.fp o.fd.toNat) v }
    fd (.fneg o) (kept (a ^^^ sign)) ∧ fd (.fabs o) (kept (a &&& ~~~sign)) ∧
    fd (.fcpys o) (kept ((a &&& ~~~sign) ||| (b &&& sign))) ∧ fd (.fmov o) (kept a) ∧ fd (.fmvgf o) (kept (x.gr o.fa)) ∧
    Completes (.fmvfg o) q d d' o.core { reg := only (x.arch.gpr o.fd) (kept a) }

/-- Table 9.7, for both formats. The flag is set before BD is written, which matters only where BD is the flag itself. Where the compare
makes trap 0x0A pending, the earlier operations signal first, so that the trap names the earliest of all (R330). -/
def Obligations.FloatCompares : Prop :=
  ∀ (q : List Instr) (d d' : Dev) (p : Nat) (o : OpCmp), d.Issues o.core p d' → (d'.core o.core).MaySet o.bd.toNat →
    let x := d'.core o.core
    let does (i : Instr) (f : Fmt) (a b : Nat) : Prop :=
      let c := f.cmp a b
      let lt := c == some .lt
      let eq := c == some .eq
      let gt := c == some .gt
      let holds : List Bool := [eq, !eq, lt, lt || eq, gt, gt || eq, c.isNone, c.isSome, lt, lt || eq, gt, gt || eq, eq]
      let anyNan := o.cond.toNat ∈ [2, 3, 4, 5, 12]
      let invalid := f.isSnan a || f.isSnan b || (decide anyNan && (f.isNan a || f.isNan b))
      let d2 := if invalid && x.arch.bit 0x018 then
          d'.onCore o.core fun y => { y.signalAll with fpTrap := some (y.signalAll.fpTrap.getD x.arch.pcc.cursor) }
        else d'
      ∀ v, holds[o.cond.toNat]? = some v →
        Completes i q d d2 o.core { bit := these ([(o.bd.toNat, v)] ++ if invalid then [(0x008, true)] else []) }
    does (.fcmpS o) fmt32 ((x.fr o.ra).toNat % 2 ^ 32) ((x.fr o.rb).toNat % 2 ^ 32) ∧
    does (.fcmpD o) fmt64 (x.fr o.ra).toNat (x.fr o.rb).toNat

/-- R321 for the one- and two-operand operations, and R322. -/
def Obligations.NanResults : Prop :=
  ∀ (f : Fmt) (rm : Rm) (a b : Nat), (f = fmt32 ∧ a < 2 ^ 32 ∧ b < 2 ^ 32) ∨ (f = fmt64 ∧ a < 2 ^ 64 ∧ b < 2 ^ 64) →
    let quiet := if f.p = 24 then 0x400000 else 0x8000000000000
    let default := if f.p = 24 then 0x7FC00000 else 0x7FF8000000000000
    let two : List (Nat × FFlags) := [f.add rm a b false, f.add rm a b true, f.mul rm a b, f.div rm a b]
    let signalling (v : Nat) : Bool := f.isNan v && decide (v &&& quiet = 0)
    let nv (s : Bool) : FFlags := if s then 1 else 0
    (f.isNan a = true → (∀ r ∈ two, r = (a ||| quiet, nv (signalling a || signalling b))) ∧
      (∀ r ∈ [f.sqrt rm a, f.rint rm a], r = (a ||| quiet, nv (signalling a)))) ∧
    (f.isNan a = false → f.isNan b = true → ∀ r ∈ two, r = (b ||| quiet, nv (signalling b))) ∧
    (∀ s t, f.val a = .inf s → f.val b = .inf t →
      f.div rm a b = (default, 1) ∧ f.add rm a b (s == t) = (default, 1)) ∧
    (∀ s t e, f.val a = .inf s → f.val b = .fin t 0 e → f.mul rm a b = (default, 1)) ∧
    (∀ s e t g, f.val a = .fin s 0 e → f.val b = .fin t 0 g → f.div rm a b = (default, 1)) ∧
    (∀ m e, f.val a = .fin true (m + 1) e → f.sqrt rm a = (default, 1))

/-- R328 to R331: signalling, the enables at issue, and the one pending trap, which waits for a machine check that is due and for the
ERET of a machine-check handler taken since; twins take it at an exchange (R351). -/
def Obligations.FloatSignals : Prop :=
  ∀ (q : List Instr) (d : Dev) (o : OpCore), d.thermalStop = false →
    let x := d.core o.core
    (∀ (op : FpOp) (rest : List FpOp), x.fpq = op :: rest →
      ∃ t, exec (.fpSignal o) { pending := q, dev := d } = .next { pending := q, dev := t } ∧
        let y := t.core o.core
        y.fpq = rest ∧ (∀ r, op.dest = some r → r ≠ .k 0 → r ≠ .z → (∀ i, r ≠ .cap i) → y.arch.get r = op.value) ∧
        (op.dest ≠ some .z → ∀ n, y.arch.bit n = (x.arch.bit n || (decide (0x008 ≤ n ∧ n ≤ 0x00C) && op.flags.getLsbD (n - 0x008)))) ∧
        y.fpTrap = (if op.flags &&& op.enables = 0 then x.fpTrap else some (x.fpTrap.getD op.cursor)) ∧
        y.arch.pcc = x.arch.pcc ∧ y.merge = x.merge ∧ (∀ k, k ≠ o.core.val → t.core k = d.core k) ∧ { t with cores := d.cores } = d) ∧
    (∀ p, d.coreReady o.core = true → d.coreOwner o.core = some p →
      (∀ cur, x.mchecks = [] → x.twin = none → x.fpHeld = none → x.fpTrap = some cur →
        Traps (.floatingPointTrap o) q d d o.core p { num := 0x0A, fault := cur.toNat }) ∧
      (x.mchecks ≠ [] ∨ x.twin ≠ none ∨ x.fpHeld ≠ none ∨ x.fpTrap = none → Answers (.floatingPointTrap o) q d d))

/-- Table 9.13, operation by operation. -/
def Obligations.CapabilityInstructions : Prop :=
  ∀ (q : List Instr) (d d' : Dev) (p : Nat),
    (∀ o : OpI, d.Issues o.core p d' →
      let x := d'.core o.core
      let s := x.cr (o.ra.toNat % 16)
      Completes (.curaddi o) q d d' o.core {
        cap := only (o.rd.toNat % 16) { s with cursor := s.cursor + o.imm.signExtend 38, tag := s.tag && decide (s.otype = 0) } }) ∧
    (∀ o : OpCap, d.Issues o.core p d' →
      let x := d'.core o.core
      let s := x.cr (o.ra.toNat % 16)
      let k := x.cr o.cx.toNat
      let b := x.gr o.rb
      let len := (x.gr o.ra).toNat
      let writes (i : Instr) (v : Cap) : Prop := Completes i q d d' o.core { cap := only (o.rd.toNat % 16) v }
      let tells (i : Instr) (v : Cap) : Prop :=
        Completes i q d d' o.core { cap := only (o.rd.toNat % 16) v, bit := only 0x000 v.tag }
      let reads (i : Instr) (v : Nat) : Prop := Completes i q d d' o.core { reg := only (x.arch.gpr o.rd) (BitVec.ofNat 64 v) }
      let open_ (c : Cap) : Bool := c.tag && decide (c.otype = 0)
      let key := open_ k && k.perms.getLsbD 0
      writes (.capcpy o) s ∧
      writes (.curadd o) { s with cursor := s.cursor + b.setWidth 38, tag := open_ s } ∧
      writes (.curset o) { s with cursor := b.setWidth 38, tag := open_ s && decide (b.toNat < 2 ^ 38) } ∧
      writes (.permcut o) { s with perms := s.perms &&& b.setWidth 8, tag := open_ s } ∧
      writes (.tagclr o) { s with tag := false } ∧
      writes (.rdpcc o) x.arch.pcc ∧
      tells (.cderiv o) {
        tag := open_ k && decide (len < 2 ^ 38) && decide (k.base.toNat ≤ k.cursor.toNat) &&
          decide (k.cursor.toNat + len ≤ k.base.toNat + k.len.toNat)
        perms := k.perms &&& b.setWidth 8, otype := 0, base := k.cursor, len := BitVec.ofNat 38 len, cursor := k.cursor } ∧
      tells (.sealto o) { s with
        otype := k.cursor.setWidth 6
        tag := open_ s && key && decide (2 ≤ k.cursor.toNat ∧ k.cursor.toNat ≤ 63) &&
          decide (k.base.toNat ≤ k.cursor.toNat ∧ k.cursor.toNat + 1 ≤ k.base.toNat + k.len.toNat) } ∧
      tells (.sealoff o) { s with
        otype := 0, tag := s.tag && decide (2 ≤ s.otype.toNat) && key && decide (k.cursor.toNat = s.otype.toNat) } ∧
      tells (.entrymk o) { s with otype := 1, tag := open_ s && s.perms.getLsbD 5 } ∧
      reads (.rdtag o) (if s.tag then 1 else 0) ∧ reads (.rdperm o) s.perms.toNat ∧ reads (.rdtype o) s.otype.toNat ∧
      reads (.rdbase o) s.base.toNat ∧ reads (.rdlen o) s.len.toNat ∧ reads (.rdcur o) s.cursor.toNat)

/-- Tables 9.10 and 9.11 for loads, each as its operand performs it (`Obligations.StoreThenLoad`). The loaded value is in `owed`; R267's delay
is that no register reads it yet. -/
def Obligations.Loads : Prop :=
  ∀ (q : List Instr) (d d' : Dev) (p : Nat),
    let gets (i : Instr) (c n : Nat) (cap : Cap) (ea : Int) (h : LoadHow) (owe : Bytes → Bool → Owed) : Prop :=
      ∀ a b tag d2, d'.access p cap ea n 0x80 n = .ok a → d'.loadHow c p a n h = .ok (b, tag, d2) →
        Completes i q d d2 c { owed := [owe b tag] }
    let capOwed (r : Nat) (cap : Cap) (b : Bytes) (tag : Bool) : Owed :=
      ⟨.cap r, 0, { Cap.ofBits (BitVec.ofNat 128 (leNat b)) tag with tag := tag && cap.perms.getLsbD 4 }⟩
    (∀ o : OpLd, d.Issues o.core p d' → (d.core o.core).twin = none →
      let x := d'.core o.core
      let cap := x.cr o.cs.toNat
      let ea : Int := cap.cursor.toNat + (x.gr o.rb).toInt + o.off.toInt
      let h : LoadHow := { back := o.back.headD 0, ecc := o.ecc, acq := false }
      let gr (v : Word) : Owed := ⟨x.arch.gpr o.rd, v, {}⟩
      let fr (v : Word) : Owed := ⟨.fp o.rd.toNat, v, {}⟩
      let g (i : Instr) (n : Nat) (owe : Nat → Owed) : Prop := gets i o.core n cap ea h fun b _ => owe (leNat b)
      g (.ldB o) 1 (fun v => gr ((BitVec.ofNat 8 v).signExtend 64)) ∧ g (.ldBu o) 1 (fun v => gr (BitVec.ofNat 64 v)) ∧
      g (.ldH o) 2 (fun v => gr ((BitVec.ofNat 16 v).signExtend 64)) ∧ g (.ldHu o) 2 (fun v => gr (BitVec.ofNat 64 v)) ∧
      g (.ldW o) 4 (fun v => gr ((BitVec.ofNat 32 v).signExtend 64)) ∧ g (.ldWu o) 4 (fun v => gr (BitVec.ofNat 64 v)) ∧
      g (.ldL o) 8 (fun v => gr (BitVec.ofNat 64 v)) ∧ g (.fldS o) 4 (fun v => fr (BitVec.ofNat 64 v)) ∧
      g (.fldD o) 8 (fun v => fr (BitVec.ofNat 64 v)) ∧
      gets (.ldc o) o.core 16 cap ea h (capOwed (o.rd.toNat % 16) cap)) ∧
    (∀ o : OpMxLd, d.Issues o.core p d' → (d.core o.core).twin = none →
      let x := d'.core o.core
      let cap := x.cr o.cs.toNat
      let ea : Int := cap.cursor.toNat + (x.gr o.rb).toInt + o.off.toInt
      let h : LoadHow := { back := o.back.headD 0, ecc := .good, acq := true }
      let g (i : Instr) (n : Nat) : Prop := gets i o.core n cap ea h fun b _ => ⟨x.arch.gpr o.rd, BitVec.ofNat 64 (leNat b), {}⟩
      g (.ldABu o) 1 ∧ g (.ldAHu o) 2 ∧ g (.ldAWu o) 4 ∧ g (.ldAL o) 8 ∧
      gets (.ldcA o) o.core 16 cap ea h (capOwed (o.rd.toNat % 16) cap))

/-- Tables 9.10 and 9.11 for stores. What a store changes in the buffer is `Obligations.StoreThenLoad`; a release first performs the core's
earlier stores (`Obligations.BarriersAndWait`). -/
def Obligations.Stores : Prop :=
  ∀ (q : List Instr) (d d' : Dev) (p : Nat),
    let puts (i : Instr) (c n : Nat) (cap : Cap) (ea : Int) (perms : BitVec 8) (b : Bytes) (tag rel : Bool) : Prop :=
      ∀ a, d'.access p cap ea n perms n = .ok a →
        Completes i q d ((if rel then d'.release c p else d').storePiece c p a b tag) c {}
    (∀ o : OpM, d.Issues o.core p d' → (d.core o.core).twin = none →
      let x := d'.core o.core
      let cap := x.cr o.cs.toNat
      let ea : Int := cap.cursor.toNat + (x.gr o.rb).toInt + o.off.toInt
      let v := x.cr (o.rd.toNat % 16)
      let g (i : Instr) (n : Nat) (w : Word) : Prop := puts i o.core n cap ea 0x40 (leBytes n w.toNat) false false
      g (.stB o) 1 (x.gr o.rd) ∧ g (.stH o) 2 (x.gr o.rd) ∧ g (.stW o) 4 (x.gr o.rd) ∧ g (.stL o) 8 (x.gr o.rd) ∧
      g (.fstS o) 4 (x.fr o.rd) ∧ g (.fstD o) 8 (x.fr o.rd) ∧
      puts (.stc o) o.core 16 cap ea (if v.tag then 0x48 else 0x40) v.bytes v.tag false) ∧
    (∀ o : OpMx, d.Issues o.core p d' → (d.core o.core).twin = none →
      let x := d'.core o.core
      let cap := x.cr o.cs.toNat
      let ea : Int := cap.cursor.toNat + (x.gr o.rb).toInt + o.off.toInt
      let v := x.cr (o.rd.toNat % 16)
      let g (i : Instr) (n : Nat) : Prop := puts i o.core n cap ea 0x40 (leBytes n (x.gr o.rd).toNat) false true
      g (.stRB o) 1 ∧ g (.stRH o) 2 ∧ g (.stRW o) 4 ∧ g (.stRL o) 8 ∧
      puts (.stcR o) o.core 16 cap ea (if v.tag then 0x48 else 0x40) v.bytes v.tag true)

/-- R357 to R360 for a store and a load of one core. A load returns its core's own pending bytes, and elsewhere what its line held
before the `back` latest of the stores that it may miss, or holds now; a later load of the same bytes never returns an older store's
(R357), and after an acquire no load misses a store of before (R360). -/
def Obligations.StoreThenLoad : Prop :=
  (∀ (d : Dev) (c p a : Nat) (b : Bytes) (tag : Bool), 0 < b.length → a % 64 + b.length ≤ 64 →
     ((d.core c).mergeOf (a / 64)).isSome = true ∨ (d.core c).merge.length < 16 →
     let t := d.storePiece c p a b tag
     (∀ k, (t.core c).pendingByte k = if a ≤ k ∧ k < a + b.length then b[k - a]? else (d.core c).pendingByte k) ∧
     { t.core c with merge := (d.core c).merge } = (d.core c).l1dHit (a / 64) ∧
     (∀ k, k ≠ c → t.core k = d.core k) ∧ { t with cores := d.cores } = d) ∧
  (∀ (d : Dev) (c p a back : Nat) (b : Bytes) (tag hint : Bool), 0 < b.length → a % 64 + b.length ≤ 64 →
     ∀ b' tag' t, (d.storePiece c p a b tag).loadPiece c p a b.length hint back = .ok (b', tag', t) → b' = b) ∧
  (∀ (d : Dev) (c p a n back : Nat), d.unseen c p a n = [] ∨ back = 0 →
     (d.ahead c p a n back).1 = none ∧
       (d.unseen c p a n ≠ [] → (d.ahead c p a n back).2.unseen c p a n = [])) ∧
  (∀ (d : Dev) (c p a n back : Nat), 0 < n → d.unseen c p a n ≠ [] → 0 < back →
     let k := min (back - 1) ((d.unseen c p a n).length - 1)
     ∃ e, (d.unseen c p a n)[k]? = some e ∧ (d.ahead c p a n back).1 = some e.was ∧
       ∀ e', e' ∈ (d.ahead c p a n back).2.unseen c p a n → e' ∈ d.unseen c p a n ∧ e.at_ ≤ e'.at_) ∧
  (∀ (d : Dev) (c p a n : Nat) (h : LoadHow) (b : Bytes) (tag : Bool) (t : Dev), 0 < n → h.acq = true → h.back = 0 →
     d.loadHow c p a n h = .ok (b, tag, t) → (∀ e, e ∈ t.mem.past → e.at_ ≤ t.mem.clock) → ∀ a' n', t.unseen c p a' n' = []) ∧
  (∀ (d : Dev) (c p a' n' : Nat), (∀ e, e ∈ d.mem.past → e.at_ ≤ d.mem.clock) → (d.acquireNow c).unseen c p a' n' = [])

/-- R34's order of checks after the exact sum of R257, then R423. -/
def Obligations.AccessChecks : Prop :=
  ∀ (d : Dev) (p : Nat) (cap : Cap) (ea : Int) (n : Nat) (perms : BitVec 8) (align : Nat),
    let r := d.access p cap ea n perms align
    let a := ea.toNat
    let trap (k f : Nat) : Except Stop Nat := .error { num := k, fault := f }
    ((ea < 0 ∨ 2 ^ 38 ≤ ea) → r = trap 0x03 (ea % 2 ^ 38).toNat) ∧
    (0 ≤ ea → ea < 2 ^ 38 →
      (cap.tag = false → r = trap 0x02 a) ∧
      (cap.tag = true → cap.otype ≠ 0 → r = trap 0x05 a) ∧
      (cap.tag = true → cap.otype = 0 →
        (cap.perms &&& perms ≠ perms → r = trap 0x04 a) ∧
        (cap.perms &&& perms = perms →
          let inside := cap.base.toNat ≤ a ∧ a + n ≤ cap.base.toNat + cap.len.toNat
          (¬ inside → r = trap 0x03 a) ∧ (inside → a % align ≠ 0 → r = trap 0x06 a) ∧
          (inside → a % align = 0 → ∀ u, d.firstUnmapped p a n = some u → r = trap 0x03 u) ∧
          (inside → a % align = 0 → d.firstUnmapped p a n = none → r = .ok a))))

/-- One trap for every form of Table 8.4, with nothing done before it; and machine check class 0x01 for each load whose data is poisoned, from
the device that the load leaves, which has cached the line (R378). -/
def Obligations.AccessTraps : Prop :=
  ∀ (q : List Instr) (d d' : Dev) (p : Nat) (t : Trap),
    (∀ o : OpLd, d.Issues o.core p d' → (d.core o.core).twin = none →
      let x := d'.core o.core
      let cap := x.cr o.cs.toNat
      let ea : Int := cap.cursor.toNat + (x.gr o.rb).toInt + o.off.toInt
      let traps (i : Instr) (n align : Nat) (perms : BitVec 8) : Prop :=
        d'.access p cap ea n perms align = .error t.stop → Traps i q d d' o.core p t
      let checks (n : Nat) (l : List Instr) : Prop := ∀ a s,
        d'.access p cap ea n 0x80 n = .ok a →
        d'.loadHow o.core p a n { back := o.back.headD 0, ecc := o.ecc, acq := false } = .error s →
        s.num = 0x1F ∧ s.cls = 1 ∧ s.fault = a ∧ s.unit = mcUnit a ∧ ∀ i ∈ l, Traps i q d (s.left.getD d') o.core p s.toTrap
      traps (.ldB o) 1 1 0x80 ∧ traps (.ldBu o) 1 1 0x80 ∧ traps (.ldH o) 2 2 0x80 ∧ traps (.ldHu o) 2 2 0x80 ∧
      traps (.ldW o) 4 4 0x80 ∧ traps (.ldWu o) 4 4 0x80 ∧ traps (.ldL o) 8 8 0x80 ∧ traps (.ldc o) 16 16 0x80 ∧
      traps (.fldS o) 4 4 0x80 ∧ traps (.fldD o) 8 8 0x80 ∧ traps (.wfill o) 128 16 0x80 ∧
      checks 1 [.ldB o, .ldBu o] ∧ checks 2 [.ldH o, .ldHu o] ∧ checks 4 [.ldW o, .ldWu o, .fldS o] ∧ checks 8 [.ldL o, .fldD o] ∧
      checks 16 [.ldc o]) ∧
    (∀ o : OpM, d.Issues o.core p d' → (d.core o.core).twin = none →
      let x := d'.core o.core
      let cap := x.cr o.cs.toNat
      let ea : Int := cap.cursor.toNat + (x.gr o.rb).toInt + o.off.toInt
      let traps (i : Instr) (n align : Nat) (perms : BitVec 8) : Prop :=
        d'.access p cap ea n perms align = .error t.stop → Traps i q d d' o.core p t
      traps (.stB o) 1 1 0x40 ∧ traps (.stH o) 2 2 0x40 ∧ traps (.stW o) 4 4 0x40 ∧ traps (.stL o) 8 8 0x40 ∧
      traps (.fstS o) 4 4 0x40 ∧ traps (.fstD o) 8 8 0x40 ∧
      traps (.stc o) 16 16 (if (x.cr (o.rd.toNat % 16)).tag then 0x48 else 0x40) ∧
      traps (.wspill o) 128 16 0x40) ∧
    (∀ o : OpMxLd, d.Issues o.core p d' → (d.core o.core).twin = none →
      let x := d'.core o.core
      let cap := x.cr o.cs.toNat
      let ea : Int := cap.cursor.toNat + (x.gr o.rb).toInt + o.off.toInt
      let both (i : Instr) (n : Nat) : Prop :=
        (d'.access p cap ea n 0x80 n = .error t.stop → Traps i q d d' o.core p t) ∧
        (∀ a s, d'.access p cap ea n 0x80 n = .ok a →
          d'.loadHow o.core p a n { back := o.back.headD 0, ecc := .good, acq := true } = .error s →
          s.num = 0x1F ∧ s.cls = 1 ∧ s.fault = a ∧ s.unit = mcUnit a ∧ Traps i q d (s.left.getD d') o.core p s.toTrap)
      both (.ldABu o) 1 ∧ both (.ldAHu o) 2 ∧ both (.ldAWu o) 4 ∧ both (.ldAL o) 8 ∧ both (.ldcA o) 16) ∧
    (∀ o : OpMx, d.Issues o.core p d' → (d.core o.core).twin = none →
      let x := d'.core o.core
      let cap := x.cr o.cs.toNat
      let ea : Int := cap.cursor.toNat + (x.gr o.rb).toInt + o.off.toInt
      let traps (i : Instr) (n : Nat) (perms : BitVec 8) : Prop := d'.access p cap ea n perms n = .error t.stop → Traps i q d d' o.core p t
      traps (.stRB o) 1 0x40 ∧ traps (.stRH o) 2 0x40 ∧ traps (.stRW o) 4 0x40 ∧ traps (.stRL o) 8 0x40 ∧
      traps (.stcR o) 16 (if (x.cr (o.rd.toNat % 16)).tag then 0x48 else 0x40)) ∧
    (∀ o : OpAtom, d.Issues o.core p d' → (d.core o.core).twin = none →
      let x := d'.core o.core
      let cap := x.cr o.cs.toNat
      let ea : Int := cap.cursor.toNat + (x.gr o.rb).toInt
      let traps (i : Instr) (n : Nat) (perms : BitVec 8) : Prop := d'.access p cap ea n perms n = .error t.stop → Traps i q d d' o.core p t
      let n := if o.sz then 4 else 8
      let stc : BitVec 8 := if (x.cr (o.rs.toNat % 16)).tag then 0xC8 else 0xC0
      traps (.swap o) n 0xC0 ∧ traps (.cas o) n 0xC0 ∧ traps (.aadd o) n 0xC0 ∧ traps (.aand o) n 0xC0 ∧ traps (.aor o) n 0xC0 ∧
      traps (.axor o) n 0xC0 ∧ traps (.amax o) n 0xC0 ∧ traps (.amin o) n 0xC0 ∧ traps (.amaxu o) n 0xC0 ∧ traps (.aminu o) n 0xC0 ∧
      traps (.swapc o) 16 stc ∧ traps (.casc o) 16 stc)

/-- Table 9.12's returned values, with the marks of R360 and R361 and the machine check of a poisoned location; what the line holds
afterwards is `Obligations.AtomicOperations`. A window holds no tags (R156). -/
def Obligations.Atomics : Prop :=
  ∀ (q : List Instr) (d d' : Dev) (p : Nat) (o : OpAtom), d.Issues o.core p d' → (d.core o.core).twin = none →
    let x := d'.core o.core
    let cap := x.cr o.cs.toNat
    let ea : Int := cap.cursor.toNat + (x.gr o.rb).toInt
    let n := if o.sz then 4 else 8
    let d1 := if o.rel then d'.release o.core p else d'
    let after (t : Dev) : Dev := if o.acq then t.acquireNow o.core else t
    let poisons (i : Instr) (a m : Nat) (u : Unc) : Prop := ∀ l d2, d1.atomic o.core p a m u = (l, true, d2) →
      Traps i q d d2 o.core p { num := 0x1F, fault := a, cls := 1, unit := mcUnit a }
    let does (i : Instr) (k : AtomKind) (signed : Bool) (z : Nat → List Owed) : Prop :=
      ∀ a, d'.access p cap ea n 0xC0 n = .ok a →
        let u : Unc := .atom (a % 64) o.sz k (x.gr o.rs) (x.gr o.rd)
        poisons i a n u ∧ ∀ l d2, d1.atomic o.core p a n u = (l, false, d2) →
        let old := l.get (a % 64) n
        Completes i q d (after d2) o.core {
          owed := ⟨x.arch.gpr o.rd, if signed && o.sz then (BitVec.ofNat 32 old).signExtend 64 else BitVec.ofNat 64 old, {}⟩ :: z old }
    let isZ (b : Bool) : List Owed := [⟨.z, if b then 1 else 0, {}⟩]
    let caps (i : Instr) (cas : Bool) : Prop :=
      let v := x.cr (o.rs.toNat % 16)
      let w := x.cr (o.rd.toNat % 16)
      ∀ a, d'.access p cap ea 16 (if v.tag then 0xC8 else 0xC0) 16 = .ok a →
        let u : Unc := .atomCap (a % 64) cas v w
        poisons i a 16 u ∧ ∀ l d2, d1.atomic o.core p a 16 u = (l, false, d2) →
        let old := if placeOf a = .window then { l.cap (a % 64) with tag := false } else l.cap (a % 64)
        Completes i q d (after d2) o.core {
          owed := ⟨.cap (o.rd.toNat % 16), 0, { old with tag := old.tag && cap.perms.getLsbD 4 }⟩ ::
            (if cas then isZ (decide (old = w)) else []) }
    does (.swap o) .swap false (fun _ => []) ∧
    does (.cas o) .cas false (fun old => isZ (decide (old = (x.gr o.rd).toNat % 2 ^ (8 * n)))) ∧
    does (.aadd o) .add false (fun _ => []) ∧ does (.aand o) .and false (fun _ => []) ∧ does (.aor o) .or false (fun _ => []) ∧
    does (.axor o) .xor false (fun _ => []) ∧ does (.amax o) .max true (fun _ => []) ∧ does (.amin o) .min true (fun _ => []) ∧
    does (.amaxu o) .maxu false (fun _ => []) ∧ does (.aminu o) .minu false (fun _ => []) ∧
    caps (.swapc o) false ∧ caps (.casc o) true

/-- Table 9.12's "Memory :=" column at both widths, with the frame within the line; and the read and the write of an atomic in the
memory without caches. -/
def Obligations.AtomicOperations : Prop :=
  (∀ (l : Line) (off : Nat) (four : Bool) (rs rd : Word),
     let n := if four then 4 else 8
     off % n = 0 → off + n ≤ 64 →
     let old := l.get off n
     let m := 2 ^ (8 * n)
     let v := rs.toNat % m
     let sg (u : Nat) : Int := if u < m / 2 then u else (u : Int) - m
     let leaves (k : AtomKind) (u : Nat) : Prop :=
       let t := Unc.apply (.atom off four k rs rd) l
       t.get off n = u ∧ ∀ j, j < 64 → (j < off ∨ off + n ≤ j) → t.get j 1 = l.get j 1
     leaves .swap v ∧ leaves .cas (if old = rd.toNat % m then v else old) ∧ leaves .add ((old + v) % m) ∧
     leaves .and (old &&& v) ∧ leaves .or (old ||| v) ∧ leaves .xor (old ^^^ v) ∧
     leaves .max (if sg old < sg v then v else old) ∧ leaves .min (if sg v < sg old then v else old) ∧
     leaves .maxu (max old v) ∧ leaves .minu (min old v)) ∧
  (∀ (d : Dev) (c p a n : Nat) (u : Unc) (l : Line) (bad : Bool) (t : Dev), placeOf a = .scratchpad →
     ((∃ four k rs rd, u = .atom (a % 64) four k rs rd ∧ n = (if four then 4 else 8) ∧ a % n = 0) ∨
       (∃ cas v w, u = .atomCap (a % 64) cas v w ∧ n = 16 ∧ a % 16 = 0)) →
     d.atomic c p a n u = (l, bad, t) →
     l = ((d.drainLine c p (a / 64)).awaitBanks (a / 64)).spadLine (a / 64) ∧
       t.spadLine (a / 64) = if bad = true then l else u.apply l)

/-- Table 9.9, with the bit store before and after, the marks of R360 and R361, and the poison of a bit. BLD returns the bit that it finds,
or one from before the `back` latest operations that it may miss (R359). -/
def Obligations.PavilionBits : Prop :=
  ∀ (q : List Instr) (d d' : Dev) (p : Nat) (o : OpPbit), d.Issues o.core p d' → (d.core o.core).twin = none →
    let x := d'.core o.core
    let a := (x.gr o.ra).toNat + o.imm.toNat
    let d1 := if o.rel then d'.release o.core p else d'
    let old := d1.pbit p a
    let z (b : Bool) : List Owed := [⟨.z, if b then 1 else 0, {}⟩]
    let sets (v : Bool) : Dev := (d1.setPbit p a v).metBit o.core a (d1.setPbit p a v).mem.clock o.acq
    let bld (back : List Nat) (ecc : EccFinding) : Instr := .bld { o with back := back, ecc := ecc }
    let poisoned := Table.get false d'.mem.bitPoison (p * 2 ^ 18 + a)
    let mc : Trap := { num := 0x1F, fault := a, cls := 1, unit := 4 }
    ((0x01000 ≤ a ∧ a ≤ 0x3FFFF) →
      Completes (.bst o) q d (sets (x.arch.bit 0x000)) o.core {} ∧
      Completes (.bclr o) q d (sets false) o.core {} ∧
      (∃ awake, Completes (.bset o) q d ((sets true).onMem fun m => { m with moverAwake := awake }) o.core {} ∧
        ∀ cl, cl < 16 → Table.get false awake (cl * 64 + p) =
          (Table.get false d1.mem.moverAwake (cl * 64 + p) || (o.rel && decide (d1.rd R.spad_MOVER_KICK cl p = a)))) ∧
      (poisoned = false →
        (∀ back ecc, ecc ≠ EccFinding.uncorrectable →
          Completes (bld back ecc) q d (d1.loadBit o.core p a (back.headD 0) o.acq).2 o.core
            { owed := z (d1.loadBit o.core p a (back.headD 0) o.acq).1 } ∧
          (back.headD 0 = 0 → (d1.loadBit o.core p a (back.headD 0) o.acq).1 = old)) ∧
        Completes (.btas o) q d (sets true) o.core { owed := z old } ∧
        Completes (.btac o) q d (sets false) o.core { owed := z old }) ∧
      (poisoned = true → Traps (.btas o) q d d' o.core p mc ∧ Traps (.btac o) q d d' o.core p mc ∧
        ∀ back ecc, ecc ≠ EccFinding.uncorrectable → Traps (bld back ecc) q d d' o.core p mc) ∧
      (∀ back, Traps (bld back .uncorrectable) q d
        (d'.onMem fun m => { m with bitPoison := Table.set false m.bitPoison (p * 2 ^ 18 + a) true }) o.core p mc) ∧
      ∀ v k r, (d1.setPbit p a v).pbit r k = if r = p ∧ k = a then v else if r * 2 ^ 18 + k = p * 2 ^ 18 + a then v else d1.pbit r k) ∧
    (¬ (0x01000 ≤ a ∧ a ≤ 0x3FFFF) → ∀ back ecc, ∀ i ∈ [bld back ecc, .bst o, .bset o, .bclr o, .btas o, .btac o],
      Traps i q d d' o.core p { num := 0x0E, fault := a % 2 ^ 64 })

/-- R253, with N = ((WBASE − WOLD) mod 33) / 2 + 1 of R250. -/
def Obligations.WindowSpills : Prop :=
  ∀ (q : List Instr) (d d' : Dev) (p a : Nat),
    let count (x : Core) : Nat := (x.arch.wbase + 33 - x.arch.wold) % 33 / 2 + 1
    let reg (g i : Nat) : PReg := .win (8 * ((g + i / 8) % 33) + i % 8)
    (∀ o : OpM, d.Issues o.core p d' → (d.core o.core).twin = none →
      let x := d'.core o.core
      let cap := x.cr o.cs.toNat
      wringLegal x.arch.wbase x.arch.wold = true →
      d'.access p cap (cap.cursor.toNat + (x.gr o.rb).toInt + o.off.toInt) 128 0x40 16 = .ok a →
      (2 ≤ count x →
        let d2 := d'.storeBytes o.core p a ((List.range 16).flatMap fun i => leBytes 8 (x.get (reg x.arch.wold i)).toNat)
        Completes (.wspill o) q d d2 o.core { bit := only 0x000 true, wold := ((d2.core o.core).arch.wold + 2) % 33 }) ∧
      (count x = 1 → Completes (.wspill o) q d d' o.core { bit := only 0x000 false })) ∧
    (∀ o : OpLd, d.Issues o.core p d' → (d.core o.core).twin = none →
      let x := d'.core o.core
      let cap := x.cr o.cs.toNat
      wringLegal x.arch.wbase x.arch.wold = true →
      d'.access p cap (cap.cursor.toNat + (x.gr o.rb).toInt + o.off.toInt) 128 0x80 16 = .ok a →
      (count x ≤ 15 →
        (∀ b d2, (d'.eccRead p a o.ecc).loadBytes o.core p a 128 false o.back = .ok (b, d2) →
          let w := ((d2.core o.core).arch.wold + 31) % 33
          Completes (.wfill o) q d d2 o.core {
            reg := these ((List.range 16).map fun i => (reg w i, BitVec.ofNat 64 (leNat ((b.drop (8 * i)).take 8))))
            bit := only 0x000 true, wold := w }) ∧
        (∀ s, (d'.eccRead p a o.ecc).loadBytes o.core p a 128 false o.back = .error s →
          s.num = 0x1F ∧ s.cls = 1 ∧ Traps (.wfill o) q d (s.left.getD d') o.core p s.toTrap)) ∧
      (count x = 16 → Completes (.wfill o) q d d' o.core { bit := only 0x000 false }))

/-- The control transfers, on taken and untaken paths, with every trap of theirs. RET with w7 at or above 2^38, and the order of the
OTYPE check, are the model's reading (notes/assumptions/14). -/
def Obligations.ControlTransfers : Prop :=
  ∀ (q : List Instr) (d d' : Dev) (p : Nat),
    (∀ o : OpB, d.Issues o.core p d' →
      let x := d'.core o.core
      let t : Cap := { x.arch.pcc with cursor := x.arch.pcc.cursor + BitVec.ofInt 38 (4 * o.off.toInt) }
      let goes (i : Instr) (taken : Bool) : Prop :=
        (taken = true → d'.fetchCheck p t = none → Completes i q d d' o.core { pcc := t }) ∧
        (taken = true → ∀ e, d'.fetchCheck p t = some e → Traps i q d d' o.core p e) ∧
        (taken = false → Completes i q d d' o.core {})
      goes (.bs o) (x.arch.bit o.ba.toNat) ∧ goes (.bc o) (!x.arch.bit o.ba.toNat)) ∧
    (∀ o : OpI, d.Issues o.core p d' →
      let x := d'.core o.core
      let n := (x.arch.wbase + 33 - x.arch.wold) % 33 / 2 + 1
      let wb := (x.arch.wbase + 2) % 33
      let sum : Int := (if o.ra = 0 then x.arch.pcc.cursor.toNat else (x.gr o.ra).toNat) + 4 * o.imm.toInt
      let t : Cap := { x.arch.pcc with cursor := BitVec.ofInt 38 sum }
      let bad := decide (sum < 0 ∨ 2 ^ 38 ≤ sum)
      (bad = true → ∀ i ∈ [Instr.jmp o, .call o], Traps i q d d' o.core p { num := 0x03, fault := (sum % 2 ^ 38).toNat }) ∧
      (bad = false →
        (∀ e, d'.fetchCheck p t = some e → ∀ i ∈ [Instr.jmp o, .call o], Traps i q d d' o.core p e) ∧
        (d'.fetchCheck p t = none →
          Completes (.jmp o) q d d' o.core { pcc := t } ∧
          (n ≠ 16 → Completes (.call o) q d d' o.core {
            reg := only (.win (8 * wb + 7)) (BitVec.ofNat 64 (x.arch.pcc.cursor.toNat + 4)), wbase := wb, pcc := t }) ∧
          (n = 16 → Traps (.call o) q d d' o.core p { num := 0x08, fault := x.arch.pcc.cursor.toNat })))) ∧
    (∀ o : OpT, d.Issues o.core p d' →
      let x := d'.core o.core
      let cur := x.arch.pcc.cursor.toNat
      let n := (x.arch.wbase + 33 - x.arch.wold) % 33 / 2 + 1
      let wb := (x.arch.wbase + 2) % 33
      let wr := (x.arch.wbase + 31) % 33
      let w7 := (x.gr 15).toNat
      let traps (i : Instr) (k f : Nat) : Prop := Traps i q d d' o.core p { num := k, fault := f }
      let tr : Cap := { x.arch.pcc with cursor := BitVec.ofNat 38 w7 }
      let jc : Cap := x.cr 14
      let v : Cap := x.cr o.cx.toNat
      let un (c : Cap) : Cap := { c with otype := 0 }
      (n = 1 → traps (.ret o) 0x09 cur ∧ traps (.retc o) 0x09 cur) ∧
      (n ≠ 1 →
        (2 ^ 38 ≤ w7 → traps (.ret o) 0x03 (w7 % 2 ^ 38)) ∧
        (w7 < 2 ^ 38 → ∀ e, d'.fetchCheck p tr = some e → Traps (.ret o) q d d' o.core p e) ∧
        (w7 < 2 ^ 38 → d'.fetchCheck p tr = none → Completes (.ret o) q d d' o.core { wbase := wr, pcc := tr }) ∧
        (∀ e, d'.fetchCheck p (un jc) = some e → Traps (.retc o) q d d' o.core p e) ∧
        (d'.fetchCheck p (un jc) = none → jc.otype.toNat ≤ 1 → Completes (.retc o) q d d' o.core { wbase := wr, pcc := un jc }) ∧
        (d'.fetchCheck p (un jc) = none → 2 ≤ jc.otype.toNat → traps (.retc o) 0x05 jc.cursor.toNat)) ∧
      (∀ e, d'.fetchCheck p (un v) = some e → Traps (.jmpc o) q d d' o.core p e ∧ Traps (.callc o) q d d' o.core p e) ∧
      (d'.fetchCheck p (un v) = none →
        (v.otype.toNat ≤ 1 → Completes (.jmpc o) q d d' o.core { pcc := un v }) ∧
        (2 ≤ v.otype.toNat → traps (.jmpc o) 0x05 v.cursor.toNat) ∧
        (n = 16 → traps (.callc o) 0x08 cur) ∧
        (n ≠ 16 → 2 ≤ v.otype.toNat → traps (.callc o) 0x05 v.cursor.toNat) ∧
        (n ≠ 16 → v.otype.toNat ≤ 1 → Completes (.callc o) q d d' o.core {
          reg := only (.win (8 * wb + 7)) (BitVec.ofNat 64 (cur + 4))
          cap := only 14 { x.arch.pcc with cursor := x.arch.pcc.cursor + 4, otype := 1 }, wbase := wb, pcc := un v })))

/-- R255: the fetch's check against the access checks of `Obligations.AccessChecks`; a core whose fetch fails takes that trap, and a
transfer checks its target before it changes anything (`Obligations.ControlTransfers`). -/
def Obligations.FetchChecks : Prop :=
  (∀ (d : Dev) (p : Nat) (pcc : Cap),
    d.fetchCheck p pcc = match d.access p pcc (pcc.cursor.toNat : Int) 4 0x20 4 with
      | .error t => some t.toTrap
      | .ok _ => none) ∧
  (∀ (d : Dev) (q : List Instr) (p : Nat) (o : OpA) (t : Trap), d.coreReady o.core = true → d.coreOwner o.core = some p →
    d.dueTrap o.core p = none → d.fetchCheck p (d.core o.core).arch.pcc = some t → Traps (.add o) q d d o.core p t)

/-- The system-register instructions with their privilege rules. -/
def Obligations.SystemInstructions : Prop :=
  ∀ (q : List Instr) (d d' : Dev) (p : Nat) (o : OpT), d.Issues o.core p d' → (d.core o.core).twin = none →
    let x := d'.core o.core
    let sys := x.arch.pcc.perms.getLsbD 2
    let v := (x.gr o.rd).toNat
    let b := v % 64
    let w := v / 256 % 64
    let legal := decide (b ≤ 32) && decide (w ≤ 32) && decide ((b + 33 - w) % 33 % 2 = 0) && decide ((b + 33 - w) % 33 ≤ 30)
    let reads (i : Instr) (r : Word) : Prop := Completes i q d d' o.core { reg := only (x.arch.gpr o.rd) r }
    let traps (i : Instr) (k f : Nat) : Prop := Traps i q d d' o.core p { num := k, fault := f }
    let cur := x.arch.pcc.cursor.toNat
    let bank := v % 512
    (o.n12 = 0x100 → reads (.rsr o) (BitVec.ofNat 64 d'.time)) ∧
    (o.n12 = 0x101 → reads (.rsr o) (BitVec.ofNat 64 ((if x.inSpareSlot then 2 ^ 22 else 0) + p * 2 ^ 16 +
      (d'.pavCores p).findIdx (· = o.core.val) * 2 ^ 8 + o.core))) ∧
    (sys = true →
      (o.n12 = 0x000 → reads (.rsr o) (BitVec.ofNat 64 (x.arch.wold * 256 + x.arch.wbase)) ∧
        (legal = true → Completes (.wsr o) q d d' o.core { wbase := b, wold := w }) ∧
        (legal = false → traps (.wsr o) 0x01 cur) ∧
        Completes (.rcr o) q d d' o.core { cap := only o.cx.toNat x.arch.ttb } ∧
        Completes (.wcr o) q d d' o.core { ttb := x.cr o.cx.toNat }) ∧
      (o.n12 = 0x001 → reads (.rsr o) x.arch.tcmp ∧ Completes (.wsr o) q d d' o.core { tcmp := BitVec.ofNat 64 v } ∧
        Completes (.rcr o) q d d' o.core { cap := only o.cx.toNat x.arch.shs } ∧
        Completes (.wcr o) q d d' o.core { shs := x.cr o.cx.toNat }) ∧
      Completes (.arm o) q d d' o.core { arm := x.arch.arm ||| ((1 : BitVec 4096) <<< o.n12.toNat) } ∧
      Completes (.disarm o) q d d' o.core { arm := x.arch.arm &&& ~~~((1 : BitVec 4096) <<< o.n12.toNat) } ∧
      (d'.holdsBank p bank = true → (p, Res.bank bank) ∉ d'.removing → ∃ d2, Completes (.bankrel o) q d d2 o.core { bit := only 0x000 true } ∧
        d2.bank bank = .releasing p (d'.rd R.pav_GENERATION p) ∧ bitOf (d2.rd R.pav_BANKS p) bank = false ∧
        (∀ k, k ≠ bank → d2.bank k = d'.bank k ∧ bitOf (d2.rd R.pav_BANKS p) k = bitOf (d'.rd R.pav_BANKS p) k) ∧ d2.cores = d'.cores) ∧
      (d'.holdsBank p bank = false ∨ (p, Res.bank bank) ∈ d'.removing → Completes (.bankrel o) q d d' o.core { bit := only 0x000 false })) ∧
    (sys = false →
      (o.n12.toNat ≤ 1 → ∀ i ∈ [Instr.rsr o, .wsr o, .rcr o, .wcr o], traps i 0x04 cur) ∧
      traps (.bankrel o) 0x04 cur ∧ traps (.arm o) 0x0E (0x1000 + o.n12.toNat) ∧ traps (.disarm o) 0x0E (0x1000 + o.n12.toNat)) ∧
    (2 ≤ o.n12.toNat → ∀ i ∈ [Instr.wsr o, .rcr o, .wcr o], traps i 0x01 cur) ∧
    (2 ≤ o.n12.toNat → o.n12.toNat ≠ 0x100 → o.n12.toNat ≠ 0x101 → traps (.rsr o) 0x01 cur) ∧
    reads (.bget o) (if x.arch.bits.getLsbD o.n12.toNat then 1 else 0)

/-- The barriers' endpoints (Table 12.1) and WAIT's two ends. A twin's pending trap 0x0A waits for an exchange (R351), one that waits for a
machine-check handler's ERET is not due (R331). -/
def Obligations.BarriersAndWait : Prop :=
  ∀ (q : List Instr) (d d' : Dev) (p : Nat),
    let due (y : Core) : Prop := y.mchecks ≠ [] ∨ (y.twin = none ∧ y.fpHeld = none ∧ y.fpTrap ≠ none)
    (∀ o : OpT, d.Issues o.core p d' →
      let x := d'.core o.core
      let c : Nat := o.core
      let d1 := d'.fence c p
      ((x.merge.length ≤ 16 → (d1.core c).merge = []) ∧ (d1.core c).observed = [] ∧ (d1.core c).asOf = d1.mem.clock) ∧
      Completes (.fence o) q d d1 o.core {} ∧
      (∃ d2, Completes (.cbar o) q d d2 o.core {} ∧
        (d2.core c).stored = [] ∧ (d2.core c).cbar = d2.uncovered c p ∧ (d2.core c).merge = (d1.core c).merge ∧
        (d1.mem.msgs = [] → d1.mem.turned = [] → ∀ l, l ∈ (d1.core c).stored → d1.lineAddr p l ≠ none →
          ∀ n, n < 16 → d2.lstate n p l ≠ .d) ∧
        (d1.mem.msgs = [] → d1.mem.turned = [] → ∀ k, k ∈ d1.uncovered c p → d1.winWait k = true → k ∈ (d2.core c).cbar)) ∧
      (x.signalAll.fpq = [] ∧
        (x.fpHeld ≠ none ∨ x.signalAll.fpTrap = none → Completes (.fbar o) q d (d'.setCore o.core x.signalAll) o.core {}) ∧
        (∀ cur, x.fpHeld = none → x.signalAll.fpTrap = some cur →
          Traps (.fbar o) q d d' o.core p { num := 0x0A, fault := cur.toNat })) ∧
      Completes (.isync o) q d ((d'.drainAll c p).onCore o.core fun y => { y with l1i := [], fbuf := none }) o.core {} ∧
      ((d'.armedDoorbell o.core p ≠ none ∨ x.arch.tcmp.toNat ≤ d'.time) → Completes (.wait o) q d d' o.core {}) ∧
      (d'.armedDoorbell o.core p = none → d'.time < x.arch.tcmp.toNat → ¬ due x →
        exec (.wait o) { pending := q, dev := d } =
          .next { pending := q, dev := d'.setCore o.core { x with waiting := some d'.time } })) ∧
    (∀ (o : OpCoreT) (s : Nat), d.thermalStop = false → (d.core o.core).run = .running → (d.core o.core).waiting = some s →
      d.coreOwner o.core = some p →
      let d1 : Dev := { d with time := max d.time o.t }
      let ended := (d1.armedDoorbell o.core p ≠ none ∨ (d.core o.core).arch.tcmp.toNat ≤ d1.time ∨ due (d.core o.core) ∨
        s + 100000 ≤ d1.time)
      (ended → Completes (.waitEnd o) q d (d1.onCore o.core fun y => { y with waiting := none }) o.core {}) ∧
      (¬ ended → exec (.waitEnd o) { pending := q, dev := d } = .next { pending := q, dev := d1 }))

/-- Trap entry of R341 on its ordinary path; `t.next` tells that the saved pcc is the next instruction's. The read of the doorbell
that trap 0x10 names is an acquire (R371), and a pending trap 0x0A that waits for an outer handler's ERET waits for this one's first. -/
def Obligations.TrapEntry : Prop :=
  ∀ (d d1 : Dev) (c p : Nat) (t : Trap) (e : Cap), (d.core c).fpq = [] → (d.core c).arch.owed = [] → (d.core c).merge = [] →
    (d.core c).fpTrap = none → t.num ≠ 0x1F → Table.Wf {} d.cores →
    d.ttbUsable p (d.core c).arch.ttb t.num = true → d.trapEntry c p t.num = (some e, d1) →
    let a := (d.core c).arch
    let csp := a.getCap 15
    let base := csp.cursor.toNat - 256
    d1.takesFrame p csp = true →
      let pcc : Cap := if t.next then { a.pcc with cursor := a.pcc.cursor + 4 } else a.pcc
      let slots := [pcc, csp, a.getCap 1, a.getCap 2, a.getCap 3, a.getCap 4, a.getCap 5, a.getCap 6, a.getCap 7, a.getCap 8]
      let words : Bytes := ([1, 2, 3, 4, 5, 6, 7].flatMap fun i => leBytes 8 (a.get (.k i)).toNat) ++
        leBytes 1 t.num ++ leBytes 1 0 ++ leBytes 2 0 ++ leBytes 4 (t.cls + 256 * t.unit) ++ leBytes 8 t.fault ++
        leBytes 8 (a.bits.toNat % 2 ^ 64) ++ leBytes 8 (a.wold * 256 + a.wbase) ++ leBytes 8 0
      let d2 := ((slots.zipIdx).foldl (fun d s => d.storePiece c p (base + 16 * s.2) s.1.bytes s.1.tag) d1).storeBytes c p (base + 160) words
      let d3 := d2.drainAll c p
      let y := (d.takeTrap c p t).core c
      { d.takeTrap c p t with cores := d3.cores } = d3 ∧ (∀ k, k ≠ c → (d.takeTrap c p t).core k = d3.core k) ∧
      y.arch.pcc = { e with otype := 0 } ∧ y.arch.caps = ((d3.core c).arch.put (.cap 15) 0 { csp with cursor := csp.cursor - 256 }).caps ∧
      y.arch.bits = a.bits &&& ~~~((1 : BitVec 4096) <<< 4) ∧ y.arch.k = a.k ∧ y.arch.win = a.win ∧ y.arch.f = a.f ∧ y.arch.owed = [] ∧
      y.arch.ttb = a.ttb ∧ y.arch.shs = a.shs ∧ y.arch.wbase = a.wbase ∧ y.arch.wold = a.wold ∧
      y.arch.arm = (if t.num = 0x10 then a.arm &&& ~~~((1 : BitVec 4096) <<< (t.fault % 4096)) else a.arm) ∧
      y.arch.tcmp = (if t.num = 0x11 then 0xFFFFFFFFFFFFFFFF else a.tcmp) ∧
      y.fpq = [] ∧ y.waiting = none ∧ y.checkpoint = y.arch ∧ y.fpHeld = (d3.core c).fpHeld.map (· + 1) ∧
      y.asOf = (if t.num = 0x10 then d3.mem.clock else (d3.core c).asOf) ∧
      { y with
        arch := (d3.core c).arch, checkpoint := (d3.core c).checkpoint, waiting := (d3.core c).waiting, fpHeld := (d3.core c).fpHeld
        asOf := (d3.core c).asOf } = d3.core c

/-- The software trap and the return from one, which ends the wait of a pending trap 0x0A for it (R331). A frame's WBASE above 32 is taken modulo 33 (notes/assumptions/9). -/
def Obligations.TrapAndReturn : Prop :=
  ∀ (q : List Instr) (d d' : Dev) (p : Nat) (o : OpT), d.Issues o.core p d' →
    let x := d'.core o.core
    let n := o.n12.toNat % 256
    let csp := x.cr 15
    let base := csp.cursor.toNat
    let fails (t : Dev) (r : Nat) : Prop := Traps (.eret o) q d t o.core p { num := 0x0D, fault := base, cls := r }
    let slots := (List.range 10).map fun i => base + 16 * i
    (0x40 ≤ n → Traps (.trap o) q d d' o.core p { num := n, fault := x.arch.pcc.cursor.toNat, next := true }) ∧
    (n < 0x40 → Traps (.trap o) q d d' o.core p { num := 0x01, fault := x.arch.pcc.cursor.toNat }) ∧
    (d'.givesFrame p csp = false → fails d' 1) ∧
    (d'.givesFrame p csp = true → ∀ s, loadCaps o.core p slots d' [] = .error s →
      s.num = 0x1F ∧ s.cls = 1 ∧ Traps (.eret o) q d (s.left.getD d') o.core p s.toTrap) ∧
    (d'.givesFrame p csp = true → ∀ caps d1 b d2,
      loadCaps o.core p slots d' [] = .ok (caps, d1) →
      d1.loadBytes o.core p (base + 160) 96 = .ok (b, d2) →
      let pcc := caps.getD 0 {}
      let sp := caps.getD 1 {}
      let word (k : Nat) : Nat := leNat ((b.drop k).take 8)
      let wb := word 80 % 64 % 33
      let a := (d2.core o.core).arch
      let ok : List Bool := [pcc.tag, decide (pcc.otype.toNat ≤ 1), pcc.perms.getLsbD 5,
        decide (pcc.cursor.toNat % 4 = 0) && decide (pcc.base.toNat ≤ pcc.cursor.toNat) &&
          decide (pcc.cursor.toNat + 4 ≤ pcc.base.toNat + pcc.len.toNat), sp.tag]
      (∀ k, k < 5 → (∀ j, j < k → ok[j]? = some true) → ok[k]? = some false → fails d2 (k + 2)) ∧
      ((∀ j, j < 5 → ok[j]? = some true) → Completes (.eret o) q d
          (d2.onCore o.core fun y => { y with fpHeld := y.fpHeld.bind fun n => if n = 0 then none else some (n - 1) }) o.core {
        reg := these ([1, 2, 3, 4, 5, 6, 7].map fun i => (.k i, BitVec.ofNat 64 (word (8 * (i - 1)))))
        cap := these ((15, sp) :: [1, 2, 3, 4, 5, 6, 7, 8].map fun i =>
          (i, if (caps.getD (i + 1) {}).tag then caps.getD (i + 1) {} else {}))
        bit := fun k =>
          if k ∈ [0, 1, 2, 3, 8, 9, 10, 11, 12, 0x10, 0x11, 0x12, 0x18, 0x19, 0x1A, 0x1B, 0x1C, 0x1F] then some ((word 72).testBit k)
          else if k = 4 then some ((d2.core o.core).arch.pcc.perms.getLsbD 2 && (word 72).testBit 4) else none
        wbase := wb, wold := if wringLegal wb a.wold then a.wold else wb
        pcc := { pcc with otype := 0 } }))

/-- Chapter 10's decimal instructions, and Table 10.2 and R311 to R314 on bytes. -/
def Obligations.DecimalArithmetic : Prop :=
  (∀ (q : List Instr) (d d' : Dev) (p : Nat) (o : OpDec), d.Issues o.core p d' → (d.core o.core).twin = none →
     let x := d'.core o.core
     let cap := x.cr o.cx.toNat
     let ea (f : BitVec 5) : Int := cap.cursor.toNat + (x.gr f).toInt
     let l := o.l.toNat + 1
     let max := 10 ^ (2 * l - 1)
     let flags (v : Int) : Nat → Option Bool :=
       these [(0, decide (v.natAbs % max = 0)), (1, decide (v < 0) && decide (v.natAbs % max ≠ 0)), (3, decide (max ≤ v.natAbs))]
     let bytes (v : Int) : Bytes := decBytes l v.natAbs (decide (v < 0))
     let does (t : Dev) (i : Instr) (r : Nat) (v : Int) : Prop := Completes i q d (t.storeBytes o.core p r (bytes v)) o.core { bit := flags v }
     let traps (i : Instr) (t : Dev) (x : Trap) : Prop := Traps i q d t o.core p x
     let two := [Instr.dadd o, .dsub o, .dmul o, .ddiv o]
     let checked (i : Instr) (s : Stop) : Prop := s.num = 0x1F ∧ s.cls = 1 ∧ Traps i q d (s.left.getD d') o.core p s.toTrap
     (∀ r, d'.access p cap (ea o.rd) l 0x40 1 = .ok r → does d' (.dcvtBd o) r (x.gr o.rb).toInt) ∧
     (∀ a ba d1, d'.access p cap (ea o.ra) l 0x80 1 = .ok a → d'.loadBytes o.core p a l false o.back = .ok (ba, d1) →
       (firstBad ba = none → Completes (.dcvtDb o) q d d1 o.core {
         reg := only (x.arch.gpr o.rd) (BitVec.ofInt 64 (decValue ba))
         bit := these [(0, decide (BitVec.ofInt 64 (decValue ba) = 0)), (1, (BitVec.ofInt 64 (decValue ba)).msb),
           (3, decide (decValue ba < -2 ^ 63 ∨ 2 ^ 63 ≤ decValue ba))] }) ∧
       (∀ k, firstBad ba = some k → traps (.dcvtDb o) d1 { num := 0x0B, fault := a + k }) ∧
       ∀ b bb d2, d'.access p cap (ea o.rb) l 0x80 1 = .ok b → d1.loadBytes o.core p b l false o.backB = .ok (bb, d2) →
         (∀ r, d'.access p cap (ea o.rd) l 0x40 1 = .ok r →
           let is := [Instr.dadd o, .dsub o, .dmul o]
           (∀ k, firstBad ba = some k → ∀ i ∈ is, traps i d2 { num := 0x0B, fault := a + k }) ∧
           (firstBad ba = none → ∀ k, firstBad bb = some k → ∀ i ∈ is, traps i d2 { num := 0x0B, fault := b + k }) ∧
           (firstBad ba = none → firstBad bb = none → does d2 (.dadd o) r (decValue ba + decValue bb) ∧
             does d2 (.dsub o) r (decValue ba - decValue bb) ∧ does d2 (.dmul o) r (decValue ba * decValue bb))) ∧
         (∀ r, d'.access p cap (ea o.rd) (2 * l) 0x40 1 = .ok r →
           (∀ k, firstBad ba = some k → traps (.ddiv o) d2 { num := 0x0B, fault := a + k }) ∧
           (firstBad ba = none → ∀ k, firstBad bb = some k → traps (.ddiv o) d2 { num := 0x0B, fault := b + k }) ∧
           (firstBad ba = none → firstBad bb = none →
           let n := (decValue ba).tdiv (decValue bb)
           (decValue bb = 0 → traps (.ddiv o) d2 { num := 0x07, fault := x.arch.pcc.cursor.toNat }) ∧
           (decValue bb ≠ 0 → Completes (.ddiv o) q d
             (d2.storeBytes o.core p r (bytes n ++ bytes ((decValue ba).tmod (decValue bb)))) o.core
             { bit := these [(0, decide (n = 0)), (1, decide (n < 0)), (3, false)] })))) ∧
     (∀ t, d'.access p cap (ea o.ra) l 0x80 1 = .error t.stop → (∀ i ∈ two, traps i d' t) ∧ traps (.dcvtDb o) d' t) ∧
     (∀ t, d'.access p cap (ea o.rd) l 0x40 1 = .error t.stop → traps (.dcvtBd o) d' t) ∧
     (∀ a, d'.access p cap (ea o.ra) l 0x80 1 = .ok a →
       (∀ t, d'.access p cap (ea o.rb) l 0x80 1 = .error t.stop → ∀ i ∈ two, traps i d' t) ∧
       (∀ s, d'.loadBytes o.core p a l false o.back = .error s → checked (.dcvtDb o) s) ∧
       ∀ b, d'.access p cap (ea o.rb) l 0x80 1 = .ok b →
         let last (i : Instr) (n : Nat) : Prop :=
           (∀ t, d'.access p cap (ea o.rd) n 0x40 1 = .error t.stop → traps i d' t) ∧
           (∀ r, d'.access p cap (ea o.rd) n 0x40 1 = .ok r →
             (∀ s, d'.loadBytes o.core p a l false o.back = .error s → checked i s) ∧
             (∀ ba d1, d'.loadBytes o.core p a l false o.back = .ok (ba, d1) →
               ∀ s, d1.loadBytes o.core p b l false o.backB = .error s → checked i s))
         last (.dadd o) l ∧ last (.dsub o) l ∧ last (.dmul o) l ∧ last (.ddiv o) (2 * l))) ∧
  (let nib (b : Bytes) (k : Nat) : Nat := (b.getD (k / 2) 0).toNat / 16 ^ (k % 2) % 16
   (∀ (l m : Nat) (neg : Bool), 1 ≤ l → l ≤ 16 →
     let b := decBytes l m neg
     let r := m % 10 ^ (2 * l - 1)
     b.length = l ∧ firstBad b = none ∧ nib b 0 = (if neg = true ∧ r ≠ 0 then 0xD else 0xC) ∧
     (∀ k, k < 2 * l - 1 → nib b (k + 1) = m / 10 ^ k % 10) ∧ decValue b = if neg then -(r : Int) else r) ∧
   (∀ b : Bytes, b ≠ [] →
     let mag := ((List.range (2 * b.length - 1)).map fun k => nib b (k + 1) * 10 ^ k).sum
     decValue b = if nib b 0 = 0xD then -(mag : Int) else mag) ∧
   (∀ (b : Bytes) (k : Nat),
     let bad (i : Nat) : Prop := 9 < nib b (2 * i + 1) ∨ (i = 0 ∧ nib b 0 ≠ 0xC ∧ nib b 0 ≠ 0xD ∧ nib b 0 ≠ 0xF) ∨ (i ≠ 0 ∧ 9 < nib b (2 * i))
     firstBad b = some k ↔ k < b.length ∧ bad k ∧ ∀ j, j < k → ¬ bad j))

/-- The block instructions. Where a run stops is the command's operand (notes/assumptions/6). Each stretch between commit points is loaded
whole before the next; a machine check keeps the stretches before it (R281, R301, R450). -/
def Obligations.BlockMoves : Prop :=
  (∀ (q : List Instr) (d d' : Dev) (p : Nat) (o : OpBlk), d.Issues o.core p d' → (d.core o.core).twin = none →
    let x := d'.core o.core
    let c : Nat := o.core
    let n := (x.gr o.rb).toNat
    let src := x.cr (o.ra.toNat % 16)
    let dst := x.cr (o.rd.toNat % 16)
    let cx := x.cr o.cx.toNat
    let s := src.cursor.toNat
    let r := dst.cursor.toNat
    let past (v : Cap) (k : Nat) : Cap := { v with cursor := v.cursor + BitVec.ofNat 38 k }
    let done (at64 : Nat → Bool) : Nat := match o.stop with
      | some k => if 0 < k ∧ k < n ∧ at64 k = true then k else n
      | none => n
    let next (k : Nat) : Cap := if k < n then x.arch.pcc else { x.arch.pcc with cursor := x.arch.pcc.cursor + 4 }
    (n = 0 → Completes (.movb o) q d d' o.core {} ∧ Completes (.crcm o) q d d' o.core {}) ∧
    (n ≠ 0 →
      (∀ a b, d'.access p src s n 0x80 1 = .ok a → d'.access p dst r n 0x40 1 = .ok b →
        let down := decide (s < r ∧ r < s + n)
        let k := done fun k => decide ((if down then r + n - k else r + k) % 64 = 0)
        let l := (pieces 64 (k + 1) (if down then r + n - k else r) k).map fun e => (e.1 + s - r, e.2)
        let put (a : Nat) (v : Bytes) (t : Dev) : Dev := t.storeBytes c p (a + r - s) v true
        let note (k : Nat) (t : Dev) : Dev := t.onCore c fun y =>
          let y := y.wgr o.rb (BitVec.ofNat 64 (n - k))
          if down then y
          else if o.ra.toNat % 16 = o.rd.toNat % 16 then y.wcr (o.ra.toNat % 16) (past src k)
          else (y.wcr (o.ra.toNat % 16) (past src k)).wcr (o.rd.toNat % 16) (past dst k)
        let run := stretches c p put note (if down then l.reverse else l) o.back 0 d'
        (∀ t, run = .ok t → Completes (.movb o) q d t o.core {
          reg := only (x.arch.gpr o.rb) (BitVec.ofNat 64 (n - k))
          cap := if down then fun _ => none else these [(o.ra.toNat % 16, past src k), (o.rd.toNat % 16, past dst k)]
          pcc := next k }) ∧
        (∀ e, run = .error e → e.num = 0x1F ∧ e.cls = 1 ∧ Traps (.movb o) q d (e.left.getD d') o.core p e.toTrap)) ∧
      (∀ a, d'.access p cx cx.cursor.toNat n 0x80 1 = .ok a →
        let k := done fun k => decide ((cx.cursor.toNat + k) % 64 = 0)
        let put (_ : Nat) (v : Bytes) (t : Dev) : Dev := t.onCore c fun y =>
          y.wgr o.rd ((crcState ((y.gr o.rd).setWidth 32) v).setWidth 64)
        let note (k : Nat) (t : Dev) : Dev := t.onCore c fun y =>
          ((y.wgr o.rb (BitVec.ofNat 64 (n - k))).wgr o.rd (y.gr o.rd)).wcr o.cx.toNat (past cx k)
        let run := stretches c p put note (pieces 64 (k + 1) cx.cursor.toNat k) o.back 0 d'
        (∀ t, run = .ok t → Completes (.crcm o) q d t o.core {
          reg := these [(x.arch.gpr o.rd, (t.core c).gr o.rd), (x.arch.gpr o.rb, BitVec.ofNat 64 (n - k))]
          cap := only o.cx.toNat (past cx k)
          pcc := next k }) ∧
        (∀ e, run = .error e → e.num = 0x1F ∧ e.cls = 1 ∧ Traps (.crcm o) q d (e.left.getD d') o.core p e.toTrap) ∧
        (cx.cursor.toNat % 64 + k ≤ 64 → ∀ v d1, d'.loadBytes c p cx.cursor.toNat k true o.back = .ok (v, d1) →
          Completes (.crcm o) q d d1 o.core {
            reg := these [(x.arch.gpr o.rd, if o.rd.toNat = 0 then 0 else (crcState ((x.gr o.rd).setWidth 32) v).setWidth 64),
              (x.arch.gpr o.rb, BitVec.ofNat 64 (n - k))]
            cap := only o.cx.toNat (past cx k)
            pcc := next k })) ∧
      (∀ t, d'.access p src s n 0x80 1 = .error t.stop → Traps (.movb o) q d d' o.core p t) ∧
      (∀ a t, d'.access p src s n 0x80 1 = .ok a → d'.access p dst r n 0x40 1 = .error t.stop → Traps (.movb o) q d d' o.core p t) ∧
      (∀ t, d'.access p cx cx.cursor.toNat n 0x80 1 = .error t.stop → Traps (.crcm o) q d d' o.core p t))) ∧
  (∀ (c p : Nat) (put : Nat → Bytes → Dev → Dev) (note : Nat → Dev → Dev) (back : List Nat) (done : Nat) (t : Dev),
    stretches c p put note [] back done t = .ok t ∧
    ∀ (a n : Nat) (l : List (Nat × Nat)),
      (∀ b t1, t.loadBytes c p a n true back = .ok (b, t1) →
        stretches c p put note ((a, n) :: l) back done t =
          stretches c p put note l (back.drop (pieces 8 (n + 1) a n).length) (done + n) (put a b t1)) ∧
      (∀ e, t.loadBytes c p a n true back = .error e → ∃ s, stretches c p put note ((a, n) :: l) back done t = .error s ∧
        s.toTrap = e.toTrap ∧ s.left = some (if done = 0 then e.left.getD t else note done (e.left.getD t)))) ∧
  (∀ (s : BitVec 32) (a b : Bytes), crcState s (a ++ b) = crcState (crcState s a) b)

/-- Table 7.4 in its order, and CHST's effect. The core's own stores are performed first (R210). -/
def Obligations.ChstStarts : Prop :=
  ∀ (q : List Instr) (d d' : Dev) (p : Nat) (o : OpDev), d.Issues o.core p d' → (d.core o.core).twin = none →
    let x := d'.core o.core
    let e := (x.gr o.ra).toNat % 4096
    let n := (x.gr o.rb).toNat
    let cap := x.cr o.cx.toNat
    let d1 := d'.drainAll o.core p
    (∀ t, d'.access p cap cap.cursor.toNat 32 0x92 32 = .error t.stop → Traps (.chst o) q d d' o.core p t) ∧
    (∀ a, d'.access p cap cap.cursor.toNat 32 0x92 32 = .ok a →
      (d1.epOwner e ≠ some p ∨ (p, Res.endpoint e) ∈ d1.removing → Submits (.chst o) q d d1 o.core o.rd 0x0401 0) ∧
      (d1.epOwner e = some p → (p, Res.endpoint e) ∉ d1.removing →
        (d1.rd R.ep_STATE e ≠ 2 → Submits (.chst o) q d d1 o.core o.rd 0x020A 0) ∧
        (d1.rd R.ep_STATE e = 2 →
          (∀ i d2, Dev.readList p cap 64 0 d1 [] = .error (i, d2) → Submits (.chst o) q d d2 o.core o.rd 0x0107 i) ∧
          (∀ l d2, Dev.readList p cap 64 0 d1 [] = .ok (l, d2) →
            let entries := d2.rd R.ep_CQ_ENTRIES e
            let checks : List (Bool × Nat) := [(decide (d2.claimedNum e < n), 0x0106), (d2.opsFit e, 0x030A),
              (decide (entries ≠ 0) && d2.ringMapped p (d2.rd R.ep_CQ_BASE e) (32 * entries), 0x020D), (d2.cqTakes e, 0x0309),
              ((d2.choosePath p e).isSome, 0x020B), (d2.roomForOpst p, 0x0305)]
            (∀ i, d2.badBuffer p l = some i → Submits (.chst o) q d d2 o.core o.rd 0x0108 i) ∧
            (d2.badBuffer p l = none →
              (∀ b, checks.find? (fun k => !k.1) = some b → Submits (.chst o) q d d2 o.core o.rd b.2 0) ∧
              (checks.find? (fun k => !k.1) = none → ∃ t i, Submits (.chst o) q d t o.core o.rd 0 0 ∧ d2.choosePath p e = some i ∧
                t.chan.ops = d2.chan.ops ++ [{
                  pav := p, gen := d2.rd R.pav_GENERATION p, ep := e, opnum := n, cmds := l.map (·.1),
                  list := cap.cursor.toNat, path := i, code := d2.pathCode e i }] ∧
                t.claimedNum e = n ∧
                (t.hring p).recs.getLast?.map (·.body) = some (.opst n e i (codeTwin (d2.pathCode e i)) l.length d2.time) ∧
                { t with chan := d2.chan, hearth := d2.hearth, dict := d2.dict } = d2 ∧
                { t.chan with ops := d2.chan.ops, claimed := d2.chan.claimed } = d2.chan))))))

/-- CHCTL's five forms. Each STOP and HALT joins those that the operation has, but STOP of one operation in HALTING. RELEASE first completes and
posts what its MARK would otherwise follow (R238). -/
def Obligations.ChctlControls : Prop :=
  ∀ (q : List Instr) (d d' : Dev) (p : Nat) (o : OpDev), d.Issues o.core p d' → (d.core o.core).twin = none →
    let x := d'.core o.core
    let e := (x.gr o.ra).toNat % 4096
    let n := (x.gr o.rb).toNat
    let cap := x.cr o.cx.toNat
    let d1 := d'.drainAll o.core p
    let all := [Instr.chctlStop o, .chctlHalt o, .chctlStopall o, .chctlHaltall o, .chctlRelease o]
    let gives (i : Instr) (t : Dev) (r : Nat) : Prop := Submits i q d t o.core o.rd r 0
    let traps (k : Nat) : Prop := ∀ i ∈ all, Traps i q d d' o.core p { num := k, fault := cap.cursor.toNat }
    let reach (s : OpSt) : Prop := s = .opening ∨ s = .running ∨ s = .moving ∨ s = .halting
    -- what STOP (1) or HALT (2) with a scope leaves of an operation, in `t`
    let stopped (t : Dev) (op : ChanOp) (code scope : Nat) : Prop := ∃ r, t.findOp e op.opnum = some r ∧
      (op.st = .halting ∧ scope = 0 → r = op) ∧
      (¬ (op.st = .halting ∧ scope = 0) → (∃ y, y ∈ r.ctl ∧ y.code = code ∧ y.scope = scope) ∧
        ∀ y, y ∈ op.ctl → ∃ z, z ∈ r.ctl ∧ z.code = y.code ∧ z.scope = y.scope) ∧
      (op.st = .opening ∨ op.st = .halting → r.st = op.st) ∧
      (op.st = .running ∨ op.st = .moving →
        (code = 1 → r.st = op.st) ∧
        (code = 2 → r.st = .halting ∧ r.due = d1.time + d1.rd R.ep_ENDPOINT_TIMEOUT e * 1000000 ∧
          ∀ k b, b ∈ (t.link k).dataQ → b.ep = e → b.opnum = op.opnum → b.msg.sequenced = false))
    (cap.tag = false → traps 0x02) ∧
    (cap.tag = true → cap.otype ≠ 0 → traps 0x05) ∧
    (cap.tag = true → cap.otype = 0 → cap.perms.getLsbD 1 = false → traps 0x04) ∧
    (cap.tag = true → cap.otype = 0 → cap.perms.getLsbD 1 = true →
      (d1.epOwner e ≠ some p → ∀ i ∈ all, gives i d1 0x0401) ∧
      (d1.epOwner e = some p →
        ((∀ op, d1.findOp e n = some op → ¬ reach op.st) → gives (.chctlStop o) d1 0x020C ∧ gives (.chctlHalt o) d1 0x020C) ∧
        (∀ op, d1.findOp e n = some op → reach op.st →
          (∃ t, gives (.chctlStop o) t 0 ∧ stopped t op 1 0 ∧ { t with chan := d1.chan } = d1) ∧
          (∃ t, gives (.chctlHalt o) t 0 ∧ stopped t op 2 0 ∧ { t with chan := d1.chan, dict := d1.dict } = d1)) ∧
        (∃ t, gives (.chctlStopall o) t 0 ∧ { t with chan := d1.chan } = d1 ∧
          ∀ k op, d1.findOp e k = some op → reach op.st → stopped t op 1 1) ∧
        (∃ t, gives (.chctlHaltall o) t 0 ∧ { t with chan := d1.chan, dict := d1.dict } = d1 ∧
          ∀ k op, d1.findOp e k = some op → reach op.st → stopped t op 2 1) ∧
        (let d2 := (d1.syncRing p).postRing p fun _ => false
         let any := (d1.postedOf e).any fun y => !y.2 && decide (y.1 ≤ n)
         let rel := ((d2.postedOf e).filter fun y => !y.2 && decide (y.1 ≤ n)).map (·.1)
         (any = false → gives (.chctlRelease o) d1 0) ∧
         (∀ y l, any = true → rel = y :: l → ∃ t, gives (.chctlRelease o) t 0 ∧
           t.postedOf e = ((d2.postedOf e).map fun z => (z.1, z.2 || decide (z.1 ≤ n))).dropWhile (·.2) ∧
           (∀ k op, k ∈ rel → t.findOp e k = some op → op.st = .released) ∧
           t.hearth = (((d2.appendMark p (.markConsumed e (l.foldl min y) (l.foldl max y))).syncRing p).advanceTail p).hearth ∧
           { t with chan := d2.chan, hearth := d2.hearth, dict := d2.dict } = d2))))

/-- OPST_COMPLETE and OPDN_COMPLETE; the entry is Table 7.11a's. A completion is posted after those of the pavilion whose OPDN records come
before its own (R237). -/
def Obligations.OperationRecords : Prop :=
  ∀ (q : List Instr) (d : Dev) (o : OpOpnumT) (op : ChanOp), d.thermalStop = false → d.findOp o.ep o.opnum.toNat = some op →
    let d1 := d.at o.t
    let e := o.ep.val
    let limit := d.rd R.ep_ENDPOINT_TIMEOUT e * 1000000
    let isHalt (y : OpCtl) : Prop := y.code = 2
    (op.st = .opening → (∀ y, y ∈ op.ctl → ¬ isHalt y) → ∀ i, d.pathIndex op = some i →
      ∃ t r tag, Answers (.opstComplete o) q d t ∧ t.findOp e op.opnum = some r ∧ 1 ≤ tag ∧ tag ≤ 65535 ∧
        r.st = .running ∧ r.live = true ∧ r.tag = tag ∧ r.path = i ∧ r.code = op.code ∧ r.moved = op.moved ∧
        r.msgDue = d1.time + limit ∧ r.queryDue = d1.time + limit / 4 ∧ t.rd R.ep_LAST_OPNUM e = op.opnum ∧
        (∀ k, (t.link k).dataQ = (d.link k).dataQ ++ if k ∈ (codeLinks op.code).filter d.linkUp then
          (.start false :: opMsgs op.cmds).map fun m => {
            pav := op.pav, ep := e, opnum := op.opnum, tag := tag, msg := m, twin := codeTwin op.code } else []) ∧
        { t with chan := d1.chan, hearth := d1.hearth, dict := d1.dict } = d1) ∧
    (op.st = .opening → (∀ y, y ∈ op.ctl → ¬ isHalt y) → d.pathIndex op = none →
      ∃ t r, Answers (.opstComplete o) q d t ∧ t.findOp e op.opnum = some r ∧ r.st = .moving ∧ r.due = d1.time + limit) ∧
    (op.st = .opening → (∃ y, y ∈ op.ctl ∧ isHalt y) →
      ∃ t r, Answers (.opstComplete o) q d t ∧ t.findOp e op.opnum = some r ∧ r.st = .halting ∧ r.due = d1.time + limit ∧
        ∀ k b, b ∈ (t.link k).dataQ → b.ep = e → b.opnum = op.opnum → b.msg.sequenced = false) ∧
    (op.st ≠ .opening → Answers (.opstComplete o) q d d1) ∧
    (∀ l1 y l2, op.st = .done → op.posted = false → d.plat.presented = true →
      (d.hring op.pav).recs = l1 ++ y :: l2 → y.body.isOpdn e op.opnum = true →
      (∀ z, z ∈ l1 → z.body.isOpdn e op.opnum = false ∧ ∀ x m w, z.body.isOpdn x m = true → d.findOp x m = some w →
        ¬ (w.pav = op.pav ∧ w.st = .done ∧ w.posted = false)) →
      let k := Table.get 0 d.chan.cqIndex e
      let n := d.rd R.ep_CQ_ENTRIES e
      let d2 := d1.completeRec op.pav fun b => b.isOpdn e op.opnum
      let entry := leBytes 8 op.opnum ++ leBytes 2 op.status ++ leBytes 2 op.unitStatus ++ leBytes 4 op.residual ++
        leBytes 8 op.doneAt ++ leBytes 1 op.failedCmd ++ leBytes 1 (if op.replay then 1 else 0) ++ leBytes 1 op.path ++
        leBytes 1 ((if k / max 1 n % 2 = 0 then 1 else 0) + (if op.dup then 2 else 0) + (if op.moved then 4 else 0)) ++ zeros 4
      let d3 := (d2.devWrite op.pav (d2.rd R.ep_CQ_BASE e + 32 * (k % max 1 n)) entry).ring op.pav (d2.rd R.ep_DOORBELL e)
      ∃ t, Answers (.opdnComplete o) q d t ∧ { t with chan := d3.chan } = d3 ∧ Table.get 0 t.chan.cqIndex e = k + 1 ∧
        t.postedOf e = (d.postedOf e ++ [(op.opnum, false)]).dropWhile (·.2) ∧
        t.findOp e op.opnum = some { op with posted := true, live := false }) ∧
    (op.st = .done → op.posted = false → d.plat.presented = true →
      let f := fun (b : RecBody) => b.isOpdn e op.opnum
      Answers (.opdnComplete o) q d ((d1.completeRec op.pav f).postRing op.pav f)) ∧
    (op.st ≠ .done ∨ op.posted = true ∨ d.plat.presented = false → Answers (.opdnComplete o) q d d1)

/-- OPENED, RDATA, FINAL and CONTROL_REPLY on every path, up to what the next messages of the link then meet (`Dev.passFront`, R615). -/
def Obligations.EndpointMessages : Prop :=
  ∀ (q : List Instr) (d : Dev) (o : RxOp), d.thermalStop = false →
    let n := o.link.val
    let d1 := d.at o.t
    let b := o.payload
    Answers (.controlReply o) q d (d1.setLink n { d.link n with replies := (d.link n).replies.erase b }) ∧
    (∀ rest, (d.link n).passed = b :: rest →
      let d2 := d1.setLink n { d.link n with passed := rest }
      let gives (i : Instr) (t : Dev) : Prop := Answers i q d (t.passFront n)
      (d.opOfTag n (fieldLE b 2 2) = none →
        (fieldLE b 0 1 = 0x81 → gives (.opened o) (d2.bump R.link_STRAY_MESSAGES n)) ∧
        (fieldLE b 0 1 = 0x82 → gives (.rdata o) (d2.bump R.link_STRAY_MESSAGES n)) ∧
        (fieldLE b 0 1 = 0x83 → gives (.final o) (d2.bump R.link_STRAY_MESSAGES n))) ∧
      (∀ op, d.opOfTag n (fieldLE b 2 2) = some op → op.isOpen = true →
        let limit := d.rd R.ep_ENDPOINT_TIMEOUT op.ep * 1000000
        let h := { op with msgDue := d1.time + limit, queryDue := d1.time + limit / 4, queried := false }
        let i := fieldLE b 8 1
        let len := fieldLE b 10 2
        let off := fieldLE b 12 4
        let seq := fieldLE b 4 4
        (fieldLE b 0 1 = 0x81 →
          (op.st = .moving → fieldLE b 16 4 ≤ (opMsgs op.cmds).length →
            let r := { h with st := .running }
            gives (.opened o) ((d2.setOp r).queueData r ((opMsgs op.cmds).drop (fieldLE b 16 4)))) ∧
          (op.st = .moving → (opMsgs op.cmds).length < fieldLE b 16 4 → gives (.opened o) (d2.protocolError h)) ∧
          (op.st = .querying → ∃ t r, gives (.opened o) t ∧ t.findOp op.ep op.opnum = some r ∧ r.st = .halting ∧
            ∃ y, y ∈ r.ctl ∧ y.code = 2 ∧ y.scope = 0 ∧ y.own = true) ∧
          (op.st = .running ∨ op.st = .halting ∨ op.st = .opening → gives (.opened o) (d2.setOp h))) ∧
        (fieldLE b 0 1 = 0x82 →
          (op.replay = true ∨ seq < op.rxNext → gives (.rdata o) (d2.setOp h)) ∧
          (op.replay = false → op.rxNext < seq →
            gives (.rdata o) (if codeTwin op.code then d2.setOp h else d2.protocolError h)) ∧
          (op.replay = false → seq = op.rxNext →
            (op.cmds[i]? = none → gives (.rdata o) (d2.protocolError h)) ∧
            (∀ c, op.cmds[i]? = some c →
              (c.cmd / 64 ≠ 2 ∨ c.count < off + len → gives (.rdata o) (d2.protocolError h)) ∧
              (c.cmd / 64 = 2 → off + len ≤ c.count →
                let r := { h with rxNext := op.rxNext + 1, got := op.got + len }
                let d3 := (d2.devWrite op.pav (c.buf + off) ((b.drop 16).take len)).setOp r
                (op.held = none → gives (.rdata o) d3) ∧
                (∀ f, op.held = some f →
                  gives (.rdata o) (if fieldLE f 44 4 ≤ op.rxNext + 1 then d3.takeFinal n r f else d3)))))) ∧
        (fieldLE b 0 1 = 0x83 →
          let ends := fieldLE b 44 4
          let on := if n ∈ op.heldOn then op.heldOn else op.heldOn ++ [n]
          let mine := fieldLE b 32 2 ≤ 7 ∧ 32 ≤ b.length ∧ (b.drop 16).take 1 = leBytes 1 op.pav ∧
            (b.drop 18).take 14 = leBytes 2 (d.rd R.ep_UNIT_ADDR op.ep) ++ leBytes 4 op.gen ++ leBytes 8 op.opnum
          let more := ∃ k, k ∈ (codeLinks op.code).filter d.linkUp ∧ k ∉ on
          (¬ mine → gives (.final o) (d2.protocolError h)) ∧
          (mine → op.replay = false → op.rxNext < ends → more → gives (.final o) (d2.setOp { h with held := some b, heldOn := on })) ∧
          (mine → op.replay = false → (op.rxNext < ends ∧ ¬ more) ∨ ends < op.rxNext → gives (.final o) (d2.protocolError h)) ∧
          (mine → (op.replay = true ∨ op.rxNext = ends) →
            let dup := bitOf (fieldLE b 41 1) 0
            let r := { h with
              st := .done, status := op.recorded.getD (fieldLE b 32 2), unitStatus := fieldLE b 34 2,
              residual := fieldLE b 36 4, failedCmd := fieldLE b 40 1, dup := dup, doneAt := d1.time,
              ctl := [], held := none, heldOn := [] }
            ∃ t, gives (.final o) t ∧ t.findOp op.ep op.opnum = some r ∧
              (∀ k x, x ∈ (t.link k).dataQ → ¬ (x.ep = op.ep ∧ x.opnum = op.opnum)) ∧
              (t.hring op.pav).recs.getLast?.map (·.body) = some (.opdn op.opnum op.ep r.status r.residual d1.time
                (if op.replay then 1 else 0) r.failedCmd r.unitStatus op.path ((if dup then 2 else 0) + (if op.moved then 4 else 0))) ∧
              { t with chan := d1.chan, hearth := d1.hearth, dict := d1.dict } = d1)))) ∧
    (∀ t : Dev, ((t.link n).passed = [] → t.passFront n = t) ∧
      ∀ f rest w, (t.link n).passed = f :: rest → t.opOfTag n (fieldLE f 2 2) = some w → opDecodable f = true → t.passFront n = t)

/-- The five timers, each as it ends by the value of ENDPOINT_TIMEOUT that it began with (R244). How much the endpoint had taken of a WRITE, and
what an operation found at replay had left to transfer, is a free value (notes/assumptions/21). -/
def Obligations.OperationTimers : Prop :=
  ∀ (q : List Instr) (d : Dev) (o : OpOpnumT) (op : ChanOp), d.thermalStop = false → d.findOp o.ep o.opnum.toNat = some op →
    let d1 := d.at o.t
    let e := o.ep.val
    let sum (dir : Nat) : Nat := ((op.cmds.filter fun c => decide (c.cmd / 64 = dir)).map (·.count)).sum
    let querying := op.st = .running ∧ op.queried = false ∧ op.live = true ∧ op.queryDue ≤ d1.time
    let ends (i : Instr) : Prop := ∃ t r, Answers i q d t ∧ t.findOp e op.opnum = some r ∧ r.st = .done ∧
      r.status = (if op.startAcked || op.replay then 8 else 6) ∧ r.unitStatus = 0 ∧ r.failedCmd = 0xFF ∧ r.doneAt = d1.time ∧
      (op.replay = false → op.startAcked = false → r.residual = sum 1 + sum 2) ∧
      (op.replay = false → op.startAcked = true → ∃ k, k ≤ sum 1 ∧ r.residual = sum 2 - op.got + k) ∧
      (∀ k x, x ∈ (t.link k).dataQ → ¬ (x.ep = e ∧ x.opnum = op.opnum)) ∧
      (t.hring op.pav).recs.getLast?.map (·.body) = some (.opdn op.opnum e r.status r.residual d1.time
        (if op.replay then 1 else 0) 0xFF 0 op.path (if op.moved then 4 else 0)) ∧
      ∃ f, { t with chan := d1.chan, hearth := d1.hearth, dict := d1.dict, fresh := f } = { d1 with fresh := f }
    (querying → Answers (.queryTimer o) q d
      (((d1.setOp { op with queried := true }).queueData { op with queried := true } [.query]).bump R.ep_QUERIES e)) ∧
    (¬ querying → Answers (.queryTimer o) q d d1) ∧
    (op.st = .running → op.msgDue ≤ d1.time → ∃ t r, Answers (.operationTimeout o) q d t ∧ t.findOp e op.opnum = some r ∧
      r.st = .halting ∧ (∃ y, y ∈ r.ctl ∧ y.code = 2 ∧ y.scope = 0 ∧ y.own = true) ∧ { t with chan := d1.chan, dict := d1.dict } = d1) ∧
    (¬ (op.st = .running ∧ op.msgDue ≤ d1.time) → Answers (.operationTimeout o) q d d1) ∧
    (op.st = .moving → op.held = none → op.due ≤ d1.time → ends (.movingTimeout o)) ∧
    (¬ (op.st = .moving ∧ op.held = none ∧ op.due ≤ d1.time) → Answers (.movingTimeout o) q d d1) ∧
    (op.st = .halting → op.due ≤ d1.time → ends (.haltingTimeout o)) ∧
    (¬ (op.st = .halting ∧ op.due ≤ d1.time) → Answers (.haltingTimeout o) q d d1) ∧
    (op.st = .querying → op.due ≤ d1.time → ends (.queryingTimeout o)) ∧
    (¬ (op.st = .querying ∧ op.due ≤ d1.time) → Answers (.queryingTimeout o) q d d1)

/-- Chapter 6's receive path, in UP and in HELLO. The header of a block counts whatever its KIND (R174); the FEC's counts are the command's
(notes/assumptions/28). -/
def Obligations.LinkBlocks : Prop :=
  ∀ (q : List Instr) (d : Dev) (o : RxBlock), d.thermalStop = false →
    let n := o.link.val
    let d1 := d.at o.t
    let x := d.link n
    let b := o.bytes
    let kind := fieldLE b 0 1 / 16
    let l := fieldLE b 0 1 % 16
    let seq := fieldLE b 2 2
    let body := (b.drop 8).take (b.length - 12)
    let good := o.broken = false ∧ 28 ≤ b.length ∧ b.length = 12 + 16 * (l + 1) ∧
      fieldLE b (b.length - 4) 4 = crc32c (b.take (b.length - 4))
    let framed := x.noFrame = false ∨ o.opensRun = true
    let known := kind = 1 ∨ (kind = 2 ∧ l < 4) ∨ ((kind = 8 ∨ kind = 9) ∧ l = 0) ∨ (kind = 10 ∧ l = 1)
    let hears := x.noLock = false ∧ framed
    let df := if x.fec then (d1.bump R.link_FEC_CORRECTED n (n := o.fecGood)).bump R.link_FEC_UNCORRECTED n (n := o.fecBad) else d1
    let all := [Instr.dataBlock o, .controlBlock o, .linkAckBlock o, .linkNakBlock o, .hello o]
    let d2 := (df.bump R.link_BLOCKS_RX n).setLink n { x with noFrame := false, lastRx := d1.time }
    let d3 := d2.applyAck n false (fieldLE b 4 2)
    let c := fieldLE b 6 2
    let r := d3.setLink n { d3.link n with credit := if precedes (d3.link n).credit c then c else (d3.link n).credit }
    let y := r.link n
    let nak (y : Link) (stream cause : Nat) : Option (Nat × Nat) := if y.nakDone || y.nakOwed.isSome then y.nakOwed else some (stream, cause)
    ((d.rd R.link_LINK_STATUS n ≠ 3 ∧ d.rd R.link_LINK_STATUS n ≠ 4) ∨ x.noLock = true → ∀ i ∈ all, Answers i q d d1) ∧
    ((d.rd R.link_LINK_STATUS n = 3 ∨ d.rd R.link_LINK_STATUS n = 4) → x.noLock = false → ¬ framed → ¬ (good ∧ known) →
      ∀ i ∈ all, Answers i q d df) ∧
    ((d.rd R.link_LINK_STATUS n = 3 ∨ d.rd R.link_LINK_STATUS n = 4) → x.noLock = false → ¬ framed →
      ∀ e ∈ [(1, Instr.dataBlock o), (2, .controlBlock o), (8, .linkAckBlock o), (9, .linkNakBlock o), (10, .hello o)],
        kind = e.1 → Answers e.2 q d df) ∧
    (d.rd R.link_LINK_STATUS n = 4 → hears → ¬ good → ∀ i ∈ all, Answers i q d
      ((df.bump R.link_CRC_ERRORS n).setLink n { x with noFrame := true, nakOwed := nak x 3 1 })) ∧
    (d.rd R.link_LINK_STATUS n = 4 → hears → good → ¬ known → ∀ i ∈ all, Answers i q d (r.bump R.link_CRC_ERRORS n)) ∧
    (d.rd R.link_LINK_STATUS n = 4 → hears → good →
      (kind = 1 →
        let owed := { y with ackOwed := some (y.ackOwed.getD d1.time) }
        (seq = y.rxData →
          let r' := r.setLink n { owed with rxData := (seq + 1) % 65536, nakDone := false }
          let up := r'.setLink n { r'.link n with passed := y.passed ++ [body] }
          (y.passed = [] → r.opOfTag n (fieldLE body 2 2) = none → Answers (.dataBlock o) q d (r'.bump R.link_STRAY_MESSAGES n)) ∧
          (∀ op, y.passed = [] → r.opOfTag n (fieldLE body 2 2) = some op →
            Answers (.dataBlock o) q d (if opDecodable body then up else r'.protocolError op)) ∧
          (∀ f rest op, y.passed = f :: rest → r.opOfTag n (fieldLE f 2 2) = some op → opDecodable f = true →
            Answers (.dataBlock o) q d up) ∧
          Answers (.dataBlock o) q d (up.passFront n)) ∧
        (seq ≠ y.rxData → precedes seq y.rxData = true → Answers (.dataBlock o) q d (r.setLink n owed)) ∧
        (seq ≠ y.rxData → precedes seq y.rxData = false → Answers (.dataBlock o) q d
          (r.setLink n { y with nakOwed := nak y 1 2 }))) ∧
      (kind = 2 → l < 4 →
        let owed := { y with ctlAckOwed := some (y.ctlAckOwed.getD d1.time) }
        (seq = y.rxCtl → Answers (.controlBlock o) q d
          (r.setLink n { owed with rxCtl := (seq + 1) % 65536, nakDone := false, replies := y.replies ++ [body] })) ∧
        (seq ≠ y.rxCtl → precedes seq y.rxCtl = true → Answers (.controlBlock o) q d (r.setLink n owed)) ∧
        (seq ≠ y.rxCtl → precedes seq y.rxCtl = false → Answers (.controlBlock o) q d
          (r.setLink n { y with nakOwed := nak y 2 2 }))) ∧
      (kind = 8 → l = 0 → Answers (.linkAckBlock o) q d (r.applyAck n true (fieldLE b 8 2))) ∧
      (kind = 9 → l = 0 → ∃ t, Answers (.linkNakBlock o) q d t ∧ (fieldLE b 8 1 = 1 → t = r.applyNak n false (fieldLE b 10 2)) ∧
        (fieldLE b 8 1 = 2 → r.linkUp n = true → t = r.applyNak n true (fieldLE b 12 2))) ∧
      (kind = 10 → l = 1 → ∃ t, Answers (.hello o) q d t ∧ t.rd R.link_PEER_UNIT n = fieldLE body 8 8 ∧
        t.rd R.link_PEER_PORT n = fieldLE body 4 2 ∧ t.rd R.link_LINK_STATUS n = 4)) ∧
    (d.rd R.link_LINK_STATUS n = 3 → hears → good → kind = 10 → l = 1 →
      let unit := fieldLE body 8 8
      let mis := x.expected ≠ 0 ∧ x.expected ≠ unit
      ∃ t, Answers (.hello o) q d t ∧ t.rd R.link_PEER_UNIT n = unit ∧ t.rd R.link_PEER_PORT n = fieldLE body 4 2 ∧ t.time = d1.time ∧
        (mis → t.rd R.link_LINK_STATUS n = 6 ∧ t.rd R.link_FAIL_CAUSE n = 5 ∧
          t.alerts.head? = some { time := d1.time, index := 0x4000 + n, sub := 0x0B, pav := 0xFF, detail := fieldLE body 4 2 }) ∧
        (¬ mis → fieldLE body 0 1 = 1 → fieldLE body 1 1 = 1 → bitOf (fieldLE body 2 1) 1 = x.fec →
          ((x.gotSeen || bitOf (fieldLE body 2 1) 0) = true ∧ x.sentSeen = true → t.rd R.link_LINK_STATUS n = 4 ∧
            (t.link n).credit = fieldLE body 6 2 ∧ (t.link n).rxData = 1 ∧ (t.link n).rxCtl = 1 ∧ (t.link n).data = {} ∧ (t.link n).ctl = {}) ∧
          (¬ ((x.gotSeen || bitOf (fieldLE body 2 1) 0) = true ∧ x.sentSeen = true) → t.rd R.link_LINK_STATUS n = 3 ∧
            (t.link n).seen = true ∧ (t.link n).gotSeen = (x.gotSeen || bitOf (fieldLE body 2 1) 0))))

/-- Table 6.7, the timers, and the order of R182. -/
def Obligations.LinkStates : Prop :=
  (∀ (q : List Instr) (d : Dev) (o : OpLinkT), d.thermalStop = false →
    let n := o.link.val
    let d1 := d.at o.t
    let x := d.link n
    let st := d.rd R.link_LINK_STATUS n
    let goes (i : Instr) (s : Nat) : Prop := Answers i q d ((d1.wr R.link_LINK_STATUS s n).setLink n { x with since := d1.time })
    let fails (i : Instr) (cause : Nat) : Prop := ∃ t, Answers i q d t ∧ t.rd R.link_LINK_STATUS n = 5 ∧ t.rd R.link_FAIL_CAUSE n = cause ∧
      (t.link n).since = d1.time ∧ (t.link n).data = {} ∧ (t.link n).ctl = {} ∧ (t.link n).rxData = 1 ∧ (t.link n).rxCtl = 1 ∧
      (t.link n).passed = [] ∧ t.time = d1.time ∧
      (st = 4 → t.alerts.head? = some { time := d1.time, index := 0x4000 + n, sub := 0x18, pav := 0xFF, detail := cause })
    let timer := d1.time + d.rd R.link_ACK_TIMEOUT n
    let sends (i : Instr) (kind flags seq : Nat) (payload : Bytes) (f : Link → Link) : Prop :=
      Answers i q d ((d1.bump R.link_BLOCKS_TX n).setLink n (f { x with
        out := x.block kind flags seq payload, lastTx := d1.time, ackOwed := none, run := x.run % 32 + 1 }))
    (st = 1 → goes (.linkTrainingDone o) 2) ∧ (st ≠ 1 → Answers (.linkTrainingDone o) q d d1) ∧
    (st = 2 → goes (.lockGained o) 3) ∧ (st ≠ 2 → Answers (.lockGained o) q d d1) ∧
    (st = 1 → x.since + 500000000 ≤ d1.time → fails (.linkStateTimeout o) 3) ∧
    (st = 2 → x.since + 10000000 ≤ d1.time → fails (.linkStateTimeout o) 7) ∧
    (st = 3 → x.since + 10000000 ≤ d1.time → fails (.linkStateTimeout o) 4) ∧
    (st = 0 ∨ 4 ≤ st → Answers (.linkStateTimeout o) q d d1) ∧
    (st = 4 → x.lastRx + 1000 * d.rd R.link_LINK_DEAD n ≤ d1.time → fails (.linkDeadTimeout o) 2) ∧
    (st = 4 → d1.time < x.lastRx + 1000 * d.rd R.link_LINK_DEAD n → Answers (.linkDeadTimeout o) q d d1) ∧
    (st = 6 ∨ (st = 5 ∧ d.rd R.link_ENABLE n = 1 ∧ (d.plat.refA = true ∨ d.plat.refB = true) ∧ x.stuck = false) →
      x.since + 1000000 * d.rd R.link_RETRY_DELAY n ≤ d1.time →
      ∃ t, Answers (.retryDelayEnd o) q d t ∧ t.rd R.link_LINK_STATUS n = 1 ∧ (t.link n).since = d1.time ∧
        (t.link n).expected = d.rd R.link_EXPECTED_UNIT n ∧ (t.link n).fec = decide (d.rd R.link_FEC n = 1) ∧
        (t.link n).twin = decide (d.rd R.link_TWIN n = 1)) ∧
    (st = 3 → (x.lastTx < x.since ∨ x.lastTx + 10000 ≤ d1.time) → x.gotSeen = false →
      sends (.helloSend o) 10 0 0 (leBytes 1 1 ++ leBytes 1 0 ++ leBytes 1 ((if x.seen then 1 else 0) + (if x.fec then 2 else 0)) ++
        leBytes 1 15 ++ leBytes 2 n ++ leBytes 2 512 ++ leBytes 8 (d.rd R.dev_SERIAL) ++ leBytes 8 (d.rd R.link_BRINGUPS n) ++ zeros 8)
        fun y => { y with sentSeen := x.sentSeen || x.seen }) ∧
    (st ≠ 3 → Answers (.helloSend o) q d d1) ∧
    (st = 4 → Answers (.blockLockLost o) q d (d1.setLink n { x with noLock := true, noFrame := true })) ∧
    (st = 4 → Answers (.blockLockRegained o) q d (d1.setLink n { x with noLock := false })) ∧
    (st = 4 → x.ackOwed.isSome = true ∨ x.ctlAckOwed.isSome = true ∨ x.lastTx + 10000 ≤ d1.time →
      sends (.ackOwed o) 8 0 0 (leBytes 2 ((x.rxCtl + 65535) % 65536) ++ zeros 14) fun y => { y with ctlAckOwed := none }) ∧
    (st = 4 →
      (∀ s c, x.nakOwed = some (s, c) → ∃ t, Answers (.blockSent o) q d t ∧ (t.link n).nakOwed = none ∧ (t.link n).nakDone = true ∧
        (t.link n).out = x.block 9 0 0 (leBytes 1 s ++ leBytes 1 c ++ leBytes 2 x.rxData ++ leBytes 2 x.rxCtl ++ zeros 10)) ∧
      (x.nakOwed = none →
        (∀ b, 0 < x.ctl.resend → x.ctl.unacked[x.ctl.unacked.length - x.ctl.resend]? = some b →
          sends (.blockSent o) 2 ((if b.twin then 1 else 0) + 2) b.seq b.payload fun y => { y with
            ctl := { x.ctl with resend := x.ctl.resend - 1, due := if x.ctl.resend = 1 then timer else x.ctl.due } }) ∧
        (x.ctl.resend = 0 →
          (∀ b rest, x.ctlQ = b :: rest → x.ctl.unacked.length < 16 →
            sends (.blockSent o) 2 (if b.1 then 1 else 0) x.ctl.next b.2 fun y => { y with
              ctlQ := rest
              ctl := { x.ctl with
                next := (x.ctl.next + 1) % 65536, unacked := x.ctl.unacked ++ [{ seq := x.ctl.next, twin := b.1, payload := b.2 }],
                due := if x.ctl.unacked = [] then timer else x.ctl.due } }) ∧
          (x.ctlQ = [] ∨ 16 ≤ x.ctl.unacked.length →
            (x.ctlAckOwed.isSome = true ∨ (∃ s, x.ackOwed = some s ∧ s + 250 < d1.time) → sends (.blockSent o) 8 0 0 (leBytes 2 ((x.rxCtl + 65535) % 65536) ++ zeros 14)
              fun y => { y with ctlAckOwed := none }) ∧
            (∀ b, x.ctlAckOwed = none → x.ackOwed = none → 0 < x.data.resend →
              x.data.unacked[x.data.unacked.length - x.data.resend]? = some b →
              sends (.blockSent o) 1 ((if b.twin then 1 else 0) + 2) b.seq b.payload fun y => { y with
                data := { x.data with resend := x.data.resend - 1, due := if x.data.resend = 1 then timer else x.data.due } }) ∧
            (∀ b s op m d3, x.ctlAckOwed = none → x.ackOwed = none → x.data.resend = 0 → x.mayData = true → x.dataQ ≠ [] →
              d1.slotTurn n 256 x.slot = some (some b, s) → b.msg ≠ .release → d.findOp b.ep b.opnum = some op →
              (d1.setLink n { x with
                slot := s, dataQ := x.dataQ.erase b, turn := if d1.strict b.pav then x.turn else b.pav }).msgBytes op b.tag b.msg = (m, false, d3) →
              ∃ t k, Answers (.blockSent o) q d t ∧ (t.link n).out = (d3.link n).block 1 (if b.twin then 1 else 0) (d3.link n).data.next m ∧
                (t.link n).data.next = ((d3.link n).data.next + 1) % 65536 ∧
                (t.link n).data.unacked = (d3.link n).data.unacked ++
                  [{ seq := (d3.link n).data.next, twin := b.twin, payload := m, op := k }] ∧
                { t with chan := d3.chan, dict := d3.dict } = d3) ∧
            (∀ b s, x.ctlAckOwed = none → x.ackOwed = none → x.data.resend = 0 → x.mayData = true → x.dataQ ≠ [] →
              d1.slotTurn n 256 x.slot = some (some b, s) → b.msg = .release →
              sends (.blockSent o) 1 (if b.twin then 1 else 0) x.data.next (releaseBytes b.tag) fun y => { y with
                slot := s, dataQ := x.dataQ.erase b, turn := if d1.strict b.pav then x.turn else b.pav
                data := { x.data with
                  next := (x.data.next + 1) % 65536
                  unacked := x.data.unacked ++ [{ seq := x.data.next, twin := b.twin, payload := releaseBytes b.tag }]
                  due := if x.data.unacked = [] then timer else x.data.due } }) ∧
            (∀ s, x.ctlAckOwed = none → x.ackOwed = none → x.data.resend = 0 → x.mayData = true → x.dataQ ≠ [] →
              d1.slotTurn n 256 x.slot = some (none, s) → Answers (.blockSent o) q d (d1.setLink n { x with slot := s })))))) ∧
    (st ≠ 4 → ∀ i ∈ [Instr.blockSent o, .blockLockLost o, .blockLockRegained o, .ackOwed o, .linkDeadTimeout o], Answers i q d d1)) ∧
  (∀ (q : List Instr) (d : Dev) (o : OpAckT), d.thermalStop = false → d.rd R.link_LINK_STATUS o.link.val = 4 →
    let n := o.link.val
    let d1 := d.at o.t
    let x := d.link n
    let s := if o.control then x.ctl else x.data
    let due := s.unacked ≠ [] ∧ s.resend = 0 ∧ s.due ≤ d1.time
    let failed := if s.rounded then s.failed + 1 else s.failed
    let s' := { s with resend := s.unacked.length, rounded := true, failed := failed }
    (due → failed < 16 → Answers (.ackTimeout o) q d ((d1.setLink n (if o.control then { x with ctl := s', run := 0 }
      else { x with data := s', run := 0 })).bump R.link_GO_BACKS n)) ∧
    (due → 16 ≤ failed → ∃ t, Answers (.ackTimeout o) q d t ∧ t.rd R.link_LINK_STATUS n = 5 ∧ t.rd R.link_FAIL_CAUSE n = 1) ∧
    (¬ due → Answers (.ackTimeout o) q d d1)) ∧
  (∀ (x : Link) (kind flags seq : Nat) (payload : Bytes), kind < 16 → flags < 256 → seq < 65536 → payload.length % 16 = 0 →
    16 ≤ payload.length → payload.length ≤ 256 →
    let b := x.block kind flags seq payload
    b.length = payload.length + 12 ∧ fieldLE b 0 1 = kind * 16 + (payload.length / 16 - 1) ∧ fieldLE b 1 1 = flags ∧ fieldLE b 2 2 = seq ∧
      fieldLE b 4 2 = (x.rxData + 65535) % 65536 ∧ (b.drop 8).take payload.length = payload ∧
      fieldLE b (b.length - 4) 4 = crc32c (b.take (b.length - 4)))

/-- The receive path from frame to transport, and the sending of one message with its frame's tag and its packet's checksums, DF, DSCP and
ECN (R62, R65, R68). -/
def Obligations.HostPorts : Prop :=
  (∀ (q : List Instr) (d : Dev) (o : OpFrame), d.thermalStop = false →
    let n := o.port.val
    let d1 := d.netAt o.t
    let et := fieldBE o.bytes 12 2
    let df := (d1.bump R.port_FEC_CORRECTED n (n := o.fecGood)).bump R.port_FEC_UNCORRECTED n (n := o.fecBad)
    (d1.rd R.port_LINK_STATUS n ≠ 2 → Answers (.frameReceive o) q d d1) ∧
    (d1.rd R.port_LINK_STATUS n = 2 →
      (9212 < o.bytes.length → Answers (.frameReceive o) q d (df.bump R.port_RX_DROPPED n)) ∧
      (o.bytes.length ≤ 9212 → et = 0x8100 → fieldBE o.bytes 14 2 / 2 ^ 13 = 7 → 65536 < df.occupancy n 7 + o.bytes.length →
        Answers (.frameReceive o) q d (df.bump R.port_CTL_DROPPED n)) ∧
      (o.bytes.length ≤ 9212 → et ∉ [0x8100, 0x0806, 0x8808, 0x0800, 0x86DD] → Answers (.frameReceive o) q d (df.bump R.port_RX_DROPPED n)) ∧
      -- an untagged IPv4 frame with one UDP datagram for an address of a pavilion
      (o.bytes.length ≤ 9212 → et = 0x0800 → fieldLE o.bytes 0 6 = df.rd R.port_MAC_ADDR n →
        let b := o.bytes.drop 14
        let len := fieldBE b 2 2
        let u := slice b 20 (len - 20)
        let m := fieldBE u 4 2
        let src := 0xFFFF * 2 ^ 32 + fieldBE b 12 4
        ∀ p slot, len ≤ b.length → fieldBE b 0 1 = 0x45 → fieldBE b 6 2 % 2 ^ 14 = 0 → fieldBE b 9 1 = 17 → 28 ≤ len → 8 ≤ m → m ≤ u.length →
          fieldBE u 2 2 ∉ [319, 320] → fieldBE u 2 2 = df.rd R.amn_UDP_PORT → fieldBE u 6 2 = 0 →
          df.addrOwner n (0xFFFF * 2 ^ 32 + fieldBE b 16 4) false none = some (p, slot) →
          Answers (.frameReceive o) q d (df.acceptUdp n p slot 0 false
            { ip := BitVec.ofNat 128 src, udp := BitVec.ofNat 16 (fieldBE u 0 2) } (slice u 8 (m - 8)))))) ∧
  (∀ (d : Dev) (n p slot pcp : Nat) (v6 : Bool) (src : HostSrc) (b : Bytes), n < 2 → p < 64 → slot < 4 → pcp < 8 →
    let t := d.acceptUdp n p slot pcp v6 src b
    let m := msgOfBytes b
    let drop := d.bump R.port_RX_DROPPED n
    let known := fieldLE b 1 1 ∈ [0x01, 0x02, 0x03, 0x04, 0x05, 0x06, 0x07, 0x08, 0x09, 0x0A, 0x0B, 0x0C, 0x0D]
    let header := 60 ≤ b.length ∧ fieldLE b 0 1 = 1 ∧ known ∧ fieldLE b 26 2 ≤ 8192 ∧ fieldLE b 26 2 + 60 = b.length ∧ fieldLE b 2 2 < 256 ∧
      fieldLE b 28 4 = 0
    (d.plat.step < 12 ∨ ¬ header ∨ streamOk m = false ∨ m.flags.getLsbD 3 ≠ decide (pcp = 7) → t = drop) ∧
    (12 ≤ d.plat.step → header → streamOk m = true → m.flags.getLsbD 3 = decide (pcp = 7) → m.type ≠ 0x01 →
      (d.sess m.session.toNat = none → t = drop) ∧
      (∀ s, d.sess m.session.toNat = some s →
        (s.pav ≠ p ∨ s.st = .suspended ∨ s.ipv6 ≠ v6 → t = drop) ∧
        (s.pav = p → s.st ≠ .suspended → s.ipv6 = v6 → m.flags.getLsbD 0 = false → m.type ≠ 0x0B → m.iv < s.limitIv →
          let k := m.payload.length
          let good := gcmTag s.kHD (s.fixHD ++ leBytes 8 m.iv) (b.take (44 + k)) [] = b.drop (44 + k) ∧
            crc32c (b.take 32 ++ m.payload) = m.crc.toNat
          (good → shapeOk m.type.toNat m.seq m.payload = false → t = drop) ∧
          (good → shapeOk m.type.toNat m.seq m.payload = true → ∃ x : Rx, t.net.rx = d.net.rx ++ [x] ∧ x.msg = m ∧ x.port.val = n ∧ x.pav.val = p ∧
            x.addrSlot.val = slot ∧ x.pcp.toNat = pcp ∧ x.src = src ∧ x.t = d.time ∧ { t with net := d.net } = d) ∧
          (¬ good → s.twin = false → s.st.live = true → m.seq ≠ 0 → s.answeredSeq (m.flags.getLsbD 3) m.seq = false →
            t = drop.sendNak s.id m.seq 1 (m.flags.getLsbD 3)))))) ∧
  (∀ (q : List Instr) (d : Dev) (o : OpPfc), d.thermalStop = false → d.rd R.port_LINK_STATUS o.port.val = 2 →
    ∃ t, Answers (.pfcFrame o) q d t ∧ ∀ k, Table.get 0 t.net.paused k =
      if k / 8 = o.port.val ∧ k % 8 < 7 ∧ bitOf (d.rd R.port_PFC_ENABLE o.port.val) (k % 8) = true ∧ o.enable.getLsbD (k % 8) = true then
        (if (o.times.getD (k % 8) 0).toNat = 0 then 0 else d.time + ceilDiv ((o.times.getD (k % 8) 0).toNat * 128) 100)
      else Table.get 0 d.net.paused k) ∧
  (∀ (q : List Instr) (d : Dev) (o : OpResolve), d.thermalStop = false → d.rd R.port_LINK_STATUS o.port.val = 2 → 9 ≤ d.plat.step →
    let n := o.port.val
    let vid := o.vid.map (·.toNat)
    let tag (p k : Nat) : Tag := { pcp := Config.framePcp, vid := (d.hostAddr p n k).vid }
    (∀ p k, d.addrOwner n o.target.toNat false vid = some (p, k) →
      Answers (.arpRequest o) q d { d with net := { d.net with out := .arp n o.target o.sender (tag p k) :: d.net.out } }) ∧
    (d.addrOwner n o.target.toNat false vid = none → Answers (.arpRequest o) q d d) ∧
    (∀ p k, d.addrOwner n o.target.toNat true vid = some (p, k) →
      Answers (.neighbourSolicitation o) q d { d with net := { d.net with out := .advert n o.target o.sender (tag p k) :: d.net.out } }) ∧
    (d.addrOwner n o.target.toNat true vid = none → Answers (.neighbourSolicitation o) q d d)) ∧
  (∀ (q : List Instr) (d : Dev) (o : OpPortT), d.thermalStop = false →
    let n := o.port.val
    let d1 := d.netAt o.t
    (d1.rd R.port_STATE n = 2 → d1.rd R.port_LINK_STATUS n = 1 → ∃ t, Answers (.portLinkUp o) q d t ∧ t.rd R.port_LINK_STATUS n = 2) ∧
    (d1.rd R.port_STATE n ≠ 2 ∨ d1.rd R.port_LINK_STATUS n ≠ 1 → Answers (.portLinkUp o) q d d1) ∧
    (d1.rd R.port_LINK_STATUS n = 2 → ∃ t, Answers (.portLinkDown o) q d t ∧ t.rd R.port_LINK_STATUS n = 1 ∧
      ∀ h, h ∈ t.net.pausedTx → h.port ≠ n) ∧
    (d1.rd R.port_LINK_STATUS n ≠ 2 → Answers (.portLinkDown o) q d d1)) ∧
  (∀ (q : List Instr) (d : Dev) (o : OpNakT) (since : Nat), d.thermalStop = false →
    let d1 := d.netAt o.t
    let e := (o.session.toNat, o.control, o.seq, since)
    (d1.net.nakTimers.find? fun e => decide (e.1 = o.session.toNat) && (e.2.1 == o.control) && decide (e.2.2.1 = o.seq)) = some e →
      let d2 := d1.onNet fun n => { n with nakTimers := n.nakTimers.erase e }
      (d1.time < since + 2000 → Answers (.twinNakTimer o) q d d1) ∧
      (∀ s, since + 2000 ≤ d1.time → d2.sess o.session.toNat = some s →
        (d2.arrived s o.control o.seq = true → Answers (.twinNakTimer o) q d d2) ∧
        (d2.arrived s o.control o.seq = false → Answers (.twinNakTimer o) q d (d2.sendNak o.session.toNat o.seq 1 o.control)))) ∧
  (∀ (d : Dev) (s : Session) (type seq flags : Nat) (payload : Bytes), d.sess s.id = some s → s.HasCounters → s.st ≠ .suspended →
    s.twin = false → type ≠ 0x06 → s.port < 2 → (∀ k, Table.get 0 d.net.paused k ≤ d.time) →
    let t := d.sendMsg s.id type seq flags payload
    let ctl := [0x01, 0x02, 0x09, 0x0A, 0x0B, 0x0C, 0x0D].contains type || flags.testBit 3
    let a (slot : Nat) : HostAddr := d.hostAddr s.pav s.port slot
    (d.rd R.port_LINK_STATUS s.port = 2 → ∀ dst slot, s.place s.port = some (dst, slot) → (a slot).valid = true → (a slot).v6 = s.ipv6 →
      ∃ x s', t.net.out = .msg x :: d.net.out ∧ x.port = s.port ∧
      x.dst = dst ∧ x.pav = s.pav ∧ x.tag = { pcp := if ctl then 7 else d.rd R.amn_DATA_PCP % 8, vid := (a slot).vid } ∧
      x.packet = ipPacket s.ipv6 (a slot).ip dst.ip.toNat
        (udpDatagram s.ipv6 (a slot).ip dst.ip.toNat (d.rd R.amn_UDP_PORT) dst.udp.toNat x.bytes) ∧
      x.bytes = sealed s.protect s.kDH s.fixDH
        (leBytes 1 1 ++ leBytes 1 type ++ leBytes 2 (flags ||| (if ctl then 8 else 0) ||| (if s.protect then 1 else 0)) ++
          leBytes 4 s.id ++ leBytes 8 seq ++ leBytes 8 (if ctl then s.ctlAck else s.answered) ++ leBytes 2 (if ctl then 0 else s.handle) ++
          leBytes 2 payload.length ++ leBytes 4 0) payload s.txIv ∧
      t.sess s.id = some s' ∧ s' = { s with txIv := s.txIv + 1, kaDue := if ctl then d.time + d.rd R.amn_KEEPALIVE_TIME * 1000 else s.kaDue } ∧
      { t with net := d.net } = d) ∧
    (d.rd R.port_LINK_STATUS s.port ≠ 2 ∨ s.place s.port = none → t = d) ∧
    (∀ dst slot, s.place s.port = some (dst, slot) → (a slot).valid = false ∨ (a slot).v6 ≠ s.ipv6 → t = d)) ∧
  (∀ (v6 : Bool) (src dst sport dport : Nat) (payload u : Bytes),
    let b := udpDatagram v6 src dst sport dport payload
    (udpSumOk v6 src dst b = true ∧ fieldBE b 6 2 ≠ 0 ∧ fieldBE b 0 2 = sport % 65536 ∧ fieldBE b 2 2 = dport % 65536 ∧ b.drop 8 = payload) ∧
    (let k := ipPacket false src dst u
     k.take 2 = [0x45, 0] ∧ (k.drop 6).take 2 = [0x40, 0] ∧ sumOk (k.take 20) = true ∧ k.drop 20 = u) ∧
    (let k := ipPacket true src dst u
     fieldBE k 0 4 / 2 ^ 20 = 0x600 ∧ k.drop 40 = u))

/-- Table 3.11's transitions, command by command; each time runs as long as its entry was when it began (R116). The reply to a deadline class
waits for the governor (R127). The session's keys come from free values; nothing here rests on them. -/
def Obligations.Sessions : Prop :=
  (∀ (q : List Instr) (d d2 : Dev) (o : Rx), d.thermalStop = false → d.Takes o 0x01 d2 →
    let m := OpenMsg.ofBytes o.msg.payload
    let reads (x : Tx) (status session ack handle answered limit : Nat) : Prop :=
      x.port = o.port.val ∧ x.dst = o.src ∧ x.tag.pcp = 7 ∧ x.bytes.take 64 = leBytes 1 1 ++ leBytes 1 2 ++ leBytes 2 (if m.twin then 10 else 8) ++ leBytes 4 session ++ leBytes 8 0 ++
          leBytes 8 ack ++ leBytes 2 0 ++ leBytes 2 80 ++ leBytes 4 0 ++ leBytes 8 0 ++
          leBytes 2 status ++ leBytes 2 handle ++ leBytes 4 session ++ leBytes 8 answered ++ leBytes 8 limit
    let opens (i : Instr) (status session ack handle answered limit : Nat) (f : Dev → Prop) : Prop :=
      ∃ t x, Answers i q d t ∧ f t ∧ t.net.out = .msg x :: d2.net.out ∧ reads x status session ack handle answered limit
    (m.pav ≠ o.pav.val →
      (m.resume = 0 → Answers (.openNew o) q d (d2.bump R.port_RX_DROPPED o.port.val)) ∧
      (m.resume ≠ 0 → Answers (.openResume o) q d (d2.bump R.port_RX_DROPPED o.port.val))) ∧
    (m.pav = o.pav.val → d2.portUp o.port.val = true → (∀ e ∈ d2.net.opens, ¬ (e.pav = m.pav ∧ e.nonce = m.nonce)) →
      (m.resume = 0 →
        let status := d2.openNewStatus m (d2.rxV6 o)
        let id := d2.freeSession
        let limit := if cdData m.desc then cdWindow m.desc else 0
        let handle := id % 65536 % 65535 + 1
        (status ≠ 0 → opens (.openNew o) status 0 0 0 0 0 fun t => t.net.sessions = d2.net.sessions) ∧
        (status = 0 → ∃ t x, Answers (.openNew o) q d t ∧ reads x 0 id 0 (if cdData m.desc then handle else 0) 0 limit ∧
          (let waits := cdTimed m.desc = true ∧ t.demandMet m.pav = false
           (¬ waits → t.net.out = .msg x :: d2.net.out) ∧
           (waits → t.net.out = d2.net.out ∧ ∃ w, w ∈ t.net.openWait ∧ w.session = id ∧ w.tx = x)) ∧
          ∃ s : Session, t.net.sessions = d2.net.sessions ++ [s] ∧ s.id = id ∧ s.st = .opening ∧ s.pav = m.pav ∧ s.protect = m.protect ∧
            s.twin = m.twin ∧ s.authKey = m.authKey ∧ s.desc = m.desc ∧ s.handle = handle ∧ s.limit = limit ∧ s.reqs = [] ∧ s.txIv = 1 ∧
            s.limitIv = d2.rd R.amn_INVOCATION_LIMIT ∧ s.deadDue = d2.time + d2.rd R.amn_DEAD_TIME * 1000)) ∧
      (m.resume ≠ 0 → d2.openResumeStatus m = 0 → ∀ s, d2.sess m.resume = some s → s.ipv6 = d2.rxV6 o →
        opens (.openResume o) 0 s.id s.ctlAck (if cdData s.desc then s.handle else 0) s.answered s.limit fun t =>
          ∃ s', t.sess m.resume = some s' ∧ s'.st = .opening ∧ s'.resumed = true ∧ s'.reqs = s.reqs ∧ s'.outcomes = s.outcomes ∧
            s'.answers = s.answers ∧ s'.txIv = 1 ∧ s'.deadDue = d2.time + d2.rd R.amn_DEAD_TIME * 1000))) ∧
  (∀ (q : List Instr) (d d3 : Dev) (o : Rx) (s : Session), d.thermalStop = false →
    let id := o.msg.session.toNat
    let b := o.msg.payload
    let scope := fieldLE b 1 1
    let reply (t : Dev) (op status : Nat) : Prop := ∃ s', t.sess id = some s' ∧ Table.get none s'.answers o.msg.seq =
      some { type := 0x0A, flags := 0, payload := leBytes 1 op ++ leBytes 1 scope ++ leBytes 2 status ++ zeros 4 ++ leBytes 8 (fieldLE b 8 8) }
    let moves (i : Instr) (op : Nat) (target : SessSt) : Prop := fieldLE b 0 1 = op → controlBad b = false → s.answers.length < 1024 →
      (scope = 0 → s.st = .open ∨ s.st = .stopped ∨ s.st = .draining →
        ∃ t s', Answers i q d t ∧ reply t (op + 0x80) 0 ∧ t.sess id = some s' ∧ s'.st = target) ∧
      (scope = 0 → s.st = .closing → ∃ t s', Answers i q d t ∧ reply t (op + 0x80) 0x0205 ∧ t.sess id = some s' ∧ s'.st = .closing) ∧
      (scope = 1 → s.authKey ≠ 0xFFFF → ∃ t s', Answers i q d t ∧ reply t (op + 0x80) 0x0401 ∧ t.sess id = some s' ∧ s'.st = s.st) ∧
      (scope = 1 → s.authKey = 0xFFFF → target ≠ .draining → ∃ t, Answers i q d t ∧ ∀ k x, d3.sess k = some x → x.pav = s.pav →
        x.st = .open ∨ x.st = .stopped ∨ x.st = .draining → ∃ y, t.sess k = some y ∧ y.st = target)
    (d.Hears o 0x0C d3 s → Answers (.keepalive o) q d d3) ∧
    (d.HearsNew o 0x0A d3 s → s.HasCounters →
      moves (.stop o) 1 .stopped ∧ moves (.resume o) 2 .open ∧ moves (.drain o) 3 .draining ∧
      (controlBad b = true → s.answers.length < 1024 → ∃ t, Answers (.controlUndefined o) q d t ∧
        reply t (if 1 ≤ fieldLE b 0 1 ∧ fieldLE b 0 1 ≤ 4 then fieldLE b 0 1 + 0x80 else 0x80) 0x0107)) ∧
    (d.HearsNew o 0x0D d3 s →
      (s.reqs = [] → ∃ t, Answers (.close o) q d t ∧ t.sess id = none) ∧
      (s.reqs ≠ [] → s.HasCounters → ∃ t s', Answers (.close o) q d t ∧ t.sess id = some s' ∧ s'.st = .closing ∧ s'.reqs = s.reqs)) ∧
    (∀ a, d.Hears o 0x0D d3 s → Table.get none s.answers o.msg.seq = some a → Answers (.close o) q d
        (if o.msg.flags.getLsbD 2 then d3.sendMsg id a.type o.msg.seq (a.flags ||| 4) a.payload else d3))) ∧
  (∀ (q : List Instr) (d : Dev) (o : OpSessT) (s : Session), d.thermalStop = false →
    let d1 := d.netAt o.t
    let id := o.session.toNat
    let held := { s with st := .suspended, assembly := none, snapshot := none, reqs := s.reqs.map (·.hold) }
    let waiting := d1.net.openWait.any fun w => decide (w.session = id)
    d1.sess id = some s →
      (s.st.live = true → s.deadDue ≤ d1.time → ∃ t, Answers (.sessionSuspend o) q d t ∧ t.sess id = some held ∧ { t with net := d1.net } = d1) ∧
      (s.st.live = false ∨ d1.time < s.deadDue → Answers (.sessionSuspend o) q d d1) ∧
      (s.st = .opening → s.deadDue ≤ d1.time → waiting = false → ∃ t, Answers (.openingTimeout o) q d t ∧
        (s.resumed = true → t.sess id = some held) ∧
        (s.resumed = false → t.sess id = none)) ∧
      (s.st ≠ .opening ∨ d1.time < s.deadDue ∨ waiting = true → Answers (.openingTimeout o) q d d1) ∧
      (s.st ≠ .suspended → s.kaDue ≤ d1.time → Answers (.keepaliveSend o) q d
        ((d1.sendMsg id 0x0C 0 0 (leBytes 8 d1.time)).sendCredit id)) ∧
      (s.st = .suspended ∨ d1.time < s.kaDue → Answers (.keepaliveSend o) q d d1) ∧
      (∀ t0, s.drained = some t0 → s.st = .draining → t0 ≤ d1.time → Answers (.drainedRepeat o) q d
        ((d1.onSess id fun s => { s with drained := some (d1.time + d1.rd R.amn_KEEPALIVE_TIME * 1000) }).sendMsg id 0x0A 0 0
          (leBytes 1 0x85 ++ leBytes 1 0 ++ leBytes 2 0 ++ zeros 4 ++ leBytes 8 0))) ∧
      (s.drained = none ∨ s.st ≠ .draining ∨ (∃ t0, s.drained = some t0 ∧ d1.time < t0) → Answers (.drainedRepeat o) q d d1))

/-- The life of a request. `d3` is the device with the message taken and its host proved. -/
def Obligations.Requests : Prop :=
  (∀ (q : List Instr) (d d3 : Dev) (o : Rx) (s0 s : Session), d.thermalStop = false →
    let id := o.msg.session.toNat
    let seq := o.msg.seq
    let n := o.msg.payload.length
    let d4 := d3.acknowledge id o.msg.ack []
    d.Hears o 0x03 d3 s0 → d4.sess id = some s →
      (∀ e, s.outcomes.find? (fun e => decide (e.1 = seq)) = some e →
        Answers (.request o) q d (if o.msg.flags.getLsbD 2 && !s.unaccepted seq then
          (if e.2 = 0 then d4.sendMsg id 0x04 seq 4 [] else d4.sendMsg id 0x05 seq 4 (leBytes 2 e.2 ++ zeros 2)) else d4)) ∧
      (s.outcomes.find? (fun e => decide (e.1 = seq)) = none →
        (belowWindow s.outcomes s.floor seq = true → Answers (.request o) q d (d4.sendNak id seq 2 false)) ∧
        (belowWindow s.outcomes s.floor seq = false →
          let d5 := d4.advanceTail s.pav
          let checks : List (Bool × Nat) := [(decide (d5.rd R.pav_STATE s.pav ≠ 5), 0x0204), (decide (s.st = .open), 0x0203),
            (decide (seq ≤ s.limit), 0x0505), (decide (n ≤ fieldLE s.desc 8 2), 0x0105),
            (d5.roomFor s.pav (64 + 16 * ceilDiv n 16), 0x0305)]
          (∀ b, checks.find? (fun k => !k.1) = some b →
            Answers (.request o) q d ((d5.onSess id fun x => (x.setOutcome seq b.2).advance).sendMsg id 0x05 seq 0
              (leBytes 2 b.2 ++ zeros 2))) ∧
          (checks.find? (fun k => !k.1) = none → ∃ t s', Answers (.request o) q d t ∧ t.sess id = some s' ∧
            let due := if cdTimed s.desc then o.t + fieldLE s.desc 0 4 else 0
            let fl := (if o.port.val = 1 then 1 else 0) ||| (if s.twin then 2 else 0) ||| (if o.msg.flags.getLsbD 0 then 4 else 0)
            s' = { s.setOutcome seq 0 with reqs := s.reqs ++ [{
              seq := seq, arrival := o.t, due := due, rxflags := fl, payload := o.msg.payload }] } ∧
            (t.hring s.pav).recs.getLast?.map (·.body) = some (.req id s.handle seq o.t due fl o.msg.payload) ∧
            { t with net := d5.net, hearth := d5.hearth, dict := d5.dict } = d5)))) ∧
  (∀ (q : List Instr) (d : Dev) (o : OpSeqT) (s : Session), d.thermalStop = false →
    let d1 := d.netAt o.t
    let id := o.session.toNat
    d1.sess id = some s →
      (s.unaccepted o.seq = true → ∃ t s', Answers (.reqRecordComplete o) q d t ∧ t.sess id = some s' ∧
        (∀ r, r ∈ s'.reqs → r.seq = o.seq → r.accepted = true ∧ (d1.plat.coast = true → r.unverified = true) ∧
          (d1.plat.deficit = true → r.inDeficit = true)) ∧ s'.reqs.map (·.seq) = s.reqs.map (·.seq) ∧ s.answered ≤ s'.answered) ∧
      (s.unaccepted o.seq = false → Answers (.reqRecordComplete o) q d d1) ∧
      (∀ r b, s.reqs.find? (fun r => decide (r.seq = o.seq) && r.sent.isSome) = some r → r.deliver = some b →
        let next := min (2 * r.interval) (d1.rd R.amn_RESEND_CAP * 1000)
        (d1.canSend s = true → r.lastSent + r.interval ≤ d1.time → Answers (.deliverResend o) q d
          ((d1.onSess id fun s => { s with reqs := s.reqs.map fun k =>
            if k.seq = r.seq then { k with lastSent := d1.time, interval := next } else k }).sendMsg id 0x06 r.seq (r.dflags ||| 4) b.1)) ∧
        (d1.canSend s = false ∨ d1.time < r.lastSent + r.interval → Answers (.deliverResend o) q d d1))) ∧
  (∀ (q : List Instr) (d d3 : Dev) (o : Rx) (s : Session), d.thermalStop = false →
    let id := o.msg.session.toNat
    let data := o.msg.flags.getLsbD 3 = false
    let ranges := (List.range (fieldLE o.msg.payload 0 2)).map fun i =>
      (fieldLE o.msg.payload (8 + 16 * i) 8, fieldLE o.msg.payload (16 + 16 * i) 8)
    (d.Hears o 0x07 d3 s →
      (data → Answers (.ack o) q d (d3.acknowledge id o.msg.ack ranges)) ∧ (¬ data → Answers (.ack o) q d d3)) ∧
    (d.Hears o 0x08 d3 s → ¬ data → Answers (.nak o) q d d3) ∧
    (∀ s', d.Hears o 0x08 d3 s → data → (d3.acknowledge id o.msg.ack []).sess id = some s' →
      let d4 := d3.acknowledge id o.msg.ack []
      (∀ r b, s'.reqs.find? (fun r => decide (r.seq = o.msg.seq) && r.sent.isSome) = some r → r.deliver = some b →
        (fieldLE o.msg.payload 0 1 = 1 → d4.canSend s' = true → Answers (.nak o) q d
          ((d4.onSess id fun s => { s with reqs := s.reqs.map fun k =>
            if k.seq = r.seq then { k with lastSent := d4.time, interval := r.interval } else k }).sendMsg id 0x06 r.seq (r.dflags ||| 4) b.1))) ∧
      (s'.reqs.find? (fun r => decide (r.seq = o.msg.seq) && r.sent.isSome) = none → Answers (.nak o) q d d4)) ∧
    (d.HearsNew o 0x0A d3 s → fieldLE o.msg.payload 0 1 = 4 → fieldLE o.msg.payload 1 1 = 0 → controlBad o.msg.payload = false →
      let seq := fieldLE o.msg.payload 8 8
      let reply (d : Dev) (status : Nat) : Dev := d.answer id o.msg.seq 0x0A 0
        (leBytes 1 0x84 ++ leBytes 1 0 ++ leBytes 2 status ++ zeros 4 ++ leBytes 8 seq)
      let found := s.reqs.find? fun r => decide (r.seq = seq) && r.accepted
      (∀ r, found = some r → Answers (.cancel o) q d (reply (d3.enqueueIn (s.placing r 2)) 0)) ∧
      (found = none → Answers (.cancel o) q d (reply d3 0x0208)))) ∧
  (∀ (s : Session) (r : HostReq) (kind : Nat),
    let fl := 1 ||| (if kind = 1 ∧ r.replayed then 2 else 0) ||| (if bitOf r.rxflags 1 then 4 else 0) |||
      (if bitOf r.rxflags 2 then 8 else 0) ||| (if bitOf r.rxflags 0 then 16 else 0)
    let w := s.placing r kind
    w.pav = s.pav ∧ w.session = s.id ∧ w.seq = r.seq ∧ w.kind = kind ∧ w.timed = cdTimed s.desc ∧
      w.head = leBytes 4 s.id ++ leBytes 2 s.handle ++ leBytes 2 (if kind = 1 then r.payload.length else 0) ++ leBytes 8 r.seq ++
        leBytes 8 r.arrival ++ leBytes 8 r.due ++ leBytes 1 kind ++ leBytes 1 fl ++ zeros 30) ∧
  (∀ (d : Dev) (id upTo : Nat) (ranges : List (Nat × Nat)) (s : Session), d.sess id = some s → s.st ≠ .closing → s.st ≠ .draining →
    let covered (r : HostReq) : Bool := r.sent.isSome && (decide (r.seq ≤ upTo) || ranges.any fun e => decide (e.1 ≤ r.seq) && decide (r.seq ≤ e.2))
    let gone := (s.reqs.filter covered).map (·.seq)
    (d.acknowledge id upTo ranges).sess id = some { s with reqs := s.reqs.filter fun r => !gone.contains r.seq }) ∧
  (∀ (q : List Instr) (d : Dev) (o : OpPavT), d.thermalStop = false →
    let p := o.pav.val
    let d1 := d.netAt o.t
    let entries := d1.rd R.amn_INBOUND_ENTRIES 0 p
    (entries = 0 → Answers (.inboundPlacement o) q d d1) ∧
    (entries ≠ 0 → ∃ t full d2, (d1.inRefresh p).inFull p (Table.get 0 (d1.inRefresh p).net.inIndex p) = (full, d2) ∧
      Answers (.inboundPlacement o) q d t ∧
      let used := (d2.net.inRing.filter fun e => decide (e.1 = p)).length
      let k := Table.get 0 d2.net.inIndex p
      let a := d2.rd R.amn_INBOUND_BASE 0 p + d2.rd R.amn_INBOUND_SLOT 0 p * (k % max 1 (d2.rd R.amn_INBOUND_ENTRIES 0 p))
      (full = true ∨ entries ≤ used → t = d2) ∧
      let first := d2.net.inQ.find? fun w => decide (w.pav = p) && (w.timed || decide (d2.inNeed p < entries - used))
      (full = false → used < entries → first = none → t = d2) ∧
      (full = false → used < entries → ∀ w, first = some w →
        let body := if w.kind = 1 then ((d2.placingReq w).map fun e => e.2.payload).getD [] else []
        let d3 := (d2.devWrite p (a + 64) (padTo (d2.rd R.amn_INBOUND_SLOT 0 p - 64) body)).devWrite p a w.head
        { t with net := d3.net } = d3.ring p (d3.rd R.amn_INBOUND_DOORBELL 0 p) ∧ Table.get 0 t.net.inIndex p = k + 1 ∧
          t.net.inQ = d2.net.inQ.erase w ∧
          t.net.inRing = d2.net.inRing ++ [{ pav := p, index := k, session := w.session, kind := w.kind }]))) ∧
  (∀ (q : List Instr) (d : Dev) (o : OpSessT) (s : Session), d.thermalStop = false →
    let d1 := d.netAt o.t
    let id := o.session.toNat
    d1.sess id = some s →
      let n := min (s.answered + (if cdData s.desc then cdWindow s.desc else 0) - s.limit)
        ((d1.time - s.limitAt) * fieldLE s.desc 4 4 / 1000000000)
      let room := d1.roomFor s.pav ((if cdData s.desc then cdWindow s.desc else 0) * (64 + 16 * ceilDiv (fieldLE s.desc 8 2) 16))
      (s.st.live = true → n ≠ 0 → room = true →
        Answers (.credit o) q d ((d1.onSess id fun s => { s with limit := s.limit + n, limitAt := d1.time }).sendCredit id)) ∧
      (s.st.live = false ∨ n = 0 ∨ room = false → Answers (.credit o) q d d1))

/-- The checks of Table 9.20 in their order, and the posting. -/
def Obligations.DlvrPosts : Prop :=
  ∀ (q : List Instr) (d d' d1 d2 : Dev) (p a : Nat) (o : OpDev) (b : Bytes) (bad : Bool) (buf : Cap), d.Issues o.core p d' →
    (d.core o.core).twin = none →
    let x := d'.core o.core
    let cap := x.cr o.cx.toNat
    (∀ t, d'.access p cap cap.cursor.toNat 32 0x92 32 = .error t.stop → Traps (.dlvr o) q d d' o.core p t) ∧
    (d'.access p cap cap.cursor.toNat 32 0x92 32 = .ok a → (d'.drainAll o.core p).devRead p a 32 = (b, bad, d1) →
      d1.devCap p (a + 16) = (buf, d2) →
      let len := fieldLE b 4 2
      let seq := fieldLE b 8 8
      (d2.sess (fieldLE b 0 4) = none → Submits (.dlvr o) q d d2 o.core o.rd 0x0401 0) ∧
      (∀ s, d2.sess (fieldLE b 0 4) = some s →
        let req := s.reqs.find? fun r => decide (r.seq = seq) && r.accepted
        let checks : List (Bool × Nat) := [(decide (s.pav = p), 0x0401), (decide (fieldLE b 6 2 = 0), 0x0107), (req.isSome, 0x0208),
          ((req.bind (·.deliver)).isNone, 0x020E), (decide (len ≤ min 8192 (fieldLE s.desc 10 2)), 0x0105),
          (decide (len = 0) || d2.bufOk p buf len 0x80, 0x0108)]
        (∀ k, checks.find? (fun k => !k.1) = some k → Submits (.dlvr o) q d d2 o.core o.rd k.2 0) ∧
        (checks.find? (fun k => !k.1) = none → ∀ v w d3, d2.devRead p buf.cursor.toNat len = (v, w, d3) → len ≠ 0 →
          Submits (.dlvr o) q d ((d3.onSess s.id fun y => { y with reqs := y.reqs.map fun r => if r.seq = seq then
            { r with deliver := some (v, d3.time), heldPost := !d3.canSend s } else r }).sendDeliver s.id seq) o.core o.rd 0 0) ∧
        (checks.find? (fun k => !k.1) = none → len = 0 →
          Submits (.dlvr o) q d ((d2.onSess s.id fun y => { y with reqs := y.reqs.map fun r => if r.seq = seq then
            { r with deliver := some ([], d2.time), heldPost := !d2.canSend s } else r }).sendDeliver s.id seq) o.core o.rd 0 0)))

/-- Chapter 17. `all` are the eight operations of CIPH; the descriptor's OP names the job. -/
def Obligations.CipherJobs : Prop :=
  (∀ (q : List Instr) (d d' d0 d1 d2 : Dev) (p a : Nat) (o : OpDev) (b : Bytes) (bad : Bool) (src dst : Cap), d.Issues o.core p d' →
    (d.core o.core).twin = none →
    let x := d'.core o.core
    let cap := x.cr o.cx.toNat
    let all := [Instr.gcmEnc o, .gcmDec o, .gmacGen o, .gmacVer o, .xtsEnc o, .xtsDec o, .keyload o, .keyclear o]
    (∀ t, d'.access p cap cap.cursor.toNat 64 0x92 64 = .error t.stop → ∀ i ∈ all, Traps i q d d' o.core p t) ∧
    (d'.access p cap cap.cursor.toNat 64 0x92 64 = .ok a → (d'.drainAll o.core p).devRead p a 64 = (b, bad, d0) →
      d0.devCap p (a + 32) = (src, d1) → d1.devCap p (a + 48) = (dst, d2) →
      let e := ((d0.core o.core).gr o.ra).toNat % 256
      let op := fieldLE b 0 1
      let slot := fieldLE b 2 2
      let len := fieldLE b 4 4
      let aux := fieldLE b 8 4
      let s := d2.keySlot p slot
      let counts := op = 1 ∨ op = 3
      let checks : List (Bool × Nat) := [(someEngine 24 e (d2.cipherOpen p), 0x0401), (cipherFields b, 0x0107),
        (d2.holdsSlot p slot && (if op ≤ 4 then [1, 2] else if op ≤ 6 then [3, 4] else [0, 1, 2, 3, 4, 5]).contains s.kind, 0x0603),
        (d2.cipherBufs p op len aux src dst, 0x0108)]
      (∀ k, checks.find? (fun k => !k.1) = some k → ∀ i ∈ all, Submits i q d d2 o.core o.rd k.2 0) ∧
      (checks.find? (fun k => !k.1) = none → ∀ r d3,
        d2.ringTakes p (d2.rd R.cip_CQ_BASE 0 p) (d2.rd R.cip_CQ_ENTRIES 0 p) (d2.cipherCount p) (Table.get 0 d2.eng.cipherIndex p) = (r, d3) →
        (r ≠ 0 → ∀ i ∈ all, Submits i q d d3 o.core o.rd r 0) ∧
        (r = 0 → counts → s.limit < s.next → ∀ i ∈ all, Submits i q d (d3.bump R.cip_KEYS_SPENT 0 p) o.core o.rd 0x0601 0) ∧
        (r = 0 → (counts → s.next ≤ s.limit) → ∀ i ∈ all, ∃ t j, Submits i q d t o.core o.rd 0 0 ∧
          t.eng.cipherJobs = d2.eng.cipherJobs ++ [j] ∧ j.pav = p ∧ j.engine = e ∧ j.op = op ∧ j.slot = slot ∧ j.length = len ∧ j.aux = aux ∧
          j.id = fieldLE b 12 4 ∧ j.key = s.key ∧ j.src = src.cursor.toNat ∧ j.dst = dst.cursor.toNat ∧ j.seen = [] ∧ j.wrote = 0 ∧
          j.density = d2.rd R.cip_DENSITY 0 p ∧
          (counts → j.counter = s.next ∧ j.iv = leBytes 4 s.fix ++ leBytes 8 s.next ∧ t.keySlot p slot = { s with next := s.next + 1 } ∧
            (s.next < d2.keyHigh p slot + 2 ^ 20 → s.next < t.keyHigh p slot)) ∧
          (¬ counts → j.counter = 0 ∧ j.iv = slice b 16 16 ∧ t.eng.keys = d2.eng.keys) ∧
          { t with eng := d3.eng } = d3)))) ∧
  (∀ (q : List Instr) (d d2 : Dev) (o : OpCipherChunk) (j : CipherJob) (b : Bytes) (bad : Bool), d.thermalStop = false →
    let d1 := d.at o.t
    let e := o.engine.val
    let dp := d1.cipherPass e
    (∀ p, d1.engineHolder 24 e (d1.cipherFrame e).slot = some p →
      (∀ j, d1.cipherNext e = some j → j.pav = p) ∧ (d1.cipherHead p e = none → d1.cipherNext e = none)) ∧
    ((d1.cipherFrame e).slot < 256 → (dp.cipherFrame e).slot = ((d1.cipherFrame e).slot + 1) % 256) ∧
    (d1.cipherNext e = none → Answers (.cipherChunk o) q d dp) ∧
    (d1.cipherNext e = some j → o.mismatch = true → j.again = false → Answers (.cipherChunk o) q d
      ((dp.bump R.cie_MISMATCHES e).cipherStep j { j with again := true, retried := true })) ∧
    (let total := cipherIn j.op j.length j.aux
     let n := min (chunkBytes j.density) (total - j.seen.length)
     let seen := j.seen ++ b
     let out := cipherOutput j seen
     let k := { j with seen := seen, wrote := max j.wrote out.length, again := false }
     let d3 := (((d2.bump R.cie_JOBS e).bump R.cie_BYTES e 0 n).devWrite j.pav (j.dst + j.wrote) (out.drop j.wrote)).cipherStep j k
     let finishes (status : Nat) (f : Dev → Prop) : Prop := ∃ t c, Answers (.cipherChunk o) q d t ∧
       t.eng.cipherDone = d1.eng.cipherDone ++ [c] ∧ c.pav = j.pav ∧ c.slot = j.slot ∧ c.id = j.id ∧ c.status = status ∧ c.engine = e ∧
       c.counter = j.counter ∧ c.retried = j.retried ∧ f t
     d1.cipherNext e = some j →
       (o.mismatch = true → j.again = true → finishes 2 fun t => t.eng.cipherCheck = d1.eng.cipherCheck ++ [e]) ∧
       (o.mismatch = false → dp.devRead j.pav (j.src + j.seen.length) n = (b, bad, d2) →
         (bad = true → finishes 3 fun _ => True) ∧
         (bad = false → seen.length < total → Answers (.cipherChunk o) q d d3) ∧
         (bad = false → total ≤ seen.length →
           (j.op = 0x10 → d3.keyRefused j.pav j.slot seen ≠ 0 → finishes (d3.keyRefused j.pav j.slot seen) fun t => t.eng.keys = d1.eng.keys) ∧
           (j.op = 0x10 → d3.keyRefused j.pav j.slot seen = 0 → finishes 0 fun t => (t.keySlot j.pav j.slot).kind = fieldLE seen 0 1 ∧
             (t.keySlot j.pav j.slot).key = slice seen 16 (keyLen (fieldLE seen 0 1)) ∧ (t.keySlot j.pav j.slot).next = 1) ∧
           (j.op = 0x11 → finishes 0 fun t => t.keySlot j.pav j.slot = {}) ∧
           (j.op ≠ 0x10 → j.op ≠ 0x11 → cipherVerifies k seen = true → finishes 0 fun t => t.eng.keys = d1.eng.keys) ∧
           (j.op ≠ 0x10 → j.op ≠ 0x11 → cipherVerifies k seen = false → finishes 1 fun t => t.eng.keys = d1.eng.keys ∧
             t.mem = (if j.op = 2 then d3.devWrite j.pav j.dst (zeros j.length) else d3).mem))))) ∧
  (∀ (q : List Instr) (d : Dev) (o : OpPavT), d.thermalStop = false →
    let d1 := d.at o.t
    let p := o.pav.val
    (d1.eng.cipherDone.find? (fun x => decide (x.pav = p)) = none → Answers (.cipherCompletion o) q d d1) ∧
    (∀ x, d1.eng.cipherDone.find? (fun x => decide (x.pav = p)) = some x →
      let k := Table.get 0 d1.eng.cipherIndex p
      let b := leBytes 4 x.id ++ leBytes 2 x.status ++ leBytes 1 x.engine ++ leBytes 1 (if x.retried then 3 else 1) ++
        leBytes 8 x.counter ++ leBytes 8 d1.time ++ leBytes 4 x.bytesOut ++ zeros 4
      let d2 := (d1.devWrite p (d1.rd R.cip_CQ_BASE 0 p + 32 * (k % max 1 (d1.rd R.cip_CQ_ENTRIES 0 p))) b).setPbit p
        (d1.rd R.cip_DOORBELL 0 p) true
      Answers (.cipherCompletion o) q d { d2 with eng := { d2.eng with
        cipherDone := d2.eng.cipherDone.erase x, cipherIndex := Table.set 0 d2.eng.cipherIndex p (k + 1) } })) ∧
  (∀ (q : List Instr) (d : Dev) (o : OpCipherCheck), d.thermalStop = false →
    let d1 := d.at o.t
    let e := o.engine.val
    let d2 := { d1 with eng := { d1.eng with cipherCheck := d1.eng.cipherCheck.erase e } }
    (e ∉ d1.eng.cipherCheck → Answers (.cipherSelfCheckEnd o) q d d1) ∧
    (e ∈ d1.eng.cipherCheck → o.passed = true → Answers (.cipherSelfCheckEnd o) q d d2) ∧
    (e ∈ d1.eng.cipherCheck → o.passed = false → ∃ t, Answers (.cipherSelfCheckEnd o) q d t ∧ t.rd R.cie_STATE e = 4 ∧
      bitOf (t.rd R.dev_FAULT_CAUSES) 2 = true ∧
      t.alerts.head? = some { time := d1.time, index := 0x7100 + e, sub := 0, pav := 0xFF, detail := e } ∧ t.eng = d2.eng)) ∧
  (∀ (d : Dev) (e p : Nat), e < 24 → p < 64 → d.strictEngineSlots ≤ 256 →
    ((List.range 256).filter fun s => decide (d.engineHolder 24 e s = some p)).length = d.ownEngineSlots p) ∧
  (∀ (key iv aad data : Bytes), (key.length = 16 ∨ key.length = 32) → iv.length = 12 →
    let ct := gcmCrypt key iv data
    gcmCrypt key iv ct = data ∧ ct.length = data.length ∧
    ∀ j : CipherJob, j.op = 2 → j.key = key → j.iv.take 12 = iv → j.aux = aad.length → j.length = data.length →
      let seen := aad ++ ct ++ gcmTag key iv aad ct
      cipherVerifies j seen = true ∧ cipherOutput j seen = data)

/-- Chapter 18. The compressed form of a block is a free value (notes/assumptions/2); only what verifies is written. -/
def Obligations.CompressionJobs : Prop :=
  (∀ (q : List Instr) (d d' d0 d1 d2 d3 : Dev) (p a : Nat) (o : OpDev) (b : Bytes) (bad : Bool) (src chain ctx : Cap), d.Issues o.core p d' →
    (d.core o.core).twin = none →
    let x := d'.core o.core
    let cap := x.cr o.cx.toNat
    let all := [Instr.compress o, .decompress o, .stream o]
    (∀ t, d'.access p cap cap.cursor.toNat 64 0x92 64 = .error t.stop → ∀ i ∈ all, Traps i q d d' o.core p t) ∧
    (d'.access p cap cap.cursor.toNat 64 0x92 64 = .ok a → (d'.drainAll o.core p).devRead p a 64 = (b, bad, d0) →
      d0.devCap p (a + 16) = (src, d1) → d1.devCap p (a + 32) = (chain, d2) → d2.devCap p (a + 48) = (ctx, d3) →
      let e := ((d0.core o.core).gr o.ra).toNat % 256
      let n := fieldLE b 2 1
      let len := fieldLE b 4 4
      let f := fieldLE b 1 1
      let open_ := someEngine 16 e (d3.compOpen p)
      let arr := d3.bufOk p chain (16 * n) 0x90 16
      (open_ = false → ∀ i ∈ all, Submits i q d d3 o.core o.rd 0x0401 0) ∧
      (open_ = true → compFields b = false → ∀ i ∈ all, Submits i q d d3 o.core o.rd 0x0107 0) ∧
      (open_ = true → compFields b = true →
        (arr = false → ∀ i ∈ all, Submits i q d d3 o.core o.rd 0x0108 0xFF) ∧
        (arr = true → ∀ bufs d4, chainCaps p chain.cursor.toNat n d3 = (bufs, d4) →
          (∀ r k, d4.compBufs p (fieldLE b 0 1) len src chain ctx bufs = (r, k) → r ≠ 0 → ∀ i ∈ all, Submits i q d d4 o.core o.rd r k) ∧
          ((d4.compBufs p (fieldLE b 0 1) len src chain ctx bufs).1 = 0 → ∀ r d5,
            d4.ringTakes p (d4.rd R.cpr_CQ_BASE 0 p) (d4.rd R.cpr_CQ_ENTRIES 0 p) (d4.compCount p) (Table.get 0 d4.eng.compIndex p) = (r, d5) →
            (r ≠ 0 → ∀ i ∈ all, Submits i q d d5 o.core o.rd r 0) ∧
            (r = 0 → ∀ i ∈ all, Submits i q d { d5 with eng := { d5.eng with compJobs := d5.eng.compJobs ++ [{
              pav := p, engine := e, op := fieldLE b 0 1, flush := bitOf f 0, finish := bitOf f 1, more := bitOf f 2,
              block := (if fieldLE b 3 1 = 0 then 64 else fieldLE b 3 1) * 1024, length := len, id := fieldLE b 8 4,
              src := src.cursor.toNat, arr := chain.cursor.toNat, chain := bufs.filterMap chainBuf, ctx := ctx.cursor.toNat }] } }
              o.core o.rd 0 0)))))) ∧
  (∀ (q : List Instr) (d : Dev) (o : OpCompChunk), d.thermalStop = false →
    let d1 := d.at o.t
    let e := o.engine.val
    let dp := d1.compPass e
    let ends (j : CompJob) (status : Nat) (f : CompJob → Prop) : Prop := ∃ t c, Answers (.compressionChunk o) q d t ∧
      t.eng.compDone = d1.eng.compDone ++ [c] ∧ t.eng.compJobs = d1.eng.compJobs.erase j ∧ c.status = status ∧ c.engine = e ∧
      c.job.pav = j.pav ∧ c.job.id = j.id ∧ f c.job
    (∀ p, d1.engineHolder 16 e (d1.compFrame e).slot = some p →
      (∀ j, d1.compNext e = some j → j.pav = p) ∧ (d1.compHead p e = none → d1.compNext e = none)) ∧
    (d1.compNext e = none → Answers (.compressionChunk o) q d dp) ∧
    (∀ j b stage, d1.compNext e = some j → j.work = some (b, stage) →
      let len := if j.op = 2 then fieldLE b 8 4 else b.length
      let n := min 1024 (len - 1024 * (ceilDiv len 1024 - j.left))
      let k := { j with left := j.left - 1 }
      let d2 := if j.left = 0 then dp else (dp.bump R.cpe_CHUNKS e).bump R.cpe_BYTES e 0 n
      (2 ≤ j.left → Answers (.compressionChunk o) q d (d2.compStep j k)) ∧
      (j.left ≤ 1 → j.op ≠ 2 → stage = .raw → o.mismatch = false → Answers (.compressionChunk o) q d (d2.writeBlock j k e b none)) ∧
      (j.left ≤ 1 → j.op ≠ 2 → stage = .raw → o.mismatch = true → ends j 4 fun _ => True) ∧
      (j.left ≤ 1 → j.op ≠ 2 → stage ≠ .raw → o.mismatch = false → ∃ t f s, Answers (.compressionChunk o) q d t ∧
        (b.length ≤ s.length ∧ t = { d2 with fresh := f }.writeBlock j k e b none ∨
          s.length < b.length ∧ inflate s b.length = some b ∧ t = { d2 with fresh := f }.writeBlock j k e b (some s) ∨
          inflate s b.length ≠ some b ∧ t.eng.compDone = d1.eng.compDone ∧ t.mem = d1.mem ∧
            ∃ k', k' ∈ t.eng.compJobs ∧ k'.work = some (b, if stage = .first then .second else .raw))) ∧
      (j.left ≤ 1 → j.op = 2 →
        (∀ i off, k.place (fieldLE b 8 4) = some (i, off) →
          let out := if bitOf (fieldLE b 4 1) 0 then some (b.drop 24) else inflate (b.drop 24) (fieldLE b 8 4)
          let at_ := (j.chain.getD i (0, 0)).1 + off
          (out = none → ends j 3 fun _ => True) ∧
          (∀ v, out = some v → crc32c v = fieldLE b 16 4 → Answers (.compressionChunk o) q d
            ((d2.devWrite j.pav at_ v).compStep j { k with
              work := none, bufAt := i, off := off + v.length, outDone := j.outDone + v.length, blocks := j.blocks + 1,
              inDone := j.inDone + b.length, lastSeen := bitOf (fieldLE b 4 1) 1, ended := bitOf (fieldLE b 4 1) 1 })) ∧
          (∀ v, out = some v → crc32c v ≠ fieldLE b 16 4 → ends j 2 fun c => c.outDone = j.outDone)) ∧
        (k.place (fieldLE b 8 4) = none → ends j 1 fun c => c.outDone = j.outDone))) ∧
    (∀ j, d1.compNext e = some j → j.work = none →
      let rest := j.length - j.inDone
      (j.op = 1 → j.ended = true → ends j 0 fun c => c = j) ∧
      (j.op = 2 → j.ended = false → rest < 24 → ends j 0 fun c => c.part = decide (0 < rest)) ∧
      (∀ h d2, j.op = 2 → j.ended = false → 24 ≤ rest → dp.devRead j.pav (j.src + j.inDone) 24 = (h, false, d2) → headerOk h = false →
        ends j 3 fun c => c = j) ∧
      (∀ b d2, let n := min j.block rest
        j.op = 1 → j.ended = false → (j.length ≠ 0 ∨ j.more = false) → 1024 < n → dp.devRead j.pav (j.src + j.inDone) n = (b, false, d2) →
        Answers (.compressionChunk o) q d (((d2.bump R.cpe_CHUNKS e).bump R.cpe_BYTES e 0 1024).compStep j
          { j with work := some (b, .first), left := ceilDiv n 1024 - 1 })))) ∧
  (∀ (q : List Instr) (d : Dev) (o : OpPavT), d.thermalStop = false →
    let d1 := d.at o.t
    let p := o.pav.val
    (d1.eng.compDone.find? (fun x => decide (x.job.pav = p)) = none → Answers (.compressionCompletion o) q d d1) ∧
    (∀ x, d1.eng.compDone.find? (fun x => decide (x.job.pav = p)) = some x →
      let k := Table.get 0 d1.eng.compIndex p
      let j := x.job
      let b := leBytes 4 j.id ++ leBytes 2 x.status ++ leBytes 1 x.engine ++ leBytes 1 (1 + (if j.retried then 2 else 0) +
        (if j.rawFallback then 4 else 0) + (if j.part then 8 else 0) + (if j.lastSeen then 16 else 0)) ++ leBytes 4 j.inDone ++
        leBytes 4 j.outDone ++ leBytes 8 d1.time ++ leBytes 2 j.blocks ++ leBytes 1 j.bufAt ++ zeros 1 ++ leBytes 4 j.off
      let d2 := (d1.devWrite p (d1.rd R.cpr_CQ_BASE 0 p + 32 * (k % max 1 (d1.rd R.cpr_CQ_ENTRIES 0 p))) b).setPbit p
        (d1.rd R.cpr_DOORBELL 0 p) true
      Answers (.compressionCompletion o) q d { d2 with eng := { d2.eng with
        compDone := d2.eng.compDone.erase x, compIndex := Table.set 0 d2.eng.compIndex p (k + 1) } })) ∧
  (∀ (q : List Instr) (d : Dev) (o : OpCompCheck), d.thermalStop = false →
    let d1 := d.at o.t
    let e := o.engine.val
    let d2 := { d1 with eng := { d1.eng with compCheck := d1.eng.compCheck.erase e } }
    (e ∉ d1.eng.compCheck → Answers (.compressionSelfCheckEnd o) q d d1) ∧
    (e ∈ d1.eng.compCheck → o.passed = true → Answers (.compressionSelfCheckEnd o) q d d2) ∧
    (e ∈ d1.eng.compCheck → o.passed = false → ∃ t, Answers (.compressionSelfCheckEnd o) q d t ∧ t.rd R.cpe_STATE e = 4 ∧
      bitOf (t.rd R.dev_FAULT_CAUSES) 3 = true ∧
      t.alerts.head? = some { time := d1.time, index := 0x7200 + e, sub := 0, pav := 0xFF, detail := e } ∧ t.eng = d2.eng)) ∧
  (∀ (raw last flushed : Bool) (data payload : Bytes), data.length ≤ 65536 → data ≠ [] →
    (if raw then payload = data else payload ≠ [] ∧ payload.length < data.length) →
    let b := containerBlock raw last flushed data.length (crc32c data) payload
    headerOk (b.take 24) = true ∧ b.drop 24 = payload ∧ fieldLE b 8 4 = data.length ∧ fieldLE b 12 4 = payload.length ∧
      fieldLE b 16 4 = crc32c data ∧ bitOf (fieldLE b 4 1) 0 = raw ∧ bitOf (fieldLE b 4 1) 1 = last)

/-- Events of one core. The frame of a trap is `Obligations.TrapEntry`. -/
def Obligations.CoreEvents : Prop :=
  (∀ (q : List Instr) (d : Dev) (o : OpDrain), d.thermalStop = false →
    let c := o.core.val
    ((d.coreOwner c = none ∨ (d.core c).merge[o.idx.val]? = none) → Answers (.mergingBufferDrain o) q d d) ∧
    (∀ p e, d.coreOwner c = some p → (d.core c).merge[o.idx.val]? = some e →
      let after (t : Dev) (stored : List Nat) : Prop :=
        { t.core c with readAt := [] } = { d.core c with merge := (d.core c).merge.eraseIdx o.idx, stored := stored, readAt := [] } ∧
        ∀ b < 64, Table.get 0 (t.core c).readAt (64 * e.line + b) =
          if e.mask.getLsbD b then t.mem.clock else Table.get 0 (d.core c).readAt (64 * e.line + b)
      let cl := clusterOf c
      (placeOf (64 * e.line) = .scratchpad → ∃ t, Answers (.mergingBufferDrain o) q d t ∧
        after t (d.core c).stored ∧
        (∀ k < 64, Table.get 0 t.mem.spad.bytes (spadOff e.line + k) =
          if e.mask.getLsbD k then e.data.extractLsb' (8 * k) 8 else Table.get 0 (d.awaitBanks e.line).mem.spad.bytes (spadOff e.line + k)) ∧
        (∀ a, (∀ k < 64, a ≠ spadOff e.line + k) → Table.get 0 t.mem.spad.bytes a = Table.get 0 (d.awaitBanks e.line).mem.spad.bytes a) ∧
        (o.collide ≠ .mover → t.mem.moverJobs = d.mem.moverJobs) ∧ (o.collide ≠ .device → t.mem.dmaLost = d.mem.dmaLost) ∧
        (o.collide = .device → ∀ w, (p, w) ∈ t.mem.dmaLost ↔ (p, w) ∈ d.mem.dmaLost ∨ w ∈ e.words) ∧
        (o.collide = .mover → ∀ j, d.mem.moverJobs = [j] → j.cluster < 16 → j.pav = p → j.status = 0 → t.mem.moverJobs = [{ j with
          lost := j.lost ++ e.words.filter fun w => decide (j.dst ≤ w) && decide (w < j.dst + j.len) && !j.lost.contains w }]) ∧
        t.mem.main = d.mem.main ∧ t.mem.win = d.mem.win) ∧
      (placeOf (64 * e.line) = .window → ∃ t, Answers (.mergingBufferDrain o) q d t ∧
        after t (d.core c).stored ∧
        (∀ k < 64, Table.get 0 t.mem.win.bytes (winKey p e.line + k) =
          if e.mask.getLsbD k then e.data.extractLsb' (8 * k) 8 else Table.get 0 d.mem.win.bytes (winKey p e.line + k)) ∧
        (∀ a, (∀ k < 64, a ≠ winKey p e.line + k) → Table.get 0 t.mem.win.bytes a = Table.get 0 d.mem.win.bytes a) ∧
        t.mem.main = d.mem.main ∧ t.mem.spad = d.mem.spad ∧ t.mem.winDurable = d.mem.winDurable ∧ t.dict = d.dict ∧
        t.mem.winPend = d.mem.winPend ++ winStores c (winKey p e.line / 64) e.mask e.data) ∧
      (∀ l, placeOf (64 * e.line) = .memory → d.held cl p e.line = some l → (l.st = .d ∨ l.st = .x) →
        (∀ m ∈ d.mem.msgs ++ d.mem.turned, m.isFor p e.line = false) →
        (∀ y ∈ d.mem.txns, ∀ m, y.evictFor = some m → m.isFor p e.line = false) →
        ∃ t l', Answers (.mergingBufferDrain o) q d t ∧ t.held cl p e.line = some l' ∧ l'.st = .d ∧
          l'.data = l.data.write e.mask e.data e.tags ∧ (t.core c).merge = (d.core c).merge.eraseIdx o.idx ∧
          (t.core c).stored = (if (d.core c).stored.contains e.line then (d.core c).stored else (d.core c).stored ++ [e.line]) ∧
          (t.core c).arch = (d.core c).arch ∧ t.mem.main = d.mem.main ∧ t.mem.spad = d.mem.spad ∧ t.mem.win = d.mem.win))) ∧
  (∀ (q : List Instr) (d : Dev) (p : Nat) (o : OpCoreT), Table.Wf false d.mem.bits → d.coreReady o.core = true →
    d.coreOwner o.core = some p →
    let x := d.core o.core
    let d1 := d.at o.t
    let due (b : Nat) : Prop := b < 4096 ∧ x.arch.arm.getLsbD b = true ∧ d.pbit p (0x1000 + b) = true
    let timer := x.arch.tcmp.toNat ≤ d1.time
    let open_ := x.mchecks = [] ∧ x.fpTrap = none ∧ x.twin = none ∧ x.arch.bit 4 = true
    (open_ → (∀ b, due b → (∀ k < b, ¬ due k) →
        Answers (.doorbellInterrupt o) q d (d1.takeTrap o.core p { num := 0x10, fault := 0x1000 + b }) ∧
        Answers (.coreTimer o) q d d1) ∧
      ((∀ b, ¬ due b) → Answers (.doorbellInterrupt o) q d d1 ∧
        (timer → Answers (.coreTimer o) q d (d1.takeTrap o.core p { num := 0x11, fault := x.arch.tcmp.toNat })) ∧
        (¬ timer → Answers (.coreTimer o) q d d1))) ∧
    (x.mchecks = [] → x.fpTrap = none → (x.arch.bit 4 = false ∨ x.twin.isSome = true) →
      Answers (.doorbellInterrupt o) q d d1 ∧ Answers (.coreTimer o) q d d1)) ∧
  (∀ (q : List Instr) (d d' : Dev) (p : Nat) (o : OpWord),
    ((decodeWord o.core o.word).isSome = true → Answers (.undefinedOpcodeWord o) q d d) ∧
    (decodeWord o.core o.word = none → d.Issues o.core p d' →
      Traps (.undefinedOpcodeWord o) q d d' o.core p { num := 0x01, fault := (d'.core o.core).arch.pcc.cursor.toNat }))

/-- Chapter 16 for a core that runs alone, with no START waiting for it. -/
def Obligations.RetryAndSparing : Prop :=
  let more (t d : Dev) (e : Entry) (k : Nat) : Prop := t.rd e k = min (d.rd e k + 1) (256 ^ e.size - 1)
  (∀ (q : List Instr) (d : Dev) (p : Nat) (o : OpRetry), d.thermalStop = false →
    let c := o.core.val
    let k := clusterOf c
    let x := d.core c
    let d1 := d.at o.t
    let i := Instr.instructionRetry o
    (d.coreOwner c = none ∨ (x.run ≠ .running ∧ x.run ≠ .retrying) → Answers i q d d1) ∧
    (d.coreOwner c = some p → (x.run = .running ∨ x.run = .retrying) → x.exchange = none → x.startOwed = false →
      x.merge.length ≤ 16 → ∃ t, Answers i q d t ∧ (∀ n, n ≠ c → (t.core n).arch = (d.core n).arch) ∧ more t d1 R.clu_RETRIES k ∧
      (o.event = .compare → more t d1 R.clu_MISMATCHES k) ∧ (o.event = .registerEcc → more t d1 R.clu_REG_ECC k) ∧
      (∀ b a, o.event = .microcode b a → more t d1 R.dev_UCODE_CHECKS 0) ∧
      (∀ l, o.event = .cacheParity l → (∀ e ∈ (t.core c).l1i, e.2.line ≠ l.toNat) ∧ (t.core c).l1dFind l.toNat = none ∧
        l.toNat ∉ (t.core c).victim) ∧
      (t.core c).arch = x.checkpoint ∧ (t.core c).checkpoint = x.checkpoint ∧ (t.core c).fpq = [] ∧ (t.core c).fbuf = none ∧
      (o.success = true → (t.core c).run = .running ∧ (t.core c).retry.count = 0 ∧ (t.core c).merge = x.merge ∧
        { t.mem with l2 := d.mem.l2 } = d.mem) ∧
      (o.success = false → x.retry.count < 2 → (t.core c).run = .retrying ∧ (t.core c).retry.count = x.retry.count + 1 ∧
        (t.core c).merge = x.merge ∧ { t.mem with l2 := d.mem.l2 } = d.mem) ∧
      (o.success = false → 2 ≤ x.retry.count → (t.core c).run = .selfTest ∧ (t.core c).merge = [] ∧ more t d1 R.clu_SELFTESTS k))) ∧
  (∀ (q : List Instr) (d : Dev) (p : Nat) (o : OpSelfTest), d.thermalStop = false →
    let c := o.core.val
    let k := clusterOf c
    let x := d.core c
    let d1 := d.at o.t
    let i := Instr.selfTestEnd o
    let passed := (d1.time :: x.retry.passed).filter fun t => decide (d1.time < t + 1000000000)
    let bad := o.confirmed = true ∨ 3 ≤ passed.length
    let free := d.rd R.clu_SPARE k = 0xFF ∧ ∀ n, clusterOf n = k → n ≠ c → (d.core n).run ≠ .handingOver
    (x.run ≠ .selfTest → Answers i q d d1) ∧
    (d.coreOwner c = some p → x.run = .selfTest → x.retry.finding = none → x.retry.disagree = false → x.retry.gaveUp = false →
      x.twin = none → x.startOwed = false → ∃ t, Answers i q d t ∧ (∀ n, n ≠ c → (t.core n).arch = (d.core n).arch) ∧
      (o.confirmed = false → more t d1 R.clu_SELFTEST_PASSED k) ∧
      (¬ bad → t.core c = { x with run := .running, arch := x.checkpoint, fpq := [], exchange := none, fbuf := none, retry := { passed := passed } }) ∧
      (bad → free → t.core c = { x with run := .handingOver } ∧ t.mem = d.mem) ∧
      (bad → ¬ free → t.core c = { run := .lost, inSpareSlot := x.inSpareSlot } ∧ more t d1 R.clu_LOST k ∧
        bitOf (t.rd R.clu_RETIRED k) (d.slotOf c) = true ∧ t.pbit p 0x1FFE = true ∧
        t.alerts.head? = some { time := d1.time, index := 0x3000 + k, sub := 0x16, pav := p, detail := c }))) ∧
  (∀ (q : List Instr) (d : Dev) (o : OpClusterT), d.thermalStop = false →
    let k := o.cluster.val
    let d1 := d.at o.t
    let needs (c : Nat) : Prop := clusterOf c = k ∧ ((d.core c).run = .retrying ∨ (d.core c).run = .selfTest ∨ (d.core c).run = .handingOver)
    (d.rd R.clu_SPARE k ≠ 0xFF → Answers (.spareAwake o) q d d1) ∧
    (d.rd R.clu_SPARE k = 0xFF → ∃ t, Answers (.spareAwake o) q d t ∧ { t with cores := d1.cores } = d1 ∧
      ∀ c, (needs c → t.core c = { d.core c with retry := { (d.core c).retry with spareAwake := true } }) ∧
        (¬ needs c → t.core c = d.core c)) ∧
    (d.handing k = none → Answers (.checkpointTransfer o) q d d1 ∧ Answers (.spareFirstCommit o) q d d1) ∧
    (∀ c, d.handing k = some c →
      let x := d.core c
      (x.retry.spareAwake = false ∨ x.retry.inSpare = true → Answers (.checkpointTransfer o) q d d1) ∧
      (x.retry.spareAwake = true → x.retry.inSpare = false → ∃ t, Answers (.checkpointTransfer o) q d t ∧
        t.core c = { x with inSpareSlot := true, l1d := [], victim := [], l1i := [], fbuf := none, streams := [], pred := []
                            retry := { x.retry with inSpare := true } } ∧
        (∀ n, n ≠ c → t.core n = d.core n) ∧ t.rd R.clu_SPARE k = c % 16 ∧ bitOf (t.rd R.clu_RETIRED k) (d.slotOf c) = true ∧
        t.mem.main = d.mem.main ∧ t.mem.spad = d.mem.spad) ∧
      (x.retry.inSpare = false → Answers (.spareFirstCommit o) q d d1) ∧
      (∀ p, x.retry.inSpare = true → d.coreOwner c = some p → x.waiting = none → x.startOwed = false →
        ∃ t, Answers (.spareFirstCommit o) q d (t.takeTrap c p { num := 0x1F, fault := 0, cls := 3 }) ∧
          t.core c = { x with run := .running, arch := x.checkpoint, fpq := [], exchange := none, fbuf := none, retry := {} } ∧
          (∀ n, n ≠ c → t.core n = d.core n) ∧ t.mem = d.mem ∧ more t d1 R.clu_SPARINGS k ∧
          t.rd R.clu_LAST_SPARE_TIME k = min (d1.time - x.retry.start) (2 ^ 32 - 1) ∧
          t.alerts.head? = some { time := d1.time, index := 0x3000 + k, sub := 0x15, pav := p, detail := c }) ∧
      (∀ p w, x.retry.inSpare = true → d.coreOwner c = some p → x.waiting = some w → x.startOwed = false →
        ∃ t, Answers (.spareFirstCommit o) q d t ∧ more t d1 R.clu_SPARINGS k ∧
          t.core c = { x with run := .running, arch := x.checkpoint, fpq := [], exchange := none, fbuf := none, retry := {}
                              waiting := some d1.time, mchecks := x.mchecks ++ [3] })))

/-- `exchangeOf` reads a presented instruction as the first twin's, with its meaning. -/
def Obligations.TwinExecution : Prop :=
  ∀ (q : List Instr) (d : Dev) (p k : Nat) (o : OpCoreT), d.thermalStop = false → d.coreOwner o.core = some p →
    (d.core o.core).twin = some k → o.core.val ≠ k → k < 256 →
    let c := o.core.val
    let a := min c k
    let b := max c k
    let d1 := d.at o.t
    let d2 := (d1.onCore a (·.signalAll)).onCore b (·.signalAll)
    let same (t : Dev) : Prop := (t.core b).arch = (t.core a).arch ∧ (t.core b).checkpoint = (t.core a).arch ∧
      (t.core b).fpq = (t.core a).fpq ∧ (t.core b).fpTrap = (t.core a).fpTrap ∧ (t.core b).fpHeld = (t.core a).fpHeld ∧ (t.core a).exchange = none ∧ (t.core b).exchange = none ∧
      (t.core a).exArch = (t.core a).arch ∧ (t.core b).exArch = (t.core a).arch ∧ (t.core a).exRetries = 0 ∧ (t.core b).exRetries = 0
    (∀ i j t1 t2 x y bx by_, (d.core c).run = .running → (d.core k).run = .running →
      (d.core a).exchange = some (i, t1) → (d.core b).exchange = some (j, t2) →
      exchangeOf i (Fin.ofNat 256 a) = some (x, bx) → exchangeOf j (Fin.ofNat 256 a) = some (y, by_) →
      let ds := d2.onCore a fun z => { z with exchange := none }
      let d3 := ds.perform1 a p bx
      (x.spelled = y.spelled → (d2.core a).arch = (d2.core b).arch → ∃ t, Answers (.twinExchange o) q d t ∧ same t ∧
        (∀ e, (d2.core a).fpTrapDue = some e → (t.core a).arch = ((ds.takeTrap a p e).core a).arch) ∧
        ((d2.core a).fpTrapDue = none →
          ((d3.core a).run ≠ .running → (t.core a).arch = (d3.core a).arch ∧ t.mem = d3.mem) ∧
          ((d3.core a).run = .running → (d3.core a).fpTrapDue = none →
            (d3.interrupt a p = none → (t.core a).arch = (d3.core a).arch ∧ t.mem = d3.mem) ∧
            (∀ e, d3.interrupt a p = some e → (t.core a).arch = ((d3.takeTrap a p e).core a).arch)))) ∧
      (¬ (x.spelled = y.spelled ∧ (d2.core a).arch = (d2.core b).arch) → (d.core a).merge.length ≤ 16 → (d.core b).merge.length ≤ 16 →
        ∃ t, Answers (.twinExchange o) q d t ∧
        (∀ n, n = a ∨ n = b → (t.core n).arch = (d.core n).exArch ∧ (t.core n).exchange = none ∧ (t.core n).fpq = [] ∧
          (t.core n).exRetries = (d.core n).exRetries + 1) ∧
        ((d.core a).exRetries < 3 → t.mem = d.mem ∧ (t.core a).run = .running ∧ (t.core b).run = .running ∧
          (clusterOf a ≠ clusterOf b → ∀ n, n = a ∨ n = b → t.rd R.clu_RETRIES (clusterOf n) =
            min (d.rd R.clu_RETRIES (clusterOf n) + 1) (256 ^ R.clu_RETRIES.size - 1))) ∧
        (3 ≤ (d.core a).exRetries → ∀ n, n = a ∨ n = b →
          (t.core n).run = .selfTest ∧ (t.core n).retry.disagree = true ∧ (t.core n).merge = []))) ∧
    (d2.coreReady a = true → d2.coreReady b = true → (d2.core a).arch = (d2.core b).arch → ∃ t, Answers (.idleExchange o) q d t ∧ same t ∧
      (∀ e, (d2.core a).fpTrapDue = some e → (t.core a).arch = ((d2.takeTrap a p e).core a).arch) ∧
      ((d2.core a).fpTrapDue = none → d2.interrupt a p = none → (t.core a).arch = (d2.core a).arch ∧ t.mem = d.mem) ∧
      (∀ e, (d2.core a).fpTrapDue = none → d2.interrupt a p = some e → (t.core a).arch = ((d2.takeTrap a p e).core a).arch)) ∧
    (∀ (g : OpGiveUp) (i : Instr), g.core = o.core → g.t = o.t → i = .twinGiveUp g ∧ (d.core c).run = .selfTest ∧ (d.core c).retry.disagree = false ∨
        i = .twinTimeout g ∧ (d.core c).exchange = none ∧ (∃ j due, (d.core k).exchange = some (j, due) ∧ due ≤ d1.time) →
      d.twinPartner c = k → (d.core c).merge.length ≤ 16 →
      let caught := g.midFrame = true ∧ (d.core k).run = .running ∧ d1.frameDue k p = true
      ∃ t,
        (t.core c).run = (if (d.core c).run = .selfTest then .selfTest else .stopped) ∧ (t.core c).twin = none ∧ (t.core c).exchange = none ∧
        (t.core c).merge = [] ∧ (t.core c).arch = (d.core c).arch ∧
        (c < k → ∀ l, l ∈ (d.core c).stored ∨ l ∈ (d.core k).stored → l ∈ (t.core k).stored) ∧
        (t.core k).twin = none ∧ (t.core k).mchecks = (d.core k).mchecks ++ [4] ∧ (t.core k).arch = (d.core k).arch ∧
        t.twinPartner c = 0xFFFF ∧ t.twinPartner k = 0xFFFF ∧
        t.rd R.clu_TWIN_GIVEUPS (clusterOf c) = min (d.rd R.clu_TWIN_GIVEUPS (clusterOf c) + 1) (256 ^ R.clu_TWIN_GIVEUPS.size - 1) ∧
        t.alerts.head? = some { time := d1.time, index := 0x3000 + clusterOf c, sub := 0x24, pav := p, detail := c + 256 * k } ∧
        (caught → Answers i q d ((t.onCore k fun z => { z with exchange := none }).wedge k p 4)) ∧
        (¬ caught → (d.core k).exchange = none → Answers i q d t) ∧
        (∀ j due x body, ¬ caught → (d.core k).exchange = some (j, due) → exchangeOf j (Fin.ofNat 256 k) = some (x, body) →
          Answers i q d ((t.onCore k fun z => { z with exchange := none }).perform1 k p body))) ∧
    (∀ g : OpGiveUp, g.core = o.core → g.t = o.t →
      ((d.core c).run ≠ .selfTest → Answers (.twinGiveUp g) q d d1) ∧
      ((d.core k).exchange = none ∨ (d.core c).exchange.isSome = true → Answers (.twinTimeout g) q d d1))

/-- Table 13.7. An agent that the directory does not list counts as one that holds nothing (R396). -/
def Obligations.HomeRequests : Prop :=
  (∀ (q : List Instr) (d : Dev) (o : OpLine) (a : Nat), d.thermalStop = false →
    let c := o.agent.val
    let p := o.pav.val
    let line := o.line.toNat
    let req (k : CohKind) : CohMsg := { kind := k, agent := c, pav := p, line := line }
    let cmd : CohKind → Instr → Prop := fun k i => k = .rds ∧ i = .rds o ∨ k = .rdx ∧ i = .rdx o ∨ k = .upg ∧ i = .upg o ∨ k = .rdu ∧ i = .rdu o
    let st := d.lstate c p line
    let written := ∃ w ∈ d.mem.wbBuf, w.agent = c ∧ w.pav = p ∧ w.line = line
    let may (k : CohKind) : Prop := ¬ written ∧ (k = .rds ∨ k = .rdx → st = .i) ∧ (k = .upg → st = .s ∨ st = .k)
    let open_ := d.lineAddr p line = some a ∧ (∀ m ∈ d.mem.msgs ++ d.mem.turned, ¬ (m.agent = c ∧ m.isFor p line = true)) ∧
      (∀ r ∈ d.mem.outstanding, ¬ (r.agent = c ∧ r.pav = p ∧ r.line = line)) ∧ ¬ written
    let calm := (∀ t ∈ d.mem.txns, ¬ (t.req.pav = p ∧ t.req.line = line)) ∧
      (∀ b ∈ d.mem.bellows, b.2.1 = p → b.2.2 = line → b.1 = c)
    (∀ k i, cmd k i → d.lineAddr p line = none ∨ ¬ may k → (∀ m ∈ d.mem.msgs ++ d.mem.turned, ¬ (m.agent = c ∧ m.isFor p line = true)) →
      Answers i q d d) ∧
    (open_ → ∀ key, d.dirFind p a = some key ∨ (d.dirFind p a = none ∧
        ((d.dirWays p).map (dirSetKey a + ·)).find? (fun k => !(d.dirAt k).used) = some key) → calm →
      let e := d.dirAt key
      let found := (d.dirFind p a).isSome
      let listed := fun n => found && e.presence.getLsbD n
      let others := (List.range 18).filter fun n => listed n && decide (n ≠ c)
      let row (holds : Bool) : DState := if others = [] ∧ holds = false then .i
        else if e.st = .k ∧ e.keeper = c ∧ holds = false then .s else e.st
      let one : BitVec 18 := 1 <<< c
      let mem := d.memLine a
      let data (k : CohKind) (g : LState) (n : Nat) (l : Option Line) : CohMsg :=
        { kind := .data, agent := c, pav := p, line := line, grant := g, count := n, payload := l, slot := (req k).slot }
      let snp (k kind : CohKind) (n : Nat) (need : Bool) (count : Nat) : CohMsg :=
        { kind := kind, agent := n, pav := p, line := line, requester := c, needData := need, count := count
          grant := if k = .rdu then .i else if kind = .snpi then .x else .s }
      let done : CohMsg := { kind := .complete, agent := c, pav := p, line := line }
      let serves (k : CohKind) (i : Instr) (e' : DirEntry) (ms : List CohMsg) (wait : List Nat) (src : Option Nat) : Prop :=
        ∃ t, Answers i q d t ∧ t.dirAt key = e' ∧ (∀ x, x ≠ key → t.dirAt x = d.dirAt x) ∧ t.mem.msgs = d.mem.msgs ++ ms ∧
          t.mem.txns = d.mem.txns ++ [{ req := req k, wait := wait, dataFrom := src,
                                                due := d.time + 1000 * d.rd R.coh_HOME_TIMEOUT }] ∧
          t.mem.main = d.mem.main ∧ t.mem.l2 = d.mem.l2 ∧ { t with mem := d.mem } = d
      let entry (ds : DState) (keeper : Nat) (pr : BitVec 18) : DirEntry :=
        { pav := p, tag := dirTag a, pin := true, st := ds, keeper := keeper, presence := pr, recent := true }
      let kept (pr : BitVec 18) : DirEntry := if e.keeper < 16 then entry .k e.keeper pr else entry .s 0x1F pr
      (st = .i →
        (row false = .i → serves .rds (.rds o) (entry .e c one) [data .rds .x 0 (some mem), done] [] none ∧
          serves .rdx (.rdx o) (entry .e c one) [data .rdx .x 0 (some mem), done] [] none) ∧
        (row false = .s → (c < 16 → serves .rds (.rds o) (entry .k c (e.presence ||| one)) [data .rds .k 0 (some mem), done] [] none) ∧
          (16 ≤ c → serves .rds (.rds o) (entry .s 0x1F (e.presence ||| one)) [data .rds .s 0 (some mem), done] [] none) ∧
          serves .rdx (.rdx o) (entry .e c one) (data .rdx .x others.length (some mem) ::
            (others.map fun n => snp .rdx .snpi n false others.length) ++ (if others = [] then [done] else [])) others none) ∧
        (row false = .k → serves .rds (.rds o) (entry .k e.keeper (e.presence ||| one)) [snp .rds .fwd e.keeper true 0] [e.keeper] (some e.keeper) ∧
          serves .rdx (.rdx o) (entry .e c one) ((others.map fun n => snp .rdx .snpi n (decide (n = e.keeper)) others.length) ++
            (if others = [] then [done] else [])) others (some e.keeper)) ∧
        (row false = .e → serves .rds (.rds o) (kept (e.presence ||| one)) [snp .rds .snps e.keeper true 0] [e.keeper] (some e.keeper) ∧
          serves .rdx (.rdx o) (entry .e c one) [snp .rdx .snpi e.keeper true 1] others (some e.keeper))) ∧
      (st = .s ∨ st = .k →
        let h := listed c
        (row h = .i → serves .upg (.upg o) (entry .e c one) [data .upg .x 0 (some mem), done] [] none) ∧
        (row h = .s → serves .upg (.upg o) (entry .e c one) (data .upg .x others.length (if h then none else some mem) ::
            (others.map fun n => snp .upg .snpi n false others.length) ++ (if others = [] then [done] else [])) others none) ∧
        (row h = .k → serves .upg (.upg o) (entry .e c one) ((if h then [data .upg .x others.length none] else []) ++
            (others.map fun n => snp .upg .snpi n (!h && decide (n = e.keeper)) others.length) ++ (if others = [] then [done] else []))
            others (if h then none else some e.keeper)) ∧
        (row h = .e → serves .upg (.upg o) (entry .e c one) [snp .upg .snpi e.keeper true 1] others (some e.keeper))) ∧
      (found = true → row false = .e →
        serves .rdu (.rdu o) (kept e.presence) [snp .rdu .snps e.keeper true 0] [e.keeper] (some e.keeper)) ∧
      (found = false ∨ row false ≠ .e → ∃ t, Answers (.rdu o) q d t ∧ t.mem.dir = d.mem.dir ∧ t.mem.txns = d.mem.txns ∧
        t.mem.msgs = d.mem.msgs ++ [data .rdu .i 0 (some mem)] ∧ t.mem.main = d.mem.main ∧ { t with mem := d.mem } = d)) ∧
    (open_ → ∀ k i, cmd k i → may k → ¬ calm ∨ (k ≠ .rdu ∧ d.dirFind p a = none ∧ ∀ w ∈ d.dirWays p, (d.dirAt (dirSetKey a + w)).used = true ∧ (d.dirAt (dirSetKey a + w)).pin = true) →
      ∃ t, Answers i q d t ∧ t.mem.turned = d.mem.turned ++ [{ req k with age := 1, due := d.time + 20 }] ∧ t.mem.msgs = d.mem.msgs ∧ t.mem.dir = d.mem.dir ∧
        t.mem.txns = d.mem.txns ∧ t.mem.main = d.mem.main ∧ t.cores = d.cores ∧
        t.rd R.coh_PIN_WAITS = min (d.rd R.coh_PIN_WAITS + 1) (256 ^ R.coh_PIN_WAITS.size - 1)) ∧
    (open_ → ∀ k i, cmd k i → may k → calm → k ≠ .rdu → d.dirFind p a = none → ∀ key d1, d.dirWay p a = some (key, d1) →
      (d.dirAt key).used = true → ∀ l x, d1.dirLine key = some (l, x) → (d.dirAt key).agents ≠ [] →
      ∃ t y, Answers i q d t ∧ t.dirAt key = { d1.dirAt key with pin := true } ∧ t.mem.txns = d.mem.txns ++ [y] ∧ y.evictFor = some (req k) ∧
        y.wait = (d.dirAt key).agents ∧ y.req.pav = (d.dirAt key).pav ∧ y.req.line = l ∧ t.mem.main = d.mem.main ∧ t.mem.l2 = d.mem.l2 ∧
        t.mem.msgs.map (fun m => (m.kind, m.agent, m.pav, m.line)) = d.mem.msgs.map (fun m => (m.kind, m.agent, m.pav, m.line)) ++
          (d.dirAt key).agents.map fun n => (.snpi, n, (d.dirAt key).pav, l)) ∧
    (∀ (r : OpLineT), r.agent = o.agent → r.pav = o.pav → r.line = o.line →
      let dr := d.at r.t
      let waiting := dr.mem.turned.find? fun m => decide (m.agent = c) && m.isFor p line && decide (m.due ≤ dr.time)
      (∀ m, waiting = some m → m.kind ∈ [CohKind.rds, .rdx, .upg, .rdu, .wru, .fatom] →
        Answers (.requestRetry r) q d (Dev.homeServe { dr with mem := { dr.mem with turned := dr.mem.turned.erase m } } m)) ∧
      (waiting = none → Answers (.requestRetry r) q d dr))) ∧
  (∀ (q : List Instr) (d : Dev) (i : Instr) (c p line a : Nat) (u : Unc), d.thermalStop = false →
    (∃ o : OpWru, i = .wru o ∧ c = o.agent ∧ p = o.pav ∧ line = o.line.toNat ∧ o.off.val + o.bytes.length ≤ 64 ∧
      u = .write (maskOf o.off o.bytes.length) (BitVec.ofNat 512 (leNat o.bytes * 2 ^ (8 * o.off.val))) 0) ∨
    (∃ o : OpFatom, i = .fatom o ∧ c = o.agent ∧ p = o.pav ∧ line = o.addr.toNat / 64 ∧
      u = .atom (o.addr.toNat % 64) o.four o.kind o.operand o.compare) →
    d.lineAddr p line = some a → (∀ m ∈ d.mem.msgs ++ d.mem.turned, ¬ (m.agent = c ∧ m.isFor p line = true)) →
    (∀ r ∈ d.mem.outstanding, ¬ (r.agent = c ∧ r.pav = p ∧ r.line = line)) →
    (∀ w ∈ d.mem.wbBuf, ¬ (w.agent = c ∧ w.pav = p ∧ w.line = line)) →
    (∀ t ∈ d.mem.txns, ¬ (t.req.pav = p ∧ t.req.line = line)) → (∀ b ∈ d.mem.bellows, b.2.1 = p → b.2.2 = line → b.1 = c) →
    let old := d.memLine a
    let answer : CohMsg := { kind := .data, agent := c, pav := p, line := line, payload := some old }
    (d.dirFind p a = none → ∃ t, Answers i q d t ∧ t.memLine a = u.apply old ∧ t.mem.dir = d.mem.dir ∧ t.mem.msgs = d.mem.msgs ++ [answer] ∧
      (∀ b, b % 64 = 0 → b ≠ a → a % 64 = 0 → t.memLine b = d.memLine b) ∧ { t with mem := d.mem } = d) ∧
    (∀ key, d.dirFind p a = some key →
      let e := d.dirAt key
      (e.agents = [] → ∃ t, Answers i q d t ∧ t.memLine a = u.apply old ∧ t.dirAt key = {} ∧ t.mem.msgs = d.mem.msgs ++ [answer]) ∧
      (e.agents ≠ [] → ∃ t, Answers i q d t ∧ t.mem.main = d.mem.main ∧ t.dirAt key = { e with pin := true } ∧
        t.mem.msgs.map (fun m => (m.kind, m.agent, m.needData)) = d.mem.msgs.map (fun m => (m.kind, m.agent, m.needData)) ++
          e.agents.map fun n => (.snpi, n, false))))

/-- Tables 13.7 and 13.8, from the receivers' side. `m` is the oldest such message in flight. -/
def Obligations.CoherenceMessages : Prop :=
  (∀ (q : List Instr) (d : Dev) (o : OpLine), d.thermalStop = false →
    let c := o.agent.val
    let p := o.pav.val
    let line := o.line.toNat
    let table : List (CohKind × Instr) := [(.snps, .snps o), (.snpi, .snpi o), (.fwd, .fwd o), (.kill, .kill o), (.data, .dataMsg o),
      (.rsp, .rsp o), (.np, .np o), (.iack, .iack o), (.complete, .complete o), (.done, .done o)]
    let brief (l : List CohMsg) : List (CohKind × Nat × Option Line) := l.map fun m => (m.kind, m.agent, m.payload)
    ∀ k i, (k, i) ∈ table →
      (d.mem.msgs.find? (isMsg k o) = none → Answers i q d d) ∧
      (∀ m, d.mem.msgs.find? (isMsg k o) = some m → d.overtakes m = true → Answers i q d d) ∧
      (∀ m, d.mem.msgs.find? (isMsg k o) = some m → d.overtakes m = false →
        let rest := d.mem.msgs.erase m
        let sends (ms : List (CohKind × Nat × Option Line)) (f : Dev → Prop) : Prop :=
          ∃ t, Answers i q d t ∧ brief t.mem.msgs = brief rest ++ ms ∧ t.mem.main = d.mem.main ∧ t.mem.dir = d.mem.dir ∧
            t.mem.txns = d.mem.txns ∧ t.mem.wbBuf = d.mem.wbBuf ∧ t.dict = d.dict ∧ f t
        let gone (t : Dev) : Prop := (c < 16 → ∀ key, d.l2Find c p line = some key → (t.l2At key).st = .i) ∧
          (16 ≤ c → t.held c p line = none)
        let r := m.requester
        let down (l : L2Line) : L2Line := { l with st := if c < 16 then .k else .s }
        -- Table 13.8
        (∀ l, d.held c p line = some l →
          (k = .snps → (l.st = .d → sends [(.data, r, some l.data), (.rsp, c, some l.data)] fun t => t.held c p line = some (down l)) ∧
            (l.st = .x → sends [(.data, r, some l.data), (.rsp, c, none)] fun t => t.held c p line = some (down l)) ∧
            (l.st = .k ∨ l.st = .s → sends [(.np, c, none)] fun t => t.held c p line = some l)) ∧
          (k = .fwd → (l.st = .k → sends [(.data, r, some l.data), (.rsp, c, none)] fun t => t.held c p line = some l) ∧
            (l.st ≠ .k → sends [(.np, c, none)] fun t => t.held c p line = some l)) ∧
          (k = .snpi → (l.st = .d → m.needData = true → sends [(.data, r, some l.data), (.rsp, c, none)] gone) ∧
            (l.st = .d → m.needData = false → sends [(.rsp, c, some l.data)] gone) ∧
            (l.st = .x ∨ l.st = .k → m.needData = true → sends [(.data, r, some l.data), (.iack, c, none)] gone) ∧
            (l.st = .x ∨ l.st = .k → m.needData = false → sends [(.iack, c, none)] gone) ∧
            (l.st = .s → sends [(.iack, c, none)] gone)) ∧
          (k = .kill → sends [] gone)) ∧
        (d.held c p line = none →
          (k = .kill → sends [] fun _ => True) ∧
          (k = .snps ∨ k = .fwd ∨ k = .snpi → ∀ w, d.mem.wbBuf.find? (fun e => decide (e.agent = c) && decide (e.pav = p) && decide (e.line = line)) = w →
            (w = none → sends [(.np, c, none)] fun t => t.mem.l2 = d.mem.l2) ∧
            (∀ e, w = some e → k = .snpi → m.needData = false → sends [(.rsp, c, some e.data)] fun t => t.mem.l2 = d.mem.l2) ∧
            (∀ e, w = some e → ¬ (k = .snpi ∧ m.needData = false) →
              sends [(.data, r, some e.data), (.rsp, c, if k = .snps then some e.data else none)] fun t => t.mem.l2 = d.mem.l2))) ∧
        -- answers at the home
        (k = .rsp ∨ k = .np ∨ k = .iack →
          let late := d.mem.timedOut.contains (c, p, line)
          (late = true → ∃ t, Answers i q d t ∧ t.mem.main = d.mem.main ∧ t.mem.dir = d.mem.dir ∧ t.mem.txns = d.mem.txns ∧ t.mem.msgs = rest ∧
            t.rd R.coh_LATE_RESPONSES = min (d.rd R.coh_LATE_RESPONSES + 1) (256 ^ R.coh_LATE_RESPONSES.size - 1)) ∧
          (∀ x a, late = false → d.mem.txns.find? (fun t => decide (t.req.pav = p) && decide (t.req.line = line) && t.wait.contains c) = some x →
            d.lineAddr p line = some a →
            let left := x.wait.filter (· ≠ c)
            let needs := k = .np ∧ x.dataFrom = some c
            (x.evictFor = none → x.req.kind.cached = true → ¬ needs → ∃ t, Answers i q d t ∧
              t.memLine a = m.payload.getD (d.memLine a) ∧ (m.payload = none → t.mem.main = d.mem.main) ∧
              (∀ id, m.wbId = some id → id ∈ t.mem.servedWb) ∧
              brief t.mem.msgs = brief rest ++ (if left = [] then [(.complete, x.req.agent, none)] else []) ∧
              { x with wait := left } ∈ t.mem.txns ∧ t.mem.l2 = d.mem.l2) ∧
            (∀ key, x.evictFor = none → x.req.kind = .rdx ∨ x.req.kind = .upg → needs → m.payload = none → d.dirFind p a = some key → ∃ t, Answers i q d t ∧
              brief t.mem.msgs = brief rest ++ (.data, x.req.agent, some (d.memLine a)) ::
                (if left = [] then [(.complete, x.req.agent, none)] else []) ∧ { x with wait := left, dataFrom := none } ∈ t.mem.txns) ∧
            (∀ key, x.evictFor = none → x.req.kind = .rds → needs → m.payload = none → d.dirFind p a = some key → ∃ t, Answers i q d t ∧
              brief t.mem.msgs = brief rest ++ (.data, x.req.agent, some (d.memLine a)) ::
                (if left = [] then [(.complete, x.req.agent, none)] else []) ∧ { x with wait := left, dataFrom := none } ∈ t.mem.txns ∧
              (t.dirAt key).presence = (d.dirAt key).presence &&& ~~~((1 : BitVec 18) <<< c)) ∧
            (∀ key r, x.evictFor = some r → x.req.kind = .snpi → left = [] → d.dirFind p a = some key → ∃ t, Answers i q d t ∧
              t.memLine a = m.payload.getD (d.memLine a) ∧ t.dirAt key = {} ∧ t.mem.msgs = r :: rest ∧
              (∀ y ∈ t.mem.txns, ¬ (y.req.pav = p ∧ y.req.line = line)) ∧
              t.rd R.coh_DIR_EVICTIONS = min (d.rd R.coh_DIR_EVICTIONS + 1) (256 ^ R.coh_DIR_EVICTIONS.size - 1)) ∧
            (∀ key, x.evictFor = none → x.req.kind = .wru ∨ x.req.kind = .fatom → left = [] → d.dirFind p a = some key → ∃ t, Answers i q d t ∧
              t.memLine a = x.req.unc.apply (m.payload.getD (d.memLine a)) ∧ t.dirAt key = {} ∧
              brief t.mem.msgs = brief rest ++ [(.data, x.req.agent, some (m.payload.getD (d.memLine a)))] ∧
              ∀ y ∈ t.mem.txns, ¬ (y.req.pav = p ∧ y.req.line = line)))) ∧
        -- grants
        (k = .data → m.grant = .i → ∃ t, Answers i q d t ∧ t.mem.answer = m.payload.getD {} ∧ t.mem.l2 = d.mem.l2 ∧ t.mem.xfer = d.mem.xfer ∧
          t.mem.msgs = rest) ∧
        (k = .data → m.grant ≠ .i → (c < 16 → m.payload.isSome = true → d.l2Ways c p line ≠ []) → (m.payload = none → (d.held c p line).isSome = true) →
          ∃ t l, Answers i q d t ∧ t.held c p line = some l ∧ l.st = (if m.dirty = true ∧ m.grant = .x then .d else m.grant) ∧
            (∀ b, m.payload = some b → l.data = b) ∧ (m.payload = none → ∀ h, d.held c p line = some h → l.data = h.data) ∧
            (∀ x, d.mem.outstanding.find? (fun x => decide (x.agent = c) && decide (x.pav = p) && decide (x.line = line)) = some x →
              x.gotComplete = true → t.mem.msgs.getLast? = some { kind := .done, agent := c, pav := p, line := line })) ∧
        (k = .complete → ∀ x, d.mem.outstanding.find? (fun x => decide (x.agent = c) && decide (x.pav = p) && decide (x.line = line)) = some x →
          (x.gotData = true → sends [(.done, c, none)] fun t => ∀ y ∈ t.mem.outstanding, y ≠ { x with gotComplete := true }) ∧
          (x.gotData = false → sends [] fun t => { x with gotComplete := true } ∈ t.mem.outstanding)) ∧
        (k = .done → ∀ a key, d.lineAddr p line = some a → d.dirFind p a = some key → ∃ t, Answers i q d t ∧
          t.dirAt key = { d.dirAt key with pin := false } ∧ t.mem.msgs = rest ∧
          t.mem.txns = d.mem.txns.filter (fun x => !(decide (x.req.pav = p) && decide (x.req.line = line) && decide (x.req.agent = c))) ∧
          t.mem.main = d.mem.main ∧ { t with mem := d.mem } = d))) ∧
  (∀ (q : List Instr) (d : Dev) (o : OpWb), d.thermalStop = false →
    let is (k : CohKind) (m : CohMsg) : Bool := decide (m.kind = k) && decide (m.agent = o.agent.val) && decide (m.wbId = some o.id)
    (d.mem.msgs.find? (is .wb) = none → Answers (.wb o) q d d) ∧ (d.mem.msgs.find? (is .wback) = none → Answers (.wback o) q d d) ∧
    (∀ m a, d.mem.msgs.find? (is .wb) = some m → d.lineAddr m.pav m.line = some a →
      (∀ t ∈ d.mem.txns, ¬ (t.req.pav = m.pav ∧ t.req.line = m.line)) → (∀ b ∈ d.mem.bellows, b.2.1 = m.pav → b.2.2 = m.line → b.1 = m.agent) →
      ∃ t, Answers (.wb o) q d t ∧
        t.mem.msgs = d.mem.msgs.erase m ++ [{ kind := .wback, agent := o.agent, pav := m.pav, line := m.line, wbId := some o.id }] ∧
        (∀ key, d.dirFind m.pav a = some key → (d.dirAt key).st = .e → (d.dirAt key).keeper = o.agent → o.id ∉ d.mem.servedWb →
          t.memLine a = m.payload.getD {} ∧ t.dirAt key = {}) ∧
        ((d.dirFind m.pav a = none ∨ o.id ∈ d.mem.servedWb ∨ ∃ key, d.dirFind m.pav a = some key ∧
            ((d.dirAt key).st ≠ .e ∨ (d.dirAt key).keeper ≠ o.agent)) →
          t.mem.main = d.mem.main ∧ t.mem.dir = d.mem.dir ∧ o.id ∉ t.mem.servedWb ∧
          t.rd R.coh_CROSSED_WB = min (d.rd R.coh_CROSSED_WB + 1) (256 ^ R.coh_CROSSED_WB.size - 1))) ∧
    (∀ m, d.mem.msgs.find? (is .wback) = some m → d.overtakes m = true → Answers (.wback o) q d d) ∧
    (∀ m, d.mem.msgs.find? (is .wback) = some m → d.overtakes m = false → ∃ t, Answers (.wback o) q d t ∧ { t with mem := d.mem } = d ∧
      t.mem = { d.mem with msgs := d.mem.msgs.erase m, wbBuf := d.mem.wbBuf.filter fun e => !(decide (e.agent = o.agent.val) && decide (e.id = o.id)) })) ∧
  (∀ (q : List Instr) (d : Dev) (o : OpLineT), d.thermalStop = false →
    let d1 := d.at o.t
    let n := o.agent.val
    let p := o.pav.val
    let line := o.line.toNat
    let x := d1.mem.txns.find? fun t => decide (t.req.pav = p) && decide (t.req.line = line) && t.wait.contains n && decide (t.due ≤ d1.time)
    (x = none → Answers (.homeTimeout o) q d d1) ∧
    (∀ y a, x = some y → d1.lineAddr p line = some a → ∃ t, Answers (.homeTimeout o) q d t ∧
      (y.evictFor = none → y.req.kind.cached = true → t.memLine a = { d1.memLine a with poison := 15 } ∧
        (∃ z ∈ t.mem.txns, z.req = y.req ∧ z.wait = y.wait.filter (· ≠ n)) ∧
        (∀ key, y.dataFrom = some n → d1.dirFind p a = some key →
          (∀ r ∈ d1.mem.outstanding, ¬ (r.agent = y.req.agent ∧ r.pav = p ∧ r.line = line ∧ r.gotData = true)) →
          (∀ m ∈ d1.mem.msgs, ¬ (m.kind = .data ∧ m.agent = y.req.agent ∧ m.isFor p line = true)) →
          ∃ m ∈ t.mem.msgs, m.kind = .data ∧ m.agent = y.req.agent ∧ m.payload = some { d1.memLine a with poison := 15 })) ∧
      { kind := .kill, agent := n, pav := p, line := line } ∈ t.mem.msgs ∧ (n, p, line) ∈ t.mem.timedOut ∧
      t.rd R.coh_TIMEOUTS = min (d1.rd R.coh_TIMEOUTS + 1) (256 ^ R.coh_TIMEOUTS.size - 1) ∧
      t.rd R.coh_POISON_LOG 0 p % 2 ^ 64 = 64 * line ∧
      t.alerts.head? = some { time := d1.time, index := 0x3400, sub := 0x0B, pav := p, detail := homeSlice a + 256 * n } ∧
      t.cores = d1.cores))

/-- Chapter 14's events. A fill's bytes are named; a copy's are what its source reads. -/
def Obligations.MemoryResources : Prop :=
  let more (t d : Dev) (e : Entry) (k p : Nat) : Prop := t.rd e k p = min (d.rd e k p + 1) (256 ^ e.size - 1)
  (∀ (q : List Instr) (d : Dev) (o : OpPatrol), d.thermalStop = false →
    let d1 := d.at o.t
    let n := o.stack.val
    let i := Instr.patrolRead o
    let a := n * 36 * 2 ^ 30 + 64 * o.line
    let c := a + if o.upper then 32 else 0
    let busy := ∃ p rel, d.ownerOf a = some (p, rel) ∧ d.pinned p (rel / 64) = true
    (fitted n = false ∨ 36 * 2 ^ 24 ≤ o.line → Answers i q d d1) ∧
    (fitted n = true → o.line < 36 * 2 ^ 24 →
      (busy → ∃ t, Answers i q d t ∧ o.line ∈ (t.patrol n).skipped ∧ (t.patrol n).corrected = (d.patrol n).corrected ∧
        t.mem.main = d.mem.main ∧ t.dict = d.dict) ∧
      (¬ busy → ∃ t, Answers i q d t ∧ (t.patrol n).skipped = (d.patrol n).skipped.filter (· ≠ o.line) ∧ t.mem.main.bytes = d.mem.main.bytes ∧
        (o.finding = .good → (t.patrol n).corrected = (d.patrol n).corrected ∧ t.mem.main = d.mem.main ∧ t.dict = d.dict) ∧
        (o.finding = .corrected → (t.patrol n).corrected = (d.patrol n).corrected + 1 ∧ t.mem.main = d.mem.main ∧
          more t d1 R.mem_CORRECTED 0 0) ∧
        (o.finding = .uncorrectable → (∀ g, t.mem.main.poisoned g = (decide (g = c / 16) || decide (g = c / 16 + 1) || d.mem.main.poisoned g)) ∧
          more t d1 R.mem_UNCORRECTABLE 0 0 ∧
          (∀ p rel, d.ownerOf c = some (p, rel) → t.rd R.mem_POISON_LOG 0 p = (d.rd R.mem_POISON_LOG 0 p * 2 ^ 64 + rel) % 2 ^ 1024 ∧
            t.alerts.head? = some { time := d1.time, index := 0x3810, sub := 0x08, pav := p, detail := c / 2 ^ 30 / 36 }) ∧
          (d.ownerOf c = none → t.alerts.head? = some { time := d1.time, index := 0x3810, sub := 0x08, pav := 0xFF, detail := c / 2 ^ 30 / 36 } ∧
            (deviceGranule (c / 2 ^ 30) = true → bitOf (t.rd R.dev_FAULT_CAUSES) 1 = true)))))) ∧
  (∀ (q : List Instr) (d : Dev) (o : OpStackT), d.thermalStop = false →
    let d1 := d.at o.t
    let n := o.stack.val
    let limit := d.rd R.mem_SCRUB_PERIOD
    let now := if elem 1 (d.rd R.mem_SCRUB_CURRENT) n = 0 then limit else elem 1 (d.rd R.mem_SCRUB_CURRENT) n
    let seen := (d.patrol n).corrected
    (fitted n = false ∨ (d.patrol n).skipped ≠ [] → Answers (.patrolPassEnd o) q d d1) ∧
    (fitted n = true → (d.patrol n).skipped = [] → limit < 256 → ∃ t, Answers (.patrolPassEnd o) q d t ∧ t.patrol n = {} ∧
      (d.rd R.mem_SCRUB_THRESHOLD < seen → elem 1 (t.rd R.mem_SCRUB_CURRENT) n = max 1 (now / 2)) ∧
      (seen ≤ d.rd R.mem_SCRUB_THRESHOLD → 4 * seen ≤ d.rd R.mem_SCRUB_THRESHOLD → elem 1 (t.rd R.mem_SCRUB_CURRENT) n = min limit (2 * now)) ∧
      (seen ≤ d.rd R.mem_SCRUB_THRESHOLD → d.rd R.mem_SCRUB_THRESHOLD < 4 * seen → elem 1 (t.rd R.mem_SCRUB_CURRENT) n = min limit now) ∧
      t.mem.main = d.mem.main ∧ t.cores = d.cores)) ∧
  (∀ (q : List Instr) (d : Dev) (o : OpBank), d.thermalStop = false →
    let b := 32 * o.cluster.val + o.bank.val
    let inBank (a : Nat) : Prop := a / 2 ^ 21 = o.cluster.val ∧ a / 8 % 32 = o.bank.val
    let stores (p : Nat) : Prop := ∃ c < 256, d.coreOwner c = some p ∧ ∃ e ∈ (d.core c).merge, d.rangeMeets p (.bank b) (e.line * 64, 64) = true
    let work (p : Nat) : Prop := ∃ r ∈ d.jobRanges p ++ d.busyRings p, d.rangeMeets p (.bank b) r = true
    (∀ p, d.bank b = .clearing p → ∃ t, Answers (.bankClearDone o) q d t ∧ t.bank b = .held p ∧ (∀ k, k ≠ b → t.bank k = d.bank k) ∧
      (∀ a, Table.get 0 t.mem.spad.bytes a = if inBank a then 0 else Table.get 0 d.mem.spad.bytes a) ∧
      more t d R.spad_WAKES o.cluster.val 0 ∧ t.mem.main = d.mem.main ∧ t.cores = d.cores) ∧
    ((∀ p, d.bank b ≠ .clearing p) → Answers (.bankClearDone o) q d d) ∧
    (∀ p g, d.bank b = .releasing p g → (¬ stores p → ¬ work p → ∃ t, Answers (.bankReleased o) q d t ∧ t.bank b = .released p g ∧
        (∀ k, k ≠ b → t.bank k = d.bank k) ∧ t.mem.spad = d.mem.spad ∧ { t with mem := d.mem } = d) ∧
      (stores p ∨ work p → Answers (.bankReleased o) q d d)) ∧
    ((∀ p g, d.bank b ≠ .releasing p g) → Answers (.bankReleased o) q d d)) ∧
  (∀ (q : List Instr) (d d2 d3 d4 : Dev) (o : OpMover) (b : Bytes) (bad : Bool) (src dst : Cap), d.thermalStop = false →
    let d1 := d.at o.t
    let cl := o.cluster.val
    let p := o.pav.val
    let k := cl * 64 + p
    let m := Instr.moverDescriptor o
    let z := Instr.moverCompletion o
    let ready (a : Nat) : Prop := d1.moverDesc cl p = some a ∧ Table.get false d.mem.moverAwake k = true ∧ d1.moverJob cl p = none ∧
      d1.firstUnmapped p a 64 = none
    (¬ (∃ a, ready a) → Answers m q d d1) ∧
    (∀ a, ready a → d1.devRead p a 64 moverAgent = (b, bad, d2) → d2.devCap p (a + 32) moverAgent = (src, d3) →
      d3.devCap p (a + 48) moverAgent = (dst, d4) →
      let copy := fieldLE b 0 1 = 1
      let n := fieldLE b 8 4
      let x := src.cursor.toNat
      let y := dst.cursor.toNat
      let fields := moverFields b = true
      let bufs := (copy → d4.moverBuf p src n permLD = true) ∧ d4.moverBuf p dst n permST = true
      let apart := copy → y + n ≤ x ∨ x + n ≤ y
      let takes (st : Nat) : Prop := ∃ t j, Answers m q d t ∧ t.mem.moverJobs = d4.mem.moverJobs ++ [j] ∧ j.cluster = cl ∧ j.pav = p ∧
        j.addr = a ∧ j.status = st ∧ j.head = b.take 16 ∧ j.dst = y ∧ j.len = n ∧ j.lost = [] ∧
        (copy → j.src = some x) ∧
        (¬ copy → j.src = none ∧ j.pattern = slice b 16 8) ∧ Table.get 0 t.mem.moverIndex k = Table.get 0 d4.mem.moverIndex k + 1 ∧
        t.mem.main = d4.mem.main ∧ t.cores = d4.cores
      (bitOf (fieldLE b 1 1) 0 = false → ∃ t, Answers m q d t ∧ Table.get false t.mem.moverAwake k = false ∧ t.mem.moverJobs = d4.mem.moverJobs) ∧
      (bitOf (fieldLE b 1 1) 0 = true →
        (¬ fields → takes 0x0107) ∧ (fields → ¬ bufs → takes 0x0108) ∧ (fields → bufs → ¬ apart → takes 0x0107) ∧
        (fields → bufs → apart → takes 0))) ∧
    (d1.moverJob cl p = none → Answers z q d d1) ∧
    (∀ j, d1.moverJob cl p = some j →
      let w := if j.status = 0 then (d1.moverWrite j).2 else d1
      let poison := if j.status = 0 then (d1.moverWrite j).1 else false
      let st := if poison then 0x0702 else j.status
      let head := slice j.head 0 1 ++ leBytes 1 0 ++ leBytes 2 st ++ leBytes 4 j.lost.length ++
        slice j.head 8 4 ++ leBytes 1 ((if j.lost = [] then 0 else 1) + (if poison then 2 else 0)) ++ zeros 3
      let v := w.devWrite p j.addr head moverAgent
      (∃ t, Answers z q d t ∧ t.mem.moverJobs = v.mem.moverJobs.erase j ∧ t.pbit p (v.rd R.spad_MOVER_DOORBELL cl p) = true ∧
        t.mem.main = v.mem.main ∧ t.mem.spad = v.mem.spad ∧ t.cores = v.cores) ∧
      (j.src = none → j.lost = [] → j.pattern.length = 8 → j.len % 8 = 0 → d1.moverWrite j =
        (false, d1.devWrite p j.dst ((List.range j.len).map fun k => j.pattern.getD (k % 8) 0) moverAgent)))) ∧
  (∀ (q : List Instr) (d : Dev) (o : OpPavT), d.thermalStop = false →
    let d1 := d.at o.t
    let p := o.pav.val
    let i := Instr.resourceRemoval o
    ((∀ e ∈ d.removing, e.1 ≠ p ∨ d1.targeted p e.2 = true) → Answers i q d d1) ∧
    (∀ x, d.removing = [(p, x)] → d1.targeted p x = false → ∃ t, Answers i q d t ∧ t.removing = [] ∧
      (∀ c, x = .core c → (t.core c).run = (if (d.core c).run = .lost then .lost else .free) ∧ (t.core c).arch = {} ∧ t.twinPartner c = 0xFFFF) ∧
      (∀ g, x = .granule g → (∀ a, a / 2 ^ 30 = g → Table.get 0 t.mem.main.bytes a = 0) ∧ more t d1 R.mem_QUENCHES 0 0 ∧
        (∀ s < 247, t.seg p s = if d.seg p s = g then 0xFFFF else d.seg p s) ∧
        (d.mem.msgs = [] → d.mem.turned = [] → (∀ c ∈ d.storingCores p, (d.core c).merge = []) → ∀ a, a / 2 ^ 30 ≠ g → Table.get 0 t.mem.main.bytes a = Table.get 0 d.mem.main.bytes a)) ∧
      (∀ b, x = .bank b → t.bank b = .free ∧ ∀ a, a / 2 ^ 21 = b / 32 → a / 8 % 32 = b % 32 → Table.get 0 t.mem.spad.bytes a = 0) ∧
      (∀ e, x = .endpoint e → (∀ y ∈ t.chan.ops, y.ep ≠ e) ∧ t.rd R.ep_CQ_ENTRIES e = R.ep_CQ_ENTRIES.default e ∧ Table.get 0 t.chan.cqIndex e = 0) ∧
      (∀ n, x = .wayGroup n → t.wayLock (n / 8) (2 * (n % 8)) = 0 ∧ t.wayLock (n / 8) (2 * (n % 8) + 1) = 0) ∧
      (∀ k, x = .keySlot k → t.keySlot p k = {}) ∧
      (∀ n, x = .window n → ∀ a, a / 2 ^ 33 = p → d.winSize p ≤ a % 2 ^ 33 →
        Table.get 0 t.mem.win.bytes a = 0 ∧ Table.get 0 t.mem.winDurable a = 0 ∧ ∀ s ∈ t.mem.winPend, s.unit * 16 / 2 ^ 33 = p →
          s.unit * 16 % 2 ^ 33 < d.winSize p))) ∧
  (∀ (q : List Instr) (d d1 : Dev) (o : Rx) (s : Session) (w : WriteOp), d.Writes o .reclaim d1 s w → (∀ c < 256, (d1.core c).merge = []) →
    ∃ t, Replies (.reclaim o) q d o s w t 0 ∧ t.cores = d1.cores ∧ t.mem.main = d1.mem.main ∧
      ∀ k < 512, (k / 32 = w.i ∧ bitOf w.v (k % 32) = true ∧ (∃ p g, d1.bank k = .released p g) →
          t.bank k = .free ∧ ∀ a, a / 2 ^ 21 = k / 32 → a / 8 % 32 = k % 32 → Table.get 0 t.mem.spad.bytes a = 0) ∧
        (¬ (k / 32 = w.i ∧ bitOf w.v (k % 32) = true ∧ ∃ p g, d1.bank k = .released p g) → t.bank k = d1.bank k ∧
          ∀ a, a / 2 ^ 21 = k / 32 → a / 8 % 32 = k % 32 → Table.get 0 t.mem.spad.bytes a = Table.get 0 d1.mem.spad.bytes a))

/-- Chapter 5 between replays. -/
def Obligations.HearthEvents : Prop :=
  let more (t d : Dev) (e : Entry) (n : Nat) : Prop := t.rd e = min (d.rd e + n) (256 ^ e.size - 1)
  (∀ (q : List Instr) (d : Dev) (o : OpRing), d.thermalStop = false →
    let r := o.ring.val
    let d1 := (d.at o.t).advanceTail r
    let x := d1.hring r
    let done (y : Record) (later : List Record) : Prop := y.complete = true ∧
      settled y.body ((later.takeWhile (·.complete)).map (·.body)) = true
    ((d.hring r).waiting = [] → ∃ gone, (d.hring r).live = gone ++ x.live ∧
      (∀ k < gone.length, ∃ y later, (d.hring r).live.drop k = y :: later ∧ done y later) ∧
      (∀ y later, x.live = y :: later → ¬ done y later) ∧ x.waiting = [] ∧ d1.mem = d.mem ∧ d1.dict = d.dict) ∧
    (x.past = 0 → Answers (.controlBlockRewrite o) q d d1) ∧
    (x.past ≠ 0 → ∃ t, Answers (.controlBlockRewrite o) q d t ∧ (∀ k, k ≠ r → t.hring k = d1.hring k) ∧ { t with hearth := d1.hearth } = d1 ∧
      let z := t.hring r
      z.live = x.live ∧ z.past = 0 ∧ z.recs = x.live ∧ z.lines = x.lines ∧ z.ctl.seq = x.ctl.seq + 1 ∧ z.ctl.size = d1.ringSize r ∧
        (z.ctl.off, z.ctl.lap) = (match x.live with | y :: _ => (y.off, y.lap) | [] => (x.head, x.lap)) ∧ (z.ctl0 = x.ctl ∨ z.ctl1 = x.ctl)) ∧
    (x.live = [] ∨ d1.ringUsed r * 2 ≤ d1.ringSize r ∨ (∃ y later, x.live = y :: later ∧ y.complete = false) →
      Answers (.carryForward o) q d d1) ∧
    (∀ y later, x.live = y :: later → y.complete = true → d1.ringSize r < d1.ringUsed r * 2 → ∃ t, Answers (.carryForward o) q d t ∧
      (let l := (t.hring r).live
       l.map (fun z => (z.body, z.carried)) = later.map (fun z => (z.body, z.carried)) ++ [(y.body, true)] ∧ (∀ z ∈ l, z.complete = true) ∧
        l.getLast?.map (fun z => (z.off, z.lap)) = some (x.head, x.lap)) ∧
      more t d1 R.hearth_CARRIED 1 ∧
      more t d1 R.hearth_BYTES_WRITTEN y.body.length ∧ (∀ k, k ≠ r → t.hring k = d1.hring k) ∧ t.mem = d1.mem ∧ t.cores = d1.cores)) ∧
  (∀ (q : List Instr) (d : Dev) (o : OpWinLine), d.thermalStop = false →
    let d1 := d.at o.t
    let k := winLineKey o.pav.val o.line
    let asks (c : Nat) : Prop := c < 256 ∧ k ∈ (d.core c).cbar
    let free (v : Nat) : Prop := v = 0 ∨ v + 999 ≤ d1.time
    let due := (∃ c, asks c) ∧ free (Table.get 0 d.mem.winLast k) ∧ free (Table.get 0 d.mem.parityLast (k / 16))
    let covered (s : WinStore) : Prop := s.covered = true ∨ asks s.by_
    (¬ due → Answers (.windowLineWrite o) q d d1) ∧
    (due → ∃ t, Answers (.windowLineWrite o) q d t ∧
      (∀ a, a / 64 ≠ k → Table.get 0 t.mem.winDurable a = Table.get 0 d.mem.winDurable a) ∧
      (∀ a, a / 64 = k → let l := d.mem.winPend.filter fun s => decide (s.unit = a / 16)
        ((∀ s ∈ l, covered s) → Table.get 0 t.mem.winDurable a = Table.get 0 (l.foldl (fun m s => s.apply m) d.mem.winDurable) a ∧
          ∀ s ∈ t.mem.winPend, s.unit ≠ a / 16) ∧
        ((∃ s ∈ l, ¬ covered s) → Table.get 0 t.mem.winDurable a = Table.get 0 d.mem.winDurable a ∧
          ∀ s ∈ l, asks s.by_ → { s with covered := true } ∈ t.mem.winPend)) ∧
      Table.get 0 t.mem.winParity (k / 16) = Table.get 0 d.mem.winParity (k / 16) ^^^ d.mem.winMram k ^^^ t.mem.winMram k ∧
      t.mem.win = d.mem.win ∧ (∀ s ∈ d.mem.winPend, s.unit / 4 ≠ k → s ∈ t.mem.winPend) ∧ more t d1 R.hearth_BYTES_WRITTEN 64 ∧
      (∀ c < 256, (t.core c).cbar = (d.core c).cbar.filter (· ≠ k) ∧ (t.core c).arch = (d.core c).arch) ∧ t.mem.main = d.mem.main)) ∧
  (∀ (q : List Instr) (d : Dev) (o : OpScrub), d.thermalStop = false →
    let d1 := d.at o.t
    let i := Instr.hearthScrub o
    (o.findings = [] → Answers i q d d1) ∧
    (∀ f fs, o.findings = f :: fs → ∃ t, Answers i q d (fs.foldl Dev.scrubFinding t) ∧ t.cores = d.cores ∧
      (f.2 = .corrected → more t d1 R.hearth_CORRECTED 1 ∧ t.mem = d.mem ∧ t.hearth = d1.hearth) ∧
      (f.2 = .rebuilt → more t d1 R.hearth_RECONSTRUCTED 1 ∧ t.mem.main = d.mem.main ∧ t.mem.win = d.mem.win ∧
        (∀ r line, f.1 = .ring r line → t.mem = d.mem ∧ Table.get 0 (t.hring r).lines line = (d.hring r).rebuilt line ∧
          ∀ k, k ≠ line → Table.get 0 (t.hring r).lines k = Table.get 0 (d.hring r).lines k) ∧
        (∀ p line, f.1 = .window p line → t.hearth = d1.hearth ∧ ∀ a, a / 64 ≠ winLineKey p.val line →
          Table.get 0 t.mem.winDurable a = Table.get 0 d.mem.winDurable a)) ∧
      (f.2 = .lost → more t d1 R.hearth_UNCORRECTABLE 1 ∧
        (∀ r line, f.1 = .ring r line → line ∈ (t.hring r).lost ∧ (t.hring r).recs = (d.hring r).recs ∧ t.mem = d.mem) ∧
        (∀ p line, f.1 = .window p line →
          (∀ u, t.mem.win.poisoned u = (decide (u = winLineKey p.val line) || d.mem.win.poisoned u)) ∧
          t.rd R.mem_POISON_LOG 0 p = (d.rd R.mem_POISON_LOG 0 p * 2 ^ 64 + 0x3E00000000 + 64 * line) % 2 ^ 1024 ∧
          t.alerts.head? = some { time := d1.time, index := 0x7000, sub := 0x09, pav := p, detail := 0 }) ∧
        (f.1 = .deviceArea → bitOf (t.rd R.dev_FAULT_CAUSES) 0 = true ∧ t.mem = d.mem)))) ∧
  (∀ (q : List Instr) (d : Dev) (o : OpT0), d.thermalStop = false →
    let d1 := d.at o.t
    (d.plat.step < 4 → Answers (.timebaseRecord o) q d d) ∧
    (4 ≤ d.plat.step → ∃ t, Answers (.timebaseRecord o) q d t ∧ t.hearth.timebase = d1.time ∧ { t.hearth with timebase := d.hearth.timebase } = d.hearth ∧
      (d.plat.coast = true → more t d1 R.pow_COAST_TIME (d1.time - d.plat.coastFrom) ∧ t.plat.coastFrom = d1.time) ∧
      (d.plat.coast = false → t.dict = d.dict ∧ t.plat = d.plat) ∧ t.cores = d.cores ∧ t.mem = d.mem))

/-- Chapter 4's control of pace. What the silicon does at its temperature and load (its pace at each VCORE, the power it draws after
each step of R132, how far the last step has to go) is the command's operand. Which samples make one run, how pace is rounded and what
INPUT_POWER averages are the model's choices (notes/assumptions/29). -/
def Obligations.PaceAndGovernor : Prop :=
  (∀ (q : List Instr) (d : Dev) (o : OpPace), d.thermalStop = false →
    let d1 := d.at o.t
    let c := o.cluster.val
    let i := Instr.paceSample o
    let last := Table.get 0 d.plat.sampleAt c
    let taken := o.t % 1000 = 0 ∧ 5 ≤ d.plat.step ∧ (last = 0 ∨ last < o.t) ∧ (d.plat.ptpStepAt = 0 ∨ d.plat.ptpStepAt + 1000 ≤ d1.time)
    let follows := o.t = last + 1000 ∨ last < d.plat.ptpStepAt
    let pace := min (min o.r0 o.r1) (min o.r2 o.r3)
    let eff := pace * d.rd R.clu_ISSUE_FRACTION c / 100
    let low (k : Nat) : Nat := if k = c then (if eff < 2000 then (if follows then Table.get 0 d.plat.low c else 0) + 1 else 0) else Table.get 0 d.plat.low k
    let clean (k : Nat) : Nat := if k = c then (if eff < 2000 then 0 else min 1000 ((if follows then Table.get 0 d.plat.clean c else 0) + 1))
      else Table.get 0 d.plat.clean k
    let timed (k : Nat) : Prop := bitOf d.deadlineClusters k = true
    let starves (k : Nat) : Prop := timed k ∧ 4 ≤ low k
    (¬ taken → Answers i q d d1) ∧
    (taken → ∃ t, Answers i q d t ∧ t.rd R.clu_PACE_MEASURED c = min pace 65535 ∧ t.rd R.clu_PACE_MIN c = min (d.rd R.clu_PACE_MIN c) eff ∧
      t.rd R.clu_BELOW_FLOOR c = (if eff < 2000 then min (d.rd R.clu_BELOW_FLOOR c + 1) (256 ^ R.clu_BELOW_FLOOR.size - 1) else d.rd R.clu_BELOW_FLOOR c) ∧
      (∀ k, Table.get 0 t.plat.low k = low k ∧ Table.get 0 t.plat.clean k = clean k) ∧
      Table.get [] t.plat.paceLog c = (eff :: Table.get [] d.plat.paceLog c).take 1000 ∧ Table.get 0 t.plat.sampleAt c = o.t ∧
      ((∃ k < 16, starves k) → t.plat.deficit = true ∧
        (∀ p < 64, ∀ k < 16, starves k → d.pavExists p = true → (∃ x ∈ d.pavCores p, clusterOf x = k) → (p, k) ∉ d.plat.paceRung →
          t.pbit p 0x1FFD = true) ∧
        (d.plat.deficit = false →
          (∃ n, t.alerts.head? = some { time := d1.time, index := 0x1100, sub := 0x07, pav := 0xFF, detail := n } ∧
            ∀ k < 16, bitOf n k = true ↔ starves k) ∧
          t.rd R.pow_DEFICIT_EVENTS = min (d.rd R.pow_DEFICIT_EVENTS + 1) (256 ^ R.pow_DEFICIT_EVENTS.size - 1) ∧
          t.net.sessions = d.net.sessions.map fun s => { s with reqs := s.reqs.map fun r =>
            if r.accepted && r.sent.isNone then { r with inDeficit := true } else r }) ∧
        (d.plat.deficit = true → t.net = d.net ∧ t.alerts = d.alerts)) ∧
      ((∀ k < 16, ¬ starves k) → t.net = d.net ∧ t.mem = d.mem ∧ ((∀ k < 16, timed k → 1000 ≤ clean k) → t.plat.deficit = false) ∧
        ((∃ k < 16, timed k ∧ clean k < 1000) → t.plat.deficit = d.plat.deficit)) ∧ t.cores = d.cores)) ∧
  (∀ (q : List Instr) (d : Dev) (o : OpT0), d.thermalStop = false →
    let d1 := d.at o.t
    let due := d.plat.reportAt = 0 ∨ d.plat.reportAt + 1000000 ≤ d1.time
    (¬ due → Answers (.paceReport o) q d d1) ∧
    (due → ∃ t, Answers (.paceReport o) q d t ∧ t.plat.reportAt = d1.time ∧ t.plat.paceLog = d.plat.paceLog ∧
      (∀ c < 16,
        let l := Table.get [] d.plat.paceLog c
        (l ≠ [] → elem 2 (t.rd R.pow_PACE) c = min 65535 (l.sum / l.length)) ∧
        (l = [] → elem 2 (t.rd R.pow_PACE) c = elem 2 (d.rd R.pow_PACE) c)) ∧ t.cores = d.cores ∧ t.mem = d.mem)) ∧
  (∀ (pace : List Nat) (want : Nat),
    let v := leastMv pace want
    v % 10 = 0 ∧ 600 ≤ v ∧ v ≤ 900 ∧ (∀ k < (v - 600) / 10, pace.getD k 0 < want) ∧ (v < 900 → want ≤ pace.getD ((v - 600) / 10) 0)) ∧
  (∀ (q : List Instr) (d : Dev) (o : OpGovern), d.thermalStop = false →
    let d1 := d.at o.t
    let c := o.cluster.val
    let i := Instr.governorEvaluation o
    let last := Table.get 0 d.plat.govAt c
    let due := 5 ≤ d.plat.step ∧ (last = 0 ∨ last + 10000 ≤ d1.time)
    let timed := bitOf d.deadlineClusters c
    let strict := ∃ p < 64, d.pavExists p = true ∧ d.strict p = true ∧ ∃ x ∈ d.pavCores p, clusterOf x = c
    let cap := if d.plat.step < 9 then 350 else d.rd R.pow_POWER_CAP
    let draw (k : Nat) : Nat := o.draw.getD k 0
    let floor := if d.plat.coast then max 800 (Table.get 0 d.plat.coastMv c) else 680
    let guarded := max floor (leastMv o.pace (ceilDiv (2000 * (100 + d.rd R.pow_GUARD)) 100))
    let least := min guarded (max 680 (leastMv o.pace 2000))
    (¬ due → Answers i q d d1) ∧
    (∀ k ≤ 4, due → (∀ j < k, cap < draw j) → draw k ≤ cap ∨ k = 4 → ∃ t, Answers i q d t ∧
      let pct := if cap < draw k then 0 else min 100 o.pct
      let v := Table.get 0 t.plat.vtarget c
      let power := (d1.time, draw k) :: d.plat.power.filter fun e => decide (d1.time < e.1 + 1000000)
      t.rd R.pow_INPUT_POWER = min 65535 ((power.map (·.2)).sum / power.length) ∧ t.plat.power = power ∧
      (timed = true → t.rd R.clu_ISSUE_FRACTION c = (if k < 4 then 100 else pct) ∧ (k < 3 → v = vgrid guarded) ∧
        (k = 3 → v = vgrid (max least (min guarded o.partMv))) ∧ (k = 4 → v = vgrid least)) ∧
      (timed = false → (k < 2 → t.rd R.clu_ISSUE_FRACTION c = 100) ∧ (k = 2 → t.rd R.clu_ISSUE_FRACTION c = pct) ∧
        (3 ≤ k → t.rd R.clu_ISSUE_FRACTION c = 0) ∧ (2 ≤ k → v = 600) ∧
        (strict → v = 600) ∧ (¬ strict → (k = 0 → v = vgrid o.loadMv) ∧ (k = 1 → v = vgrid (max 600 (min (vgrid o.loadMv) o.partMv))))) ∧
      (c ∈ t.plat.limited ↔ k ≠ 0) ∧ (c ∈ t.plat.govTimed ↔ timed = true) ∧ Table.get 0 t.plat.govAt c = d1.time ∧ t.cores = d.cores ∧ t.mem = d.mem ∧
      (d.net.openWait = [] → t.net = d.net) ∧
      (∀ w ∈ d.net.openWait, t.demandMet w.pav = true → Out.msg w.tx ∈ t.net.out ∧ w ∉ t.net.openWait) ∧
      (∀ w ∈ d.net.openWait, t.demandMet w.pav = false → w ∈ t.net.openWait))) ∧
  (∀ (d : Dev) (p : Nat), d.demandMet p = true ↔ ∀ c ∈ d.pavCores p, clusterOf c ∈ d.plat.govTimed ∧
    Table.get 0 d.plat.vtarget (clusterOf c) ≤ elem 2 (d.rd R.pow_VCORE) (clusterOf c)) ∧
  (∀ mv : Nat, vgrid mv % 10 = 0 ∧ 600 ≤ vgrid mv ∧ vgrid mv ≤ 900 ∧ (mv ≤ 900 → mv ≤ vgrid mv)) ∧
  (∀ (q : List Instr) (d : Dev) (o : OpVcore), d.thermalStop = false →
    let d1 := d.at o.t
    let c := o.cluster.val
    let v := elem 2 (d.rd R.pow_VCORE) c
    let g := Table.get 0 d.plat.vtarget c
    let last := Table.get 0 d.plat.vstepAt c
    let free := g ≠ 0 ∧ (last = 0 ∨ last + 1000 ≤ d1.time)
    (¬ free ∨ (o.up = true ∧ g ≤ v) ∨ (o.up = false ∧ v ≤ g) → Answers (.vcoreStep o) q d d1) ∧
    (free → g ≤ 900 → (o.up = true → v < g) → (o.up = false → g < v) → ∃ t, Answers (.vcoreStep o) q d t ∧
      elem 2 (t.rd R.pow_VCORE) c = (if o.up then v + 10 else v - 10) ∧
      (∀ k < 16, k ≠ c → elem 2 (t.rd R.pow_VCORE) k = elem 2 (d.rd R.pow_VCORE) k) ∧ Table.get 0 t.plat.vstepAt c = d1.time ∧
      t.cores = d.cores ∧ t.mem = d.mem))

/-- The dictionary's service, for a message that is new on a session's control stream. What each row then does is
`Obligations.Settings` and `Obligations.Blocks` and `Obligations.Pavilions`. -/
def Obligations.DictMessages : Prop :=
  let firstOf (l : List (Bool × Nat)) (r : Except Nat (Entry × Nat)) : Except Nat (Entry × Nat) :=
    match l.find? (fun x => !x.1) with
    | some x => .error x.2
    | none => r
  (∀ (d : Dev) (s : Session) (r : DictReq),
    (r.wellFormed = false → d.entryCheck s r = .error 0x0107) ∧
    (r.wellFormed = true → findEntry r.index r.sub = none → d.entryCheck s r = .error 0x0103) ∧
    (∀ e k, r.wellFormed = true → findEntry r.index r.sub = some (e, k) →
      let boot := decide (s.authKey ≠ 0xFFFE) || (decide (e.base = 0x6100) && decide (e.sub = 0x0A))
      let keyed := !needsKey e || s.byControlKey
      (r.op = 1 → d.entryCheck s r = firstOf [(d.readScope s.pav e k, 0x0401), (decide (e.access ≠ .wo) && decide (e.ty ≠ .keyref), 0x0109)]
        (.ok (e, k))) ∧
      (r.op = 2 → d.entryCheck s r = firstOf [(d.writeScope s.pav e k, 0x0401), (boot, 0x0401), (keyed, 0x0403),
        (decide (e.access ≠ .ro), 0x0109)] (.ok (e, k))) ∧
      (r.op = 3 → d.entryCheck s r = .ok (e, k)))) ∧
  (∀ (q : List Instr) (d d3 : Dev) (o : Rx) (s : Session), d.thermalStop = false →
    let r := DictReq.ofMsg o.msg
    let seq := o.msg.seq
    (r.row ≠ .read → Answers (.dictRead o) q d (d.netAt o.t)) ∧ (r.row ≠ .describe → Answers (.dictDescribe o) q d (d.netAt o.t)) ∧
    (d.HearsNew o 0x0B d3 s →
      (r.row = .read →
        (∀ x, d3.entryCheck s r = .error x → Answers (.dictRead o) q d (d3.dictAnswer s seq r x r.typeOf r.offset 0)) ∧
        (∀ e k, d3.entryCheck s r = .ok (e, k) →
          let v := d3.valueOf s.pav e k
          let snap := match s.snapshot with
            | some (x, y, v) => if x = r.index ∧ y = r.sub then v else []
            | none => []
          let rest := snap.drop r.offset
          (r.offset = 0 → Answers (.dictRead o) q d ((d3.onSess s.id fun x => { x with snapshot := some (r.index, r.sub, v) }).dictAnswer
            s seq r 0 e.ty.code 0 v.length (v.take 1024) none (decide (1024 < v.length)))) ∧
          (r.offset ≠ 0 → snap.length ≤ r.offset → Answers (.dictRead o) q d (d3.dictAnswer s seq r 0x010C e.ty.code r.offset 0)) ∧
          (r.offset ≠ 0 → r.offset < snap.length → Answers (.dictRead o) q d (d3.dictAnswer s seq r 0 e.ty.code r.offset snap.length
            (rest.take 1024) none (decide (1024 < rest.length)))))) ∧
      (r.row = .describe →
        (∀ x, d3.entryCheck s r = .error x → Answers (.dictDescribe o) q d (d3.dictAnswer s seq r x r.typeOf 0 0)) ∧
        (∀ e k, d3.entryCheck s r = .ok (e, k) → Answers (.dictDescribe o) q d (d3.dictAnswer s seq r 0 e.ty.code 0 0 e.describe))) ∧
      (∀ row i, (row, i) ∈ [(DictRow.write, Instr.dictWrite o), (.create, .pavilionCreate o), (.destroy, .pavilionDestroy o), (.enable, .blockEnable o),
          (.disable, .blockDisable o), (.commit, .commit o), (.discard, .commitDiscard o), (.destroyMode, .destroyMode o), (.load, .loadImage o),
          (.start, .start o), (.keyWrite, .keyWrite o), (.ucode, .ucodeImage o), (.eck, .eck o), (.twin, .twinPartner o), (.powerCap, .powerCap o),
          (.alertAck, .alertAck o), (.rangeInval, .rangeInval o), (.wayLock, .wayLock o), (.reclaim, .reclaim o), (.inbound, .inboundConfig o),
          (.cq, .cqConfig o), (.mover, .moverConfig o), (.cipherCq, .cipherCqConfig o), (.compCq, .compressionCqConfig o), (.density, .density o)] →
        (r.row ≠ row → Answers i q d (d.netAt o.t)) ∧
        (r.row = row → (d.netAt o.t).keyWriteWaits o = false →
          let held := (s.assembly.map (·.held.length)).getD 0
          let raw := ((s.assembly.map (·.held)).getD []) ++ r.data
          let d4 := d3.onSess s.id fun x => { x with assembly := none }
          (∀ x, d3.entryCheck s r = .error x → Answers i q d (d3.dictAnswer s seq r x r.typeOf held r.total)) ∧
          (∀ e k, d3.entryCheck s r = .ok (e, k) →
            let typed := r.type = e.ty.code ∧ e.totalOk r.total = true
            let v := e.clean (leNat raw)
            (¬ typed → Answers i q d (d3.dictAnswer s seq r 0x0104 e.ty.code held r.total)) ∧
            (typed → r.segmentOk s.assembly = false → Answers i q d (d4.dictAnswer s seq r 0x010C e.ty.code 0 r.total)) ∧
            (typed → r.segmentOk s.assembly = true → r.more = true → Answers i q d ((d3.onSess s.id fun x => { x with
              assembly := some { index := r.index, sub := r.sub, total := r.total, held := raw, due := d3.time + d3.rd R.amn_DEAD_TIME * 1000 } }).dictAnswer
              s seq r 0 e.ty.code raw.length r.total)) ∧
            (typed → r.segmentOk s.assembly = true → r.more = false →
              (d4.inRange s.pav e k v = false → Answers i q d (d4.dictAnswer s seq r 0x0101 e.ty.code r.total r.total)) ∧
              (d4.inRange s.pav e k v = true → d4.classReason e k v ≠ 0 →
                Answers i q d (d4.dictAnswer s seq r (d4.classReason e k v) e.ty.code r.total r.total)))))))) ∧
  (∀ (q : List Instr) (d : Dev) (o : Rx), d.thermalStop = false → (d.netAt o.t).keyWriteWaits o = true →
    Answers (.keyWrite o) q d (d.netAt o.t)) ∧
  (∀ (d : Dev) (o : Rx), d.keyWriteWaits o = true ↔ (DictReq.ofMsg o.msg).row = .keyWrite ∧ ∃ s, d.sess o.msg.session.toNat = some s ∧
    let n := fieldLE (DictReq.ofMsg o.msg).data 0 2
    (∃ j ∈ d.eng.cipherJobs, j.pav = s.pav ∧ j.slot = n) ∨ ∃ j ∈ d.eng.cipherDone, j.pav = s.pav ∧ j.slot = n) ∧
  (∀ (d : Dev) (e : Entry) (i v : Nat),
    let st := d.blockState e i
    let settles := st = 1 ∨ st = 5
    let creates := e.base = 0x2000 ∧ e.sub = 1 ∧ v = 1 ∧ st = 5
    (creates → d.classReason e i v = 0x0201) ∧
    (¬ creates → e.isControl = true ∨ e.change = .staged → d.classReason e i v = if settles then 0x0202 else if st = 4 then 0x0212 else 0) ∧
    (¬ creates → e.isControl = false → e.change = .locked →
      d.classReason e i v = if settles ∨ st = 2 then 0x0102 else if st = 4 then 0x0212 else 0)) ∧
  (∀ (d : Dev) (s : Session) (seq : Nat) (r : DictReq) (st type offset total : Nat) (data : Bytes) (off : Option (Nat × Nat)) (more : Bool),
    let t := d.dictAnswer s seq r st type offset total data off more
    let x := off.getD (r.index, r.sub)
    (st ≠ 0 → t.rd R.refusal_REASON 0 s.pav = st ∧ t.rd R.refusal_INDEX 0 s.pav = r.index ∧ t.rd R.refusal_SUB 0 s.pav = r.sub ∧
      t.rd R.refusal_OFFENDING_INDEX 0 s.pav = x.1 ∧ t.rd R.refusal_OFFENDING_SUB 0 s.pav = x.2 ∧ t.rd R.refusal_TIME 0 s.pav = d.time ∧
      t.rd R.refusal_SOURCE 0 s.pav = 0 ∧ t.rd R.refusal_SESSION 0 s.pav = s.id ∧
      t.rd R.refusal_COUNT 0 s.pav = min (d.rd R.refusal_COUNT 0 s.pav + 1) (256 ^ R.refusal_COUNT.size - 1)) ∧
    t.cores = d.cores ∧ t.mem = d.mem ∧ t.staged = d.staged) ∧
  (∀ (q : List Instr) (d : Dev) (o : OpSessT), d.thermalStop = false →
    let d1 := d.netAt o.t
    let id := o.session.toNat
    (d1.sess id = none → Answers (.segmentTimeout o) q d d1) ∧
    (∀ s, d1.sess id = some s →
      (s.assembly = none → Answers (.segmentTimeout o) q d d1) ∧
      (∀ a, s.assembly = some a →
        (a.due ≤ d1.time → Answers (.segmentTimeout o) q d (d1.onSess id fun x => { x with assembly := none })) ∧
        (d1.time < a.due → Answers (.segmentTimeout o) q d d1))))

/-- The rules of the entries' chapters; `Replies` answers with the reason and, for 0, the device as the write leaves it. -/
def Obligations.Settings : Prop :=
  (∀ (d : Dev) (w : WriteOp),
    (w.entry.access ≠ .rws → (d.putNow w).reason = 0 ∧ (d.putNow w).dev = d.wr w.entry w.v w.i w.p) ∧
    (w.entry.access = .rws → (∀ t, d.recordDict w.entry w.i w.p w.v = some t → (d.putNow w).reason = 0 ∧ (d.putNow w).dev = t.wr w.entry w.v w.i w.p) ∧
      (d.recordDict w.entry w.i w.p w.v = none → (d.putNow w).reason = 0x0305 ∧ (d.putNow w).dev = d)) ∧
    ((d.putNow w).off = none) ∧ ((d.putNow w).reason = 0 → (d.putNow w).dev.rd w.entry w.i w.p = w.v ∧ (d.putNow w).dev.cores = d.cores)) ∧
  (∀ (q : List Instr) (d d1 : Dev) (o : Rx) (s : Session) (w : WriteOp),
    let row (i : Instr) (k : DictRow) (P : (Dev → Nat → Prop) → Prop) : Prop := d.Writes o k d1 s w → P fun t r => Replies i q d o s w t r
    let v := w.v
    row (.dictWrite o) .write (fun replies =>
      let plain := ¬ (w.entry.base = 0x6100 ∧ w.entry.sub = 0x03) ∧ ¬ (w.entry.base = 0x7000 ∧ w.entry.sub = 0x10)
      let staged := w.entry.change = .staged ∧ d1.blockState w.entry w.i = 2
      (d1.relation w ≠ 0 → replies d1 (d1.relation w)) ∧
      (d1.relation w = 0 →
        (plain → staged → replies (d1.wrStaged w.entry (some v) w.i w.p) 0) ∧
        (plain → ¬ staged → replies (d1.putNow w).dev (d1.putNow w).reason) ∧
        (w.entry.base = 0x7000 → w.entry.sub = 0x10 → replies (d1.wrStaged w.entry (some v)) 0) ∧
        (w.entry.base = 0x6100 → w.entry.sub = 0x03 → replies { d1 with hearth := { d1.hearth with stagedPort := some v } } 0))) ∧
    row (.keyWrite o) .keyWrite (fun replies => (d.netAt o.t).keyWriteWaits o = false →
      let n := fieldLE w.raw 0 2
      let key := slice w.raw 2 80
      let kind := fieldLE key 0 1
      (d1.holdsSlot w.p n = false → replies d1 0x0603) ∧
      (d1.holdsSlot w.p n = true → d1.keyRefused w.p n key ≠ 0 → replies d1 (d1.keyRefused w.p n key)) ∧
      (d1.holdsSlot w.p n = true → d1.keyRefused w.p n key = 0 → ∃ t, replies t 0 ∧ (t.keySlot w.p n).kind = kind ∧
        (t.keySlot w.p n).key = slice key 16 (keyLen kind) ∧ (t.keySlot w.p n).next = 1 ∧
        (kind ≤ 2 → (t.keySlot w.p n).fix = fieldLE key 4 4 ∧
          (t.keySlot w.p n).limit = if fieldLE key 8 8 = 0 then 2 ^ 40 else fieldLE key 8 8) ∧
        { t with eng := d1.eng } = d1)) ∧
    row (.ucodeImage o) .ucode (fun replies =>
      let release := fieldLE w.raw 8 4
      (ucodeImageOk w.raw = false → replies d1 0x010A) ∧
      (ucodeImageOk w.raw = true → release < d1.rd R.dev_UCODE_RELEASE → replies d1 0x010B) ∧
      (ucodeImageOk w.raw = true → d1.rd R.dev_UCODE_RELEASE ≤ release → ∃ t, replies t 0 ∧ t.hearth.ucodeStaged = w.raw ∧
        t.rd R.dev_UCODE_STAGED = release ∧ t.rd R.dev_UCODE_RELEASE = d1.rd R.dev_UCODE_RELEASE ∧ t.cores = d1.cores)) ∧
    row (.eck o) .eck (fun _ =>
      let t := ((d1.wr R.amn_ECK v).wr R.amn_ECK_SET 1).dictAnswer s o.msg.seq (DictReq.ofMsg o.msg) 0 w.entry.ty.code
        (DictReq.ofMsg o.msg).total (DictReq.ofMsg o.msg).total
      Answers (.eck o) q d (((t.net.sessions.filter fun s => decide (s.pav = 0) && decide (s.authKey = 0xFFFE)).map (·.id)).foldl
        (fun d id => d.deviceClose id 0x0401) t)) ∧
    row (.twinPartner o) .twin (fun replies =>
      let seen := (d1.reported w.p 0x3000 0x20 w.i).getD 0
      ((∀ k < 16, elem 2 v k = elem 2 seen k) → replies d1 0) ∧
      (∀ k < 16, (∀ j < 16, j ≠ k → elem 2 v j = elem 2 seen j) → elem 2 v k ≠ elem 2 seen k →
        let c := 16 * w.i + k
        let x := elem 2 v k
        let free (n : Nat) : Prop := d1.twinPartner n = 0xFFFF
        (d1.coreOwner c ≠ some w.p → replies d1 0x0401) ∧
        (d1.coreOwner c = some w.p →
          (x = 0xFFFF → ∃ t, replies t 0 ∧ t.twinPartner c = 0xFFFF ∧ t.twinPartner (d1.twinPartner c) = 0xFFFF ∧ t.cores = d1.cores) ∧
          (256 ≤ x → x ≠ 0xFFFF → replies d1 0x0101) ∧
          (x < 256 →
            (d1.rd R.pav_TWIN_PERMIT w.p ≠ 1 ∨ d1.coreOwner x ≠ some w.p → replies d1 0x0401) ∧
            (d1.rd R.pav_TWIN_PERMIT w.p = 1 → d1.coreOwner x = some w.p →
              (clusterOf c = clusterOf x ∨ ¬ free c ∨ ¬ free x → replies d1 0x0210) ∧
              (clusterOf c ≠ clusterOf x → free c → free x →
                ((d1.core c).run = .lost ∨ (d1.core x).run = .lost → replies d1 0x0211) ∧
                ((d1.core c).run ≠ .lost → (d1.core x).run ≠ .lost → c < 256 →
                  ∃ t, replies t 0 ∧ t.twinPartner c = x ∧ t.twinPartner x = c ∧ t.cores = d1.cores))))))) ∧
    row (.powerCap o) .powerCap (fun replies =>
      (v < d1.pAdmit d1.deadlineClusters → replies d1 0x0503) ∧
      (d1.pAdmit d1.deadlineClusters ≤ v → replies (d1.putNow w).dev (d1.putNow w).reason)) ∧
    row (.alertAck o) .alertAck (fun replies => (v = 1 → replies { d1 with alertOpen := false } 0) ∧ (v ≠ 1 → replies d1 0)) ∧
    row (.rangeInval o) .rangeInval (fun replies =>
      let base := fieldLE w.raw 0 8
      let n := fieldLE w.raw 8 8
      let ls := d1.heldLines w.p (base / 64) ((base + n - 1) / 64 + 1)
      (n = 0 → replies d1 0) ∧
      (n ≠ 0 → (∀ l, l ∈ ls ↔ base / 64 ≤ l ∧ l ≤ (base + n - 1) / 64 ∧ ∃ x, (x ∈ d1.mem.l2.map (·.2) ∨ x ∈ d1.mem.xfer.map (·.2)) ∧
          x.st ≠ .i ∧ x.pav = w.p ∧ x.line = l) ∧
        (ls = [] → replies d1 0) ∧ (ls ≠ [] → replies (ls.foldl (fun d l => d.flushLine w.p l false)
          (if ls.any (d1.lockedLine w.p) then d1.bump R.coh_LOCKED_INVAL else d1)) 0))) ∧
    row (.wayLock o) .wayLock (fun replies =>
      let seen := (d1.reported w.p 0x3410 0x03 w.i).getD 0
      let own := d1.ownWays w.i w.p
      let locks (k : Nat) : Bool := bitOf (elem 8 v k) 63
      let alien := ∃ k < 16, k ∉ own ∧ elem 8 v k ≠ elem 8 seen k
      let twice := ∃ j ∈ own, ∃ k ∈ own, j ≠ k ∧ locks j = true ∧ locks k = true ∧ elem 8 v j % 2 ^ 18 = elem 8 v k % 2 ^ 18
      let full := own ≠ [] ∧ ∀ k ∈ own, locks k = true
      (alien → replies d1 0x0401) ∧ (¬ alien → twice → replies d1 0x0101) ∧ (¬ alien → ¬ twice → full → replies d1 0x0303) ∧
      (¬ alien → ¬ twice → ¬ full → ∃ t, replies t 0 ∧ (∀ k ∈ own, t.wayLock w.i k = elem 8 v k) ∧
        (∀ k < 16, k ∉ own → t.wayLock w.i k = d1.wayLock w.i k))) ∧
    row (.inboundConfig o) .inbound (fun replies =>
      let d2 := ((d1.inRefresh w.p).anyFull w.p).2
      let n := d2.wr w.entry v 0 w.p
      let entries := n.rd R.amn_INBOUND_ENTRIES 0 w.p
      let busy := ((d1.inRefresh w.p).anyFull w.p).1 = true ∨ ∃ x ∈ d2.net.inQ, x.pav = w.p ∧ x.kind = 1
      let mapped := n.ringMapped w.p (n.rd R.amn_INBOUND_BASE 0 w.p) (n.rd R.amn_INBOUND_SLOT 0 w.p * entries) = true
      let wide := d2.rd R.amn_INBOUND_ENTRIES 0 w.p ≤ entries ∨ d2.windowSum w.p ≤ entries
      let long := w.entry.sub = 0x22 → ∀ s ∈ d2.pavSessions w.p, cdData s.desc = true → cdMaxRequest s.desc + 64 ≤ v
      (busy → replies d2 0x020D) ∧ (¬ busy → ¬ mapped → replies d2 0x0108) ∧ (¬ busy → mapped → ¬ wide → replies d2 0x0309) ∧
      (¬ busy → mapped → wide → ¬ long → replies d2 0x0105) ∧
      (¬ busy → mapped → wide → long →
        ((d2.putNow w).reason ≠ 0 → replies (d2.putNow w).dev (d2.putNow w).reason) ∧
        ((d2.putNow w).reason = 0 → ∃ t, replies t 0 ∧ Table.get 0 t.net.inIndex w.p = 0 ∧ { t with net := (d2.putNow w).dev.net } = (d2.putNow w).dev))) ∧
    row (.cqConfig o) .cq (fun replies =>
      let busy := (∃ x ∈ d1.chan.ops, x.ep = w.i ∧ (x.isOpen = true ∨ (x.posted = false ∧ x.st = .done))) ∨ d1.postedOf w.i ≠ []
      (busy → replies d1 0x020D) ∧
      (¬ busy → ((d1.putNow w).reason ≠ 0 → replies (d1.putNow w).dev (d1.putNow w).reason) ∧
        ((d1.putNow w).reason = 0 → ∃ t, replies t 0 ∧ Table.get 0 t.chan.cqIndex w.i = 0 ∧ { t with chan := (d1.putNow w).dev.chan } = (d1.putNow w).dev))) ∧
    row (.moverConfig o) .mover (fun replies =>
      let n := d1.wr w.entry v w.i w.p
      let bad := w.entry.sub ≠ 0x13 ∧ ((d1.moverJob w.i w.p).isSome = true ∨
        n.ringMapped w.p (n.rd R.spad_MOVER_RING w.i w.p) (64 * n.rd R.spad_MOVER_ENTRIES w.i w.p) = false)
      (bad → replies d1 0x020D) ∧
      (¬ bad → ((d1.putNow w).reason ≠ 0 → replies (d1.putNow w).dev (d1.putNow w).reason) ∧
        ((d1.putNow w).reason = 0 → ∃ t, replies t 0 ∧ Table.get 0 t.mem.moverIndex (w.i * 64 + w.p) = 0 ∧ { t with mem := (d1.putNow w).dev.mem } = (d1.putNow w).dev))) ∧
    row (.cipherCqConfig o) .cipherCq (fun replies =>
      (d1.cipherCount w.p ≠ 0 → replies d1 0x020D) ∧
      (d1.cipherCount w.p = 0 → ((d1.putNow w).reason ≠ 0 → replies (d1.putNow w).dev (d1.putNow w).reason) ∧
        ((d1.putNow w).reason = 0 → ∃ t, replies t 0 ∧ Table.get 0 t.eng.cipherIndex w.p = 0 ∧ { t with eng := (d1.putNow w).dev.eng } = (d1.putNow w).dev))) ∧
    row (.compressionCqConfig o) .compCq (fun replies =>
      (d1.compCount w.p ≠ 0 → replies d1 0x020D) ∧
      (d1.compCount w.p = 0 → ((d1.putNow w).reason ≠ 0 → replies (d1.putNow w).dev (d1.putNow w).reason) ∧
        ((d1.putNow w).reason = 0 → ∃ t, replies t 0 ∧ Table.get 0 t.eng.compIndex w.p = 0 ∧ { t with eng := (d1.putNow w).dev.eng } = (d1.putNow w).dev))) ∧
    row (.density o) .density (fun replies =>
      let fits := engineFits (d1.classesOf w.p) (elem 1 (d1.rd R.pav_SHARES w.p) 3) v
      (fits = true → replies (d1.putNow w).dev (d1.putNow w).reason) ∧ (fits = false → replies d1 0x0507)))

/-- Blocks that are not a pavilion's; a pavilion's are `Obligations.Pavilions`. `st` is the block's STATE entry. -/
def Obligations.Blocks : Prop :=
  (∀ (q : List Instr) (d d1 : Dev) (o : Rx) (s : Session) (w : WriteOp) (st : Entry) (j : Nat),
    let e := w.entry
    let i := w.i
    let l := d1.takenWith e.base i
    let forced (t : Dev) : Prop := ∀ x ∈ blockStaged e.base, t.rd x i = (d1.rdStaged x i).getD (d1.rd x i) ∧ t.rdStaged x i = none
    findEntry (e.base + i) 0 = some (st, j) → e.sub = 1 ∨ e.sub = 2 →
    (d.Writes o .enable d1 s w → st.sub = 0 → st.base = e.base →
      let c := d1.blockCheck e.base i true
      let replies (t : Dev) (r : Nat) (off : Option (Nat × Nat)) : Prop := Replies (.blockEnable o) q d o s w t r off
      (d1.rd st i = 2 → replies d1 0 none) ∧
      (d1.rd st i ≠ 2 →
        (c.1 ≠ 0 → replies ((d1.wr st 3 i).wr e 0 i) c.1 c.2) ∧
        (c.1 = 0 → (recordAll w.p ((e, i, 1) :: l) d1 = none → replies d1 0x0305 none) ∧
          (recordAll w.p ((e, i, 1) :: l) d1 ≠ none → e.base = 0x5000 ∨ e.base = 0x7100 ∨ e.base = 0x7200 ∨ e.base = 0x3410 →
            ∃ t, replies t 0 none ∧ t.rd st i = 2 ∧ t.rd e i = 1 ∧ forced t ∧ t.cores = d1.cores ∧ t.mem = d1.mem) ∧
          (∀ t0, recordAll w.p ((e, i, 1) :: l) d1 = some t0 → e.base = 0x6000 →
            replies ((((t0.inForce l).wr e 1 i).wr st 2 i).wr R.port_LINK_STATUS 1 i).ptpSettle 0 none) ∧
          (∀ t0, recordAll w.p ((e, i, 1) :: l) d1 = some t0 → e.base = 0x4000 →
            let t := (((((t0.inForce l).wr e 1 i).wr st 2 i).onLink i fun x => { x with stuck := false }).enterTraining i)
            replies (if d1.twinChanges l then t.linkChanged i true else t) 0 none)))) ∧
    (d.Writes o .disable d1 s w → st.sub = 0 → st.base = e.base →
      let now := d1.rd st i
      let replies (t : Dev) (r : Nat) : Prop := Replies (.blockDisable o) q d o s w t r
      let kept := now = 2 ∧ e.base = 0x3410 ∧ d1.l2Protected i = true
      (now = 0 → replies d1 0) ∧ (now ≠ 0 → kept → replies d1 0x0207) ∧
      (now ≠ 0 → ¬ kept → recordAll w.p [(e, i, 0)] d1 = none → replies d1 0x0305) ∧
      (now ≠ 0 → ¬ kept → recordAll w.p [(e, i, 0)] d1 ≠ none → ∃ t, replies t 0 ∧
        (e.base ≠ 0x4000 → t.rd st i = (if now = 2 then 5 else 0) ∧ t.rd e i = 0 ∧ t.cores = d1.cores ∧ t.mem = d1.mem) ∧
        (e.base = 0x6000 → t.rd R.port_LINK_STATUS i = 0))) ∧
    (d.Writes o .commit d1 s w → e.base ≠ 0x2000 →
      let c := d1.blockCheck e.base i false
      let replies (t : Dev) (r : Nat) (off : Option (Nat × Nat)) : Prop := Replies (.commit o) q d o s w t r off
      (d1.blockState e i ≠ 2 → replies d1 0 none) ∧
      (d1.blockState e i = 2 →
        (c.1 ≠ 0 → replies d1 c.1 c.2) ∧
        (c.1 = 0 → (recordAll w.p l d1 = none → replies d1 0x0305 none) ∧
          (∀ t0, recordAll w.p l d1 = some t0 →
            (e.base = 0x5000 → replies (t0.inForce l).recheckOps 0 none) ∧
            (e.base = 0x4000 → replies ((t0.inForce l).linkChanged i (l.any fun x =>
              decide (x.1.base = 0x4000) && decide (x.1.sub = 0x06) && decide (d1.rd x.1 x.2.1 ≠ x.2.2))) 0 none) ∧
            (e.base = 0x6000 → replies (((t0.inForce l).pfcRules i).ptpSettle) 0 none))))) ∧
    (d.Writes o .discard d1 s w → ∃ t, Replies (.commitDiscard o) q d o s w t 0 ∧ (∀ x ∈ stagedEntries e.base, t.rdStaged x i = none) ∧
      { t with staged := d1.staged } = d1)) ∧
  (∀ (q : List Instr) (d : Dev) (o : OpBlockT), d.thermalStop = false →
    let d1 := d.netAt o.t
    let x := findEntry o.index.toNat 0
    let i := Instr.blockStopped o
    (x = none → Answers i q d d1) ∧
    (∀ st n, x = some (st, n) →
      let busy := (st.base = 0x5000 ∧ ∃ y ∈ d1.chan.ops, y.ep = n ∧ y.isOpen = true) ∨
        (st.base = 0x3410 ∧ ∃ c ∈ clusterCores n, d1.targeted 0 (.core c) = true)
      (st.base = 0x2000 ∨ st.base = 0x7F00 ∨ d1.rd st n ≠ 5 ∨ busy → Answers i q d d1) ∧
      (st.base ≠ 0x2000 → st.base ≠ 0x7F00 → d1.rd st n = 5 → ¬ busy → ∃ t, Answers i q d t ∧ t.rd st n = 0 ∧
        (∀ y ∈ blockStaged st.base, t.rdStaged y n = none) ∧ (st.base ≠ 0x3410 → t.cores = d1.cores ∧ t.mem = d1.mem) ∧
        t.chan.ops = d1.chan.ops)))

/-- The life of a pavilion. The private key and the nonce of a creation are the device's own (free values). -/
def Obligations.Pavilions : Prop :=
  let more (t d : Dev) (e : Entry) (k n : Nat) : Prop := t.rd e k = min (d.rd e k + n) (256 ^ e.size - 1)
  (∀ (q : List Instr) (d d1 : Dev) (o : Rx) (s : Session) (w : WriteOp),
    let p := w.i
    let state := d1.rd R.pav_STATE p
    let forced (t : Dev) : Prop := ∀ x ∈ pavStaged, t.rd x p = (d1.rdStaged x p).getD (d1.rd x p) ∧ t.rdStaged x p = none
    (d.Writes o .create d1 s w →
      let replies (t : Dev) (r : Nat) (off : Option (Nat × Nat)) : Prop := Replies (.pavilionCreate o) q d o s w t r off
      (state = 2 → replies d1 0 none) ∧
      (state ≠ 2 → ∃ (priv nonce : Bytes) (d2 : Dev), { d2 with fresh := d1.fresh } = d1 ∧
        let c := d2.pavCheck p (some priv)
        let owner := leBytes 32 (d1.rd R.pav_OWNER_KEY p)
        (c.1 ≠ 0 → replies ((d2.wr R.pav_STATE 3 p).wr R.pav_ENABLE 0 p) c.1 c.2) ∧
        (c.1 = 0 → d2.takeWindow p = none → replies d2 0x0305 none) ∧
        (c.1 = 0 → d2.takeWindow p ≠ none → ∃ t body, replies t 0 none ∧ t.rd R.pav_STATE p = 2 ∧ t.rd R.pav_ENABLE p = 1 ∧ forced t ∧
          more t d1 R.pav_GENERATION p 1 ∧ more t d1 R.est_CREATIONS 0 1 ∧
          Table.get [] t.hearth.pck p = pckOf (x25519 priv owner) nonce p (t.rd R.pav_GENERATION p) ∧
          t.rd R.pav_RECEIPT p = leNat (body ++ edSign Config.identitySeed body) ∧ body.take 4 = ascii "PVRC" ∧
          owner ∈ t.hearth.ownerKeys ∧ Table.get {} t.pavs p = {} ∧
          ∀ c < 256, bitOf (t.rd R.pav_CORES p) c = true → (d1.core c).run = .free → (t.core c).run = .stopped))) ∧
    (d.Writes o .commit d1 s w → w.entry.base = 0x2000 →
      let replies (t : Dev) (r : Nat) (off : Option (Nat × Nat)) : Prop := Replies (.commit o) q d o s w t r off
      let c := d1.pavCheck p none
      (state ≠ 2 → replies d1 0 none) ∧ (state = 2 → c.1 ≠ 0 → replies d1 c.1 c.2) ∧
      (state = 2 → c.1 = 0 → d1.takeWindow p = none → replies d1 0x0305 none) ∧
      (state = 2 → c.1 = 0 → d1.takeWindow p ≠ none → ∃ t, replies t 0 none ∧ forced t ∧ (∀ x ∈ d1.removing, x ∈ t.removing) ∧
        (let lost (x : Entry) (k : Nat) : Prop := bitOf (d1.rd x p) k = true ∧ bitOf (t.rd x p) k = false
         ∀ k, (k < 256 → lost R.pav_CORES k → (p, .core k) ∈ t.removing) ∧ (k < 288 → lost R.pav_GRANULES k → (p, .granule k) ∈ t.removing) ∧
          (k < 512 → lost R.pav_BANKS k → (p, .bank k) ∈ t.removing) ∧ (k < 4096 → lost R.pav_ENDPOINTS k → (p, .endpoint k) ∈ t.removing) ∧
          (k < 128 → lost R.pav_WAY_GROUPS k → (p, .wayGroup k) ∈ t.removing) ∧
          (t.rd R.pav_KEY_SLOTS p ≤ k → k < d1.rd R.pav_KEY_SLOTS p → (p, .keySlot k) ∈ t.removing) ∧
          (k < 256 → bitOf (t.rd R.pav_CORES p) k = true → bitOf (d1.rd R.pav_CORES p) k = false → (d1.core k).run = .free →
            (t.core k).run = .stopped)) ∧
        (elem 4 (t.rd R.hearth_WINDOW_SIZE) p < elem 4 (d1.rd R.hearth_WINDOW_SIZE) p →
          (p, .window (elem 4 (d1.rd R.hearth_WINDOW_SIZE) p)) ∈ t.removing) ∧
        ((∃ x ∈ pavStaged, t.rd x p ≠ d1.rd x p) → t.pbit p 0x1FFE = true))) ∧
    (d.Writes o .destroy d1 s w →
      let replies (t : Dev) (r : Nat) : Prop := Replies (.pavilionDestroy o) q d o s w t r
      let d2 := { (d1.wr R.pav_STATE 5 p).wr R.pav_ENABLE 0 p with pavs := Table.set {} d1.pavs p {} }
      (p = 0 → replies d1 0x0102) ∧
      (p ≠ 0 → state = 2 → (d1.rd R.pav_DESTROY_MODE p ≠ 1 → replies d2 0) ∧ (d1.rd R.pav_DESTROY_MODE p = 1 → replies (d2.force p) 0)) ∧
      (p ≠ 0 → state = 3 → replies ((d1.wr R.pav_STATE 0 p).wr R.pav_ENABLE 0 p) 0) ∧ (p ≠ 0 → state ≠ 2 → state ≠ 3 → replies d1 0)) ∧
    (d.Writes o .destroyMode d1 s w →
      let x := d1.putNow w
      let now := x.reason = 0 ∧ w.v = 1 ∧ state = 5 ∧ d1.forced p = false ∧ d1.quenching p = false
      (now → Replies (.destroyMode o) q d o s w (x.dev.force p) 0) ∧ (¬ now → Replies (.destroyMode o) q d o s w x.dev x.reason)) ∧
    (d.Writes o .load d1 s w →
      let a := fieldLE w.raw 0 8
      let b := w.raw.drop 8
      (d1.firstUnmapped p a b.length ≠ none → Replies (.loadImage o) q d o s w d1 0x0108) ∧
      (d1.firstUnmapped p a b.length = none → Replies (.loadImage o) q d o s w (d1.devWrite p a b) 0)) ∧
    (d.Writes o .start d1 s w →
      let replies (t : Dev) (r : Nat) : Prop := Replies (.start o) q d o s w t r
      let arch : Arch := { caps := [(1, rootCap)], pcc := { rootCap with cursor := BitVec.ofNat 38 (d1.rd R.pav_ENTRY p) } }
      let busy (c : Nat) : Prop := (d1.core c).run = .retrying ∨ (d1.core c).run = .selfTest ∨ (d1.core c).run = .handingOver
      let begun (t : Dev) (c : Nat) (twin : Option Nat) : Prop := { t.core c with asOf := 0 } =
        { run := .running, arch := arch, checkpoint := arch, exArch := arch, twin := twin, inSpareSlot := (d1.core c).inSpareSlot }
      ((d1.pavCores p)[w.v]? = none → replies d1 0x0101) ∧
      (∀ c, (d1.pavCores p)[w.v]? = some c →
        ((d1.core c).run = .lost → replies d1 0x0211) ∧
        ((d1.core c).run ≠ .lost → d1.forced p = true → replies d1 0x0204) ∧
        ((d1.core c).run ≠ .lost → d1.forced p = false → state ≠ 2 → state ≠ 5 → replies d1 0x0201) ∧
        ((d1.core c).run ≠ .lost → d1.forced p = false → state = 2 ∨ state = 5 →
          (busy c → ∃ t, replies t 0 ∧ t.core c = { d1.core c with startOwed := true } ∧ { t with cores := d1.cores } = d1) ∧
          (¬ busy c → d1.partnerIn p c = none → ∃ t, replies t 0 ∧ begun t c none) ∧
          (∀ k, ¬ busy c → ¬ busy k → d1.partnerIn p c = some k → k ≠ c → ((d1.core k).twin ≠ some c ∨ (d1.core c).twin = some k) →
            ∃ t, replies t 0 ∧ begun t c (some k) ∧ begun t k (some c)))))) ∧
  (∀ (d : Dev) (p : Nat),
    let t := d.force p
    (Table.get {} t.pavs p).forced = true ∧ (Table.get {} t.pavs p).due = d.time + d.haltWait p ∧
    t.rd R.pav_STATE p = d.rd R.pav_STATE p ∧ t.rd R.pav_CORES p = d.rd R.pav_CORES p) ∧
  (∀ (q : List Instr) (d : Dev) (o : OpPavT), d.thermalStop = false →
    let d1 := d.netAt o.t
    let d2 := d.at o.t
    let p := o.pav.val
    let work := ((d1.pavSessions p).map fun s => s.reqs.length).sum + (d1.openOps p).length
    let x := Table.get {} d1.pavs p
    let opsDone := d1.openOps p = []
    let may := d1.rd R.pav_STATE p = 5 ∧ x.proceeding = false ∧ d1.coresBusy p = false ∧
      (if x.forced then opsDone ∨ x.due ≤ d1.time else opsDone ∧ ∀ s ∈ d1.pavSessions p, s.reqs = [])
    (¬ may → Answers (.destructionProceed o) q d d1) ∧
    (may → ∃ t, Answers (.destructionProceed o) q d t ∧ t.quenching p = true ∧ (∀ n < 1024, t.keySlot p n = {}) ∧ Table.get [] t.hearth.pck p = [] ∧
      (∀ a < 2 ^ 18, t.pbit p a = false) ∧ (∀ y ∈ t.chan.ops, y.pav ≠ p) ∧ (∀ y ∈ t.eng.cipherJobs, y.pav ≠ p) ∧
      (∀ y ∈ t.eng.compJobs, y.pav ≠ p) ∧ (∀ y ∈ t.mem.moverJobs, y.pav ≠ p) ∧ t.hring p = {} ∧ (∀ y ∈ t.removing, y.1 ≠ p) ∧
      (∀ a, a / 2 ^ 33 = p → Table.get 0 t.mem.win.bytes a = 0 ∧ Table.get 0 t.mem.winDurable a = 0) ∧
      (∀ c ∈ d1.pavCores p, (t.core c).arch = {} ∧ (t.core c).run = if (d1.core c).run = .lost then .lost else .free) ∧
      ((d1.net.sessions.map (·.id)).Nodup → ∀ y ∈ t.net.sessions, y.pav ≠ p) ∧
      (work ≠ 0 → more t d1 R.est_DISCARDED_AT_DESTROY 0 work)) ∧
    (¬ (d2.rd R.pav_STATE p = 5 ∧ d2.quenching p = true) → Answers (.destructionComplete o) q d d2) ∧
    (d2.rd R.pav_STATE p = 5 → d2.quenching p = true → p ≠ 0 → ∃ t, Answers (.destructionComplete o) q d t ∧
      (∀ e ∈ R.block2000, e.sub ≠ 0x11 → t.rd e p = e.default p ∧ t.rdStaged e p = none) ∧
      t.rd R.pav_GENERATION p = d.rd R.pav_GENERATION p ∧ (∀ b < 512, ∀ g, t.bank b ≠ .held p ∧ t.bank b ≠ .clearing p ∧
        t.bank b ≠ .releasing p g ∧ t.bank b ≠ .released p g) ∧ Table.get {} t.pavs p = {} ∧ more t d R.est_DESTRUCTIONS 0 1))

/-- Clock inputs, the timebase and its discipline. `B` stands for REFCLK_B where it is true and REFCLK_A where it is false. -/
def Obligations.ClocksAndTimebase : Prop :=
  let more (t d : Dev) (e : Entry) (n : Nat) : Prop := t.rd e = min (d.rd e + n) (256 ^ e.size - 1)
  let mine (B : Bool) (x : Plat) : Bool := if B then x.refB else x.refA
  let input (B : Bool) : ClockIn := if B then .refB else .refA
  (∀ (q : List Instr) (d : Dev) (o : OpClock), d.thermalStop = false →
    let runs := 4 ≤ d.plat.step
    let d1 := if d.plat.step < 4 then d else d.netAt o.t
    let lost := Instr.clockLoss o
    let back := Instr.clockPresent o
    (o.input = .xtal →
      (d.plat.xtal = false → Answers lost q d d1) ∧
      (d.plat.xtal = true → ∃ t, Answers lost q d t ∧ t.plat.xtal = false ∧ t.plat.xtalKept = false ∧ t.plat.xtalWait = (d.plat.xtalWait || d.plat.step == 3) ∧
        more t d1 R.pow_XTAL_LOSSES 1 ∧ t.cores = d1.cores ∧ t.mem = d1.mem ∧ (¬ runs ∨ d.plat.coast = true → { t with plat := d1.plat, dict := d1.dict } = d1) ∧
        (runs → d.plat.coast = false → t.plat.coast = true ∧ t.plat.coastFrom = d1.time ∧
          (∀ c < 16, Table.get 0 t.plat.coastMv c = elem 2 (d1.rd R.pow_VCORE) c) ∧
          t.net.sessions = (d1.net.sessions.map fun s => { s with reqs := s.reqs.map fun r => if r.accepted && r.sent.isNone then { r with unverified := true } else r }) ∧
          (∀ c < 16, Table.get 0 t.plat.vtarget c = if bitOf d1.deadlineClusters c then max (Table.get 0 d1.plat.vtarget c) (d1.vcore c) else
            Table.get 0 d1.plat.vtarget c) ∧
          (∀ p < 64, d1.pavExists p = true → d1.classesOf p ≠ [] → t.pbit p 0x1FFD = true))) ∧
      (d.plat.vin = true → ∃ t, Answers back q d t ∧ t.plat.xtal = true ∧ { t with plat := d1.plat } = d1)) ∧
    (d.plat.vin = false → Answers back q d d1) ∧
    (∀ B : Bool, o.input = input B →
      let has := mine B d.plat
      let other := mine (!B) d.plat
      let on (b : Bool) (t : Dev) : Prop :=
        t.plat.onB = (if 4 ≤ d.plat.step then b else d.plat.onB) ∧
        (if 4 ≤ d.plat.step ∧ b ≠ d.plat.onB then more t d1 R.pow_REF_SWITCHES 1 else t.rd R.pow_REF_SWITCHES = d1.rd R.pow_REF_SWITCHES)
      (has = false → Answers lost q d d1) ∧
      (has = true → other = true → ∃ t, Answers lost q d t ∧ mine B t.plat = false ∧ on (!B) t ∧ t.net = d1.net ∧ t.chan = d1.chan) ∧
      (has = true → other = false → ∃ t, Answers lost q d t ∧ mine B t.plat = false ∧ t.rd R.port_LINK_STATUS 0 = 0 ∧ t.rd R.port_LINK_STATUS 1 = 0 ∧
        (∀ n < 96, (d1.linkUp n = true → t.rd R.link_LINK_STATUS n = 5 ∧ t.rd R.link_FAIL_CAUSE n = 6) ∧
          (d1.linkUp n = false → t.rd R.link_LINK_STATUS n = d1.rd R.link_LINK_STATUS n))) ∧
      (d.plat.vin = true →
        (has = true → Answers back q d d1) ∧
        (has = false → other = true → ∃ t, Answers back q d t ∧ mine B t.plat = true ∧ t.plat.onB = d.plat.onB ∧ { t with plat := d1.plat } = d1) ∧
        (has = false → other = false → ∃ t, Answers back q d t ∧ mine B t.plat = true ∧ on B t ∧
          (∀ n < 2, t.rd R.port_LINK_STATUS n =
            if d1.rd R.port_STATE n = 2 ∧ d1.rd R.port_LINK_STATUS n = 0 then 1 else d1.rd R.port_LINK_STATUS n))))) ∧
  (∀ (q : List Instr) (d : Dev) (o : OpT0), d.thermalStop = false →
    let d1 := d.at o.t
    let x := d.plat
    let due := (d.rd R.pow_REF_PREFER = 0 ∧ x.onB = true ∧ x.refA = true ∧ x.refASince + 1000000000 ≤ d1.time) ∨
      (d.rd R.pow_REF_PREFER = 1 ∧ x.onB = false ∧ x.refB = true ∧ x.refBSince + 1000000000 ≤ d1.time)
    (¬ due → Answers (.refReturn o) q d d1) ∧
    (due → 4 ≤ x.step → ∃ t, Answers (.refReturn o) q d t ∧ t.plat.onB = !x.onB ∧ more t d1 R.pow_REF_SWITCHES 1 ∧
      { t with plat := d1.plat, dict := d1.dict } = d1) ∧
    (¬ (x.coast = true ∧ x.xtal = true) → Answers (.tbCoastClear o) q d d1) ∧
    (x.coast = true → x.xtal = true → ∃ t, Answers (.tbCoastClear o) q d t ∧ t.plat.coast = false ∧ t.time = d1.time ∧
      more t d1 R.pow_COAST_TIME (d1.time - x.coastFrom) ∧ { t with plat := d1.plat, dict := d1.dict } = d1)) ∧
  (∀ (q : List Instr) (d : Dev) (o : OpSync), d.thermalStop = false →
    let d1 := d.netAt o.t
    let n := o.port.val
    let st (t : Dev) : Nat := elem 1 (t.rd R.pow_PTP_STATE) n
    let takes := st d1 ≠ 0 ∧ d1.rd R.port_LINK_STATUS n = 2 ∧ o.domain.toNat = d1.rd R.port_PTP_DOMAIN n
    let follows (t : Dev) : Prop := t.rd R.pow_TB_SOURCE =
      if elem 1 (t.rd R.pow_PTP_STATE) 0 = 2 then 1 else if elem 1 (t.rd R.pow_PTP_STATE) 1 = 2 then 2 else 0
    let y (t : Dev) : Ptp := Table.get {} t.plat.ptp n
    (¬ takes → Answers (.ptpSync o) q d d1) ∧
    (takes → ∃ t, Answers (.ptpSync o) q d t ∧ (y t).lastSync = d1.time ∧ (y t).sync = some (o.sent, d1.time) ∧
      (st d1 ≠ 3 → { t with plat := d1.plat } = d1) ∧ (st d1 = 3 → d1.rd R.port_PTP_ENABLE n ≠ 0 → st t = 1 ∧ follows t ∧ (y t).offsets = []))) ∧
  (∀ (q : List Instr) (d : Dev) (o : OpPtp), d.thermalStop = false →
    let d1 := d.netAt o.t
    let n := o.port.val
    let x := Table.get {} d1.plat.ptp n
    let st (t : Dev) : Nat := elem 1 (t.rd R.pow_PTP_STATE) n
    let runs := st d1 ≠ 0 ∧ d1.rd R.port_LINK_STATUS n = 2
    let follows (t : Dev) : Prop := t.rd R.pow_TB_SOURCE =
      if elem 1 (t.rd R.pow_PTP_STATE) 0 = 2 then 1 else if elem 1 (t.rd R.pow_PTP_STATE) 1 = 2 then 2 else 0
    let asks := runs ∧ x.lastSync ≠ 0 ∧ x.askedAt + x.interval * 1000 ≤ d1.time
    let late := st d1 = 2 ∧ x.lastSync + 8000000000 ≤ d1.time
    (¬ asks → Answers (.delayReqSend o) q d d1) ∧
    (asks → ∃ t, Answers (.delayReqSend o) q d t ∧ t.net.out = .delayReq n (d1.rd R.port_PTP_DOMAIN n) { pcp := 7, vid := 0 } :: d1.net.out ∧ (Table.get {} t.plat.ptp n).asked = true ∧
      (Table.get {} t.plat.ptp n).askedAt = d1.time ∧ { t with plat := d1.plat, net := d1.net } = d1) ∧
    (¬ late → Answers (.ptpHoldover o) q d d1) ∧
    (late → d1.rd R.port_PTP_ENABLE n ≠ 0 → ∃ t, Answers (.ptpHoldover o) q d t ∧ st t = 3 ∧ follows t)) ∧
  (∀ (q : List Instr) (d : Dev) (o : OpDelayResp), d.thermalStop = false →
    let d1 := d.netAt o.t
    let n := o.port.val
    let x := Table.get {} d1.plat.ptp n
    let st (t : Dev) : Nat := elem 1 (t.rd R.pow_PTP_STATE) n
    let ends := st d1 ≠ 0 ∧ d1.rd R.port_LINK_STATUS n = 2 ∧ x.asked = true ∧ o.domain.toNat = d1.rd R.port_PTP_DOMAIN n
    let off : Int := match x.sync with
      | some (sent, came) => (((came : Int) - sent) - ((o.got : Int) - x.askedAt)) / 2
      | none => 0
    let good := if off.natAbs ≤ 1000 then x.good + 1 else 0
    (¬ ends → Answers (.delayResp o) q d d1) ∧
    (ends → d.plat.coast = true → ∃ t, Answers (.delayResp o) q d t ∧
      Table.get {} t.plat.ptp n = { x with asked := false, interval := o.interval } ∧ { t with plat := d1.plat } = d1) ∧
    (ends → d.plat.coast = false → d1.rd R.port_PTP_ENABLE n ≠ 0 → ∃ d2,
      Table.get {} d2.plat.ptp n =
        { x with asked := false, interval := o.interval, good := good, offsets := (off :: x.offsets).take 16 } ∧
      d2.rd R.pow_PTP_OFFSET = (off % 2 ^ 64).toNat ∧ st d2 = (if st d1 = 1 ∧ 16 ≤ good then 2 else st d1) ∧ d2.time = d1.time ∧
      Answers (.delayResp o) q d
        (if d2.rd R.pow_TB_SOURCE = n + 1 then d2.correct (Table.get {} d2.plat.ptp n).mean else d2))) ∧
  (∀ (d : Dev) (m : Int),
    let t := d.correct m
    let limit : Int := d.rd R.pow_PTP_STEP_LIMIT
    (m < -limit → t.time = d.time + (-m).toNat ∧ more t d R.pow_PTP_STEPS 1 ∧ t.plat.ptpStepAt = t.time ∧ t.plat.slew = d.plat.slew ∧
      t.net.sessions = (d.net.sessions.map fun s => { s with reqs := s.reqs.map fun r =>
        if r.accepted && r.sent.isNone then { r with shift := r.shift + (-m).toNat } else r }) ∧ t.cores = d.cores) ∧
    (-limit ≤ m → m.natAbs ≤ 1000 → t = d) ∧
    (-limit ≤ m → 1000 < m.natAbs → t.time = d.time ∧ t.plat.slew.natAbs ≤ 200000 ∧ (0 < m → t.plat.slew ≤ 0) ∧ (m < 0 → 0 ≤ t.plat.slew) ∧
      t.net = d.net ∧ t.dict = d.dict))

/-- The sideband interface and the thermal thresholds. -/
def Obligations.WindowAndTemperature : Prop :=
  let more (t d : Dev) (e : Entry) (n : Nat) : Prop := t.rd e = min (d.rd e + n) (256 ^ e.size - 1)
  (∀ (q : List Instr) (d : Dev) (o : OpI2cWrite), d.thermalStop = false →
    let d1 := d.at o.t
    let a := o.offset.toNat
    let byteAt (k : Nat) : Option Byte := o.bytes[(k + 256 - a) % 256]?
    (d.plat.step < 6 → Answers (.i2cWriteTransfer o) q d d1) ∧
    (6 ≤ d.plat.step → o.bytes.length ≤ 256 → ∃ t, Answers (.i2cWriteTransfer o) q d t ∧
      t.plat.i2cOffset = (a + o.bytes.length) % 256 ∧
      t.plat.capBytes = ((byteAt 0x08).map BitVec.toNat, (byteAt 0x09).map BitVec.toNat) ∧
      t.alertOpen = (if byteAt 0x0E = some 1 then false else d.alertOpen) ∧
      ((∃ k < 256, byteAt k ≠ none ∧ k ≠ 0x08 ∧ k ≠ 0x09 ∧ k ≠ 0x0E) → t.plat.i2cResult = 0x0109) ∧
      ((∀ k < 256, byteAt k ≠ none → k = 0x08 ∨ k = 0x09 ∨ k = 0x0E) → t.plat.i2cResult = d.plat.i2cResult) ∧
      { t with plat := d1.plat, alertOpen := d1.alertOpen } = d1)) ∧
  (∀ (q : List Instr) (d : Dev) (o : OpI2cRead), d.thermalStop = false →
    let d1 := d.at o.t
    (d.plat.step < 6 → Answers (.i2cReadTransfer o) q d d1) ∧
    (6 ≤ d.plat.step → ∃ t, Answers (.i2cReadTransfer o) q d t ∧ t.plat.i2cOut.length = o.count ∧
      (∀ k < o.count, t.plat.i2cOut[k]? = some (d.plat.window.getD ((d.plat.i2cOffset + k) % 256) 0xFF)) ∧
      t.plat.i2cOffset = (d.plat.i2cOffset + o.count) % 256 ∧ { t with plat := d1.plat } = d1)) ∧
  (∀ (q : List Instr) (d : Dev) (o : OpT0), d.thermalStop = false →
    let d1 := d.at o.t
    (d.plat.step < 6 → Answers (.i2cWindowRefresh o) q d d1 ∧ Answers (.i2cAlertAck o) q d d1) ∧
    (6 ≤ d.plat.step → Answers (.i2cAlertAck o) q d { d1 with alertOpen := false } ∧
      ∃ t, Answers (.i2cWindowRefresh o) q d t ∧ t.plat.window = d1.windowNow ∧ t.plat.window.length = 64 ∧ { t with plat := d1.plat } = d1)) ∧
  (∀ (q : List Instr) (d : Dev) (o : OpI2cCap), d.thermalStop = false →
    let v := o.watts.toNat
    let whole := d.plat.capBytes = (some (v % 256), some (v / 256))
    let d1 := (d.at o.t).onPlat fun x => { x with capBytes := (none, none) }
    let reason := if d1.rd R.i2c_I2C_WRITES = 0 then 0x0401 else if v < 350 ∨ 780 < v then 0x0101
      else if v < d1.pAdmit d1.deadlineClusters then 0x0503 else if d1.recordDict R.pow_POWER_CAP 0 0 v = none then 0x0305 else 0
    (¬ whole → Answers (.i2cPowerCap o) q d (d.at o.t)) ∧
    (whole → ∃ t, Answers (.i2cPowerCap o) q d t ∧ t.plat.i2cResult = reason ∧ t.plat.capBytes = (none, none) ∧
      (reason = 0 → t.rd R.pow_POWER_CAP = v) ∧
      (reason ≠ 0 → t.rd R.pow_POWER_CAP = d.rd R.pow_POWER_CAP ∧ t.rd R.refusal_REASON = reason ∧ t.rd R.refusal_INDEX = 0x1100 ∧
        t.rd R.refusal_SUB = 0x03 ∧ t.rd R.refusal_SOURCE = 1 ∧ t.rd R.refusal_TIME = d1.time ∧ more t d1 R.refusal_COUNT 1))) ∧
  (∀ (d : Dev) (die : Fin 15) (tj : Int),
    let t := d.readTj die tj
    (∀ k < 15, elem 2 (t.rd R.dev_TJ) k = if k = die then (tj % 65536).toNat else elem 2 (d.rd R.dev_TJ) k) ∧
    { t with dict := d.dict, fresh := d.fresh } = d) ∧
  (∀ (q : List Instr) (d : Dev) (o : OpTherm), d.thermalStop = false →
    let d2 := (d.at o.t).readTj o.die o.tj
    let rises := 5 ≤ d.plat.step ∧ d.plat.therm = false ∧ 1150 ≤ d2.tjMax
    let stops := 5 ≤ d.plat.step ∧ 1250 ≤ d2.tjMax
    (¬ rises → Answers (.thermAssert o) q d d2) ∧
    (rises → ∃ t, Answers (.thermAssert o) q d t ∧ t.plat.therm = true ∧ t.thermL = true ∧ more t d2 R.dev_THERM_EVENTS 1 ∧
      t.alerts.head? = some { time := d2.time, index := 0x1000, sub := 0x0C, pav := 0xFF, detail := (d2.tjMax % 65536).toNat } ∧
      t.alertOpen = true ∧ t.cores = d.cores ∧ t.mem = d.mem) ∧
    (1100 < d2.tjMax → Answers (.thermRelease o) q d d2) ∧
    (d2.tjMax ≤ 1100 → ∃ t, Answers (.thermRelease o) q d t ∧ t.plat.therm = false ∧ { t with plat := d2.plat } = d2) ∧
    (¬ stops → Answers (.thermalStop o) q d d2) ∧
    (stops → ∃ t, Answers (.thermalStop o) q d t ∧ t.thermalStop = true ∧ t.readyL = false ∧ t.faultL = true ∧ t.thermL = true ∧
      t.hearth.thermal = true ∧ { t.hearth with thermal := d.hearth.thermal } = d.hearth ∧
      { t with thermalStop := d2.thermalStop, hearth := d2.hearth } = d2)) ∧
  (∀ (q : List Instr) (d : Dev) (o : OpTap),
    let i := o.instr
    let pins := i = .extest ∨ i = .clamp ∨ i = .highz ∨ i = .extestPulse ∨ i = .extestTrain
    (d.plat.vin = false → Answers (.tapInstruction o) q d d) ∧
    (d.plat.vin = true → ∃ t, Answers (.tapInstruction o) q d t ∧ { t with plat := d.plat } = d ∧
      (pins → t.plat.tap = if d.plat.resetLow then i else .bypass) ∧
      (i = .bypass ∨ i = .sample ∨ i = .preload → t.plat.tap = i) ∧ (i = .other → t.plat.tap = .bypass)))

/-- From the rise of VIN to READY_L. `ends n` says that step `n` of Table 21.4 has ended at `us`. -/
def Obligations.StartUp : Prop :=
  let stepEnd (d : Dev) (n : Nat) : Nat := elem 4 (d.rd R.pow_STARTUP_STEPS) (n - 1)
  let ends (t d : Dev) (n us : Nat) : Prop := t.plat.step = n ∧ stepEnd t n = us % 2 ^ 32 ∧
    (∀ k, 1 ≤ k → k ≤ 12 → k ≠ n → stepEnd t k = stepEnd d k) ∧
    (5 ≤ n → t.time = max d.time (d.plat.stepAt + (us - stepEnd d (n - 1)) * 1000) ∧ t.plat.stepAt = t.time)
  let more (t d : Dev) (e : Entry) (n : Nat) : Prop :=
    t.rd e = if n = 0 then d.rd e else min (d.rd e + n) (256 ^ e.size - 1)
  let sparing (k : Nat) : Prop := ∃ c < 16, k / 64 = R.clu_SPARE.key c 0 / 64 ∨ k / 64 = R.clu_RETIRED.key c 0 / 64
  let store (s : WinStore) (a : Nat) : Prop := s.unit = a / 16 ∧ s.mask.getLsbD (a % 16) = true
  let cold (t d : Dev) : Prop := (Table.Wf {} d.cores → ∀ c, t.core c = if (d.core c).inSpareSlot then { inSpareSlot := true } else {}) ∧ t.chan = {} ∧ t.net = {} ∧ t.pavs = [] ∧ t.staged = [] ∧ t.alerts = [] ∧ t.alertOpen = false ∧
    t.thermalStop = false ∧ t.mem.main = {} ∧ t.mem.spad = {} ∧ t.mem.bits = [] ∧ t.mem.winPend = [] ∧ t.mem.win.poison = d.mem.win.poison ∧ t.mem.segs = d.mem.segs ∧
    t.eng = { keys := d.eng.keys, high := d.eng.high } ∧ t.plat.step = 0 ∧ t.plat.coast = false ∧ t.plat.therm = false ∧
    (∀ e i p, e.key i p ≠ R.pow_STRAPS.key 0 0 → e.key i p ≠ R.dev_UCODE_STAGED.key 0 0 → e.key i p ≠ R.dev_UCODE_RELEASE.key 0 0 →
      (¬ sparing (e.key i p) → t.rd e i p = e.default i) ∧ (sparing (e.key i p) → t.rd e i p = d.rd e i p)) ∧
    (Table.Wf {} d.hearth.rings → ∀ r ≤ 64,
      let x := d.hring r
      let mram (y : Ring) : Ring := { ctl0 := y.ctl0, ctl1 := y.ctl1, lines := y.lines, heads := y.heads, parity := y.parity, lost := y.lost }
      ((∀ y ∈ x.recs, y.complete = true) → t.hring r = mram x) ∧
      (∀ y, x.recs.filter (fun y => !y.complete) = [y] → ∃ f, t.hring r = mram (x.putRecord r (d.ringSize r) y f))) ∧
    { t.hearth with rings := d.hearth.rings, saved := d.hearth.saved } = d.hearth ∧
    t.hearth.saved = (if d.plat.step < 9 then d.hearth.saved else d.dict.filter fun e => d.survives e.1) ∧
    (∀ a, Table.get 0 t.mem.win.bytes a = Table.get 0 t.mem.winDurable a) ∧
    (∀ a, Table.get 0 t.mem.winDurable a = Table.get 0 d.mem.winDurable a ∨
      ∃ s ∈ d.mem.winPend, store s a ∧ Table.get 0 t.mem.winDurable a = s.data.extractLsb' (8 * (a % 16)) 8) ∧
    (∀ l s m a, d.mem.winPend = l ++ s :: m → s.covered = true → store s a → (∀ y ∈ m, ¬ store y a) →
      Table.get 0 t.mem.winDurable a = s.data.extractLsb' (8 * (a % 16)) 8)
  (∀ (d : Dev), (∀ p < 64, (∀ e ∈ R.block2000, e.sub ≤ 0x12 → d.survives (e.key p 0) = (d.pavExists p || e.sub == 0x11))) ∧
    (∀ n < 4096, d.survives (R.ep_LAST_OPNUM.key n 0) = true)) ∧
  (∀ (q : List Instr) (d : Dev) (o : OpT0),
    let held := d.thermalStop = true ∨ d.plat.por = false
    (∃ t, Answers (.porRearm o) q d t ∧ cold t d ∧ t.plat.vin = false ∧ t.plat.por = false ∧ t.plat.xtal = false ∧ t.plat.refA = false ∧
      t.plat.refB = false ∧ t.plat.resetLow = d.plat.resetLow) ∧
    (d.plat.vin = true ∨ d.thermalStop = true → Answers (.vinRise o) q d d) ∧
    (d.plat.vin = false → d.thermalStop = false → ∃ t, Answers (.vinRise o) q d t ∧ t.plat.vin = true ∧ ends t d 1 0 ∧ { t with plat := d.plat, dict := d.dict } = d) ∧
    (held → Answers (.resetLAssert o) q d { d with plat := { d.plat with resetLow := true } }) ∧
    (¬ held → ∃ t, Answers (.resetLAssert o) q d t ∧ cold t d ∧ t.plat.resetLow = true ∧ t.plat.vin = d.plat.vin ∧ t.plat.por = true ∧
      t.plat.xtalKept = d.plat.xtal ∧ t.rd R.pow_STRAPS = d.rd R.pow_STRAPS) ∧
    (held ∨ d.plat.step ≠ 0 → Answers (.resetLRelease o) q d { d with plat := { d.plat with resetLow := false, tap := .bypass } }) ∧
    (¬ held → d.plat.step = 0 → ∃ t, Answers (.resetLRelease o) q d t ∧ t.rd R.pow_RESET_CAUSE = 2 ∧ t.plat.resetLow = false ∧ t.plat.tap = .bypass ∧
      (d.plat.xtalKept = false → ends t d 2 0) ∧ (d.plat.xtalKept = true → t.plat.step = 3 ∧ stepEnd t 2 = 0 ∧ stepEnd t 3 = 0) ∧
      { t with plat := d.plat, dict := d.dict } = d)) ∧
  (∀ (q : List Instr) (d : Dev) (o : OpStraps),
    let may := d.thermalStop = false ∧ d.plat.vin = true ∧ d.plat.por = false ∧ d.plat.resetLow = false ∧ d.plat.step = 1
    (¬ may → Answers (.porRelease o) q d d) ∧
    (may → ∃ t, Answers (.porRelease o) q d t ∧ t.plat.por = true ∧ ends t d 2 o.t ∧
      t.rd R.pow_STRAPS = o.oscDly + 8 * o.i2cAddr + 32 * o.bootSel ∧ t.rd R.pow_RESET_CAUSE = (if d.hearth.thermal then 3 else 1) ∧
      t.hearth.thermal = false ∧ { t.hearth with thermal := d.hearth.thermal } = d.hearth ∧
      { t with plat := d.plat, dict := d.dict, hearth := d.hearth } = d)) ∧
  (∀ (q : List Instr) (d : Dev) (o : OpXtal), d.thermalStop = false →
    let delay := (([500, 1000, 2000, 5000, 10000, 20000, 50000, 100000] : List Nat)[d.rd R.pow_STRAPS % 8]?).getD 0
    let ended := d.plat.step = 2 ∧ stepEnd d 2 + delay ≤ o.t
    let again := d.plat.step = 3 ∧ d.plat.xtalWait = true ∧ d.plat.xtalLook + delay ≤ o.t
    (¬ ended → Answers (.oscDelayEnd o) q d d) ∧
    (ended → ∃ t, Answers (.oscDelayEnd o) q d t ∧ ends t d 3 o.t ∧ t.plat.xtal = o.present ∧ t.plat.xtalWait = !o.present ∧
      t.plat.xtalLook = o.t ∧ { t with plat := d.plat, dict := d.dict } = d) ∧
    (¬ again → Answers (.xtalRecheck o) q d d) ∧
    (again → Answers (.xtalRecheck o) q d { d with plat := { d.plat with xtal := o.present, xtalWait := !o.present, xtalLook := o.t } })) ∧
  (∀ (q : List Instr) (d : Dev) (o : OpT0), d.thermalStop = false →
    let steady (t : Dev) : Prop := { t with plat := d.plat, dict := d.dict, time := d.time } = d
    let locks := d.plat.step = 3 ∧ d.plat.xtalWait = false ∧ d.plat.xtal = true
    let settled := d.plat.step = 9 ∧ ∀ x ∈ d.chan.ops, x.isOpen = false
    (¬ locks → Answers (.startupClocksLocked o) q d d) ∧
    (locks → ∃ t, Answers (.startupClocksLocked o) q d t ∧ ends t d 4 o.t ∧
      t.time = (if d.hearth.timebase = 0 then 0 else d.hearth.timebase + 1000000) ∧ t.plat.onB = (!d.plat.refA && d.plat.refB) ∧ steady t) ∧
    (d.plat.step ≠ 4 → Answers (.startupRampDone o) q d d) ∧
    (d.plat.step = 4 → ∃ t, Answers (.startupRampDone o) q d t ∧ ends t d 5 o.t ∧ (∀ c < 16, t.vcore c = 700) ∧ steady t) ∧
    (¬ settled → Answers (.inDoubtSettle o) q d d) ∧ (settled → ∃ t, Answers (.inDoubtSettle o) q d t ∧ ends t d 10 o.t ∧ steady t) ∧
    (d.plat.step ≠ 10 → Answers (.replayPresent o) q d d) ∧
    (d.plat.step = 10 → (∀ x ∈ d.chan.ops, x.st = .done → x.posted = true) → ∃ t2, t2.plat.presented = true ∧ ends t2 d 11 o.t ∧
      (∀ r, t2.hring r = if r < 64 then (d.hring r).completeFirst r (d.ringSize r) (d.hring r).recs.length else d.hring r) ∧
      { t2 with plat := d.plat, dict := d.dict, time := d.time, hearth := { t2.hearth with rings := d.hearth.rings } } = d ∧
      Answers (.replayPresent o) q d
        ((d.net.sessions.flatMap fun x => x.reqs.map fun r => x.placing r 1).foldl (fun d p => d.enqueueIn p) t2)) ∧
    (d.plat.step ≠ 11 → Answers (.ready o) q d d) ∧
    (d.plat.step = 11 → ∃ t, Answers (.ready o) q d t ∧ ends t d 12 o.t ∧ t.readyL = true ∧ t.plat.readyAt = t.time ∧
      t.rd R.dev_STARTUPS = min (d.rd R.dev_STARTUPS + 1) (2 ^ 32 - 1) ∧ t.rd R.hearth_REPLAY_TIME = stepEnd t 12 - stepEnd d 8 ∧
      (∀ k < 8, elem 1 (t.rd R.mem_SCRUB_CURRENT) k = if fitted k then d.rd R.mem_SCRUB_PERIOD % 256 else 0) ∧ steady t)) ∧
  (∀ (q : List Instr) (d : Dev) (o : OpBoot), d.thermalStop = false →
    let at5 := d.plat.step = 5 ∧ d.plat.bootFailed = false
    (¬ at5 → Answers (.groundskeeperBoot o) q d d) ∧
    (at5 → o.copyA = true ∨ o.copyB = true → ∃ t, Answers (.groundskeeperBoot o) q d t ∧ ends t d 6 o.t ∧ t.plat.window.length = 64 ∧
      { t with plat := d.plat, dict := d.dict, time := d.time } = d) ∧
    (at5 → o.copyA = false → o.copyB = false → ∃ t, Answers (.groundskeeperBoot o) q d t ∧ t.plat.step = 5 ∧ t.plat.bootFailed = true ∧
      t.faultL = true ∧ { t with plat := d.plat } = d)) ∧
  (∀ (q : List Instr) (d : Dev) (o : OpUcode), d.thermalStop = false →
    let staged := d.hearth.ucodeStaged
    let accepted := staged ≠ [] ∧ ucodeImageOk staged = true ∧ d.rd R.dev_UCODE_RELEASE ≤ ucodeRelease staged
    let failed (k slot : Nat) : Prop := ∃ f ∈ o.failed, f.val = 17 * k + slot
    (d.plat.step ≠ 6 → Answers (.microcodeLoad o) q d d) ∧
    (d.plat.step = 6 → ∃ t, Answers (.microcodeLoad o) q d t ∧ ends t d 7 o.t ∧ t.hearth.ucodeStaged = [] ∧
      (accepted → t.hearth.ucodeRunning = staged ∧ t.rd R.dev_UCODE_RELEASE = ucodeRelease staged) ∧
      (¬ accepted → t.hearth.ucodeRunning = d.hearth.ucodeRunning ∧ t.rd R.dev_UCODE_RELEASE = d.rd R.dev_UCODE_RELEASE) ∧
      (∀ k < 16, ∀ slot < 16,
        let c := 16 * k + slot
        let fails (j : Nat) : Prop :=
          let at_ := if (d.core (16 * k + j)).inSpareSlot then 16 else j
          failed k at_ ∨ bitOf (d.rd R.clu_RETIRED k) at_ = true
        let spare := d.rd R.clu_SPARE k = 0xFF ∧ (failed k 16 → bitOf (d.rd R.clu_RETIRED k) 16 = true) ∧ ∀ j < slot, ¬ fails j
        (¬ fails slot → t.core c = d.core c) ∧ (fails slot → spare → t.core c = { d.core c with inSpareSlot := true } ∧ t.rd R.clu_SPARE k = slot) ∧
        (fails slot → ¬ spare → t.core c = { d.core c with run := .lost })) ∧
      (∀ k < 16, ∀ slot < 17, bitOf (t.rd R.clu_RETIRED k) slot = true ↔
        bitOf (d.rd R.clu_RETIRED k) slot = true ∨ (failed k slot ∧ (slot = 16 ∨ (d.core (16 * k + slot)).inSpareSlot = false))))) ∧
  (∀ (q : List Instr) (d : Dev) (o : OpQuench), d.thermalStop = false →
    (d.plat.step ≠ 7 → Answers (.memoryQuenchDone o) q d d) ∧
    (d.plat.step = 7 → ∃ t, Answers (.memoryQuenchDone o) q d t ∧ ends t d 8 o.t ∧
      (d.rd R.pow_STRAPS / 32 % 4 = 1 → ∀ k, k ∈ t.plat.badStacks ↔ k < 8 ∧ fitted k = true ∧ ∃ f ∈ o.failed, f.val = k) ∧
      (d.rd R.pow_STRAPS / 32 % 4 ≠ 1 → t.plat.badStacks = d.plat.badStacks) ∧
      { t with plat := d.plat, dict := d.dict, time := d.time } = d)) ∧
  (∀ (q : List Instr) (d : Dev) (o : OpScrub), d.thermalStop = false →
    (d.plat.step ≠ 8 → Answers (.hearthReplayScan o) q d d) ∧
    (d.plat.step = 8 → ∃ t, Answers (.hearthReplayScan o) q d t ∧ t.plat.step = 9 ∧ t.plat.scanAt = t.time ∧ (d.hearth.stagedPort = none → t.hearth.stagedPort = none) ∧
      t.hearth.saved = [] ∧ t.rd R.pav_STATE = 2 ∧ (d.net.sessions = [] → ∀ s ∈ t.net.sessions, s.st = .suspended ∧ s.resumed = true) ∧
      (d.refPresent = false → t.rd R.port_LINK_STATUS 0 = 0 ∧ t.rd R.port_LINK_STATUS 1 = 0))) ∧
  (∀ (x : Ring) (free fuel pos : Nat), pos + 48 ≤ x.ctl.size →
    let o := x.scan free (fuel + 1) pos
    let next (n : Nat) : Scan := x.scan free fuel (pos + n)
    (x.lostAt pos 16 = false → x.header pos = none → o.recs = [] ∧ o.lost = [] ∧ o.stop = pos) ∧
    (∀ type len, x.lostAt pos 16 = false → x.header pos = some (type, len) →
      (x.lostAt pos len = false → x.recordAt pos type len = none → o.recs = [] ∧ o.lost = [] ∧ o.stop = pos) ∧
      (∀ y, x.lostAt pos len = false → x.recordAt pos type len = some y → y.complete = true ∧ y.off = x.offAt pos ∧ y.lap = x.lapAt pos ∧
        RecBody.ofBytes type ((x.read pos len).drop 16) = some y.body ∧
        o.recs = y :: (next len).recs ∧ o.lost = (next len).lost ∧ o.stop = (next len).stop) ∧
      (x.lostAt pos len = true → o.lost = type :: (next len).lost ∧ o.stop = (next len).stop ∧
        (type ≠ 2 → type ≠ 3 → o.recs = (next len).recs ∧ o.again = (next len).again) ∧
        (type = 2 ∨ type = 3 → x.lostAt (pos + 16) 16 = false →
          let opnum := fieldLE (x.read pos 64) 16 8
          let ep := fieldLE (x.read pos 64) 24 2
          o.again = (ep, opnum) :: (next len).again ∧ ∃ y path, o.recs = y :: (next len).recs ∧ y.body = .opst opnum ep path false 0 0 ∧ y.complete = true)))) ∧
  (∀ (d : Dev) (r : Nat),
    let x := d.hring r
    let t := d.scanRing r
    let o := x.scan d.fresh (x.ctl.size / 48 + 1) 0
    (x.ctl.seq = 0 → t = d) ∧
    (x.ctl.seq ≠ 0 → (t.hring r).recs = o.kept ∧ (t.hring r).past = 0 ∧ (t.hring r).waiting = [] ∧ (t.hring r).ctl = x.ctl ∧
      (t.hring r).lines = x.lines ∧ (∀ k, k ≠ r → t.hring k = d.hring k) ∧ t.mem = d.mem ∧ t.net = d.net ∧ t.cores = d.cores ∧
      more t d R.hearth_LOST_RECORDS o.lost.length ∧ more t d R.hearth_DISCARDED (x.discards (x.ctl.size / 48 + 1) o.stop))) ∧
  (∀ (d : Dev) (p : Nat) (l later : List RecBody) (opnum ep path status residual done source unitStatus cflags : Nat) (failedCmd : Nat) (auth : Bool)
    (a b : Nat),
    let settledBy : Prop := ∃ x ∈ l, ∃ s r t v u f pt c, x = RecBody.opdn opnum ep s r t v u f pt c
    let taken : Prop := ∃ x ∈ later, ∃ f n, x = RecBody.markConsumed ep f n ∧ f ≤ opnum ∧ opnum ≤ n
    let x := d.replayedOp p l (.opst opnum ep path auth a b) later
    let y := d.replayedOp p l (.opdn opnum ep status residual done source failedCmd unitStatus path cflags) later
    (settledBy → x = none) ∧
    (¬ settledBy → ∃ z, x = some z ∧ z.pav = p ∧ z.ep = ep ∧ z.opnum = opnum ∧ z.path = path ∧ z.st = .querying ∧
      z.due = d.time + d.epTimeout ep) ∧
    (taken → y = none) ∧
    (¬ taken → ∃ z, y = some z ∧ z.pav = p ∧ z.ep = ep ∧ z.opnum = opnum ∧ z.st = .done ∧ z.status = status ∧
      z.residual = residual ∧ z.failedCmd = failedCmd ∧ z.doneAt = done ∧ z.posted = false))

/-- No command but the fall of VIN ends a thermal stop, and none has an effect meanwhile. -/
def Obligations.ThermalStop : Prop :=
  (∀ (s s' : State), s.dev.ThermallyStopped → (∀ o rest, s.pending ≠ .porRearm o :: rest) → step s = .next s' →
    let d := s.dev
    let t := s'.dev
    t.ThermallyStopped ∧ { t with plat := d.plat } = d ∧
    { t.plat with xtal := d.plat.xtal, refA := d.plat.refA, refB := d.plat.refB, resetLow := d.plat.resetLow, tap := d.plat.tap } = d.plat ∧
    t.readyL = false ∧ t.alertL = false ∧ t.faultL = true ∧ t.thermL = true) ∧
  (∀ (s s' : State) (o : OpT0) (rest : List Instr), s.pending = .porRearm o :: rest → step s = .next s' → ¬ s'.dev.ThermallyStopped)

/-- No field of an encoding is dropped, and reserved encodings give no instruction. -/
def Obligations.DecodeEncode : Prop :=
  (∀ (i : Instr) (w : BitVec 32), i.wf = true → encodeWord i = some w →
    ∃ c, match i with
      | .gcmDec o | .gmacGen o | .gmacVer o | .xtsEnc o | .xtsDec o | .keyload o | .keyclear o => decodeWord c w = some (.gcmEnc o)
      | .decompress o | .stream o => decodeWord c w = some (.compress o)
      | .movb o => decodeWord c w = some (.movb { o with stop := none })
      | .crcm o => decodeWord c w = some (.crcm { o with stop := none })
      | _ => decodeWord c w = some i) ∧
  (∀ (c : Fin 256) (w : BitVec 32) (i : Instr), decodeWord c w = some i →
    i.wf = true ∧ ∃ w', encodeWord i = some w' ∧ decodeWord c w' = some i) ∧
  (∀ (c : Fin 256) (w : BitVec 32), (w >>> 26).toNat ∈ ([0x00, 0x0E, 0x0F, 0x1C, 0x1D, 0x1E, 0x1F, 0x35, 0x36, 0x37, 0x3A, 0x3B, 0x3C, 0x3D, 0x3F] : List Nat) →
    decodeWord c w = none)

/-- The canonical form of a table of cells is the model’s own. -/
def Obligations.CanonicalMemory : Prop :=
  ∀ (s s' : State), Memory.wf s.dev.mem → step s = .next s' → Memory.wf s'.dev.mem

/-- State.reset. -/
def Obligations.ResetState : Prop :=
  let d := State.reset.dev
  State.reset.pending = [] ∧ Memory.wf d.mem ∧ (∀ c, (d.core c).run = .free ∧ (d.core c).arch = {}) ∧ d.plat.step = 0 ∧ d.plat.vin = false ∧
  (∀ e i p, d.rd e i p = e.default i ∧ d.rdStaged e i p = none) ∧ (∀ p a, d.pbit p a = false) ∧ (∀ r, d.hring r = {}) ∧
  d.net.sessions = [] ∧ d.chan.ops = [] ∧ d.readyL = false ∧ d.alertL = false ∧ d.faultL = false ∧ d.thermL = false
end

