-- ==== Sys2Proof/Laws/Table.lean ====
section
/-! SUPPORT. Laws/Table.lean: reading after writing a table, and that every table operation keeps the canonical form. -/

namespace Sys2Proof.Machine

variable {α : Type}

@[simp] theorem Table.get_nil (d : α) (k : Nat) : Table.get d [] k = d := rfl

theorem Table.get_of_not_mem (d : α) (t : Table α) (k : Nat) (h : ∀ e ∈ t, e.1 ≠ k) : Table.get d t k = d := by
  induction t with
  | nil => rfl
  | cons e t ih =>
    have he : e.1 ≠ k := h e (List.mem_cons_self ..)
    simp only [Table.get, he, if_false]
    exact ih fun x hx => h x (List.mem_cons_of_mem _ hx)

theorem Table.mem_erase {t : Table α} {k : Nat} {e : Nat × α} : e ∈ Table.erase t k ↔ e ∈ t ∧ e.1 ≠ k := by
  simp [Table.erase]

theorem Table.get_erase_self (d : α) (t : Table α) (k : Nat) : Table.get d (Table.erase t k) k = d :=
  Table.get_of_not_mem d _ k fun _ he => (Table.mem_erase.mp he).2

theorem Table.get_erase_ne (d : α) (t : Table α) {j k : Nat} (h : j ≠ k) :
    Table.get d (Table.erase t k) j = Table.get d t j := by
  induction t with
  | nil => rfl
  | cons e t ih =>
    by_cases hk : e.1 = k
    · have hj : e.1 ≠ j := fun hj => h (hj.symm.trans hk)
      have he : Table.erase (e :: t) k = Table.erase t k := by simp [Table.erase, hk]
      simp [he, ih, Table.get, hj]
    · have he : Table.erase (e :: t) k = e :: Table.erase t k := by simp [Table.erase, hk]
      simp only [he, Table.get, ih]

theorem Table.get_insert_self (d : α) (t : Table α) (k : Nat) (v : α) (h : ∀ e ∈ t, e.1 ≠ k) :
    Table.get d (Table.insert k v t) k = v := by
  induction t with
  | nil => simp [Table.insert, Table.get]
  | cons e t ih =>
    have he : e.1 ≠ k := h e (List.mem_cons_self ..)
    unfold Table.insert
    split
    · simp [Table.get]
    · simp only [Table.get, he, if_false]
      exact ih fun x hx => h x (List.mem_cons_of_mem _ hx)

theorem Table.get_insert_ne (d : α) (t : Table α) {j k : Nat} (v : α) (h : j ≠ k) :
    Table.get d (Table.insert k v t) j = Table.get d t j := by
  induction t with
  | nil => simp [Table.insert, Table.get, h.symm]
  | cons e t ih =>
    unfold Table.insert
    split
    · simp [Table.get, h.symm]
    · simp only [Table.get, ih]

/-- A read after a write to the same key gives the value written. -/
@[simp] theorem Table.get_set_self [DecidableEq α] (d : α) (t : Table α) (k : Nat) (v : α) :
    Table.get d (Table.set d t k v) k = v := by
  unfold Table.set
  split
  · rename_i h; rw [h]; exact Table.get_erase_self d t k
  · exact Table.get_insert_self d _ k v fun _ he => (Table.mem_erase.mp he).2

/-- A write leaves every other key alone. -/
theorem Table.get_set_ne [DecidableEq α] (d : α) (t : Table α) {j k : Nat} (v : α) (h : j ≠ k) :
    Table.get d (Table.set d t k v) j = Table.get d t j := by
  unfold Table.set
  split
  · exact Table.get_erase_ne d t h
  · rw [Table.get_insert_ne d _ v h, Table.get_erase_ne d t h]

/-- Reading any key of a written table. -/
theorem Table.get_set [DecidableEq α] (d : α) (t : Table α) (j k : Nat) (v : α) :
    Table.get d (Table.set d t k v) j = if j = k then v else Table.get d t j := by
  by_cases h : j = k
  · subst h; simp
  · simp [h, Table.get_set_ne d t v h]

/-- A sublist of a canonical table is canonical. -/
theorem Table.Wf.filter {d : α} {t : Table α} (h : Table.Wf d t) (p : Nat × α → Bool) : Table.Wf d (t.filter p) :=
  ⟨h.1.filter p, fun e he => h.2 e (List.mem_filter.mp he).1⟩

theorem Table.Wf.erase {d : α} {t : Table α} (h : Table.Wf d t) (k : Nat) : Table.Wf d (Table.erase t k) :=
  Table.Wf.filter h _

theorem Table.mem_insert {k : Nat} {v : α} {t : Table α} {e : Nat × α} :
    e ∈ Table.insert k v t ↔ e = (k, v) ∨ e ∈ t := by
  induction t with
  | nil => simp [Table.insert]
  | cons x t ih =>
    unfold Table.insert
    split
    · simp
    · simp only [List.mem_cons, ih]; tauto

theorem Table.Wf.insert {d : α} {t : Table α} (h : Table.Wf d t) {k : Nat} {v : α} (hv : v ≠ d)
    (hk : ∀ e ∈ t, e.1 ≠ k) : Table.Wf d (Table.insert k v t) := by
  refine ⟨?_, fun e he => ?_⟩
  · induction t with
    | nil => simp [Table.insert]
    | cons x t ih =>
      have hx := List.pairwise_cons.mp h.1
      unfold Table.insert
      split
      · rename_i hlt
        refine List.pairwise_cons.mpr ⟨fun e he => ?_, h.1⟩
        rcases List.mem_cons.mp he with rfl | he
        · exact hlt
        · exact lt_trans hlt (hx.1 e he)
      · rename_i hle
        have hne : x.1 ≠ k := hk x (List.mem_cons_self ..)
        refine List.pairwise_cons.mpr ⟨fun e he => ?_,
          ih ⟨hx.2, fun e he => h.2 e (List.mem_cons_of_mem _ he)⟩ fun e he => hk e (List.mem_cons_of_mem _ he)⟩
        rcases Table.mem_insert.mp he with rfl | he
        · show x.1 < k
          omega
        · exact hx.1 e he
  · rcases Table.mem_insert.mp he with rfl | he
    · exact hv
    · exact h.2 e he

/-- A write keeps the canonical form. -/
theorem Table.Wf.set [DecidableEq α] {d : α} {t : Table α} (h : Table.Wf d t) (k : Nat) (v : α) :
    Table.Wf d (Table.set d t k v) := by
  unfold Table.set
  split
  · exact h.erase k
  · rename_i hv
    exact Table.Wf.insert (h.erase k) hv fun _ he => (Table.mem_erase.mp he).2

end Sys2Proof.Machine
end

