-- ==== Sys2Proof/Laws/State.lean ====
section
/-! SUPPORT. Laws/State.lean: what each named update of the device leaves as it was, field by field, and what a read finds after it. -/

namespace Sys2Proof.Machine

/-! ## `Dev.at` -/

@[simp] theorem Dev.at_dict (d : Dev) (t : Nat) : (d.at t).dict = d.dict := rfl
@[simp] theorem Dev.at_staged (d : Dev) (t : Nat) : (d.at t).staged = d.staged := rfl
@[simp] theorem Dev.at_fresh (d : Dev) (t : Nat) : (d.at t).fresh = d.fresh := rfl
@[simp] theorem Dev.at_cores (d : Dev) (t : Nat) : (d.at t).cores = d.cores := rfl
@[simp] theorem Dev.at_thermalStop (d : Dev) (t : Nat) : (d.at t).thermalStop = d.thermalStop := rfl
@[simp] theorem Dev.at_mem (d : Dev) (t : Nat) : (d.at t).mem = d.mem := rfl
@[simp] theorem Dev.at_eng (d : Dev) (t : Nat) : (d.at t).eng = d.eng := rfl
@[simp] theorem Dev.at_chan (d : Dev) (t : Nat) : (d.at t).chan = d.chan := rfl
@[simp] theorem Dev.at_hearth (d : Dev) (t : Nat) : (d.at t).hearth = d.hearth := rfl
@[simp] theorem Dev.at_plat (d : Dev) (t : Nat) : (d.at t).plat = d.plat := rfl
@[simp] theorem Dev.at_net (d : Dev) (t : Nat) : (d.at t).net = d.net := rfl
@[simp] theorem Dev.at_pavs (d : Dev) (t : Nat) : (d.at t).pavs = d.pavs := rfl
@[simp] theorem Dev.at_removing (d : Dev) (t : Nat) : (d.at t).removing = d.removing := rfl
@[simp] theorem Dev.at_alerts (d : Dev) (t : Nat) : (d.at t).alerts = d.alerts := rfl
@[simp] theorem Dev.at_alertCount (d : Dev) (t : Nat) : (d.at t).alertCount = d.alertCount := rfl
@[simp] theorem Dev.at_alertOpen (d : Dev) (t : Nat) : (d.at t).alertOpen = d.alertOpen := rfl

/-! ## `Dev.wr` -/

@[simp] theorem Dev.wr_time (d : Dev) (e : Entry) (v i p : Nat) : (d.wr e v i p).time = d.time := rfl
@[simp] theorem Dev.wr_staged (d : Dev) (e : Entry) (v i p : Nat) : (d.wr e v i p).staged = d.staged := rfl
@[simp] theorem Dev.wr_fresh (d : Dev) (e : Entry) (v i p : Nat) : (d.wr e v i p).fresh = d.fresh := rfl
@[simp] theorem Dev.wr_cores (d : Dev) (e : Entry) (v i p : Nat) : (d.wr e v i p).cores = d.cores := rfl
@[simp] theorem Dev.wr_thermalStop (d : Dev) (e : Entry) (v i p : Nat) : (d.wr e v i p).thermalStop = d.thermalStop := rfl
@[simp] theorem Dev.wr_mem (d : Dev) (e : Entry) (v i p : Nat) : (d.wr e v i p).mem = d.mem := rfl
@[simp] theorem Dev.wr_eng (d : Dev) (e : Entry) (v i p : Nat) : (d.wr e v i p).eng = d.eng := rfl
@[simp] theorem Dev.wr_chan (d : Dev) (e : Entry) (v i p : Nat) : (d.wr e v i p).chan = d.chan := rfl
@[simp] theorem Dev.wr_hearth (d : Dev) (e : Entry) (v i p : Nat) : (d.wr e v i p).hearth = d.hearth := rfl
@[simp] theorem Dev.wr_plat (d : Dev) (e : Entry) (v i p : Nat) : (d.wr e v i p).plat = d.plat := rfl
@[simp] theorem Dev.wr_net (d : Dev) (e : Entry) (v i p : Nat) : (d.wr e v i p).net = d.net := rfl
@[simp] theorem Dev.wr_pavs (d : Dev) (e : Entry) (v i p : Nat) : (d.wr e v i p).pavs = d.pavs := rfl
@[simp] theorem Dev.wr_removing (d : Dev) (e : Entry) (v i p : Nat) : (d.wr e v i p).removing = d.removing := rfl
@[simp] theorem Dev.wr_alerts (d : Dev) (e : Entry) (v i p : Nat) : (d.wr e v i p).alerts = d.alerts := rfl
@[simp] theorem Dev.wr_alertCount (d : Dev) (e : Entry) (v i p : Nat) : (d.wr e v i p).alertCount = d.alertCount := rfl
@[simp] theorem Dev.wr_alertOpen (d : Dev) (e : Entry) (v i p : Nat) : (d.wr e v i p).alertOpen = d.alertOpen := rfl

/-! ## `Dev.wrStaged` -/

@[simp] theorem Dev.wrStaged_time (d : Dev) (e : Entry) (v : Option Nat) (i p : Nat) : (d.wrStaged e v i p).time = d.time := rfl
@[simp] theorem Dev.wrStaged_dict (d : Dev) (e : Entry) (v : Option Nat) (i p : Nat) : (d.wrStaged e v i p).dict = d.dict := rfl
@[simp] theorem Dev.wrStaged_fresh (d : Dev) (e : Entry) (v : Option Nat) (i p : Nat) : (d.wrStaged e v i p).fresh = d.fresh := rfl
@[simp] theorem Dev.wrStaged_cores (d : Dev) (e : Entry) (v : Option Nat) (i p : Nat) : (d.wrStaged e v i p).cores = d.cores := rfl
@[simp] theorem Dev.wrStaged_thermalStop (d : Dev) (e : Entry) (v : Option Nat) (i p : Nat) : (d.wrStaged e v i p).thermalStop = d.thermalStop := rfl
@[simp] theorem Dev.wrStaged_mem (d : Dev) (e : Entry) (v : Option Nat) (i p : Nat) : (d.wrStaged e v i p).mem = d.mem := rfl
@[simp] theorem Dev.wrStaged_eng (d : Dev) (e : Entry) (v : Option Nat) (i p : Nat) : (d.wrStaged e v i p).eng = d.eng := rfl
@[simp] theorem Dev.wrStaged_chan (d : Dev) (e : Entry) (v : Option Nat) (i p : Nat) : (d.wrStaged e v i p).chan = d.chan := rfl
@[simp] theorem Dev.wrStaged_hearth (d : Dev) (e : Entry) (v : Option Nat) (i p : Nat) : (d.wrStaged e v i p).hearth = d.hearth := rfl
@[simp] theorem Dev.wrStaged_plat (d : Dev) (e : Entry) (v : Option Nat) (i p : Nat) : (d.wrStaged e v i p).plat = d.plat := rfl
@[simp] theorem Dev.wrStaged_net (d : Dev) (e : Entry) (v : Option Nat) (i p : Nat) : (d.wrStaged e v i p).net = d.net := rfl
@[simp] theorem Dev.wrStaged_pavs (d : Dev) (e : Entry) (v : Option Nat) (i p : Nat) : (d.wrStaged e v i p).pavs = d.pavs := rfl
@[simp] theorem Dev.wrStaged_removing (d : Dev) (e : Entry) (v : Option Nat) (i p : Nat) : (d.wrStaged e v i p).removing = d.removing := rfl
@[simp] theorem Dev.wrStaged_alerts (d : Dev) (e : Entry) (v : Option Nat) (i p : Nat) : (d.wrStaged e v i p).alerts = d.alerts := rfl
@[simp] theorem Dev.wrStaged_alertCount (d : Dev) (e : Entry) (v : Option Nat) (i p : Nat) : (d.wrStaged e v i p).alertCount = d.alertCount := rfl
@[simp] theorem Dev.wrStaged_alertOpen (d : Dev) (e : Entry) (v : Option Nat) (i p : Nat) : (d.wrStaged e v i p).alertOpen = d.alertOpen := rfl

/-! ## `Dev.bump` -/

@[simp] theorem Dev.bump_time (d : Dev) (e : Entry) (i p n : Nat) : (d.bump e i p n).time = d.time := rfl
@[simp] theorem Dev.bump_staged (d : Dev) (e : Entry) (i p n : Nat) : (d.bump e i p n).staged = d.staged := rfl
@[simp] theorem Dev.bump_fresh (d : Dev) (e : Entry) (i p n : Nat) : (d.bump e i p n).fresh = d.fresh := rfl
@[simp] theorem Dev.bump_cores (d : Dev) (e : Entry) (i p n : Nat) : (d.bump e i p n).cores = d.cores := rfl
@[simp] theorem Dev.bump_thermalStop (d : Dev) (e : Entry) (i p n : Nat) : (d.bump e i p n).thermalStop = d.thermalStop := rfl
@[simp] theorem Dev.bump_mem (d : Dev) (e : Entry) (i p n : Nat) : (d.bump e i p n).mem = d.mem := rfl
@[simp] theorem Dev.bump_eng (d : Dev) (e : Entry) (i p n : Nat) : (d.bump e i p n).eng = d.eng := rfl
@[simp] theorem Dev.bump_chan (d : Dev) (e : Entry) (i p n : Nat) : (d.bump e i p n).chan = d.chan := rfl
@[simp] theorem Dev.bump_hearth (d : Dev) (e : Entry) (i p n : Nat) : (d.bump e i p n).hearth = d.hearth := rfl
@[simp] theorem Dev.bump_plat (d : Dev) (e : Entry) (i p n : Nat) : (d.bump e i p n).plat = d.plat := rfl
@[simp] theorem Dev.bump_net (d : Dev) (e : Entry) (i p n : Nat) : (d.bump e i p n).net = d.net := rfl
@[simp] theorem Dev.bump_pavs (d : Dev) (e : Entry) (i p n : Nat) : (d.bump e i p n).pavs = d.pavs := rfl
@[simp] theorem Dev.bump_removing (d : Dev) (e : Entry) (i p n : Nat) : (d.bump e i p n).removing = d.removing := rfl
@[simp] theorem Dev.bump_alerts (d : Dev) (e : Entry) (i p n : Nat) : (d.bump e i p n).alerts = d.alerts := rfl
@[simp] theorem Dev.bump_alertCount (d : Dev) (e : Entry) (i p n : Nat) : (d.bump e i p n).alertCount = d.alertCount := rfl
@[simp] theorem Dev.bump_alertOpen (d : Dev) (e : Entry) (i p n : Nat) : (d.bump e i p n).alertOpen = d.alertOpen := rfl

/-! ## `Dev.faultCause` -/

@[simp] theorem Dev.faultCause_time (d : Dev) (b : Nat) : (d.faultCause b).time = d.time := rfl
@[simp] theorem Dev.faultCause_staged (d : Dev) (b : Nat) : (d.faultCause b).staged = d.staged := rfl
@[simp] theorem Dev.faultCause_fresh (d : Dev) (b : Nat) : (d.faultCause b).fresh = d.fresh := rfl
@[simp] theorem Dev.faultCause_cores (d : Dev) (b : Nat) : (d.faultCause b).cores = d.cores := rfl
@[simp] theorem Dev.faultCause_thermalStop (d : Dev) (b : Nat) : (d.faultCause b).thermalStop = d.thermalStop := rfl
@[simp] theorem Dev.faultCause_mem (d : Dev) (b : Nat) : (d.faultCause b).mem = d.mem := rfl
@[simp] theorem Dev.faultCause_eng (d : Dev) (b : Nat) : (d.faultCause b).eng = d.eng := rfl
@[simp] theorem Dev.faultCause_chan (d : Dev) (b : Nat) : (d.faultCause b).chan = d.chan := rfl
@[simp] theorem Dev.faultCause_hearth (d : Dev) (b : Nat) : (d.faultCause b).hearth = d.hearth := rfl
@[simp] theorem Dev.faultCause_plat (d : Dev) (b : Nat) : (d.faultCause b).plat = d.plat := rfl
@[simp] theorem Dev.faultCause_net (d : Dev) (b : Nat) : (d.faultCause b).net = d.net := rfl
@[simp] theorem Dev.faultCause_pavs (d : Dev) (b : Nat) : (d.faultCause b).pavs = d.pavs := rfl
@[simp] theorem Dev.faultCause_removing (d : Dev) (b : Nat) : (d.faultCause b).removing = d.removing := rfl
@[simp] theorem Dev.faultCause_alerts (d : Dev) (b : Nat) : (d.faultCause b).alerts = d.alerts := rfl
@[simp] theorem Dev.faultCause_alertCount (d : Dev) (b : Nat) : (d.faultCause b).alertCount = d.alertCount := rfl
@[simp] theorem Dev.faultCause_alertOpen (d : Dev) (b : Nat) : (d.faultCause b).alertOpen = d.alertOpen := rfl

/-! ## `Dev.alert` -/

@[simp] theorem Dev.alert_time (d : Dev) (x y p n : Nat) : (d.alert x y p n).time = d.time := rfl
@[simp] theorem Dev.alert_dict (d : Dev) (x y p n : Nat) : (d.alert x y p n).dict = d.dict := rfl
@[simp] theorem Dev.alert_staged (d : Dev) (x y p n : Nat) : (d.alert x y p n).staged = d.staged := rfl
@[simp] theorem Dev.alert_fresh (d : Dev) (x y p n : Nat) : (d.alert x y p n).fresh = d.fresh := rfl
@[simp] theorem Dev.alert_cores (d : Dev) (x y p n : Nat) : (d.alert x y p n).cores = d.cores := rfl
@[simp] theorem Dev.alert_thermalStop (d : Dev) (x y p n : Nat) : (d.alert x y p n).thermalStop = d.thermalStop := rfl
@[simp] theorem Dev.alert_mem (d : Dev) (x y p n : Nat) : (d.alert x y p n).mem = d.mem := rfl
@[simp] theorem Dev.alert_eng (d : Dev) (x y p n : Nat) : (d.alert x y p n).eng = d.eng := rfl
@[simp] theorem Dev.alert_chan (d : Dev) (x y p n : Nat) : (d.alert x y p n).chan = d.chan := rfl
@[simp] theorem Dev.alert_hearth (d : Dev) (x y p n : Nat) : (d.alert x y p n).hearth = d.hearth := rfl
@[simp] theorem Dev.alert_plat (d : Dev) (x y p n : Nat) : (d.alert x y p n).plat = d.plat := rfl
@[simp] theorem Dev.alert_net (d : Dev) (x y p n : Nat) : (d.alert x y p n).net = d.net := rfl
@[simp] theorem Dev.alert_pavs (d : Dev) (x y p n : Nat) : (d.alert x y p n).pavs = d.pavs := rfl
@[simp] theorem Dev.alert_removing (d : Dev) (x y p n : Nat) : (d.alert x y p n).removing = d.removing := rfl

/-! ## `Dev.setPbit` -/

@[simp] theorem Dev.setPbit_time (d : Dev) (p a : Nat) (v : Bool) : (d.setPbit p a v).time = d.time := rfl
@[simp] theorem Dev.setPbit_dict (d : Dev) (p a : Nat) (v : Bool) : (d.setPbit p a v).dict = d.dict := rfl
@[simp] theorem Dev.setPbit_staged (d : Dev) (p a : Nat) (v : Bool) : (d.setPbit p a v).staged = d.staged := rfl
@[simp] theorem Dev.setPbit_fresh (d : Dev) (p a : Nat) (v : Bool) : (d.setPbit p a v).fresh = d.fresh := rfl
@[simp] theorem Dev.setPbit_cores (d : Dev) (p a : Nat) (v : Bool) : (d.setPbit p a v).cores = d.cores := rfl
@[simp] theorem Dev.setPbit_thermalStop (d : Dev) (p a : Nat) (v : Bool) : (d.setPbit p a v).thermalStop = d.thermalStop := rfl
@[simp] theorem Dev.setPbit_eng (d : Dev) (p a : Nat) (v : Bool) : (d.setPbit p a v).eng = d.eng := rfl
@[simp] theorem Dev.setPbit_chan (d : Dev) (p a : Nat) (v : Bool) : (d.setPbit p a v).chan = d.chan := rfl
@[simp] theorem Dev.setPbit_hearth (d : Dev) (p a : Nat) (v : Bool) : (d.setPbit p a v).hearth = d.hearth := rfl
@[simp] theorem Dev.setPbit_plat (d : Dev) (p a : Nat) (v : Bool) : (d.setPbit p a v).plat = d.plat := rfl
@[simp] theorem Dev.setPbit_net (d : Dev) (p a : Nat) (v : Bool) : (d.setPbit p a v).net = d.net := rfl
@[simp] theorem Dev.setPbit_pavs (d : Dev) (p a : Nat) (v : Bool) : (d.setPbit p a v).pavs = d.pavs := rfl
@[simp] theorem Dev.setPbit_removing (d : Dev) (p a : Nat) (v : Bool) : (d.setPbit p a v).removing = d.removing := rfl
@[simp] theorem Dev.setPbit_alerts (d : Dev) (p a : Nat) (v : Bool) : (d.setPbit p a v).alerts = d.alerts := rfl
@[simp] theorem Dev.setPbit_alertCount (d : Dev) (p a : Nat) (v : Bool) : (d.setPbit p a v).alertCount = d.alertCount := rfl
@[simp] theorem Dev.setPbit_alertOpen (d : Dev) (p a : Nat) (v : Bool) : (d.setPbit p a v).alertOpen = d.alertOpen := rfl

/-! ## `Dev.ring` -/

@[simp] theorem Dev.ring_time (d : Dev) (p a : Nat) : (d.ring p a).time = d.time := rfl
@[simp] theorem Dev.ring_dict (d : Dev) (p a : Nat) : (d.ring p a).dict = d.dict := rfl
@[simp] theorem Dev.ring_staged (d : Dev) (p a : Nat) : (d.ring p a).staged = d.staged := rfl
@[simp] theorem Dev.ring_fresh (d : Dev) (p a : Nat) : (d.ring p a).fresh = d.fresh := rfl
@[simp] theorem Dev.ring_cores (d : Dev) (p a : Nat) : (d.ring p a).cores = d.cores := rfl
@[simp] theorem Dev.ring_thermalStop (d : Dev) (p a : Nat) : (d.ring p a).thermalStop = d.thermalStop := rfl
@[simp] theorem Dev.ring_eng (d : Dev) (p a : Nat) : (d.ring p a).eng = d.eng := rfl
@[simp] theorem Dev.ring_chan (d : Dev) (p a : Nat) : (d.ring p a).chan = d.chan := rfl
@[simp] theorem Dev.ring_hearth (d : Dev) (p a : Nat) : (d.ring p a).hearth = d.hearth := rfl
@[simp] theorem Dev.ring_plat (d : Dev) (p a : Nat) : (d.ring p a).plat = d.plat := rfl
@[simp] theorem Dev.ring_net (d : Dev) (p a : Nat) : (d.ring p a).net = d.net := rfl
@[simp] theorem Dev.ring_pavs (d : Dev) (p a : Nat) : (d.ring p a).pavs = d.pavs := rfl
@[simp] theorem Dev.ring_removing (d : Dev) (p a : Nat) : (d.ring p a).removing = d.removing := rfl
@[simp] theorem Dev.ring_alerts (d : Dev) (p a : Nat) : (d.ring p a).alerts = d.alerts := rfl
@[simp] theorem Dev.ring_alertCount (d : Dev) (p a : Nat) : (d.ring p a).alertCount = d.alertCount := rfl
@[simp] theorem Dev.ring_alertOpen (d : Dev) (p a : Nat) : (d.ring p a).alertOpen = d.alertOpen := rfl

/-! ## `Dev.setCore` -/

@[simp] theorem Dev.setCore_time (d : Dev) (c : Nat) (x : Core) : (d.setCore c x).time = d.time := rfl
@[simp] theorem Dev.setCore_dict (d : Dev) (c : Nat) (x : Core) : (d.setCore c x).dict = d.dict := rfl
@[simp] theorem Dev.setCore_staged (d : Dev) (c : Nat) (x : Core) : (d.setCore c x).staged = d.staged := rfl
@[simp] theorem Dev.setCore_fresh (d : Dev) (c : Nat) (x : Core) : (d.setCore c x).fresh = d.fresh := rfl
@[simp] theorem Dev.setCore_thermalStop (d : Dev) (c : Nat) (x : Core) : (d.setCore c x).thermalStop = d.thermalStop := rfl
@[simp] theorem Dev.setCore_mem (d : Dev) (c : Nat) (x : Core) : (d.setCore c x).mem = d.mem := rfl
@[simp] theorem Dev.setCore_eng (d : Dev) (c : Nat) (x : Core) : (d.setCore c x).eng = d.eng := rfl
@[simp] theorem Dev.setCore_chan (d : Dev) (c : Nat) (x : Core) : (d.setCore c x).chan = d.chan := rfl
@[simp] theorem Dev.setCore_hearth (d : Dev) (c : Nat) (x : Core) : (d.setCore c x).hearth = d.hearth := rfl
@[simp] theorem Dev.setCore_plat (d : Dev) (c : Nat) (x : Core) : (d.setCore c x).plat = d.plat := rfl
@[simp] theorem Dev.setCore_net (d : Dev) (c : Nat) (x : Core) : (d.setCore c x).net = d.net := rfl
@[simp] theorem Dev.setCore_pavs (d : Dev) (c : Nat) (x : Core) : (d.setCore c x).pavs = d.pavs := rfl
@[simp] theorem Dev.setCore_removing (d : Dev) (c : Nat) (x : Core) : (d.setCore c x).removing = d.removing := rfl
@[simp] theorem Dev.setCore_alerts (d : Dev) (c : Nat) (x : Core) : (d.setCore c x).alerts = d.alerts := rfl
@[simp] theorem Dev.setCore_alertCount (d : Dev) (c : Nat) (x : Core) : (d.setCore c x).alertCount = d.alertCount := rfl
@[simp] theorem Dev.setCore_alertOpen (d : Dev) (c : Nat) (x : Core) : (d.setCore c x).alertOpen = d.alertOpen := rfl

/-! ## `Dev.onCore` -/

@[simp] theorem Dev.onCore_time (d : Dev) (c : Nat) (f : Core → Core) : (d.onCore c f).time = d.time := rfl
@[simp] theorem Dev.onCore_dict (d : Dev) (c : Nat) (f : Core → Core) : (d.onCore c f).dict = d.dict := rfl
@[simp] theorem Dev.onCore_staged (d : Dev) (c : Nat) (f : Core → Core) : (d.onCore c f).staged = d.staged := rfl
@[simp] theorem Dev.onCore_fresh (d : Dev) (c : Nat) (f : Core → Core) : (d.onCore c f).fresh = d.fresh := rfl
@[simp] theorem Dev.onCore_thermalStop (d : Dev) (c : Nat) (f : Core → Core) : (d.onCore c f).thermalStop = d.thermalStop := rfl
@[simp] theorem Dev.onCore_mem (d : Dev) (c : Nat) (f : Core → Core) : (d.onCore c f).mem = d.mem := rfl
@[simp] theorem Dev.onCore_eng (d : Dev) (c : Nat) (f : Core → Core) : (d.onCore c f).eng = d.eng := rfl
@[simp] theorem Dev.onCore_chan (d : Dev) (c : Nat) (f : Core → Core) : (d.onCore c f).chan = d.chan := rfl
@[simp] theorem Dev.onCore_hearth (d : Dev) (c : Nat) (f : Core → Core) : (d.onCore c f).hearth = d.hearth := rfl
@[simp] theorem Dev.onCore_plat (d : Dev) (c : Nat) (f : Core → Core) : (d.onCore c f).plat = d.plat := rfl
@[simp] theorem Dev.onCore_net (d : Dev) (c : Nat) (f : Core → Core) : (d.onCore c f).net = d.net := rfl
@[simp] theorem Dev.onCore_pavs (d : Dev) (c : Nat) (f : Core → Core) : (d.onCore c f).pavs = d.pavs := rfl
@[simp] theorem Dev.onCore_removing (d : Dev) (c : Nat) (f : Core → Core) : (d.onCore c f).removing = d.removing := rfl
@[simp] theorem Dev.onCore_alerts (d : Dev) (c : Nat) (f : Core → Core) : (d.onCore c f).alerts = d.alerts := rfl
@[simp] theorem Dev.onCore_alertCount (d : Dev) (c : Nat) (f : Core → Core) : (d.onCore c f).alertCount = d.alertCount := rfl
@[simp] theorem Dev.onCore_alertOpen (d : Dev) (c : Nat) (f : Core → Core) : (d.onCore c f).alertOpen = d.alertOpen := rfl

/-! ## `Dev.setBank` -/

@[simp] theorem Dev.setBank_time (d : Dev) (b : Nat) (x : BankSt) : (d.setBank b x).time = d.time := rfl
@[simp] theorem Dev.setBank_dict (d : Dev) (b : Nat) (x : BankSt) : (d.setBank b x).dict = d.dict := rfl
@[simp] theorem Dev.setBank_staged (d : Dev) (b : Nat) (x : BankSt) : (d.setBank b x).staged = d.staged := rfl
@[simp] theorem Dev.setBank_fresh (d : Dev) (b : Nat) (x : BankSt) : (d.setBank b x).fresh = d.fresh := rfl
@[simp] theorem Dev.setBank_cores (d : Dev) (b : Nat) (x : BankSt) : (d.setBank b x).cores = d.cores := rfl
@[simp] theorem Dev.setBank_thermalStop (d : Dev) (b : Nat) (x : BankSt) : (d.setBank b x).thermalStop = d.thermalStop := rfl
@[simp] theorem Dev.setBank_eng (d : Dev) (b : Nat) (x : BankSt) : (d.setBank b x).eng = d.eng := rfl
@[simp] theorem Dev.setBank_chan (d : Dev) (b : Nat) (x : BankSt) : (d.setBank b x).chan = d.chan := rfl
@[simp] theorem Dev.setBank_hearth (d : Dev) (b : Nat) (x : BankSt) : (d.setBank b x).hearth = d.hearth := rfl
@[simp] theorem Dev.setBank_plat (d : Dev) (b : Nat) (x : BankSt) : (d.setBank b x).plat = d.plat := rfl
@[simp] theorem Dev.setBank_net (d : Dev) (b : Nat) (x : BankSt) : (d.setBank b x).net = d.net := rfl
@[simp] theorem Dev.setBank_pavs (d : Dev) (b : Nat) (x : BankSt) : (d.setBank b x).pavs = d.pavs := rfl
@[simp] theorem Dev.setBank_removing (d : Dev) (b : Nat) (x : BankSt) : (d.setBank b x).removing = d.removing := rfl
@[simp] theorem Dev.setBank_alerts (d : Dev) (b : Nat) (x : BankSt) : (d.setBank b x).alerts = d.alerts := rfl
@[simp] theorem Dev.setBank_alertCount (d : Dev) (b : Nat) (x : BankSt) : (d.setBank b x).alertCount = d.alertCount := rfl
@[simp] theorem Dev.setBank_alertOpen (d : Dev) (b : Nat) (x : BankSt) : (d.setBank b x).alertOpen = d.alertOpen := rfl

/-! ## `Dev.onMem` -/

@[simp] theorem Dev.onMem_time (d : Dev) (f : Mem → Mem) : (d.onMem f).time = d.time := rfl
@[simp] theorem Dev.onMem_dict (d : Dev) (f : Mem → Mem) : (d.onMem f).dict = d.dict := rfl
@[simp] theorem Dev.onMem_staged (d : Dev) (f : Mem → Mem) : (d.onMem f).staged = d.staged := rfl
@[simp] theorem Dev.onMem_fresh (d : Dev) (f : Mem → Mem) : (d.onMem f).fresh = d.fresh := rfl
@[simp] theorem Dev.onMem_cores (d : Dev) (f : Mem → Mem) : (d.onMem f).cores = d.cores := rfl
@[simp] theorem Dev.onMem_thermalStop (d : Dev) (f : Mem → Mem) : (d.onMem f).thermalStop = d.thermalStop := rfl
@[simp] theorem Dev.onMem_eng (d : Dev) (f : Mem → Mem) : (d.onMem f).eng = d.eng := rfl
@[simp] theorem Dev.onMem_chan (d : Dev) (f : Mem → Mem) : (d.onMem f).chan = d.chan := rfl
@[simp] theorem Dev.onMem_hearth (d : Dev) (f : Mem → Mem) : (d.onMem f).hearth = d.hearth := rfl
@[simp] theorem Dev.onMem_plat (d : Dev) (f : Mem → Mem) : (d.onMem f).plat = d.plat := rfl
@[simp] theorem Dev.onMem_net (d : Dev) (f : Mem → Mem) : (d.onMem f).net = d.net := rfl
@[simp] theorem Dev.onMem_pavs (d : Dev) (f : Mem → Mem) : (d.onMem f).pavs = d.pavs := rfl
@[simp] theorem Dev.onMem_removing (d : Dev) (f : Mem → Mem) : (d.onMem f).removing = d.removing := rfl
@[simp] theorem Dev.onMem_alerts (d : Dev) (f : Mem → Mem) : (d.onMem f).alerts = d.alerts := rfl
@[simp] theorem Dev.onMem_alertCount (d : Dev) (f : Mem → Mem) : (d.onMem f).alertCount = d.alertCount := rfl
@[simp] theorem Dev.onMem_alertOpen (d : Dev) (f : Mem → Mem) : (d.onMem f).alertOpen = d.alertOpen := rfl

/-! ## `Dev.onEng` -/

@[simp] theorem Dev.onEng_time (d : Dev) (f : Eng → Eng) : (d.onEng f).time = d.time := rfl
@[simp] theorem Dev.onEng_dict (d : Dev) (f : Eng → Eng) : (d.onEng f).dict = d.dict := rfl
@[simp] theorem Dev.onEng_staged (d : Dev) (f : Eng → Eng) : (d.onEng f).staged = d.staged := rfl
@[simp] theorem Dev.onEng_fresh (d : Dev) (f : Eng → Eng) : (d.onEng f).fresh = d.fresh := rfl
@[simp] theorem Dev.onEng_cores (d : Dev) (f : Eng → Eng) : (d.onEng f).cores = d.cores := rfl
@[simp] theorem Dev.onEng_thermalStop (d : Dev) (f : Eng → Eng) : (d.onEng f).thermalStop = d.thermalStop := rfl
@[simp] theorem Dev.onEng_mem (d : Dev) (f : Eng → Eng) : (d.onEng f).mem = d.mem := rfl
@[simp] theorem Dev.onEng_chan (d : Dev) (f : Eng → Eng) : (d.onEng f).chan = d.chan := rfl
@[simp] theorem Dev.onEng_hearth (d : Dev) (f : Eng → Eng) : (d.onEng f).hearth = d.hearth := rfl
@[simp] theorem Dev.onEng_plat (d : Dev) (f : Eng → Eng) : (d.onEng f).plat = d.plat := rfl
@[simp] theorem Dev.onEng_net (d : Dev) (f : Eng → Eng) : (d.onEng f).net = d.net := rfl
@[simp] theorem Dev.onEng_pavs (d : Dev) (f : Eng → Eng) : (d.onEng f).pavs = d.pavs := rfl
@[simp] theorem Dev.onEng_removing (d : Dev) (f : Eng → Eng) : (d.onEng f).removing = d.removing := rfl
@[simp] theorem Dev.onEng_alerts (d : Dev) (f : Eng → Eng) : (d.onEng f).alerts = d.alerts := rfl
@[simp] theorem Dev.onEng_alertCount (d : Dev) (f : Eng → Eng) : (d.onEng f).alertCount = d.alertCount := rfl
@[simp] theorem Dev.onEng_alertOpen (d : Dev) (f : Eng → Eng) : (d.onEng f).alertOpen = d.alertOpen := rfl

/-! ## `Dev.onChan` -/

@[simp] theorem Dev.onChan_time (d : Dev) (f : Chan → Chan) : (d.onChan f).time = d.time := rfl
@[simp] theorem Dev.onChan_dict (d : Dev) (f : Chan → Chan) : (d.onChan f).dict = d.dict := rfl
@[simp] theorem Dev.onChan_staged (d : Dev) (f : Chan → Chan) : (d.onChan f).staged = d.staged := rfl
@[simp] theorem Dev.onChan_fresh (d : Dev) (f : Chan → Chan) : (d.onChan f).fresh = d.fresh := rfl
@[simp] theorem Dev.onChan_cores (d : Dev) (f : Chan → Chan) : (d.onChan f).cores = d.cores := rfl
@[simp] theorem Dev.onChan_thermalStop (d : Dev) (f : Chan → Chan) : (d.onChan f).thermalStop = d.thermalStop := rfl
@[simp] theorem Dev.onChan_mem (d : Dev) (f : Chan → Chan) : (d.onChan f).mem = d.mem := rfl
@[simp] theorem Dev.onChan_eng (d : Dev) (f : Chan → Chan) : (d.onChan f).eng = d.eng := rfl
@[simp] theorem Dev.onChan_hearth (d : Dev) (f : Chan → Chan) : (d.onChan f).hearth = d.hearth := rfl
@[simp] theorem Dev.onChan_plat (d : Dev) (f : Chan → Chan) : (d.onChan f).plat = d.plat := rfl
@[simp] theorem Dev.onChan_net (d : Dev) (f : Chan → Chan) : (d.onChan f).net = d.net := rfl
@[simp] theorem Dev.onChan_pavs (d : Dev) (f : Chan → Chan) : (d.onChan f).pavs = d.pavs := rfl
@[simp] theorem Dev.onChan_removing (d : Dev) (f : Chan → Chan) : (d.onChan f).removing = d.removing := rfl
@[simp] theorem Dev.onChan_alerts (d : Dev) (f : Chan → Chan) : (d.onChan f).alerts = d.alerts := rfl
@[simp] theorem Dev.onChan_alertCount (d : Dev) (f : Chan → Chan) : (d.onChan f).alertCount = d.alertCount := rfl
@[simp] theorem Dev.onChan_alertOpen (d : Dev) (f : Chan → Chan) : (d.onChan f).alertOpen = d.alertOpen := rfl

/-! ## `Dev.onPlat` -/

@[simp] theorem Dev.onPlat_time (d : Dev) (f : Plat → Plat) : (d.onPlat f).time = d.time := rfl
@[simp] theorem Dev.onPlat_dict (d : Dev) (f : Plat → Plat) : (d.onPlat f).dict = d.dict := rfl
@[simp] theorem Dev.onPlat_staged (d : Dev) (f : Plat → Plat) : (d.onPlat f).staged = d.staged := rfl
@[simp] theorem Dev.onPlat_fresh (d : Dev) (f : Plat → Plat) : (d.onPlat f).fresh = d.fresh := rfl
@[simp] theorem Dev.onPlat_cores (d : Dev) (f : Plat → Plat) : (d.onPlat f).cores = d.cores := rfl
@[simp] theorem Dev.onPlat_thermalStop (d : Dev) (f : Plat → Plat) : (d.onPlat f).thermalStop = d.thermalStop := rfl
@[simp] theorem Dev.onPlat_mem (d : Dev) (f : Plat → Plat) : (d.onPlat f).mem = d.mem := rfl
@[simp] theorem Dev.onPlat_eng (d : Dev) (f : Plat → Plat) : (d.onPlat f).eng = d.eng := rfl
@[simp] theorem Dev.onPlat_chan (d : Dev) (f : Plat → Plat) : (d.onPlat f).chan = d.chan := rfl
@[simp] theorem Dev.onPlat_hearth (d : Dev) (f : Plat → Plat) : (d.onPlat f).hearth = d.hearth := rfl
@[simp] theorem Dev.onPlat_net (d : Dev) (f : Plat → Plat) : (d.onPlat f).net = d.net := rfl
@[simp] theorem Dev.onPlat_pavs (d : Dev) (f : Plat → Plat) : (d.onPlat f).pavs = d.pavs := rfl
@[simp] theorem Dev.onPlat_removing (d : Dev) (f : Plat → Plat) : (d.onPlat f).removing = d.removing := rfl
@[simp] theorem Dev.onPlat_alerts (d : Dev) (f : Plat → Plat) : (d.onPlat f).alerts = d.alerts := rfl
@[simp] theorem Dev.onPlat_alertCount (d : Dev) (f : Plat → Plat) : (d.onPlat f).alertCount = d.alertCount := rfl
@[simp] theorem Dev.onPlat_alertOpen (d : Dev) (f : Plat → Plat) : (d.onPlat f).alertOpen = d.alertOpen := rfl

/-! ## `Dev.onNet` -/

@[simp] theorem Dev.onNet_time (d : Dev) (f : HostNet → HostNet) : (d.onNet f).time = d.time := rfl
@[simp] theorem Dev.onNet_dict (d : Dev) (f : HostNet → HostNet) : (d.onNet f).dict = d.dict := rfl
@[simp] theorem Dev.onNet_staged (d : Dev) (f : HostNet → HostNet) : (d.onNet f).staged = d.staged := rfl
@[simp] theorem Dev.onNet_fresh (d : Dev) (f : HostNet → HostNet) : (d.onNet f).fresh = d.fresh := rfl
@[simp] theorem Dev.onNet_cores (d : Dev) (f : HostNet → HostNet) : (d.onNet f).cores = d.cores := rfl
@[simp] theorem Dev.onNet_thermalStop (d : Dev) (f : HostNet → HostNet) : (d.onNet f).thermalStop = d.thermalStop := rfl
@[simp] theorem Dev.onNet_mem (d : Dev) (f : HostNet → HostNet) : (d.onNet f).mem = d.mem := rfl
@[simp] theorem Dev.onNet_eng (d : Dev) (f : HostNet → HostNet) : (d.onNet f).eng = d.eng := rfl
@[simp] theorem Dev.onNet_chan (d : Dev) (f : HostNet → HostNet) : (d.onNet f).chan = d.chan := rfl
@[simp] theorem Dev.onNet_hearth (d : Dev) (f : HostNet → HostNet) : (d.onNet f).hearth = d.hearth := rfl
@[simp] theorem Dev.onNet_plat (d : Dev) (f : HostNet → HostNet) : (d.onNet f).plat = d.plat := rfl
@[simp] theorem Dev.onNet_pavs (d : Dev) (f : HostNet → HostNet) : (d.onNet f).pavs = d.pavs := rfl
@[simp] theorem Dev.onNet_removing (d : Dev) (f : HostNet → HostNet) : (d.onNet f).removing = d.removing := rfl
@[simp] theorem Dev.onNet_alerts (d : Dev) (f : HostNet → HostNet) : (d.onNet f).alerts = d.alerts := rfl
@[simp] theorem Dev.onNet_alertCount (d : Dev) (f : HostNet → HostNet) : (d.onNet f).alertCount = d.alertCount := rfl
@[simp] theorem Dev.onNet_alertOpen (d : Dev) (f : HostNet → HostNet) : (d.onNet f).alertOpen = d.alertOpen := rfl

/-! ## `Dev.setLink` -/

@[simp] theorem Dev.setLink_time (d : Dev) (n : Nat) (x : Link) : (d.setLink n x).time = d.time := rfl
@[simp] theorem Dev.setLink_dict (d : Dev) (n : Nat) (x : Link) : (d.setLink n x).dict = d.dict := rfl
@[simp] theorem Dev.setLink_staged (d : Dev) (n : Nat) (x : Link) : (d.setLink n x).staged = d.staged := rfl
@[simp] theorem Dev.setLink_fresh (d : Dev) (n : Nat) (x : Link) : (d.setLink n x).fresh = d.fresh := rfl
@[simp] theorem Dev.setLink_cores (d : Dev) (n : Nat) (x : Link) : (d.setLink n x).cores = d.cores := rfl
@[simp] theorem Dev.setLink_thermalStop (d : Dev) (n : Nat) (x : Link) : (d.setLink n x).thermalStop = d.thermalStop := rfl
@[simp] theorem Dev.setLink_mem (d : Dev) (n : Nat) (x : Link) : (d.setLink n x).mem = d.mem := rfl
@[simp] theorem Dev.setLink_eng (d : Dev) (n : Nat) (x : Link) : (d.setLink n x).eng = d.eng := rfl
@[simp] theorem Dev.setLink_hearth (d : Dev) (n : Nat) (x : Link) : (d.setLink n x).hearth = d.hearth := rfl
@[simp] theorem Dev.setLink_plat (d : Dev) (n : Nat) (x : Link) : (d.setLink n x).plat = d.plat := rfl
@[simp] theorem Dev.setLink_net (d : Dev) (n : Nat) (x : Link) : (d.setLink n x).net = d.net := rfl
@[simp] theorem Dev.setLink_pavs (d : Dev) (n : Nat) (x : Link) : (d.setLink n x).pavs = d.pavs := rfl
@[simp] theorem Dev.setLink_removing (d : Dev) (n : Nat) (x : Link) : (d.setLink n x).removing = d.removing := rfl
@[simp] theorem Dev.setLink_alerts (d : Dev) (n : Nat) (x : Link) : (d.setLink n x).alerts = d.alerts := rfl
@[simp] theorem Dev.setLink_alertCount (d : Dev) (n : Nat) (x : Link) : (d.setLink n x).alertCount = d.alertCount := rfl
@[simp] theorem Dev.setLink_alertOpen (d : Dev) (n : Nat) (x : Link) : (d.setLink n x).alertOpen = d.alertOpen := rfl

/-! ## `Dev.onLink` -/

@[simp] theorem Dev.onLink_time (d : Dev) (n : Nat) (f : Link → Link) : (d.onLink n f).time = d.time := rfl
@[simp] theorem Dev.onLink_dict (d : Dev) (n : Nat) (f : Link → Link) : (d.onLink n f).dict = d.dict := rfl
@[simp] theorem Dev.onLink_staged (d : Dev) (n : Nat) (f : Link → Link) : (d.onLink n f).staged = d.staged := rfl
@[simp] theorem Dev.onLink_fresh (d : Dev) (n : Nat) (f : Link → Link) : (d.onLink n f).fresh = d.fresh := rfl
@[simp] theorem Dev.onLink_cores (d : Dev) (n : Nat) (f : Link → Link) : (d.onLink n f).cores = d.cores := rfl
@[simp] theorem Dev.onLink_thermalStop (d : Dev) (n : Nat) (f : Link → Link) : (d.onLink n f).thermalStop = d.thermalStop := rfl
@[simp] theorem Dev.onLink_mem (d : Dev) (n : Nat) (f : Link → Link) : (d.onLink n f).mem = d.mem := rfl
@[simp] theorem Dev.onLink_eng (d : Dev) (n : Nat) (f : Link → Link) : (d.onLink n f).eng = d.eng := rfl
@[simp] theorem Dev.onLink_hearth (d : Dev) (n : Nat) (f : Link → Link) : (d.onLink n f).hearth = d.hearth := rfl
@[simp] theorem Dev.onLink_plat (d : Dev) (n : Nat) (f : Link → Link) : (d.onLink n f).plat = d.plat := rfl
@[simp] theorem Dev.onLink_net (d : Dev) (n : Nat) (f : Link → Link) : (d.onLink n f).net = d.net := rfl
@[simp] theorem Dev.onLink_pavs (d : Dev) (n : Nat) (f : Link → Link) : (d.onLink n f).pavs = d.pavs := rfl
@[simp] theorem Dev.onLink_removing (d : Dev) (n : Nat) (f : Link → Link) : (d.onLink n f).removing = d.removing := rfl
@[simp] theorem Dev.onLink_alerts (d : Dev) (n : Nat) (f : Link → Link) : (d.onLink n f).alerts = d.alerts := rfl
@[simp] theorem Dev.onLink_alertCount (d : Dev) (n : Nat) (f : Link → Link) : (d.onLink n f).alertCount = d.alertCount := rfl
@[simp] theorem Dev.onLink_alertOpen (d : Dev) (n : Nat) (f : Link → Link) : (d.onLink n f).alertOpen = d.alertOpen := rfl

/-! ## `Dev.setRing` -/

@[simp] theorem Dev.setRing_time (d : Dev) (r : Nat) (x : Ring) : (d.setRing r x).time = d.time := rfl
@[simp] theorem Dev.setRing_dict (d : Dev) (r : Nat) (x : Ring) : (d.setRing r x).dict = d.dict := rfl
@[simp] theorem Dev.setRing_staged (d : Dev) (r : Nat) (x : Ring) : (d.setRing r x).staged = d.staged := rfl
@[simp] theorem Dev.setRing_fresh (d : Dev) (r : Nat) (x : Ring) : (d.setRing r x).fresh = d.fresh := rfl
@[simp] theorem Dev.setRing_cores (d : Dev) (r : Nat) (x : Ring) : (d.setRing r x).cores = d.cores := rfl
@[simp] theorem Dev.setRing_thermalStop (d : Dev) (r : Nat) (x : Ring) : (d.setRing r x).thermalStop = d.thermalStop := rfl
@[simp] theorem Dev.setRing_mem (d : Dev) (r : Nat) (x : Ring) : (d.setRing r x).mem = d.mem := rfl
@[simp] theorem Dev.setRing_eng (d : Dev) (r : Nat) (x : Ring) : (d.setRing r x).eng = d.eng := rfl
@[simp] theorem Dev.setRing_chan (d : Dev) (r : Nat) (x : Ring) : (d.setRing r x).chan = d.chan := rfl
@[simp] theorem Dev.setRing_plat (d : Dev) (r : Nat) (x : Ring) : (d.setRing r x).plat = d.plat := rfl
@[simp] theorem Dev.setRing_net (d : Dev) (r : Nat) (x : Ring) : (d.setRing r x).net = d.net := rfl
@[simp] theorem Dev.setRing_pavs (d : Dev) (r : Nat) (x : Ring) : (d.setRing r x).pavs = d.pavs := rfl
@[simp] theorem Dev.setRing_removing (d : Dev) (r : Nat) (x : Ring) : (d.setRing r x).removing = d.removing := rfl
@[simp] theorem Dev.setRing_alerts (d : Dev) (r : Nat) (x : Ring) : (d.setRing r x).alerts = d.alerts := rfl
@[simp] theorem Dev.setRing_alertCount (d : Dev) (r : Nat) (x : Ring) : (d.setRing r x).alertCount = d.alertCount := rfl
@[simp] theorem Dev.setRing_alertOpen (d : Dev) (r : Nat) (x : Ring) : (d.setRing r x).alertOpen = d.alertOpen := rfl

/-! ## `Dev.onSess` -/

@[simp] theorem Dev.onSess_time (d : Dev) (id : Nat) (f : Session → Session) : (d.onSess id f).time = d.time := rfl
@[simp] theorem Dev.onSess_dict (d : Dev) (id : Nat) (f : Session → Session) : (d.onSess id f).dict = d.dict := rfl
@[simp] theorem Dev.onSess_staged (d : Dev) (id : Nat) (f : Session → Session) : (d.onSess id f).staged = d.staged := rfl
@[simp] theorem Dev.onSess_fresh (d : Dev) (id : Nat) (f : Session → Session) : (d.onSess id f).fresh = d.fresh := rfl
@[simp] theorem Dev.onSess_cores (d : Dev) (id : Nat) (f : Session → Session) : (d.onSess id f).cores = d.cores := rfl
@[simp] theorem Dev.onSess_thermalStop (d : Dev) (id : Nat) (f : Session → Session) : (d.onSess id f).thermalStop = d.thermalStop := rfl
@[simp] theorem Dev.onSess_mem (d : Dev) (id : Nat) (f : Session → Session) : (d.onSess id f).mem = d.mem := rfl
@[simp] theorem Dev.onSess_eng (d : Dev) (id : Nat) (f : Session → Session) : (d.onSess id f).eng = d.eng := rfl
@[simp] theorem Dev.onSess_chan (d : Dev) (id : Nat) (f : Session → Session) : (d.onSess id f).chan = d.chan := rfl
@[simp] theorem Dev.onSess_hearth (d : Dev) (id : Nat) (f : Session → Session) : (d.onSess id f).hearth = d.hearth := rfl
@[simp] theorem Dev.onSess_plat (d : Dev) (id : Nat) (f : Session → Session) : (d.onSess id f).plat = d.plat := rfl
@[simp] theorem Dev.onSess_pavs (d : Dev) (id : Nat) (f : Session → Session) : (d.onSess id f).pavs = d.pavs := rfl
@[simp] theorem Dev.onSess_removing (d : Dev) (id : Nat) (f : Session → Session) : (d.onSess id f).removing = d.removing := rfl
@[simp] theorem Dev.onSess_alerts (d : Dev) (id : Nat) (f : Session → Session) : (d.onSess id f).alerts = d.alerts := rfl
@[simp] theorem Dev.onSess_alertCount (d : Dev) (id : Nat) (f : Session → Session) : (d.onSess id f).alertCount = d.alertCount := rfl
@[simp] theorem Dev.onSess_alertOpen (d : Dev) (id : Nat) (f : Session → Session) : (d.onSess id f).alertOpen = d.alertOpen := rfl

/-! ## `Dev.emit` -/

@[simp] theorem Dev.emit_time (d : Dev) (x : Out) : (d.emit x).time = d.time := by
  unfold Dev.emit; split <;> rfl
@[simp] theorem Dev.emit_dict (d : Dev) (x : Out) : (d.emit x).dict = d.dict := by
  unfold Dev.emit; split <;> rfl
@[simp] theorem Dev.emit_staged (d : Dev) (x : Out) : (d.emit x).staged = d.staged := by
  unfold Dev.emit; split <;> rfl
@[simp] theorem Dev.emit_fresh (d : Dev) (x : Out) : (d.emit x).fresh = d.fresh := by
  unfold Dev.emit; split <;> rfl
@[simp] theorem Dev.emit_cores (d : Dev) (x : Out) : (d.emit x).cores = d.cores := by
  unfold Dev.emit; split <;> rfl
@[simp] theorem Dev.emit_thermalStop (d : Dev) (x : Out) : (d.emit x).thermalStop = d.thermalStop := by
  unfold Dev.emit; split <;> rfl
@[simp] theorem Dev.emit_mem (d : Dev) (x : Out) : (d.emit x).mem = d.mem := by
  unfold Dev.emit; split <;> rfl
@[simp] theorem Dev.emit_eng (d : Dev) (x : Out) : (d.emit x).eng = d.eng := by
  unfold Dev.emit; split <;> rfl
@[simp] theorem Dev.emit_chan (d : Dev) (x : Out) : (d.emit x).chan = d.chan := by
  unfold Dev.emit; split <;> rfl
@[simp] theorem Dev.emit_hearth (d : Dev) (x : Out) : (d.emit x).hearth = d.hearth := by
  unfold Dev.emit; split <;> rfl
@[simp] theorem Dev.emit_plat (d : Dev) (x : Out) : (d.emit x).plat = d.plat := by
  unfold Dev.emit; split <;> rfl
@[simp] theorem Dev.emit_pavs (d : Dev) (x : Out) : (d.emit x).pavs = d.pavs := by
  unfold Dev.emit; split <;> rfl
@[simp] theorem Dev.emit_removing (d : Dev) (x : Out) : (d.emit x).removing = d.removing := by
  unfold Dev.emit; split <;> rfl
@[simp] theorem Dev.emit_alerts (d : Dev) (x : Out) : (d.emit x).alerts = d.alerts := by
  unfold Dev.emit; split <;> rfl
@[simp] theorem Dev.emit_alertCount (d : Dev) (x : Out) : (d.emit x).alertCount = d.alertCount := by
  unfold Dev.emit; split <;> rfl
@[simp] theorem Dev.emit_alertOpen (d : Dev) (x : Out) : (d.emit x).alertOpen = d.alertOpen := by
  unfold Dev.emit; split <;> rfl

/-! ## What an update writes -/

@[simp] theorem Dev.at_time (d : Dev) (t : Nat) : (d.at t).time = max d.time t := rfl
@[simp] theorem Dev.onMem_mem (d : Dev) (f : Mem → Mem) : (d.onMem f).mem = f d.mem := rfl
@[simp] theorem Dev.onEng_eng (d : Dev) (f : Eng → Eng) : (d.onEng f).eng = f d.eng := rfl
@[simp] theorem Dev.onChan_chan (d : Dev) (f : Chan → Chan) : (d.onChan f).chan = f d.chan := rfl
@[simp] theorem Dev.onPlat_plat (d : Dev) (f : Plat → Plat) : (d.onPlat f).plat = f d.plat := rfl
@[simp] theorem Dev.onNet_net (d : Dev) (f : HostNet → HostNet) : (d.onNet f).net = f d.net := rfl
@[simp] theorem Dev.alert_alertOpen (d : Dev) (x y p n : Nat) : (d.alert x y p n).alertOpen = true := rfl

@[simp] theorem Dev.rd_wr_self (d : Dev) (e : Entry) (v i p : Nat) : (d.wr e v i p).rd e i p = v := by
  simp [Dev.rd, Dev.wr]

theorem Dev.rd_wr_ne (d : Dev) {e e' : Entry} (v : Nat) {i i' p p' : Nat} (h : e'.key i' p' ≠ e.key i p) :
    (d.wr e v i p).rd e' i' p' = d.rd e' i' p' := by
  have hd : ∀ x y : Nat, Table.get x (Table.set y d.dict (e.key i p) v) (e'.key i' p') = Table.get x d.dict (e'.key i' p') := by
    intro x y
    unfold Table.set
    split
    · exact Table.get_erase_ne x _ h
    · rw [Table.get_insert_ne x _ v h, Table.get_erase_ne x _ h]
  exact hd _ _

@[simp] theorem Dev.core_setCore_self (d : Dev) (c : Nat) (x : Core) : (d.setCore c x).core c = x := by
  simp [Dev.core, Dev.setCore]

theorem Dev.core_setCore_ne (d : Dev) {c k : Nat} (x : Core) (h : k ≠ c) : (d.setCore c x).core k = d.core k :=
  Table.get_set_ne _ _ _ h

@[simp] theorem Dev.core_onCore_self (d : Dev) (c : Nat) (f : Core → Core) : (d.onCore c f).core c = f (d.core c) := by
  simp [Dev.onCore]

theorem Dev.core_onCore_ne (d : Dev) {c k : Nat} (f : Core → Core) (h : k ≠ c) : (d.onCore c f).core k = d.core k :=
  Dev.core_setCore_ne d _ h

@[simp] theorem Dev.pbit_setPbit_self (d : Dev) (p a : Nat) (v : Bool) : (d.setPbit p a v).pbit p a = v := by
  simp [Dev.pbit, Dev.setPbit]

@[simp] theorem Dev.pbit_ring_self (d : Dev) (p a : Nat) : (d.ring p a).pbit p a = true := Dev.pbit_setPbit_self d p a true

@[simp] theorem Dev.bank_setBank_self (d : Dev) (b : Nat) (x : BankSt) : (d.setBank b x).bank b = x := by
  simp [Dev.bank, Dev.setBank]

@[simp] theorem Dev.link_setLink_self (d : Dev) (n : Nat) (x : Link) : (d.setLink n x).link n = x := by
  simp [Dev.link, Dev.setLink]

end Sys2Proof.Machine
end

