-- ==== Sys2Proof/Laws/Core.lean ====
section
/-! SUPPORT. Laws/Core.lean: what each write of a register, a capability or a core-local bit leaves to be read once the values owed
have arrived, and all that a commit of such writes does. -/

set_option linter.unusedSimpArgs false

namespace Sys2Proof.Machine

/-! ## Registers and the load values owed to them -/

/-- A register of `PReg` that holds a word: no capability register and not the condition bit Z. -/
def PReg.Plain (r : PReg) : Prop := (∀ i, r ≠ .cap i) ∧ r ≠ .z

theorem Arch.get_put_ne (a : Arch) (r q : PReg) (v : Word) (c : Cap) (h : q ≠ r) (hq : q ≠ .z) : (a.put r v c).get q = a.get q := by
  cases r with
  | k i =>
    by_cases h0 : i = 0
    · simp [Arch.put, h0]
    · cases q <;> simp_all [Arch.put, Arch.get]
      split
      · rfl
      · rw [Table.get_set_ne _ _ _ h]
  | win i => cases q <;> simp_all [Arch.put, Arch.get, Table.get_set_ne]
  | fp i => cases q <;> simp_all [Arch.put, Arch.get, Table.get_set_ne]
  | z => cases q <;> simp_all [Arch.put, Arch.get]
  | cap i =>
    by_cases h0 : i = 0
    · simp [Arch.put, h0]
    · cases q <;> simp_all [Arch.put, Arch.get, Arch.bit]

theorem Arch.get_put_self (a : Arch) (r : PReg) (v : Word) (c : Cap) (h : PReg.Plain r) (h0 : r ≠ .k 0) : (a.put r v c).get r = v := by
  obtain ⟨h1, h2⟩ := h
  cases r <;> simp_all [Arch.put, Arch.get]

/-- The load values owed, put into their registers in order. -/
def Arch.putAll : List Owed → Arch → Arch
  | [], a => a
  | o :: t, a => Arch.putAll t (a.put o.reg o.word o.cap)

theorem Arch.foldl_put (l : List Owed) : ∀ a, l.foldl (fun a o => a.put o.reg o.word o.cap) a = Arch.putAll l a := by
  induction l with
  | nil => intro a; rfl
  | cons o t ih => intro a; exact ih _

theorem Arch.get_k0 (a : Arch) : a.get (.k 0) = 0 := by simp [Arch.get]

theorem Arch.get_putAll_congr (q : PReg) (hq : PReg.Plain q) (l : List Owed) : ∀ a b : Arch, a.get q = b.get q → (Arch.putAll l a).get q = (Arch.putAll l b).get q := by
  induction l with
  | nil => intro a b h; exact h
  | cons o t ih =>
    intro a b h
    refine ih (a.put o.reg o.word o.cap) (b.put o.reg o.word o.cap) ?_
    by_cases hr : q = o.reg
    · by_cases h0 : q = .k 0
      · subst h0; simp [Arch.get_k0]
      · rw [← hr, Arch.get_put_self _ _ _ _ hq h0, Arch.get_put_self _ _ _ _ hq h0]
    · rw [Arch.get_put_ne _ _ _ _ _ hr hq.2, Arch.get_put_ne _ _ _ _ _ hr hq.2, h]

theorem Arch.get_putAll_filter (q r : PReg) (hq : PReg.Plain q) (h : q ≠ r) (l : List Owed) : ∀ a : Arch,
    (Arch.putAll (l.filter fun o => decide (o.reg ≠ r)) a).get q = (Arch.putAll l a).get q := by
  induction l with
  | nil => intro a; rfl
  | cons o t ih =>
    intro a
    by_cases hr : o.reg = r
    · have hp := Arch.get_put_ne a o.reg q o.word o.cap (by rw [hr]; exact h) hq.2
      rw [List.filter_cons_of_neg (by simp [hr]), ih a]
      exact Arch.get_putAll_congr q hq t _ _ hp.symm
    · rw [List.filter_cons_of_pos (by simp [hr])]
      exact ih _

theorem Arch.get_putAll_of_unwritten (q : PReg) (hq : PReg.Plain q) (l : List Owed) : ∀ a : Arch, (∀ o ∈ l, o.reg ≠ q) → (Arch.putAll l a).get q = a.get q := by
  induction l with
  | nil => intro a _; rfl
  | cons o t ih =>
    intro a h
    have h1 := h o (by simp)
    refine (ih (a.put o.reg o.word o.cap) (fun o ho => h o (by simp [ho]))).trans ?_
    exact Arch.get_put_ne _ _ _ _ _ (Ne.symm h1) hq.2

/-- The value that the latest floating-point operation bound for register `q` will leave there. -/
def pendingFp (l : List FpOp) (q : PReg) : Option Word := (l.reverse.find? (fun o => decide (o.dest = some q))).map (·.value)

theorem Core.get_eq (x : Core) (q : PReg) : x.get q = if q = .k 0 then 0 else (pendingFp x.fpq q).getD (x.arch.get q) := by
  unfold Core.get pendingFp
  split
  · rfl
  · split
    · next h => simp [h]
    · next h => simp [h]

theorem pendingFp_claim_ne (l : List FpOp) (q r : PReg) (h : q ≠ r) :
    pendingFp (l.map fun o => if o.dest = some r then { o with dest := none } else o) q = pendingFp l q := by
  unfold pendingFp
  rw [← List.map_reverse]
  generalize l.reverse = m
  induction m with
  | nil => rfl
  | cons o t ih =>
    by_cases hr : o.dest = some r
    · have : ¬ (r = q) := fun e => h e.symm
      simp [List.find?_cons, hr, this]; simpa using ih
    · by_cases hq : o.dest = some q
      · have h' : ¬ (q = r) := h
        simp [List.find?_cons, hq, h']
      · simp [List.find?_cons, hr, hq]; simpa using ih

theorem pendingFp_claim_self (l : List FpOp) (r : PReg) :
    pendingFp (l.map fun o => if o.dest = some r then { o with dest := none } else o) r = none := by
  unfold pendingFp
  simp
  intro a ha
  split <;> simp_all

theorem Core.get_settleOwed (x : Core) (q : PReg) : x.settleOwed.get q = if q = .k 0 then 0 else (pendingFp x.fpq q).getD ((Arch.putAll x.arch.owed x.arch).get q) := by
  rw [Core.get_eq]
  simp only [Core.settleOwed, Arch.foldl_put]
  rfl

/-! ## Capability registers -/
theorem Arch.getCap_put (a : Arch) (r : PReg) (v : Word) (c : Cap) (i : Nat) :
    (a.put r v c).getCap i = if r = .cap i ∧ i ≠ 0 then c else a.getCap i := by
  cases r with
  | k j => simp only [Arch.put]; split <;> simp [Arch.getCap]
  | win j => simp [Arch.put, Arch.getCap]
  | fp j => simp [Arch.put, Arch.getCap]
  | z => simp [Arch.put, Arch.getCap]
  | cap j =>
    simp only [Arch.put, Arch.getCap]
    by_cases hj : j = 0
    · subst hj; by_cases hi : i = 0
      · subst hi; simp
      · have : ¬ (0 = i) := fun e => hi e.symm
        simp [this]
    · by_cases hi : i = 0
      · subst hi; simp [hj]
      · simp [hj, hi, Table.get_set]
        by_cases hij : j = i
        · subst hij; simp
        · have : ¬ i = j := fun e => hij e.symm
          simp [hij, this]

theorem Arch.getCap_putAll_congr (i : Nat) (l : List Owed) : ∀ a b : Arch, a.getCap i = b.getCap i → (Arch.putAll l a).getCap i = (Arch.putAll l b).getCap i := by
  induction l with
  | nil => intro a b h; exact h
  | cons o t ih => intro a b h; refine ih _ _ ?_; rw [Arch.getCap_put, Arch.getCap_put, h]

theorem Arch.getCap_putAll_filter (i : Nat) (r : PReg) (h : r ≠ .cap i) (l : List Owed) : ∀ a : Arch,
    (Arch.putAll (l.filter fun o => decide (o.reg ≠ r)) a).getCap i = (Arch.putAll l a).getCap i := by
  induction l with
  | nil => intro a; rfl
  | cons o t ih =>
    intro a
    by_cases hr : o.reg = r
    · rw [List.filter_cons_of_neg (by simp [hr]), ih a]
      refine Arch.getCap_putAll_congr i t _ _ ?_
      rw [Arch.getCap_put, hr]; simp [h]
    · rw [List.filter_cons_of_pos (by simp [hr])]
      exact ih _

theorem Arch.getCap_putAll_of_unwritten (i : Nat) (l : List Owed) : ∀ a : Arch, (∀ o ∈ l, o.reg ≠ .cap i) → (Arch.putAll l a).getCap i = a.getCap i := by
  induction l with
  | nil => intro a _; rfl
  | cons o t ih =>
    intro a h
    refine (ih _ (fun o ho => h o (by simp [ho]))).trans ?_
    rw [Arch.getCap_put]; simp [h o (by simp)]

/-! ## Core-local bits -/
theorem getLsbD_putBit (b : BitVec 4096) (n k : Nat) (v : Bool) :
    (putBit b n v).getLsbD k = if k = n ∧ k < 4096 then v else b.getLsbD k := by
  unfold putBit
  by_cases hk : k < 4096
  · cases v
    · simp [hk, BitVec.getLsbD_shiftLeft, BitVec.getLsbD_not]
      by_cases hkn : k = n
      · subst hkn; simp
      · by_cases h2 : k < n
        · simp [hkn, h2]
        · have : ¬ (k - n = 0) := by omega
          simp [hkn, h2]
          intro _ ; omega
    · simp [hk, BitVec.getLsbD_shiftLeft]
      by_cases hkn : k = n
      · subst hkn; simp
      · by_cases h2 : k < n
        · simp [hkn, h2]
        · simp [hkn, h2]
          intro hh ; omega
  · have : ¬ (k = n ∧ k < 4096) := by omega
    simp only [this, if_false]
    rw [BitVec.getLsbD_of_ge _ _ (by omega), BitVec.getLsbD_of_ge _ _ (by omega)]

theorem Arch.bit_put (a : Arch) (r : PReg) (v : Word) (c : Cap) (n : Nat) :
    (a.put r v c).bit n = if r = .z ∧ n = 0 then v.getLsbD 0 else a.bit n := by
  cases r with
  | k j => simp only [Arch.put]; split <;> simp [Arch.bit]
  | win j => simp [Arch.put, Arch.bit]
  | fp j => simp [Arch.put, Arch.bit]
  | cap j => simp only [Arch.put]; split <;> simp [Arch.bit]
  | z => simp only [Arch.put, Arch.bit, getLsbD_putBit]; by_cases h : n = 0 <;> simp [h]

theorem Arch.bit_putAll_congr (n : Nat) (l : List Owed) : ∀ a b : Arch, a.bit n = b.bit n → (Arch.putAll l a).bit n = (Arch.putAll l b).bit n := by
  induction l with
  | nil => intro a b h; exact h
  | cons o t ih => intro a b h; refine ih _ _ ?_; rw [Arch.bit_put, Arch.bit_put, h]

theorem Arch.bit_putAll_filter (n : Nat) (r : PReg) (h : r ≠ .z ∨ n ≠ 0) (l : List Owed) : ∀ a : Arch,
    (Arch.putAll (l.filter fun o => decide (o.reg ≠ r)) a).bit n = (Arch.putAll l a).bit n := by
  induction l with
  | nil => intro a; rfl
  | cons o t ih =>
    intro a
    by_cases hr : o.reg = r
    · rw [List.filter_cons_of_neg (by simp [hr]), ih a]
      refine Arch.bit_putAll_congr n t _ _ ?_
      rw [Arch.bit_put, hr]
      have : ¬ (r = .z ∧ n = 0) := by rintro ⟨h1, h2⟩; cases h <;> contradiction
      simp [this]
    · rw [List.filter_cons_of_pos (by simp [hr])]
      exact ih _

theorem Arch.bit_putAll_of_unwritten (n : Nat) (l : List Owed) : ∀ a : Arch, (n = 0 → ∀ o ∈ l, o.reg ≠ .z) → (Arch.putAll l a).bit n = a.bit n := by
  induction l with
  | nil => intro a _; rfl
  | cons o t ih =>
    intro a h
    refine (ih _ (fun hn o ho => h hn o (by simp [ho]))).trans ?_
    rw [Arch.bit_put]
    have : ¬ (o.reg = .z ∧ n = 0) := by rintro ⟨h1, h2⟩; exact h h2 o (by simp) h1
    simp [this]

/-! ## The named writes of a core -/

theorem Core.settled_get_wr (y : Core) (r : PReg) (v : Word) (hr : PReg.Plain r) (q : PReg) (hq : PReg.Plain q) :
    (y.wr r v).settleOwed.get q = if q = .k 0 then 0 else if q = r then v else y.settleOwed.get q := by
  rw [Core.get_settleOwed]
  by_cases h0 : q = .k 0
  · simp [h0]
  · simp only [h0, if_false]
    by_cases h : q = r
    · subst h
      simp only [Core.wr, Core.claim, pendingFp_claim_self, if_true, Option.getD_none]
      have e : ∀ (a : Arch), ({ y.arch with owed := y.arch.owed.filter fun o => decide (o.reg ≠ q) }.put q v {}).owed = y.arch.owed.filter fun o => decide (o.reg ≠ q) := by
        intro a; unfold Arch.put; cases q <;> simp <;> (try split) <;> rfl
      rw [e y.arch, Arch.get_putAll_of_unwritten q hq]
      · exact Arch.get_put_self _ _ _ _ hq h0
      · intro o ho; simp at ho; exact ho.2
    · simp only [h, if_false, Core.get_settleOwed, h0, Core.wr, Core.claim, pendingFp_claim_ne _ _ _ h]
      have e : ({ y.arch with owed := y.arch.owed.filter fun o => decide (o.reg ≠ r) }.put r v {}).owed = y.arch.owed.filter fun o => decide (o.reg ≠ r) := by
        unfold Arch.put; cases r <;> simp <;> (try split) <;> rfl
      congr 1
      rw [e, Arch.get_putAll_filter q r hq h]
      apply Arch.get_putAll_congr q hq
      rw [Arch.get_put_ne _ _ _ _ _ h hq.2]
      cases q <;> rfl

theorem Arch.put_owed (a : Arch) (r : PReg) (v : Word) (c : Cap) : (a.put r v c).owed = a.owed := by
  unfold Arch.put; cases r <;> simp <;> (try split) <;> rfl

theorem Core.settled_cr_wr (y : Core) (r : PReg) (v : Word) (hr : PReg.Plain r) (i : Nat) : (y.wr r v).settleOwed.cr i = y.settleOwed.cr i := by
  simp only [Core.cr, Core.settleOwed, Arch.foldl_put, Core.wr, Core.claim]
  show (Arch.putAll _ _).getCap i = (Arch.putAll _ _).getCap i
  rw [Arch.put_owed, Arch.getCap_putAll_filter i r (hr.1 i)]
  apply Arch.getCap_putAll_congr
  rw [Arch.getCap_put]; simp [hr.1 i]; rfl

theorem Core.settled_bit_wr (y : Core) (r : PReg) (v : Word) (hr : PReg.Plain r) (n : Nat) : (y.wr r v).settleOwed.arch.bit n = y.settleOwed.arch.bit n := by
  simp only [Core.settleOwed, Arch.foldl_put, Core.wr, Core.claim]
  show (Arch.putAll _ _).bit n = (Arch.putAll _ _).bit n
  rw [Arch.put_owed, Arch.bit_putAll_filter n r (.inl hr.2)]
  apply Arch.bit_putAll_congr
  rw [Arch.bit_put]; simp [hr.2]; rfl

/-! ## Writing a core-local bit -/
theorem Core.settled_get_wbit (y : Core) (k : Nat) (v : Bool) (q : PReg) (hq : PReg.Plain q) : (y.wbit k v).settleOwed.get q = y.settleOwed.get q := by
  simp only [Core.get_settleOwed]
  congr 2
  · unfold Core.wbit
    split
    · simp [Core.claim, pendingFp_claim_ne _ _ _ hq.2]
    · rfl
  · unfold Core.wbit
    split
    · simp only [Core.claim]
      rw [Arch.get_putAll_filter q .z hq hq.2]
      apply Arch.get_putAll_congr q hq
      cases q <;> first | rfl | (exact absurd rfl hq.2)
    · apply Arch.get_putAll_congr q hq
      cases q <;> first | rfl | (exact absurd rfl hq.2)

theorem Core.settled_cr_wbit (y : Core) (k : Nat) (v : Bool) (i : Nat) : (y.wbit k v).settleOwed.cr i = y.settleOwed.cr i := by
  simp only [Core.cr, Core.settleOwed, Arch.foldl_put]
  show (Arch.putAll _ _).getCap i = (Arch.putAll _ _).getCap i
  unfold Core.wbit
  split
  · simp only [Core.claim]
    rw [Arch.getCap_putAll_filter i .z (by simp)]
    apply Arch.getCap_putAll_congr; rfl
  · apply Arch.getCap_putAll_congr; rfl

theorem Core.settled_bit_wbit (y : Core) (k : Nat) (v : Bool) (n : Nat) :
    (y.wbit k v).settleOwed.arch.bit n = if n = k ∧ n < 4096 then v else y.settleOwed.arch.bit n := by
  simp only [Core.settleOwed, Arch.foldl_put]
  show (Arch.putAll _ _).bit n = if n = k ∧ n < 4096 then v else (Arch.putAll _ _).bit n
  unfold Core.wbit
  by_cases hk : k = 0
  · subst hk
    simp only [if_true, Core.claim]
    by_cases hn : n = 0
    · subst hn
      rw [Arch.bit_putAll_of_unwritten]
      · show (putBit _ 0 v).getLsbD 0 = _; rw [getLsbD_putBit]; simp
      · intro _ o ho; simp at ho; exact ho.2
    · rw [Arch.bit_putAll_filter n .z (.inr hn)]
      simp only [hn, false_and, if_false]
      apply Arch.bit_putAll_congr
      simp [Arch.bit, getLsbD_putBit, hn]
  · simp only [hk, if_false]
    by_cases hn : n = k ∧ n < 4096
    · simp only [hn, and_self, if_true]
      obtain ⟨h1, h2⟩ := hn
      subst h1
      rw [Arch.bit_putAll_of_unwritten]
      · show (putBit _ n v).getLsbD n = _; rw [getLsbD_putBit]; simp [h2]
      · intro h; exact absurd h hk
    · simp only [hn, if_false]
      apply Arch.bit_putAll_congr
      simp [Arch.bit, getLsbD_putBit, hn]

/-! ## Writing a capability register -/
theorem Core.settled_get_wcr (y : Core) (j : Nat) (v : Cap) (q : PReg) (hq : PReg.Plain q) : (y.wcr j v).settleOwed.get q = y.settleOwed.get q := by
  simp only [Core.get_settleOwed, Core.wcr, Core.claim, pendingFp_claim_ne _ _ _ (hq.1 j), Arch.put_owed]
  congr 2
  rw [Arch.get_putAll_filter q (.cap j) hq (hq.1 j)]
  apply Arch.get_putAll_congr q hq
  rw [Arch.get_put_ne _ _ _ _ _ (hq.1 j) hq.2]
  cases q <;> rfl

theorem Core.settled_cr_wcr (y : Core) (j : Nat) (v : Cap) (i : Nat) :
    (y.wcr j v).settleOwed.cr i = if i = 0 then {} else if i = j then v else y.settleOwed.cr i := by
  simp only [Core.cr, Core.settleOwed, Arch.foldl_put, Core.wcr, Core.claim]
  show (Arch.putAll _ _).getCap i = if i = 0 then {} else if i = j then v else (Arch.putAll _ _).getCap i
  rw [Arch.put_owed]
  by_cases h0 : i = 0
  · subst h0; simp [Arch.getCap]
  · simp only [h0, if_false]
    by_cases h : i = j
    · subst h
      simp only [if_true]
      rw [Arch.getCap_putAll_of_unwritten]
      · rw [Arch.getCap_put]; simp [h0]
      · intro o ho; simp at ho; exact ho.2
    · simp only [h, if_false]
      have h' : PReg.cap j ≠ .cap i := fun e => h (by injection e with e; exact e.symm)
      rw [Arch.getCap_putAll_filter i _ h']
      apply Arch.getCap_putAll_congr
      rw [Arch.getCap_put]; simp [h']; rfl

theorem Core.settled_bit_wcr (y : Core) (j : Nat) (v : Cap) (n : Nat) : (y.wcr j v).settleOwed.arch.bit n = y.settleOwed.arch.bit n := by
  simp only [Core.settleOwed, Arch.foldl_put, Core.wcr, Core.claim]
  show (Arch.putAll _ _).bit n = (Arch.putAll _ _).bit n
  rw [Arch.put_owed, Arch.bit_putAll_filter n _ (.inl (by simp))]
  apply Arch.bit_putAll_congr
  rw [Arch.bit_put]; simp; rfl

/-! ## A commit -/

@[simp] theorem Core.dropOwed_nil (x : Core) : x.dropOwed [] = x := by
  simp [Core.dropOwed]

/-- Floating-point operations with their destinations apart. -/
abbrev withoutDest (l : List FpOp) : List FpOp := l.map fun o => { o with dest := none }

theorem withoutDest_claim (l : List FpOp) (r : PReg) : withoutDest (l.map fun o => if o.dest = some r then { o with dest := none } else o) = withoutDest l := by
  simp [withoutDest, List.map_map]
  intro a _
  split <;> simp

/-- `y` is `x0` but for general and capability registers, core-local bits, and what is owed to them. -/
structure Core.SameBesideRegs (x0 y : Core) : Prop where
  arm : y.arch.arm = x0.arch.arm
  ttb : y.arch.ttb = x0.arch.ttb
  shs : y.arch.shs = x0.arch.shs
  wbase : y.arch.wbase = x0.arch.wbase
  wold : y.arch.wold = x0.arch.wold
  tcmp : y.arch.tcmp = x0.arch.tcmp
  pcc : y.arch.pcc = x0.arch.pcc
  fp : withoutDest y.fpq = withoutDest x0.fpq
  rest : { y with arch := x0.arch, fpq := x0.fpq } = x0

theorem Core.SameBesideRegs.refl (x : Core) : Core.SameBesideRegs x x := ⟨rfl, rfl, rfl, rfl, rfl, rfl, rfl, rfl, rfl⟩

theorem Arch.put_special (a : Arch) (r : PReg) (v : Word) (c : Cap) : (a.put r v c).arm = a.arm ∧ (a.put r v c).ttb = a.ttb ∧ (a.put r v c).shs = a.shs ∧
    (a.put r v c).wbase = a.wbase ∧ (a.put r v c).wold = a.wold ∧ (a.put r v c).tcmp = a.tcmp ∧ (a.put r v c).pcc = a.pcc := by
  unfold Arch.put; cases r <;> simp <;> (try split) <;> simp

theorem Core.SameBesideRegs.wr {x0 y : Core} (h : Core.SameBesideRegs x0 y) (r : PReg) (v : Word) : Core.SameBesideRegs x0 (y.wr r v) := by
  obtain ⟨h1, h2, h3, h4, h5, h6, h7⟩ := Arch.put_special { y.arch with owed := y.arch.owed.filter fun o => decide (o.reg ≠ r) } r v {}
  exact ⟨h1.trans h.arm, h2.trans h.ttb, h3.trans h.shs, h4.trans h.wbase, h5.trans h.wold, h6.trans h.tcmp, h7.trans h.pcc,
    (withoutDest_claim _ _).trans h.fp, h.rest⟩

theorem Core.SameBesideRegs.wcr {x0 y : Core} (h : Core.SameBesideRegs x0 y) (j : Nat) (v : Cap) : Core.SameBesideRegs x0 (y.wcr j v) := by
  obtain ⟨h1, h2, h3, h4, h5, h6, h7⟩ := Arch.put_special { y.arch with owed := y.arch.owed.filter fun o => decide (o.reg ≠ .cap j) } (.cap j) 0 v
  exact ⟨h1.trans h.arm, h2.trans h.ttb, h3.trans h.shs, h4.trans h.wbase, h5.trans h.wold, h6.trans h.tcmp, h7.trans h.pcc,
    (withoutDest_claim _ _).trans h.fp, h.rest⟩

theorem Core.SameBesideRegs.wbit {x0 y : Core} (h : Core.SameBesideRegs x0 y) (k : Nat) (v : Bool) : Core.SameBesideRegs x0 (y.wbit k v) := by
  unfold Core.wbit
  split
  · exact ⟨h.arm, h.ttb, h.shs, h.wbase, h.wold, h.tcmp, h.pcc, (withoutDest_claim _ _).trans h.fp, h.rest⟩
  · exact ⟨h.arm, h.ttb, h.shs, h.wbase, h.wold, h.tcmp, h.pcc, h.fp, h.rest⟩

theorem Arch.putAll_special (l : List Owed) : ∀ a : Arch, (Arch.putAll l a).arm = a.arm ∧ (Arch.putAll l a).ttb = a.ttb ∧ (Arch.putAll l a).shs = a.shs ∧
    (Arch.putAll l a).wbase = a.wbase ∧ (Arch.putAll l a).wold = a.wold ∧ (Arch.putAll l a).tcmp = a.tcmp ∧ (Arch.putAll l a).pcc = a.pcc := by
  induction l with
  | nil => intro a; exact ⟨rfl, rfl, rfl, rfl, rfl, rfl, rfl⟩
  | cons o t ih =>
    intro a
    obtain ⟨h1, h2, h3, h4, h5, h6, h7⟩ := Arch.put_special a o.reg o.word o.cap
    obtain ⟨g1, g2, g3, g4, g5, g6, g7⟩ := ih (a.put o.reg o.word o.cap)
    exact ⟨g1.trans h1, g2.trans h2, g3.trans h3, g4.trans h4, g5.trans h5, g6.trans h6, g7.trans h7⟩

/-- All that a commit does after an instruction that writes registers of its core and owes no load: the effect holds. -/
theorem Dev.commits_of_registers (d : Dev) (c : Nat) (y : Core) (e : Effect (d.core c)) (pc : Option Cap)
    (hs : Core.SameBesideRegs (d.core c) { y with arch := { y.arch with
      arm := (d.core c).arch.arm, ttb := (d.core c).arch.ttb, shs := (d.core c).arch.shs, wbase := (d.core c).arch.wbase
      wold := (d.core c).arch.wold, tcmp := (d.core c).arch.tcmp } })
    (hsp : y.arch.arm = e.arm ∧ y.arch.ttb = e.ttb ∧ y.arch.shs = e.shs ∧ y.arch.wbase = e.wbase ∧ y.arch.wold = e.wold ∧ y.arch.tcmp = e.tcmp)
    (hreg : ∀ r, PReg.Plain r → y.settleOwed.get r = if r = .k 0 then 0 else (e.reg r).getD ((d.core c).settleOwed.get r))
    (hcap : ∀ i, y.settleOwed.cr i = if i = 0 then {} else (e.cap i).getD ((d.core c).settleOwed.cr i))
    (hbit : ∀ n, y.settleOwed.arch.bit n = (e.bit n).getD ((d.core c).settleOwed.arch.bit n))
    (hp : e.pcc = pc.getD { (d.core c).arch.pcc with cursor := (d.core c).arch.pcc.cursor + 4 })
    (ho : e.owed = []) (hi : e.issued = []) :
    d.Commits c e (Dev.commit c { d := d.setCore c y, pcc := pc }) := by
  have hcore : (Dev.commit c { d := d.setCore c y, pcc := pc }).core c =
      (let x := y.settleOwed
       let a := { x.arch with pcc := pc.getD { x.arch.pcc with cursor := x.arch.pcc.cursor + 4 }, owed := [] }
       { x with arch := a, checkpoint := a, retry := { x.retry with count := 0 } }) := by
    simp [Dev.commit]
  obtain ⟨g1, g2, g3, g4, g5, g6, g7⟩ := Arch.putAll_special y.arch.owed y.arch
  have hpc : y.settleOwed.arch.pcc = (d.core c).arch.pcc := by
    simp only [Core.settleOwed, Arch.foldl_put]; exact g7.trans hs.pcc
  refine ⟨?_, ?_, ?_⟩
  · rw [hcore]
    refine ⟨?_, ?_, ?_, ?_, ?_, ?_, ?_, ?_, ?_, ?_⟩
    · intro r h1 h2
      rw [ho, Core.dropOwed_nil, ← hreg r ⟨h1, h2⟩]
      simp only [Core.get_eq]
      congr 1
    · intro i; rw [ho, Core.dropOwed_nil, ← hcap i]; rfl
    · intro n; rw [ho, Core.dropOwed_nil, ← hbit n]; rfl
    · simp only [Core.settleOwed, Arch.foldl_put]
      exact ⟨g1.trans hsp.1, g2.trans hsp.2.1, g3.trans hsp.2.2.1, g4.trans hsp.2.2.2.1, g5.trans hsp.2.2.2.2.1, g6.trans hsp.2.2.2.2.2⟩
    · rw [hp, ← hpc]
    · rw [ho]; rfl
    · rw [hi, List.append_nil]; exact hs.fp
    · rfl
    · have := congrArg Core.retry hs.rest
      simp only at this
      simp only [Core.settleOwed, this]
    · have := hs.rest
      simp only [Core.settleOwed]
      rw [← this]
  · intro k hk
    exact (Dev.core_onCore_ne _ _ hk).trans (Dev.core_setCore_ne _ _ hk)
  · simp [Dev.commit, Dev.onCore, Dev.setCore]

end Sys2Proof.Machine
end

