-- ==== Sys2Proof/Laws/Instr.lean ====
section
/-! SUPPORT. Laws/Instr.lean: how an instruction and an event of the device reach their meaning: what the shared frames of execution
answer, once for all commands. -/

namespace Sys2Proof.Machine

/-- An event of the device, with no thermal stop. -/
theorem State.act_running (s : State) (f : Dev → Dev) (h : s.dev.thermalStop = false) : s.act f = .next { s with dev := f s.dev } := by
  simp [State.act, h]

/-- An event of the device under a thermal stop. -/
theorem State.act_stopped (s : State) (f : Dev → Dev) (h : s.dev.thermalStop = true) : s.act f = .next s := by
  simp [State.act, h]

/-- An event of the device answers a next state with the same queue. -/
theorem State.act_keeps (s : State) (f : Dev → Dev) : ∃ d, s.act f = .next { s with dev := d } := by
  unfold State.act
  split
  · exact ⟨s.dev, rfl⟩
  · exact ⟨_, rfl⟩

/-- An event that `s.act` performs answers its device. -/
theorem answers_of_act {i : Instr} {q : List Instr} {d t : Dev} (f : Dev → Dev)
    (hx : exec i { pending := q, dev := d } = State.act { pending := q, dev := d } f) (h : d.thermalStop = false) (ht : f d = t) : Answers i q d t := by
  rw [Answers, hx, State.act_running _ _ h, ← ht]

/-- A core that is not ready, or has no pavilion, does nothing. -/
theorem Dev.runInstr_of_not_ready (d : Dev) (c : Nat) (body : Body) (h : d.coreReady c = false ∨ d.coreOwner c = none) : d.runInstr c body = d := by
  unfold Dev.runInstr Dev.begin
  rcases h with h | h
  · simp [h]
  · split
    · rfl
    · simp [h]

/-- A trap that is due is taken in place of the instruction. -/
theorem Dev.runInstr_of_due (d : Dev) (c p : Nat) (body : Body) (t : Trap) (h1 : d.coreReady c = true) (h2 : d.coreOwner c = some p)
    (h3 : d.dueTrap c p = some t) : d.runInstr c body = d.takeTrap c p t := by
  simp [Dev.runInstr, Dev.begin, h1, h2, h3]

/-- A fetch that fails its checks traps. -/
theorem Dev.runInstr_of_fetch_trap (d : Dev) (c p : Nat) (body : Body) (t : Stop) (h1 : d.coreReady c = true) (h2 : d.coreOwner c = some p)
    (h3 : d.dueTrap c p = none) (h4 : d.fetch c p = .error t) : d.runInstr c body = d.stopAt c p t := by
  simp [Dev.runInstr, Dev.begin, h1, h2, h3, h4]

/-- An instruction that issues is performed. -/
theorem Dev.runInstr_of_issues {d d' : Dev} {c p : Nat} (body : Body) (h : d.Issues c p d') : d.runInstr c body = d'.perform1 c p body := by
  simp [Dev.runInstr, Dev.begin, h.ready, h.owner, h.calm, h.fetched]

/-- A body that ends well commits. -/
theorem Dev.perform1_ok (d : Dev) (c p : Nat) (body : Body) (r : Done) (h : body c p d = .ok r) : d.perform1 c p body = Dev.commit c r := by
  simp [Dev.perform1, h]

/-- A body that traps. -/
theorem Dev.perform1_trap (d : Dev) (c p : Nat) (body : Body) (t : Stop) (h : body c p d = .error t) : d.perform1 c p body = d.stopAt c p t := by
  simp [Dev.perform1, h]

/-- A body over registers alone gives its core. -/
theorem regBody_ok (f : Core → Except Stop Core) (c p : Nat) (d : Dev) (y : Core) (h : f (d.core c) = .ok y) :
    regBody f c p d = .ok { d := d.setCore c y } := by
  simp [regBody, h]

/-- An instruction whose body traps takes that trap, on the device as the body leaves it. -/
theorem traps_of_body {i : Instr} {q : List Instr} {d d' : Dev} {c : Fin 256} {p : Nat} {t : Stop} (body : Body) (h : d.Issues c p d')
    (hx : exec i { pending := q, dev := d } = State.instr { pending := q, dev := d } c body) (ht : body c p d' = .error t) :
    Traps i q d (t.left.getD d') c p t.toTrap := by
  rw [Traps, Answers, hx, State.instr]
  simp [Dev.runInstr_of_issues body h, Dev.perform1, ht, Dev.stopAt]

/-- An instruction whose body commits completes with the effect of the commit. -/
theorem completes_of_body {i : Instr} {q : List Instr} {d d' : Dev} {c : Fin 256} {p : Nat} {r : Done} {e : Effect (d'.core c)} (body : Body)
    (h : d.Issues c p d') (hx : exec i { pending := q, dev := d } = State.instr { pending := q, dev := d } c body) (hr : body c p d' = .ok r)
    (he : d'.Commits c e (Dev.commit c r)) : Completes i q d d' c e := by
  refine ⟨_, ?_, he⟩
  rw [Answers, hx, State.instr]
  simp [Dev.runInstr_of_issues body h, Dev.perform1, hr]

/-- A general register is no capability register and no core-local bit. -/
theorem Arch.gpr_plain (a : Arch) (f : BitVec 5) : (a.gpr f).Plain := by
  unfold Arch.gpr
  split <;> simp [PReg.Plain]

end Sys2Proof.Machine
end

