-- ==== Sys2Proof/Laws/Memory.lean ====
section
/-! SUPPORT. Laws/Memory.lean: every operation on a memory keeps its canonical form, and what a read finds after a write. -/

namespace Sys2Proof.Machine

/-! ## Addressed memories -/

/-- Reading one byte after a write: the byte written there, or what was there before. -/
theorem Ram.get_write (m : Ram) (a : Nat) (b : Bytes) (k : Nat) :
    Table.get 0 (m.write a b).bytes k = if a ≤ k ∧ k < a + b.length then b.getD (k - a) 0 else Table.get 0 m.bytes k := by
  induction b generalizing m a with
  | nil => simp [Ram.write]
  | cons x b ih =>
    simp only [Ram.write, ih, List.length_cons, Table.get_set]
    by_cases hk : k = a
    · subst hk
      simp
    · by_cases hin : a + 1 ≤ k ∧ k < a + 1 + b.length
      · have hin' : a ≤ k ∧ k < a + (b.length + 1) := by omega
        obtain ⟨j, rfl⟩ : ∃ j, k = a + 1 + j := ⟨k - (a + 1), by omega⟩
        have h1 : a + 1 + j - (a + 1) = j := by omega
        have h2 : a + 1 + j - a = j + 1 := by omega
        simp [hin, hin', h1, h2]
      · have hin' : ¬(a ≤ k ∧ k < a + (b.length + 1)) := by omega
        rw [if_neg hin, if_neg hin', if_neg hk]

@[simp] theorem Ram.write_tags (m : Ram) (a : Nat) (b : Bytes) : (m.write a b).tags = m.tags := by
  induction b generalizing m a with
  | nil => rfl
  | cons x b ih => simp [Ram.write, ih]

@[simp] theorem Ram.write_poison (m : Ram) (a : Nat) (b : Bytes) : (m.write a b).poison = m.poison := by
  induction b generalizing m a with
  | nil => rfl
  | cons x b ih => simp [Ram.write, ih]

theorem Ram.Wf.write {m : Ram} (h : m.Wf) (a : Nat) (b : Bytes) : (m.write a b).Wf := by
  induction b generalizing m a with
  | nil => exact h
  | cons x b ih => exact ih (m := { m with bytes := Table.set 0 m.bytes a x }) ⟨Table.Wf.set h.1 a x, h.2⟩ (a + 1)

theorem Ram.Wf.setTag {m : Ram} (h : m.Wf) (g : Nat) (v : Bool) : (m.setTag g v).Wf := ⟨h.1, Table.Wf.set h.2.1 g v, h.2.2⟩

theorem Ram.Wf.setPoison {m : Ram} (h : m.Wf) (u : Nat) (v : Bool) : (m.setPoison u v).Wf := ⟨h.1, h.2.1, Table.Wf.set h.2.2 u v⟩

theorem Ram.Wf.setByte {m : Ram} (h : m.Wf) (a : Nat) (v : Byte) : ({ m with bytes := Table.set 0 m.bytes a v } : Ram).Wf :=
  ⟨Table.Wf.set h.1 a v, h.2⟩

theorem Ram.Wf.quench {m : Ram} (h : m.Wf) (a n unit : Nat) : (m.quench a n unit).Wf :=
  ⟨h.1.filter _, h.2.1.filter _, h.2.2.filter _⟩

/-- A fold of steps that each keep a property keeps it. -/
theorem foldl_keeps {α β : Type} {P : α → Prop} (f : α → β → α) (hf : ∀ a b, P a → P (f a b)) (l : List β) {a : α} (h : P a) :
    P (l.foldl f a) := by
  induction l generalizing a with
  | nil => exact h
  | cons b l ih => exact ih (hf a b h)

theorem Ram.Wf.putLine {m : Ram} (h : m.Wf) (a : Nat) (l : Line) : (m.putLine a l).Wf :=
  foldl_keeps _ (fun _ _ hm => (hm.setTag _ _).setPoison _ _) _ (h.write a _)

/-! ## The device's memories -/

/-- The reset memories are canonical: nothing is listed. -/
theorem reset_memory_wf : Memory.wf State.reset.dev.mem := by decide

theorem wf_putMemLine {d : Dev} (h : Memory.wf d.mem) (a : Nat) (l : Line) : Memory.wf (d.putMemLine a l).mem :=
  ⟨⟨h.1.1.putLine a l, h.1.2⟩, h.2⟩

theorem wf_setPbit {d : Dev} (h : Memory.wf d.mem) (p a : Nat) (v : Bool) : Memory.wf (d.setPbit p a v).mem :=
  ⟨h.1, h.2.1, Table.Wf.set h.2.2.1 _ v, h.2.2.2.1.erase _, h.2.2.2.2⟩

theorem wf_note {d : Dev} (h : Memory.wf d.mem) (p line : Nat) (was now : Line) : Memory.wf (d.note p line was now).mem := by
  unfold Dev.note
  split
  · exact h
  · exact h

theorem wf_bump {d : Dev} (h : Memory.wf d.mem) (e : Entry) (i p n : Nat) : Memory.wf (d.bump e i p n).mem := h

theorem wf_zeroBank {d : Dev} (h : Memory.wf d.mem) (b : Nat) : Memory.wf (d.zeroBank b).mem :=
  ⟨⟨h.1.1, ⟨h.1.2.1.1.filter _, h.1.2.1.2.1.filter _, h.1.2.1.2.2.filter _⟩, h.1.2.2⟩, h.2⟩

theorem wf_bankCleared {d : Dev} (h : Memory.wf d.mem) (b : Nat) : Memory.wf (d.bankCleared b).mem := by
  unfold Dev.bankCleared
  split
  · exact wf_zeroBank h b
  · exact h

theorem wf_awaitBanks {d : Dev} (h : Memory.wf d.mem) (line : Nat) : Memory.wf (d.awaitBanks line).mem := by
  refine foldl_keeps (P := fun (d : Dev) => Memory.wf d.mem) _ (fun d i hd => ?_) _ h
  split
  · exact wf_bankCleared hd _
  · exact hd

theorem wf_spadWrite {d : Dev} (h : Memory.wf d.mem) (p line : Nat) (mask : BitVec 64) (data : BitVec 512) (tags : BitVec 4) :
    Memory.wf (d.spadWrite p line mask data tags).mem := by
  have ha := wf_note (wf_awaitBanks h line) p line ((d.awaitBanks line).spadLine line)
    (((d.awaitBanks line).spadLine line).write mask data tags)
  unfold Dev.spadWrite
  dsimp only
  generalize ((d.awaitBanks line).spadLine line).write mask data tags = new at ha ⊢
  generalize (d.awaitBanks line).note p line _ new = n at ha ⊢
  refine ⟨⟨ha.1.1, ?_, ha.1.2.2⟩, ha.2⟩
  refine foldl_keeps (P := Ram.Wf) _ (fun s i hs => ?_) _ ?_
  · split
    · exact hs.setPoison _ _
    · exact hs
  · refine foldl_keeps (P := Ram.Wf) _ (fun s i hs => hs.setTag _ _) _ ?_
    refine foldl_keeps (P := Ram.Wf) _ (fun s i hs => ?_) _ ha.1.2.1
    split
    · exact hs.setByte _ _
    · exact hs

theorem wf_winWrite {d : Dev} (h : Memory.wf d.mem) (who p line : Nat) (mask : BitVec 64) (data : BitVec 512) :
    Memory.wf (d.winWrite who p line mask data).mem := by
  have ha := wf_note h p line (d.winLine p line) ((d.winLine p line).write mask data 0)
  unfold Dev.winWrite
  dsimp only
  generalize (d.winLine p line).write mask data 0 = new at ha ⊢
  generalize d.note p line _ new = n at ha ⊢
  refine ⟨⟨ha.1.1, ha.1.2.1, ?_⟩, ha.2⟩
  have hw : ((List.range 64).foldl (fun (w : Ram) i => if mask.getLsbD i then
      { w with bytes := Table.set 0 w.bytes (winKey p line + i) (BitVec.ofNat 8 (new.get i 1)) } else w) n.mem.win).Wf := by
    refine foldl_keeps (P := Ram.Wf) _ (fun s i hs => ?_) _ ha.1.2.2
    split
    · exact hs.setByte _ _
    · exact hs
  show Ram.Wf (if mask = BitVec.allOnes 64 then _ else _)
  split
  · exact hw.setPoison _ _
  · exact hw

theorem wf_winStoreApply (s : WinStore) {m : List Host.Cell} (h : Table.Wf 0 m) : Table.Wf 0 (s.apply m) := by
  refine foldl_keeps (P := Table.Wf 0) _ (fun m i hm => ?_) _ h
  split
  · exact Table.Wf.set hm _ _
  · exact hm

theorem wf_winPut {x : Mem} (h : Memory.wf x) (key : Nat) (l : List WinStore) : Memory.wf (x.winPut key l) :=
  ⟨h.1, ⟨foldl_keeps (P := Table.Wf 0) _ (fun _ s hm => wf_winStoreApply s hm) _ h.2.1.1, Table.Wf.set h.2.1.2 _ _⟩, h.2.2⟩

theorem wf_winPersist {d : Dev} (h : Memory.wf d.mem) (key : Nat) (cs : List Nat) : Memory.wf (d.winPersist key cs).mem :=
  wf_winPut h key _

theorem wf_winRebuild {d : Dev} (h : Memory.wf d.mem) (key : Nat) : Memory.wf (d.winRebuild key).mem :=
  ⟨h.1, ⟨foldl_keeps (P := Table.Wf 0) _ (fun _ _ hm => Table.Wf.set hm _ _) _ h.2.1.1, h.2.1.2⟩, h.2.2⟩

theorem wf_settleWindow {d : Dev} (h : Memory.wf d.mem) : Memory.wf d.settleWindow.mem :=
  foldl_keeps (P := Memory.wf) _ (fun _ s hm => wf_winPut hm _ [s]) _ h

end Sys2Proof.Machine
end

