-- ==== Sys2Proof/Laws/Messages.lean ====
section
/-! SUPPORT. Laws/Messages.lean: how a message of a session reaches its meaning, and a write of the dictionary its entry's rules. -/

namespace Sys2Proof.Machine

/-- A message taken from its queue is handled on the device without it. -/
theorem Dev.takeRx_of_takes {d d2 : Dev} {o : Rx} {type : Nat} (f : Dev → Dev) (h : d.Takes o type d2) : d.takeRx o type f = f d2 := by
  obtain ⟨h1, h2, h3⟩ := h
  unfold Dev.takeRx
  rw [if_pos ⟨h1, h2⟩, h3]

/-- The session that `withSess` finds. -/
theorem Dev.withSess_of_sess {d : Dev} {id : Nat} {s : Session} (f : Session → Dev) (h : d.sess id = some s) : d.withSess id f = f s := by
  unfold Dev.withSess
  rw [h]

/-- A message that a session hears is performed on the device with its host proved. -/
theorem Dev.sessRx_of_hears {d d3 : Dev} {o : Rx} {type : Nat} {s : Session} (f : Dev → Nat → Dev) (h : d.Hears o type d3 s) :
    d.sessRx o type f = f d3 o.msg.session.toNat := by
  obtain ⟨d2, s0, h1, h4, h5, h6, h7⟩ := h
  unfold Dev.sessRx
  rw [Dev.takeRx_of_takes _ h1]
  simp only [h4, if_neg h5]
  rw [← h6, Dev.withSess_of_sess _ h7]

/-- A message of the control stream with a new sequence is performed. -/
theorem Dev.ctlRx_of_hearsNew {d d3 : Dev} {o : Rx} {type : Nat} {s : Session} (f : Dev → Nat → Dev) (h : d.HearsNew o type d3 s) :
    d.ctlRx o type f = f d3 o.msg.session.toNat := by
  obtain ⟨h1, h2, h3⟩ := h
  have h4 : d3.sess o.msg.session.toNat = some s := by
    obtain ⟨_, _, _, _, _, _, h⟩ := h1
    exact h
  unfold Dev.ctlRx
  rw [Dev.sessRx_of_hears _ h1, Dev.withSess_of_sess _ h4]
  simp only [h2, h3]
  rfl

/-- A DICT message of its row, with a new sequence, is performed for its session. -/
theorem Dev.dictRx_of_hearsNew {d d3 : Dev} {o : Rx} {s : Session} {row : DictRow} (f : Dev → Session → DictReq → Dev)
    (hr : (DictReq.ofMsg o.msg).row = row) (h : d.HearsNew o 0x0B d3 s) : d.dictRx o row f = f d3 s (DictReq.ofMsg o.msg) := by
  have h4 : d3.sess o.msg.session.toNat = some s := by
    obtain ⟨⟨_, _, _, _, _, _, h⟩, _⟩ := h
    exact h
  unfold Dev.dictRx
  simp only [hr, ne_eq, not_true_eq_false, if_false]
  rw [Dev.ctlRx_of_hearsNew _ h, Dev.withSess_of_sess _ h4]

/-- A DICT message of another row only lets time pass. -/
theorem Dev.dictRx_of_other_row {d : Dev} {o : Rx} {row : DictRow} (f : Dev → Session → DictReq → Dev)
    (hr : (DictReq.ofMsg o.msg).row ≠ row) : d.dictRx o row f = d.netAt o.t := by
  simp [Dev.dictRx, hr]

/-- A write that passes checks 1 to 7 meets the rules of its entry's chapter, is answered, and is followed up where it took effect. -/
theorem Dev.writeRx_of_writes {d d1 : Dev} {o : Rx} {s : Session} {w : WriteOp} {row : DictRow} (apply : Dev → WriteOp → Verdict)
    (after : Dev → WriteOp → Dev) (h : d.Writes o row d1 s w) :
    d.writeRx o row apply after =
      (let x := apply d1 w
       let r := DictReq.ofMsg o.msg
       let t := x.dev.dictAnswer s o.msg.seq r x.reason w.entry.ty.code r.total r.total [] x.off
       if x.reason = 0 then after t w else t) := by
  obtain ⟨d3, hn, he, rfl⟩ := h.heard
  have hp := h.pav
  have hr := h.raw
  have hv := h.value
  have h5 := h.typed
  have h6 := h.segment
  have h7 := h.range
  have h8 := h.change
  unfold Dev.writeRx
  rw [Dev.dictRx_of_hearsNew _ h.row hn]
  simp only [he, h5.1, h5.2, h6.1, h6.2, ← hr, ← hv, ← hp, h7, h8]
  simp [firstReason, refuse]

end Sys2Proof.Machine
end

