-- ==== Sys2Proof/Tests/Slice0.lean ====
section
/-! SUPPORT. Tests/Slice0.lean: ill-formed commands, instruction words, single commands on small devices with results from the spec, and
for each statement a device and operands that meet its hypotheses. -/

namespace Sys2Proof

set_option Elab.async false

open Sys2Proof.Machine

/-! ## Ill-formed commands: one for each check -/

/-- A message with every field in range. -/
def tWfMsg : Msg := { version := 1, type := 3, flags := 0, session := 1, seq := 1, ack := 0, cls := 1, res0 := 0, iv := 1, payload := [],
                        crc := 0, tag := 0 }

/-- It as received on port 0. -/
def tWfRx (m : Msg) : Rx := { port := 0, pcp := 0, src := { ip := 0, udp := 0 }, pav := 0, addrSlot := 0, msg := m, t := 0 }

theorem test_wf_cmp : (Instr.cmp { core := 0, bd := 0, ra := 0, rb := 0, cond := 12 }).wf = false := by decide
theorem test_wf_fcmpS : (Instr.fcmpS { core := 0, bd := 0, ra := 0, rb := 0, cond := 13 }).wf = false := by decide
theorem test_wf_fcmpD : (Instr.fcmpD { core := 0, bd := 0, ra := 0, rb := 0, cond := 13 }).wf = false := by decide
theorem test_wf_time : (Instr.waitEnd { core := 0, t := 2 ^ 64 }).wf = false := by decide
theorem test_wf_seq : (Instr.request (tWfRx { tWfMsg with seq := 2 ^ 64 })).wf = false := by decide
theorem test_wf_ack : (Instr.request (tWfRx { tWfMsg with ack := 2 ^ 64 })).wf = false := by decide
theorem test_wf_iv : (Instr.request (tWfRx { tWfMsg with iv := 2 ^ 64 })).wf = false := by decide
theorem test_wf_payload : (Instr.request (tWfRx { tWfMsg with payload := List.replicate 8193 0 })).wf = false := by decide +kernel
theorem test_wf_wb : (Instr.wb { agent := 0, id := 2 ^ 64 }).wf = false := by decide
theorem test_wf_wback : (Instr.wback { agent := 0, id := 2 ^ 64 }).wf = false := by decide
theorem test_wf_wru : (Instr.wru { agent := 0, pav := 0, line := 0, off := 63, bytes := [0, 0] }).wf = false := by decide
theorem test_wf_req_record : (Instr.reqRecordComplete { session := 0, seq := 2 ^ 64, t := 0 }).wf = false := by decide
theorem test_wf_resend : (Instr.deliverResend { session := 0, seq := 2 ^ 64, t := 0 }).wf = false := by decide
theorem test_wf_nak_timer : (Instr.twinNakTimer { session := 0, control := false, seq := 2 ^ 64, t := 0 }).wf = false := by decide
theorem test_wf_window_line : (Instr.windowLineWrite { pav := 0, line := 2 ^ 27, t := 0 }).wf = false := by decide
theorem test_wf_finding : (Instr.hearthScrub { findings := [(.window 0 (2 ^ 27), .lost)], t := 0 }).wf = false := by decide
theorem test_wf_pace : (∀ n ∈ [((65536 : Nat), (0 : Nat), (0 : Nat), (0 : Nat)), (0, 65536, 0, 0), (0, 0, 65536, 0), (0, 0, 0, 65536)],
    (Instr.paceSample { cluster := 0, r0 := n.1, r1 := n.2.1, r2 := n.2.2.1, r3 := n.2.2.2, t := 0 }).wf = false) := by decide
theorem test_wf_governor :
    let i (pace loadMv draw w partMv pct : Nat) : Bool := (Instr.governorEvaluation {
      cluster := 0, pace := List.replicate pace 0, loadMv := loadMv, draw := List.replicate draw w, partMv := partMv, pct := pct, t := 0 }).wf
    i 31 65535 5 65535 65535 100 = true ∧ i 30 0 5 0 0 0 = false ∧ i 31 65536 5 0 0 0 = false ∧ i 31 0 4 0 0 0 = false ∧ i 31 0 5 65536 0 0 = false ∧
      i 31 0 5 0 65536 0 = false ∧ i 31 0 5 0 0 101 = false := by decide
theorem test_wf_frame : (Instr.frameReceive { port := 0, bytes := List.replicate 9213 0, fecGood := 0, fecBad := 0, t := 0 }).wf = false := by decide +kernel
theorem test_wf_pfc : (Instr.pfcFrame { port := 0, enable := 0, times := [0] }).wf = false := by decide
theorem test_wf_block : (∀ i ∈ [Instr.hello, .dataBlock, .controlBlock, .linkAckBlock, .linkNakBlock],
    (i { link := 0, bytes := List.replicate 269 0, opensRun := false, broken := false, fecGood := 0, fecBad := 0, t := 0 }).wf = false) := by decide +kernel
theorem test_wf_op_message : (∀ i ∈ [Instr.opened, .rdata, .final, .controlReply],
    (i { link := 0, payload := List.replicate 257 0, t := 0 }).wf = false) := by decide +kernel
theorem test_wf_sync : (Instr.ptpSync { port := 0, domain := 0, sent := 2 ^ 64, t := 0 }).wf = false := by decide
theorem test_wf_delay_got : (Instr.delayResp { port := 0, domain := 0, got := 2 ^ 64, interval := 0, t := 0 }).wf = false := by decide
theorem test_wf_delay_interval : (Instr.delayResp { port := 0, domain := 0, got := 0, interval := 2 ^ 32, t := 0 }).wf = false := by decide
theorem test_wf_ucode_slots : (Instr.microcodeLoad { failed := [3, 3], t := 0 }).wf = false := by decide
theorem test_wf_stacks : (Instr.memoryQuenchDone { failed := [3, 3], t := 0 }).wf = false := by decide
theorem test_wf_scan : (Instr.hearthReplayScan { findings := [(.window 0 (2 ^ 27), .lost)], t := 0 }).wf = false := by decide
theorem test_wf_temperature : (∀ i ∈ [Instr.thermAssert, .thermRelease, .thermalStop], ∀ v ∈ [(-32769 : Int), 32768],
    (i { die := 0, tj := v, t := 0 }).wf = false) := by decide
theorem test_wf_patrol : (Instr.patrolRead { stack := 0, line := 36 * 2 ^ 24, finding := .good, upper := false, t := 0 }).wf = false := by decide

/-! ## Instruction words: the worked encoding of chapter 9, then words written out from Tables 9.1 to 9.18 -/

theorem test_decode_chst : decodeWord 0 0x2E98C980 = some (.chst { core := 0, rd := 20, ra := 24, rb := 25, cx := 3 }) := by decide +kernel
theorem test_decode_bc : decodeWord 0 0xE400000F = some (.bc { core := 0, ba := 0, off := 15 }) := by decide +kernel
theorem test_decode_wait : decodeWord 0 0xF8009000 = some (.wait { core := 0, rd := 0, cx := 0, n12 := 0 }) := by decide +kernel
theorem test_decode_btac : decodeWord 0 0x6EA01011 = some (.btac { core := 0, acq := true, rel := false, ra := 0, imm := 0x1011 }) := by
  decide +kernel
theorem test_decode_ldi : decodeWord 0 0x56A00020 = some (.ldi { core := 0, rd := 21, ra := 0, imm := 0x20 }) := by decide +kernel
theorem test_decode_bc_back : decodeWord 0 0xE4003FFD = some (.bc { core := 0, ba := 0, off := 0x3FFD }) := by decide +kernel

/-- ALU: OP 0x01, RD 1, RA 2, RB 3, FN F 1, W 0, op 0x01. -/
theorem test_decode_sub : decodeWord 7 (0b000001_00001_00010_00011_0000_1000001 : BitVec 32) =
    some (.sub { core := 7, rd := 1, ra := 2, rb := 3, w := false, f := true }) := by decide +kernel
/-- MULDIV: OP 0x02, W 1, op 0x04. -/
theorem test_decode_div : decodeWord 0 (0b000010_00001_00010_00011_0000_0100100 : BitVec 32) =
    some (.div { core := 0, rd := 1, ra := 2, rb := 3, w := true, f := false }) := by decide +kernel
/-- CMP: OP 0x03, BD 0x208, RA 2, RB 3, COND 0xB. -/
theorem test_decode_cmp : decodeWord 0 (0b000011_001000001000_00010_00011_1011 : BitVec 32) =
    some (.cmp { core := 0, bd := 0x208, ra := 2, rb := 3, cond := 0xB }) := by decide +kernel
/-- CMP with COND 12 is reserved (R279). -/
theorem test_decode_cmp_reserved : decodeWord 0 (0b000011_001000001000_00010_00011_1100 : BitVec 32) = none := by decide +kernel
/-- FP: OP 0x06, P 1, op 0x14. -/
theorem test_decode_fcvt : decodeWord 0 (0b000110_00001_00010_00000_00000_1_10100 : BitVec 32) =
    some (.fcvtLuz { core := 0, fd := 1, fa := 2, fb := 0, p := true }) := by decide +kernel
/-- FMA: OP 0x07, FC 4, P 0, op 0x02. -/
theorem test_decode_fnmadd : decodeWord 0 (0b000111_00001_00010_00011_00100_0_00010 : BitVec 32) =
    some (.fnmadd { core := 0, fd := 1, fa := 2, fb := 3, fc := 4, p := false }) := by decide +kernel
/-- CAP: OP 0x08, CX 9, FN 0x05. -/
theorem test_decode_sealto : decodeWord 0 (0b001000_00001_00010_00011_1001_0000101 : BitVec 32) =
    some (.sealto { core := 0, rd := 1, ra := 2, rb := 3, cx := 9 }) := by decide +kernel
/-- DEC: OP 0x09, CX 4, FN op 0 and L − 1 = 2 (the worked example of chapter 10). -/
theorem test_decode_dadd : decodeWord 0 (0b001001_00001_00010_00011_0100_0000010 : BitVec 32) =
    some (.dadd { core := 0, rd := 1, ra := 2, rb := 3, cx := 4, l := 2, back := [], backB := [] }) := by decide +kernel
/-- BLK: OP 0x0A, FN 0x01. -/
theorem test_decode_crcm : decodeWord 0 (0b001010_00001_00010_00011_0100_0000001 : BitVec 32) =
    some (.crcm { core := 0, rd := 1, ra := 2, rb := 3, cx := 4, stop := none, back := [] }) := by decide +kernel
/-- BOPN: OP 0x0D, BD 0x200, BA 0x001, BFN 3. -/
theorem test_decode_bopn : decodeWord 0 (0b001101_001000000000_000000000001_11 : BitVec 32) =
    some (.bopn { core := 0, bd := 0x200, ba := 1, bfn := 3 }) := by decide +kernel
/-- LD.L (OP 0x26): RD 17, CS 2, RB 3, OFF12 0. -/
theorem test_decode_ldL : decodeWord 0 (0b100110_10001_0010_00011_000000000000 : BitVec 32) =
    some (.ldL { core := 0, rd := 17, cs := 2, rb := 3, off := 0, back := [], ecc := .good }) := by decide +kernel
/-- MX: OP 0x31, sub 7, OFF8 0x80. -/
theorem test_decode_stRL : decodeWord 0 (0b110001_10001_0010_00011_0111_10000000 : BitVec 32) =
    some (.stRL { core := 0, rd := 17, cs := 2, rb := 3, off := 0x80 }) := by decide +kernel
/-- ATOM: OP 0x32, RS 5, sub 1, MK acquire only, SZ 1. -/
theorem test_decode_cas : decodeWord 0 (0b110010_00001_0010_00011_00101_0001_10_1 : BitVec 32) =
    some (.cas { core := 0, rd := 1, cs := 2, rb := 3, rs := 5, acq := true, rel := false, sz := true }) := by decide +kernel
/-- SYS: OP 0x3E, RD 4, CX 0, FN 0x0A, N12 0x100. -/
theorem test_decode_rsr : decodeWord 0 (0b111110_00100_0000_01010_000100000000 : BitVec 32) =
    some (.rsr { core := 0, rd := 4, cx := 0, n12 := 0x100 }) := by decide +kernel
/-- Major opcode 0x00 is not assigned (Table 9.2). -/
theorem test_decode_unassigned : decodeWord 0 0 = none := by decide +kernel
/-- The table of operations gives its rows no bits. -/
theorem test_table_word : decodeTableWord 32 0x2E98C980 = none := rfl
/-! ## A small device: core 0 of pavilion 1, which holds the scratchpad banks of cluster 0 and runs from scratchpad -/

/-- The first address of cluster 0's scratchpad. -/
def tBase : Nat := 0x3DC0000000

/-- The root capability with its cursor in the scratchpad. -/
def tCap (off : Nat) : Cap := { rootCap with cursor := BitVec.ofNat 38 (tBase + off) }

/-- Registers with code at the scratchpad's first byte, data at c1 = +0x100 and a stack at c15 = +0x1000. -/
def tArch : Arch := { pcc := tCap 0, caps := [(1, tCap 0x100), (15, tCap 0x1000)] }

/-- The device of a core with these registers. -/
def tDevX (x : Core) : Dev where
  dict := (({} : Dev).wr R.pav_STATE 2 1).wr R.pav_CORES 1 1 |>.dict
  cores := [(0, x)]
  mem := { banks := (List.range 32).map fun k => (k, .held 1) }

/-- The core that runs with these registers. -/
def tCore (a : Arch) : Core := { run := .running, arch := a, checkpoint := a, exArch := a }

/-- The device of a core that runs with these registers. -/
def tDev (a : Arch := tArch) : Dev := tDevX (tCore a)

/-- Values of k1, k2 and k3. -/
def tK (a b c : Word) : Arch := { tArch with k := [(1, a), (2, b), (3, c)].filter fun e => decide (e.2 ≠ 0) }

/-- The device after a command. -/
def tRun (i : Instr) (d : Dev) : Dev :=
  match exec i { pending := [], dev := d } with
  | .next s => s.dev
  | .fault _ => {}
  | .refused _ => {}

/-- The device once core 0 has fetched its next instruction. -/
def tFet (d : Dev) : Dev :=
  match d.fetch 0 1 with
  | .ok d => d
  | .error _ => {}

/-- Core 0 after a command. -/
def tX (i : Instr) (d : Dev) : Core := (tRun i d).core 0

/-- A general register of core 0. -/
def tGr (i : Instr) (d : Dev) (r : BitVec 5) : Nat := ((tX i d).gr r).toNat

/-- Z, N, C and V of core 0. -/
def tZncv (i : Instr) (d : Dev) : List Bool := (List.range 4).map (tX i d).arch.bit

/-- Operands RD 3, RA 1, RB 2. -/
def tA (w f : Bool) : OpA := { core := 0, rd := 3, ra := 1, rb := 2, w := w, f := f }

/-- The core comes to its next instruction: the hypothesis of every statement about an instruction. -/
theorem test_issues : tDev.Issues 0 1 (tFet tDev) :=
  ⟨by decide +kernel, by decide +kernel, by decide +kernel, by decide +kernel⟩

/-! ## Integer instructions: Tables 9.3 to 9.5, 10.1 -/

theorem test_add_wraps : tGr (.add (tA false true)) (tDev (tK (-1) 1 9)) 3 = 0 ∧
    tZncv (.add (tA false true)) (tDev (tK (-1) 1 9)) = [true, false, true, false] := by decide +kernel
theorem test_add_overflow_w : tGr (.add (tA true true)) (tDev (tK 0x7FFFFFFF 1 0)) 3 = 0xFFFFFFFF80000000 ∧
    tZncv (.add (tA true true)) (tDev (tK 0x7FFFFFFF 1 0)) = [false, true, false, true] := by decide +kernel
theorem test_sub_borrow : tGr (.sub (tA false true)) (tDev (tK 1 2 0)) 3 = 0xFFFFFFFFFFFFFFFF ∧
    tZncv (.sub (tA false true)) (tDev (tK 1 2 0)) = [false, true, true, false] := by decide +kernel
theorem test_add_moves_on : (tX (.add (tA false false)) tDev).arch.pcc.cursor.toNat = tBase + 4 := by decide +kernel
theorem test_k0_reads_zero : tGr (.add { tA false false with rd := 0 }) (tDev (tK 5 6 0)) 0 = 0 := by decide +kernel
theorem test_andn : tGr (.andn (tA false false)) (tDev (tK 0xFF 0x0F 0)) 3 = 0xF0 := by decide +kernel
theorem test_shl_last_bit : tZncv (.shl (tA false true)) (tDev (tK 0x8000000000000000 1 0)) = [true, false, true, false] := by decide +kernel
theorem test_sar_w : tGr (.sar (tA true false)) (tDev (tK 0x80000000 4 0)) 3 = 0xFFFFFFFFF8000000 := by decide +kernel
theorem test_ror_w : tGr (.ror (tA true false)) (tDev (tK 1 1 0)) 3 = 0xFFFFFFFF80000000 := by decide +kernel
theorem test_min_signed : tGr (.minR (tA false false)) (tDev (tK (-1) 1 0)) 3 = 0xFFFFFFFFFFFFFFFF ∧
    tGr (.minu (tA false false)) (tDev (tK (-1) 1 0)) 3 = 1 := by decide +kernel
theorem test_clz : tGr (.clz (tA true false)) (tDev (tK 1 0 0)) 3 = 31 ∧ tGr (.clz (tA false false)) (tDev (tK 0 0 0)) 3 = 64 := by decide +kernel
theorem test_popc : tGr (.popc (tA false false)) (tDev (tK (-1) 0 0)) 3 = 64 := by decide +kernel
theorem test_mulhu : tGr (.mulhu (tA false false)) (tDev (tK (-1) (-1) 0)) 3 = 0xFFFFFFFFFFFFFFFE := by decide +kernel
theorem test_mulh : tGr (.mulh (tA false false)) (tDev (tK (-1) (-1) 0)) 3 = 0 := by decide +kernel
/-- Chapter 10's example: −7 and 2 give −3 and −1, 7 and −2 give −3 and 1. -/
theorem test_div : tGr (.div (tA false false)) (tDev (tK (-7) 2 0)) 3 = 2 ^ 64 - 3 ∧ tGr (.rem (tA false false)) (tDev (tK (-7) 2 0)) 3 = 2 ^ 64 - 1 ∧
    tGr (.div (tA false false)) (tDev (tK 7 (-2) 0)) 3 = 2 ^ 64 - 3 ∧ tGr (.rem (tA false false)) (tDev (tK 7 (-2) 0)) 3 = 1 := by decide +kernel
/-- MIN ÷ −1 (R310): the quotient wraps, and V and DVO are set. -/
theorem test_div_min : tGr (.div (tA false false)) (tDev (tK 0x8000000000000000 (-1) 0)) 3 = 0x8000000000000000 ∧
    (tX (.div (tA false false)) (tDev (tK 0x8000000000000000 (-1) 0))).arch.bit 3 = true ∧
    (tX (.div (tA false false)) (tDev (tK 0x8000000000000000 (-1) 0))).arch.bit 0x1F = true := by decide +kernel
theorem test_addi_sign : tGr (.addi { core := 0, rd := 3, ra := 1, imm := 0xFFFF }) (tDev (tK 1 0 7)) 3 = 0 := by decide +kernel
theorem test_slo : tGr (.slo { core := 0, rd := 1, ra := 1, imm := 0x5678 }) (tDev (tK 0x1234 0 0)) 1 = 0x12345678 := by decide +kernel
theorem test_cmpi : tZncv (.cmpi { core := 0, rd := 0, ra := 1, imm := 5 }) (tDev (tK 5 0 0)) = [true, false, false, false] := by decide +kernel
theorem test_cmp_lt : (tX (.cmp { core := 0, bd := 0x208, ra := 1, rb := 2, cond := 2 }) (tDev (tK (-1) 1 0))).arch.bit 0x208 = true ∧
    (tX (.cmp { core := 0, bd := 0x208, ra := 1, rb := 2, cond := 6 }) (tDev (tK (-1) 1 0))).arch.bit 0x208 = false := by decide +kernel
theorem test_bop_xor : (tX (.bop { core := 0, bd := 0x200, ba := 0, bfn := 3 }) (tDev { tArch with bits := 1 })).arch.bit 0x200 = true := by
  decide +kernel

/-! ## Floating point: Tables 10.5 and 10.6, with M the largest binary64 number and d the least -/

/-- binary64 M and d, and their negations. -/
def tM : Nat := 0x7FEFFFFFFFFFFFFF
/-- The least positive binary64 number. -/
def td : Nat := 1
/-- A binary64 number negated. -/
def tNeg (v : Nat) : Nat := v + 0x8000000000000000
/-- The flags of Table 10.3. -/
def tNV : FFlags := 1
/-- Inexact, with underflow and overflow. -/
def tUFNX : FFlags := 0x18
/-- Overflow and inexact. -/
def tOFNX : FFlags := 0x14

theorem test_fadd_overflows : fmt64.add .rne tM tM false = (0x7FF0000000000000, tOFNX) ∧ fmt64.add .rtz tM tM false = (tM, tOFNX) := by decide +kernel
theorem test_fsub_zero : fmt64.add .rne tM tM true = (0, 0) ∧ fmt64.add .rdn tM tM true = (tNeg 0, 0) := by decide +kernel
theorem test_fadd_subnormal : fmt64.add .rne td td false = (2, 0) ∧ fmt64.add .rne tM td false = (tM, 0x10) := by decide +kernel
theorem test_fmul : fmt64.mul .rup td td = (td, tUFNX) ∧ fmt64.mul .rne (tNeg td) td = (tNeg 0, tUFNX) ∧
    fmt64.mul .rna td 0x3FE0000000000000 = (td, tUFNX) ∧ fmt64.mul .rne tM td = (0x3CCFFFFFFFFFFFFF, 0) := by decide +kernel
theorem test_fdiv : fmt64.div .rtz tM td = (tM, tOFNX) ∧ fmt64.div .rup 0x3FF0000000000000 tM = (0x0004000000000001, tUFNX) ∧
    fmt64.div .rne td 0 = (0x7FF0000000000000, 2) := by decide +kernel
theorem test_fsqrt : fmt64.sqrt .rne td = (0x1E60000000000000, 0) ∧ fmt64.sqrt .rup tM = (0x5FF0000000000000, 0x10) ∧
    fmt64.sqrt .rne (tNeg td) = (0x7FF8000000000000, tNV) := by decide +kernel
theorem test_fma : fmt64.fma .rne tM 0x4000000000000000 (tNeg tM) false false = (tM, 0) ∧
    fmt64.fma .rup td td td false false = (2, tUFNX) := by decide +kernel
theorem test_convert : convert fmt64 fmt32 .rdn tM = (0x7F7FFFFF, tOFNX) ∧ convert fmt64 fmt32 .rup td = (1, tUFNX) ∧
    convert fmt32 fmt64 .rne 1 = (0x36A0000000000000, 0) ∧ convert fmt32 fmt64 .rne 0x7F7FFFFF = (0x47EFFFFFE0000000, 0) := by decide +kernel
theorem test_to_int : fmt64.toInt .rne tM false = (0x7FFFFFFFFFFFFFFF, tNV) ∧ fmt64.toInt .rup td false = (1, 0x10) ∧
    fmt64.toInt .rdn (tNeg td) true = (0, tNV) ∧ fmt64.toInt .rdn (tNeg td) false = (0xFFFFFFFFFFFFFFFF, 0x10) := by decide +kernel
theorem test_rint : fmt64.rint .rup td = (0x3FF0000000000000, 0x10) ∧ fmt64.rint .rdn (tNeg td) = (0xBFF0000000000000, 0x10) := by decide +kernel
theorem test_binary32 : fmt32.mul .rne 0x7F7FFFFF 1 = (0x34FFFFFF, 0) ∧ fmt32.sqrt .rup 1 = (0x1A3504F4, 0x10) ∧
    fmt32.div .rup 0x3F800000 0x7F7FFFFF = (0x00200001, tUFNX) := by decide +kernel
/-- FADD of M and M under RNE issues, and its result is read at once while its flags wait (R267, R329). -/
theorem test_fadd_issues :
    let x := tX (.fadd { core := 0, fd := 2, fa := 1, fb := 1, p := true }) (tDev { tArch with f := [(1, 0x7FEFFFFFFFFFFFFF)] })
    (x.fr 2).toNat = 0x7FF0000000000000 ∧ x.fpq.length = 1 ∧ x.arch.bit 0x00A = false := by decide +kernel
theorem test_fcmp_lt : (tX (.fcmpD { core := 0, bd := 0x200, ra := 1, rb := 2, cond := 2 })
    (tDev { tArch with f := [(1, 0x8000000000000001), (2, 0x8000000000000000)] })).arch.bit 0x200 = true := by decide +kernel
theorem test_fneg_single : ((tX (.fneg { core := 0, fd := 2, fa := 1, fb := 0, p := false })
    (tDev { tArch with f := [(1, 0xFFFFFFFF3F800000)] })).fr 2).toNat = 0xBF800000 := by decide +kernel

/-! ## Memory, bits and windows -/

/-- Chapter 8's example: the ADD after a load still reads the old w9, and its successor the loaded one (R267). -/
theorem test_load_delay :
    let d := { tDev { tArch with k := [(3, 0x40)], win := [(9, 7)] } with
      mem := { tDev.mem with spad := { bytes := [(0x140, 5)] } } }
    let d1 := tRun (.ldL { core := 0, rd := 17, cs := 1, rb := 3, off := 0, back := [], ecc := .good }) d
    let d2 := tRun (.add { core := 0, rd := 18, ra := 17, rb := 17, w := false, f := false }) d1
    let d3 := tRun (.add { core := 0, rd := 19, ra := 17, rb := 17, w := false, f := false }) d2
    ((d3.core 0).gr 18).toNat = 14 ∧ ((d3.core 0).gr 19).toNat = 10 := by decide +kernel
theorem test_store_load :
    let d1 := tRun (.stH { core := 0, rd := 1, cs := 1, rb := 0, off := 2 }) (tDev (tK 0x8001 0 0))
    let d2 := tRun (.ldH { core := 0, rd := 2, cs := 1, rb := 0, off := 2, back := [], ecc := .good }) d1
    (d2.core 0).arch.owed = [⟨.k 2, 0xFFFFFFFFFFFF8001, {}⟩] := by decide +kernel
theorem test_store_little_endian :
    let d := (tRun (.stW { core := 0, rd := 1, cs := 1, rb := 0, off := 0 }) (tDev (tK 0x11223344 0 0))).drainAll 0 1
    d.mem.spad.bytes = [(0x100, 0x44), (0x101, 0x33), (0x102, 0x22), (0x103, 0x11)] := by decide +kernel
theorem test_stc_tag :
    let d := (tRun (.stc { core := 0, rd := 1, cs := 1, rb := 0, off := 0 }) tDev).drainAll 0 1
    d.mem.spad.tags = [(0x10, true)] := by decide +kernel
theorem test_misaligned : tDev.access 1 (tCap 0x102) (tBase + 0x102 : Nat) 4 0x80 4 = .error { num := 0x06, fault := tBase + 0x102 } := by
  decide +kernel
/-- R257: a sum below zero traps with its low 38 bits. -/
theorem test_ea_range : tDev.access 1 (tCap 0) (-8) 8 0x80 8 = .error { num := 0x03, fault := 2 ^ 38 - 8 } := by decide +kernel
theorem test_cas :
    let d := { tDev (tK 5 9 0) with mem := { tDev.mem with spad := { bytes := [(0x100, 5)] } } }
    let d1 := tRun (.cas { core := 0, rd := 1, cs := 1, rb := 0, rs := 2, acq := true, rel := true, sz := false }) d
    d1.mem.spad.bytes = [(0x100, 9)] ∧ (d1.core 0).arch.owed = [⟨.k 1, 5, {}⟩, ⟨.z, 1, {}⟩] := by decide +kernel
theorem test_amin_word :
    let d := { tDev (tK 1 1 0) with mem := { tDev.mem with spad := { bytes := [(0x104, 0xFF), (0x105, 0xFF), (0x106, 0xFF), (0x107, 0xFF)] } } }
    let d1 := tRun (.amin { core := 0, rd := 3, cs := 1, rb := 0, rs := 2, acq := false, rel := false, sz := true })
      { d with cores := [(0, { d.core 0 with arch := { (d.core 0).arch with caps := [(1, tCap 0x104)] } })] }
    d1.mem.spad.bytes = d.mem.spad.bytes ∧ (d1.core 0).arch.owed = [⟨.k 3, 0xFFFFFFFFFFFFFFFF, {}⟩] := by decide +kernel
theorem test_btas :
    let d1 := tRun (.btas { core := 0, acq := true, rel := false, ra := 0, imm := 0x2000 }) tDev
    d1.pbit 1 0x2000 = true ∧ (d1.core 0).arch.owed = [⟨.z, 0, {}⟩] := by decide +kernel
/-- Chapter 8's example, step 3: with WBASE 30 and WOLD 0 a WSPILL leaves WOLD 2 and Z = 1. -/
theorem test_wspill :
    let x := tX (.wspill { core := 0, rd := 0, cs := 1, rb := 0, off := 0 }) (tDev { tArch with wbase := 30 })
    x.arch.wold = 2 ∧ x.arch.bit 0 = true := by decide +kernel
/-- Step 7: with WBASE and WOLD 4 a WFILL leaves WOLD 2. -/
theorem test_wfill :
    let x := tX (.wfill { core := 0, rd := 0, cs := 1, rb := 0, off := 0, back := [], ecc := .good }) (tDev { tArch with wbase := 4, wold := 4 })
    x.arch.wold = 2 ∧ x.arch.bit 0 = true := by decide +kernel

/-! ## Control transfers, traps and system registers -/

theorem test_call :
    let x := tX (.call { core := 0, rd := 0, ra := 0, imm := 4 }) tDev
    x.arch.pcc.cursor.toNat = tBase + 16 ∧ x.arch.wbase = 2 ∧ (x.gr 15).toNat = tBase + 4 := by decide +kernel
theorem test_branch : (tX (.bc { core := 0, ba := 0, off := 0x10 }) tDev).arch.pcc.cursor.toNat = tBase + 0x40 ∧
    (tX (.bs { core := 0, ba := 0, off := 0x10 }) tDev).arch.pcc.cursor.toNat = tBase + 4 := by decide +kernel
theorem test_rsr_coreid : tGr (.rsr { core := 0, rd := 3, cx := 0, n12 := 0x101 }) tDev 3 = 0x10000 := by decide +kernel
theorem test_wsr_tcmp : (tX (.wsr { core := 0, rd := 1, cx := 0, n12 := 1 }) (tDev (tK 77 0 0))).arch.tcmp = 77 := by decide +kernel
theorem test_arm : (tX (.arm { core := 0, rd := 0, cx := 0, n12 := 0x011 }) tDev).arch.arm = 2 ^ 0x11 := by decide +kernel

/-- Registers with a trap table at +0x2000 whose entry 0x40 is a sealed entry capability at +0x40. -/
def tTrapArch : Arch := { tArch with ttb := tCap 0x2000, k := [(1, 5)] }
/-- The device with that table. -/
def tTrapDev : Dev :=
  let e : Cap := { tCap 0x40 with otype := 1 }
  { tDev tTrapArch with mem := { tDev.mem with spad := (({} : Ram).write 0x2400 e.bytes).setTag 0x240 true } }
/-- A system call: the frame below csp holds the next pcc, CAUSE is 0x40, and the handler runs with IE clear (R341). -/
theorem test_trap :
    let d := tRun (.trap { core := 0, rd := 0, cx := 0, n12 := 0x40 }) tTrapDev
    let x := d.core 0
    x.arch.pcc = tCap 0x40 ∧ (x.cr 15).cursor.toNat = tBase + 0xF00 ∧
      Cap.ofBytes (d.mem.spad.read 0xF00 16) (d.mem.spad.tag 0xF0) = tCap 4 ∧ d.mem.spad.read 0xFD8 1 = [0x40] ∧
      d.mem.spad.read 0xFA0 8 = leBytes 8 5 := by decide +kernel
/-- ERET takes the frame back. -/
theorem test_eret :
    let d := tRun (.eret { core := 0, rd := 0, cx := 0, n12 := 0 }) (tRun (.trap { core := 0, rd := 0, cx := 0, n12 := 0x40 }) tTrapDev)
    (d.core 0).arch.pcc = tCap 4 ∧ (d.core 0).cr 15 = tCap 0x1000 ∧ (d.core 0).gr 1 = 5 := by decide +kernel
/-- With no trap table the core wedges (R346). -/
theorem test_wedge : (tX (.trap { core := 0, rd := 0, cx := 0, n12 := 0x40 }) tDev).run = .wedged := by decide +kernel

/-! ## Capabilities, packed decimal, CRC -/

theorem test_cderiv :
    let x := tX (.cderiv { core := 0, rd := 2, ra := 1, rb := 2, cx := 1 }) (tDev (tK 0x40 0xC0 0))
    x.cr 2 = { tag := true, perms := 0xC0, base := BitVec.ofNat 38 (tBase + 0x100), len := 0x40, cursor := BitVec.ofNat 38 (tBase + 0x100) } ∧
      x.arch.bit 0 = true := by decide +kernel
theorem test_sealto : ((tX (.sealto { core := 0, rd := 2, ra := 1, rb := 0, cx := 3 })
    (tDev { tArch with caps := [(1, tCap 0x100), (3, { rootCap with cursor := 7 })] })).cr 2) = { tCap 0x100 with otype := 7 } := by decide +kernel

/-- The operands of chapter 10's example, at +0x100 and +0x103 of c1. -/
def tDecDev (b : Bytes) : Dev :=
  { tDev { tArch with k := [(1, 0), (2, 3), (3, 6)].filter fun e => decide (e.2 ≠ 0) } with
    mem := { tDev.mem with spad := ({} : Ram).write 0x100 b } }
/-- DADD of −1,234 and 500. -/
theorem test_dadd :
    let d := (tRun (.dadd { core := 0, rd := 3, ra := 1, rb := 2, cx := 1, l := 2, back := [], backB := [] }) (tDecDev [0x4D, 0x23, 0x01, 0x0C, 0x50, 0x00])).drainAll 0 1
    d.mem.spad.read 0x106 3 = [0x4D, 0x73, 0x00] ∧ (d.core 0).arch.bit 0 = false ∧ (d.core 0).arch.bit 1 = true ∧ (d.core 0).arch.bit 3 = false := by
  decide +kernel
/-- DADD of 99,999 and 1 overflows. -/
theorem test_dadd_overflow :
    let d := (tRun (.dadd { core := 0, rd := 3, ra := 1, rb := 2, cx := 1, l := 2, back := [], backB := [] }) (tDecDev [0x9C, 0x99, 0x99, 0x1C, 0x00, 0x00])).drainAll 0 1
    d.mem.spad.read 0x106 3 = [0x0C, 0x00, 0x00] ∧ (d.core 0).arch.bit 0 = true ∧ (d.core 0).arch.bit 1 = false ∧ (d.core 0).arch.bit 3 = true := by
  decide +kernel
/-- A bad digit is found at its byte. -/
theorem test_decimal_bad : firstBad [0x4B, 0x23, 0x01] = some 0 ∧ firstBad [0x4D, 0x23, 0x01] = none := by decide +kernel
/-- The check value of CRC-32C. -/
theorem test_crc32c : crc32c ("123456789".toUTF8.toList.map fun c => BitVec.ofNat 8 c.toNat) = 0xE3069283 := by decide +kernel

/-! ## The hypotheses of each statement can be met

Every statement about an instruction asks for `test_issues` or for a core like that one; the theorems below meet what else each
statement asks, one condition after another, at the ends of the ranges where they have ends. -/

/-- Two more cores that come to their next instruction: outside the scratchpad's first bytes, and with the stack in use. -/
theorem test_issues_trapdev : tTrapDev.Issues 0 1 (tFet tTrapDev) :=
  ⟨by decide +kernel, by decide +kernel, by decide +kernel, by decide +kernel⟩

theorem test_hyp_MulDivResults :
    divByZero (tA false false) ((tDev (tK 1 0 0)).core 0) = true ∧
    divByZero (tA true false) ((tDev (tK 1 0x100000000 0)).core 0) = true ∧
    divByZero (tA false false) ((tDev (tK 1 0x100000000 0)).core 0) = false ∧
    divMinByMinusOne (tA false false) ((tDev (tK 0x8000000000000000 (-1) 0)).core 0) = true ∧
    divMinByMinusOne (tA true false) ((tDev (tK 0x80000000 0xFFFFFFFF 0)).core 0) = true ∧
    divMinByMinusOne (tA false false) ((tDev (tK 0x80000000 (-1) 0)).core 0) = false := by decide +kernel

/-- The bits at both sides of each reserved range of Table 8.6, and IE with SYS and without. -/
theorem test_hyp_BitInstructions :
    (∀ n ∈ [0x000, 0x003, 0x004, 0x008, 0x00C, 0x010, 0x012, 0x018, 0x01C, 0x01F, 0x100, 0xFFF], ((tFet tDev).core 0).MaySet n) ∧
    (∀ n ∈ [0x005, 0x007, 0x00D, 0x00F, 0x013, 0x017, 0x01D, 0x01E, 0x020, 0x0FF], ¬ ((tFet tDev).core 0).MaySet n) ∧
    ¬ ((tDev { tArch with pcc := { tCap 0 with perms := 0x20 } }).core 0).MaySet 4 := by
  unfold Core.MaySet
  decide +kernel
theorem test_bits_reserved : (tX (.cmp { core := 0, bd := 0x208, ra := 1, rb := 2, cond := 11 }) tDev).arch.bit 0x208 = true ∧
    tRun (.cmp { core := 0, bd := 0x208, ra := 1, rb := 2, cond := 12 }) tTrapDev = (tFet tTrapDev).takeTrap 0 1 { num := 0x01, fault := tBase } ∧
    tRun (.fcmpD { core := 0, bd := 0x208, ra := 1, rb := 2, cond := 13 }) tTrapDev = (tFet tTrapDev).takeTrap 0 1 { num := 0x01, fault := tBase } ∧
    tRun (.bop { core := 0, bd := 0x020, ba := 0, bfn := 0 }) tTrapDev = (tFet tTrapDev).takeTrap 0 1 { num := 0x0E, fault := 0x020 } := by
  decide +kernel
theorem test_hyp_NanResults :
    fmt64.isNan 0x7FF0000000000001 = true ∧ fmt32.isNan 0x7FC00000 = true ∧ fmt64.isNan tM = false ∧
    fmt64.val 0x7FF0000000000000 = .inf false ∧ fmt64.val 0xFFF0000000000000 = .inf true ∧
    fmt64.add .rne 0x7FF0000000000000 0xFFF0000000000000 false = (0x7FF8000000000000, 1) ∧
    fmt64.mul .rne 0x7FF0000000000000 0 = (0x7FF8000000000000, 1) ∧ fmt32.div .rne 0 0x80000000 = (0x7FC00000, 1) ∧
    fmt32.add .rne 0x7FA00000 0x7FC00001 false = (0x7FE00000, 1) := by decide +kernel
/-- A core with two operations issued, and one with a trap pending. -/
theorem test_hyp_FloatSignals :
    let op : FpOp := { cursor := 8, dest := some (.fp 2), value := 5, flags := 0x11, enables := 0x10 }
    let d := tDevX { tCore tArch with fpq := [op, op] }
    let t := tRun (.fpSignal { core := 0 }) d
    let e := tDevX { tCore tTrapArch with fpTrap := some 8 }
    (d.core 0).fpq = op :: [op] ∧ (t.core 0).fpTrap = some 8 ∧ ((t.core 0).fr 2).toNat = 5 ∧ (t.core 0).arch.bit 0x008 = true ∧
      (t.core 0).arch.bit 0x00C = true ∧ (t.core 0).fpq = [op] ∧ e.coreReady 0 = true ∧ e.coreOwner 0 = some 1 ∧ (e.core 0).mchecks = [] ∧ (e.core 0).twin = none ∧ (e.core 0).fpHeld = none ∧
      (let h := tDevX { tCore tTrapArch with fpTrap := some 8, fpHeld := some 0 }
       h.coreReady 0 = true ∧ tRun (.floatingPointTrap { core := 0 }) h = h) := by
  decide +kernel

/-- `Loads` and `Stores`: an access that passes, and the piece it loads or stores. -/
theorem test_hyp_LoadsAndStores :
    (∀ n ∈ [1, 2, 4, 8, 16], tDev.access 1 (tCap 0x100) (tBase + 0x100 : Nat) n 0x80 n = .ok (tBase + 0x100) ∧
      (tDev.loadPiece 0 1 (tBase + 0x100) n false).isOk = true ∧
      tDev.access 1 (tCap 0x100) (tBase + 0x100 : Nat) n 0x48 n = .ok (tBase + 0x100)) ∧ (tDev.core 0).twin = none := by decide +kernel
/-- The stores' own hypotheses together, at the narrowest and the widest store. -/
theorem test_hyp_Stores : tDev.Issues 0 1 (tFet tDev) ∧ (tDev.core 0).twin = none ∧
    (∀ n ∈ [1, 16], (tFet tDev).access 1 (tCap 0x100) (tBase + 0x100 : Nat) n 0x40 n = .ok (tBase + 0x100)) :=
  ⟨test_issues, by decide +kernel, by decide +kernel⟩
theorem test_hyp_FloatCompares : tDev.Issues 0 1 (tFet tDev) ∧ ((tFet tDev).core 0).MaySet 0x000 ∧ ((tFet tDev).core 0).MaySet 0x100 :=
  ⟨test_issues, test_hyp_BitInstructions.1 _ (by simp), test_hyp_BitInstructions.1 _ (by simp)⟩
/-- The buffer empty and with one place left, and a store that ends with its line. -/
theorem test_hyp_StoreThenLoad :
    let full : List MergeEntry := (List.range 15).map fun i => { line := i, data := 0, mask := 1, tags := 0 }
    let d := tDevX { tCore tArch with merge := full }
    (tDev.core 0).merge.length < 16 ∧ (d.core 0).merge.length < 16 ∧ ((d.core 0).mergeOf 14).isSome = true ∧
      (tBase + 0x138) % 64 + (leBytes 8 7).length = 64 ∧
      ((d.storePiece 0 1 (tBase + 0x138) (leBytes 8 7) false).loadPiece 0 1 (tBase + 0x138) 8 false).isOk = true ∧
      ((d.storePiece 0 1 (tBase + 0x138) (leBytes 8 7) false).core 0).pendingByte (tBase + 0x138) = some 7 := by decide +kernel
/-- A load performed ahead of none, of one and of both of the stores that it may miss, and an acquire (R357 to R360). -/
theorem test_load_ahead :
    let w (n : Nat) : Past := { at_ := n, pav := 1, line := (tBase + 0x100) / 64, was := { data := BitVec.ofNat 512 n } }
    let d := tDev.onMem fun m => { m with clock := 2, past := [w 2, w 1] }
    let got (n : Nat) : Option Line := (d.ahead 0 1 (tBase + 0x100) 8 n).1
    let after (n : Nat) : Nat := ((d.ahead 0 1 (tBase + 0x100) 8 n).2.unseen 0 1 (tBase + 0x100) 8).length
    (d.unseen 0 1 (tBase + 0x100) 8).length = 2 ∧ got 0 = none ∧ after 0 = 0 ∧ got 1 = some (w 2).was ∧ after 1 = 1 ∧ got 2 = some (w 1).was ∧
      got 9 = some (w 1).was ∧ after 9 = 2 ∧ tDev.unseen 0 1 (tBase + 0x100) 8 = [] ∧
      (match d.loadHow 0 1 (tBase + 0x100) 8 { acq := true } with
        | .ok (_, _, t) => decide (t.unseen 0 1 (tBase + 0x108) 8 = [] ∧ t.mem.clock = 2)
        | .error _ => false) = true ∧ ((d.acquireNow 0).unseen 0 1 (tBase + 0x100) 8) = [] := by decide +kernel
/-- One address under each clause, at the limits of the sum, of the bounds and of the scratchpad. -/
theorem test_hyp_AccessChecks :
    let c := { tCap 0 with base := BitVec.ofNat 38 tBase, len := 16 }
    let at_ (c : Cap) (a : Int) : Except Stop Nat := tDev.access 1 c a 8 0x80 8
    let no (k f : Nat) : Except Stop Nat := .error { num := k, fault := f }
    at_ c (-1) = no 3 (2 ^ 38 - 1) ∧ at_ c (2 ^ 38) = no 3 0 ∧ at_ { c with tag := false } 0 = no 2 0 ∧
    at_ { c with otype := 1 } tBase = no 5 tBase ∧ at_ { c with perms := 0x7F } tBase = no 4 tBase ∧
    at_ c ((tBase : Int) + 8) = .ok (tBase + 8) ∧ at_ c ((tBase : Int) + 9) = no 3 (tBase + 9) ∧ at_ c ((tBase : Int) - 8) = no 3 (tBase - 8) ∧
    at_ c ((tBase : Int) + 4) = no 6 (tBase + 4) ∧ at_ rootCap (2 ^ 38 - 8) = no 3 (2 ^ 38 - 8) ∧
    at_ rootCap 0 = no 3 0 ∧ tDev.firstUnmapped 1 0 8 = some 0 ∧ tDev.firstUnmapped 1 tBase 8 = none := by decide +kernel
/-- A trapping address for each form, and a load of poisoned data. -/
theorem test_hyp_AccessTraps :
    let d : Dev := { tDev with mem := { tDev.mem with spad := { poison := [(0x20, true)] } } }
    (∀ n ∈ [2, 4, 8, 16], tDev.access 1 (tCap 0x101) (tBase + 0x101 : Nat) n 0x80 n = .error { num := 0x06, fault := tBase + 0x101 }) ∧
    tDev.access 1 {} 0 1 0x80 1 = .error { num := 0x02, fault := 0 } ∧ tDev.access 1 {} 0 128 0x40 16 = .error { num := 0x02, fault := 0 } ∧
    (match d.loadPiece 0 1 (tBase + 0x100) 8 false with
      | .error t => decide (t.num = 0x1F ∧ t.cls = 1 ∧ t.fault = tBase + 0x100)
      | .ok _ => false) = true ∧
    (∀ acq ∈ [true, false], (match d.loadHow 0 1 (tBase + 0x100) 8 { acq := acq } with
      | .error t => decide (t.num = 0x1F)
      | .ok _ => false) = true) := by decide +kernel
theorem test_hyp_Atomics :
    let u : Unc := .atom 0 false .add 3 0
    let r := tDev.atomic 0 1 (tBase + 0x100) 8 u
    let c := tDev.atomic 0 1 (tBase + 0x100) 16 (.atomCap 0 true (tCap 0) {})
    tDev.access 1 (tCap 0x100) (tBase + 0x100 : Nat) 8 0xC0 8 = .ok (tBase + 0x100) ∧
    tDev.access 1 (tCap 0x100) (tBase + 0x100 : Nat) 16 0xC8 16 = .ok (tBase + 0x100) ∧ r.2.1 = false ∧ c.2.1 = false ∧
    placeOf (tBase + 0x100) ≠ .window ∧ r.1.get 0 8 = 0 ∧ (r.2.2.spadLine ((tBase + 0x100) / 64)).get 0 8 = 3 := by decide +kernel
/-- The last aligned places of a line, at both widths and for a capability. -/
theorem test_hyp_AtomicOperations : 60 % 4 = 0 ∧ 60 + 4 ≤ 64 ∧ 56 % 8 = 0 ∧ 56 + 8 ≤ 64 ∧ placeOf (tBase + 0x138) = .scratchpad ∧
    (tBase + 0x13C) % 4 = 0 ∧ (tBase + 0x130) % 16 = 0 ∧ ((Unc.atom 60 true .max 0xFFFFFFFF 0).apply {}).get 60 4 = 0 ∧
    ((Unc.atom 60 true .maxu 0xFFFFFFFF 0).apply {}).get 60 4 = 0xFFFFFFFF ∧ ((Unc.atom 56 false .cas 7 0).apply {}).get 56 8 = 7 := by
  decide +kernel
/-- The first and last bits that an instruction reaches, and the bits beside them. -/
theorem test_hyp_PavilionBits :
    let i (imm : BitVec 16) : Instr := .bset { core := 0, acq := false, rel := false, ra := 1, imm := imm }
    let k (v : Word) : Dev := { tTrapDev with cores := tDev (tK v 0 0) |>.cores }
    (tRun (i 0x1000) tDev).pbit 1 0x1000 = true ∧ (tRun (i 0xFFFF) (tDev (tK 0x30000 0 0))).pbit 1 0x3FFFF = true ∧
    tRun (i 0x0FFF) (k 0) = (tFet (k 0)).takeTrap 0 1 { num := 0x0E, fault := 0x0FFF } ∧
    tRun (i 0) (k 0x40000) = (tFet (k 0x40000)).takeTrap 0 1 { num := 0x0E, fault := 0x40000 } ∧
    Table.get false (k 0).mem.bitPoison (2 ^ 18 + 0x1000) = false := by decide +kernel
/-- N = 1, 2, 15 and 16 (R250). -/
theorem test_hyp_WindowSpills :
    let n (wb wo : Nat) : Nat := (wb + 33 - wo) % 33 / 2 + 1
    n 4 4 = 1 ∧ n 6 4 = 2 ∧ n 28 0 = 15 ∧ n 30 0 = 16 ∧ n 1 4 = 16 ∧ wringLegal 1 4 = true ∧ wringLegal 30 0 = true ∧ wringLegal 4 4 = true ∧
    tDev.access 1 (tCap 0x100) (tBase + 0x100 : Nat) 128 0x40 16 = .ok (tBase + 0x100) ∧
    tDev.access 1 (tCap 0x100) (tBase + 0x100 : Nat) 128 0x80 16 = .ok (tBase + 0x100) ∧ (tDev.loadBytes 0 1 (tBase + 0x100) 128 false []).isOk = true := by
  decide +kernel
theorem test_window_ends :
    let o : OpM := { core := 0, rd := 0, cs := 1, rb := 0, off := 0 }
    let fill : Instr := .wfill { o with back := [], ecc := .good }
    let f (i : Instr) (wb wo : Nat) : Core := tX i (tDev { tArch with wbase := wb, wold := wo })
    ((f (.wspill o) 4 4).arch.wold = 4 ∧ (f (.wspill o) 4 4).arch.bit 0 = false) ∧ (f (.wspill o) 6 4).arch.wold = 6 ∧
    ((f fill 1 4).arch.wold = 4 ∧ (f fill 1 4).arch.bit 0 = false) ∧ (f fill 28 0).arch.wold = 31 := by decide +kernel
/-- Transfers that pass the check and that fail it, and windows that are all used and all free. -/
theorem test_hyp_ControlTransfers :
    tDev.fetchCheck 1 (tCap 16) = none ∧ tDev.fetchCheck 1 (tCap 2) = some { num := 0x06, fault := tBase + 2 } ∧
    tDev.fetchCheck 1 { tCap 16 with perms := 0xDF } = some { num := 0x04, fault := tBase + 16 } ∧
    (let x := tX (.ret { core := 0, rd := 0, cx := 0, n12 := 0 }) (tDev { tArch with wbase := 2, win := [(23, BitVec.ofNat 64 (tBase + 8))] })
     x.arch.wbase = 0 ∧ x.arch.pcc = tCap 8) ∧
    (let y := tX (.callc { core := 0, rd := 0, cx := 1, n12 := 0 }) (tDev { tArch with caps := [(1, { tCap 0x100 with otype := 1 })] })
     y.arch.pcc = tCap 0x100 ∧ y.cr 14 = { tCap 4 with otype := 1 } ∧ y.arch.wbase = 2) := by decide +kernel
theorem test_transfer_traps :
    let d (wb wo : Nat) (c : Cap) : Dev := { tTrapDev with cores := tDev { tTrapArch with wbase := wb, wold := wo, caps := [(1, c), (15, tCap 0x1000)] } |>.cores }
    let k : OpT := { core := 0, rd := 0, cx := 1, n12 := 0 }
    let c := tCap 0x100
    tRun (.ret k) (d 0 0 c) = (tFet (d 0 0 c)).takeTrap 0 1 { num := 0x09, fault := tBase } ∧
    tRun (.callc k) (d 30 0 c) = (tFet (d 30 0 c)).takeTrap 0 1 { num := 0x08, fault := tBase } ∧
    tRun (.jmpc k) (d 0 0 { c with otype := 2 }) = (tFet (d 0 0 { c with otype := 2 })).takeTrap 0 1 { num := 0x05, fault := tBase + 0x100 } ∧
    tRun (.jmp { core := 0, rd := 0, ra := 1, imm := 0x8000 }) (d 0 0 c) =
      (tFet (d 0 0 c)).takeTrap 0 1 { num := 0x03, fault := 2 ^ 38 - 0x20000 + 5 } := by decide +kernel
theorem test_hyp_FetchChecks :
    let d := tDev { tArch with pcc := tCap 2 }
    d.coreReady 0 = true ∧ d.coreOwner 0 = some 1 ∧ d.dueTrap 0 1 = none ∧
      d.fetchCheck 1 (d.core 0).arch.pcc = some { num := 0x06, fault := tBase + 2 } := by decide +kernel

/-- SYS in pcc and not; legal and illegal window pointers at their limits; a bank held, and one that is not. -/
theorem test_hyp_SystemInstructions :
    let user : Arch := { tArch with pcc := { tCap 0 with perms := 0xFB } }
    (tDev.core 0).arch.pcc.perms.getLsbD 2 = true ∧ ((tDev user).core 0).arch.pcc.perms.getLsbD 2 = false ∧
    tDev.holdsBank 1 0 = true ∧ tDev.holdsBank 1 32 = false ∧ tDev.removing = [] ∧
    (let w (v : Nat) : Core := tX (.wsr { core := 0, rd := 1, cx := 0, n12 := 0 }) (tDev (tK (BitVec.ofNat 64 v) 0 0))
     (w (32 + 256 * 2)).arch.wbase = 32 ∧ (w (32 + 256 * 2)).arch.wold = 2 ∧ (w 33).run = .wedged ∧ (w (31 + 256 * 32)).run = .wedged ∧
       (w (32 + 256 * 32)).arch.wbase = 32) ∧
    ((tRun (.bankrel { core := 0, rd := 1, cx := 0, n12 := 0 }) (tDev (tK 5 0 0))).bank 5 = .releasing 1 0 ∧
      (tX (.bankrel { core := 0, rd := 1, cx := 0, n12 := 0 }) (tDev (tK 32 0 0))).arch.bit 0 = false) := by decide +kernel
theorem test_system_privilege :
    let d := { tTrapDev with cores := tDev { tTrapArch with pcc := { tCap 0 with perms := 0xFB } } |>.cores }
    let k (n : BitVec 12) : OpT := { core := 0, rd := 1, cx := 1, n12 := n }
    tRun (.wsr (k 1)) d = (tFet d).takeTrap 0 1 { num := 0x04, fault := tBase } ∧ tRun (.arm (k 7)) d = (tFet d).takeTrap 0 1 { num := 0x0E, fault := 0x1007 } ∧
    tRun (.rsr (k 2)) d = (tFet d).takeTrap 0 1 { num := 0x01, fault := tBase } ∧ (tX (.rsr (k 0x100)) d).run = .running := by decide +kernel
/-- A core that waits and one that does not, before and after its timer. -/
theorem test_hyp_BarriersAndWait :
    let d := tDev { tArch with tcmp := 50 }
    let w := tRun (.wait { core := 0, rd := 0, cx := 0, n12 := 0 }) d
    (w.core 0).waiting = some 0 ∧ (w.core 0).run = .running ∧ w.thermalStop = false ∧ d.armedDoorbell 0 1 = none ∧
      (tX (.waitEnd { core := 0, t := 49 }) w).waiting = some 0 ∧ (tX (.waitEnd { core := 0, t := 50 }) w).waiting = none ∧
      (tX (.waitEnd { core := 0, t := 50 }) w).arch.pcc.cursor.toNat = tBase + 4 ∧
      (tX (.wait { core := 0, rd := 0, cx := 0, n12 := 0 }) (tDev { tArch with tcmp := 0 })).waiting = none ∧
      (let b := (tDev { tArch with arm := 4 }).setPbit 1 0x1002 true
       b.armedDoorbell 0 1 = some 0x1002) := by decide +kernel
theorem test_hyp_TrapEntry :
    let x := tTrapDev.core 0
    x.fpq = [] ∧ x.arch.owed = [] ∧ x.merge = [] ∧ x.fpTrap = none ∧ Table.Wf {} tTrapDev.cores ∧
      tTrapDev.ttbUsable 1 x.arch.ttb 0x40 = true ∧ (tTrapDev.trapEntry 0 1 0x40).1 = some { tCap 0x40 with otype := 1 } ∧
      (tTrapDev.trapEntry 0 1 0x40).2.takesFrame 1 (x.cr 15) = true := by decide +kernel
/-- The last undefined and the first system trap, a frame that ERET can read, and frames that each check of Table 11.5 refuses. -/
theorem test_hyp_TrapAndReturn :
    let k (n : BitVec 12) : OpT := { core := 0, rd := 0, cx := 0, n12 := n }
    let d := tRun (.trap (k 0x40)) tTrapDev
    let base := tBase + 0xF00
    d.givesFrame 1 ((d.core 0).cr 15) = true ∧ (loadCaps 0 1 ((List.range 10).map fun i => base + 16 * i) d []).isOk = true ∧
      (d.loadBytes 0 1 (base + 160) 96).isOk = true ∧ tDev.givesFrame 1 (tCap 0xFF8) = false ∧
      tRun (.trap (k 0x3F)) tTrapDev = (tFet tTrapDev).takeTrap 0 1 { num := 0x01, fault := tBase } := by
  decide +kernel
/-- Frames that ERET refuses. -/
theorem test_frame_class2 :
    let k (n : BitVec 12) : OpT := { core := 0, rd := 0, cx := 0, n12 := n }
    let d := tRun (.trap (k 0x40)) tTrapDev
    let base := tBase + 0xF00
    let fails (d : Dev) (r : Nat) : Prop := tRun (.eret (k 0)) d = (tFet d).takeTrap 0 1 { num := 0x0D, fault := base, cls := r }
    let frame (c s : Cap) : Dev := { d with mem := { d.mem with
      spad := ((((d.mem.spad.write 0xF00 c.bytes).setTag 0xF0 c.tag).write 0xF10 s.bytes).setTag 0xF1 s.tag) } }
    let sp := tCap 0x1000
    fails (frame { tCap 4 with tag := false } sp) 2 ∧ fails (frame { tCap 4 with otype := 2 } sp) 3 := by
  decide +kernel
/-- Frames that ERET refuses. -/
theorem test_frame_class4 :
    let k (n : BitVec 12) : OpT := { core := 0, rd := 0, cx := 0, n12 := n }
    let d := tRun (.trap (k 0x40)) tTrapDev
    let base := tBase + 0xF00
    let fails (d : Dev) (r : Nat) : Prop := tRun (.eret (k 0)) d = (tFet d).takeTrap 0 1 { num := 0x0D, fault := base, cls := r }
    let frame (c s : Cap) : Dev := { d with mem := { d.mem with
      spad := ((((d.mem.spad.write 0xF00 c.bytes).setTag 0xF0 c.tag).write 0xF10 s.bytes).setTag 0xF1 s.tag) } }
    let sp := tCap 0x1000
    fails (frame { tCap 4 with perms := 0xDF } sp) 4 ∧ fails (frame (tCap 6) sp) 5 ∧ fails (frame (tCap 4) { sp with tag := false }) 6 := by
  decide +kernel
theorem test_hyp_DecimalArithmetic :
    let d := tDecDev [0x4D, 0x23, 0x01, 0x0C, 0x50, 0x00]
    let k : OpDec := { core := 0, rd := 3, ra := 1, rb := 2, cx := 1, l := 2, back := [], backB := [] }
    d.access 1 (tCap 0x100) (tBase + 0x106 : Nat) 6 0x40 1 = .ok (tBase + 0x106) ∧
      (d.loadBytes 0 1 (tBase + 0x100) 3 false []).isOk = true ∧ firstBad [0x0C, 0x50, 0x00] = none ∧ decValue [0x0C, 0x50, 0x00] = 500 ∧
      decValue [0x4D, 0x23, 0x01] = -1234 ∧ decBytes 3 1234 true = [0x4D, 0x23, 0x01] ∧
      (let t := (tRun (.ddiv k) d).drainAll 0 1
       t.mem.spad.read 0x106 6 = [0x2D, 0x00, 0x00, 0x4D, 0x23, 0x00] ∧ (t.core 0).arch.bit 1 = true) ∧
      (tX (.dcvtDb { k with rd := 2 }) d).gr 2 = -1234 := by decide +kernel
theorem test_decimal_traps :
    let d (b : Bytes) : Dev := { tTrapDev with
      cores := tDev { tTrapArch with k := [(2, 3), (3, 6)] } |>.cores
      mem := { tTrapDev.mem with spad := tTrapDev.mem.spad.write 0x100 b } }
    let k : OpDec := { core := 0, rd := 3, ra := 1, rb := 2, cx := 1, l := 2, back := [], backB := [] }
    let z := d [0x4D, 0x23, 0x01, 0x0C, 0x00, 0x00]
    let b := d [0x4D, 0x23, 0x01, 0x0C, 0xA0, 0x00]
    tRun (.ddiv k) z = (tFet z).takeTrap 0 1 { num := 0x07, fault := tBase } ∧
      tRun (.dadd k) b = (tFet b).takeTrap 0 1 { num := 0x0B, fault := tBase + 0x104 } := by decide +kernel
/-- A copy that runs to its end, one that stops at a boundary of its destination, and an overlap that is copied downward. -/
theorem test_hyp_BlockMoves :
    let d (a b : Nat) : Dev := { tDev { tArch with k := [(1, 0x18)], caps := [(1, tCap a), (2, tCap b)] } with
      mem := { tDev.mem with spad := ({} : Ram).write 0x100 ((List.range 0x20).map fun i => BitVec.ofNat 8 (i + 1)) } }
    let k (stop : Option Nat) : OpBlk := { core := 0, rd := 2, ra := 1, rb := 1, cx := 1, stop := stop, back := [] }
    let x := (tRun (.movb (k none)) (d 0x100 0x230)).drainAll 0 1
    let y := (tRun (.movb (k (some 0x10))) (d 0x100 0x230)).drainAll 0 1
    (d 0x100 0x230).access 1 (tCap 0x100) (tBase + 0x100 : Nat) 0x18 0x80 1 = .ok (tBase + 0x100) ∧
      ((d 0x100 0x230).loadBytes 0 1 (tBase + 0x100) 0x18 true).isOk = true ∧
      x.mem.spad.read 0x230 0x18 = (List.range 0x18).map (fun i => BitVec.ofNat 8 (i + 1)) ∧ ((x.core 0).gr 1) = 0 ∧
      (x.core 0).cr 2 = tCap 0x248 ∧ (x.core 0).arch.pcc = tCap 4 ∧
      ((y.core 0).gr 1) = 8 ∧ (y.core 0).cr 2 = tCap 0x240 ∧ (y.core 0).arch.pcc = tCap 0 := by decide +kernel
/-- Overlapping source and destination. -/
theorem test_block_overlap :
    let d (a b : Nat) : Dev := { tDev { tArch with k := [(1, 0x20)], caps := [(1, tCap a), (2, tCap b)] } with
      mem := { tDev.mem with spad := ({} : Ram).write 0x100 ((List.range 0x30).map fun i => BitVec.ofNat 8 (i + 1)) } }
    let k (stop : Option Nat) : OpBlk := { core := 0, rd := 2, ra := 1, rb := 1, cx := 1, stop := stop, back := [] }
    let z := (tRun (.movb (k none)) (d 0x100 0x110)).drainAll 0 1
    z.mem.spad.read 0x110 0x20 = (List.range 0x20).map (fun i => BitVec.ofNat 8 (i + 1)) ∧ (z.core 0).cr 2 = tCap 0x110 := by decide +kernel

/-! ### The channel: endpoint 3 of pavilion 1, with its completion ring at +0x4000 and its path on link 0 -/

/-- The device with that endpoint, link 0 in UP, and registers for CHST: k1 the endpoint, k2 an operation number. -/
def tChan : Dev :=
  let d := tDev { tArch with k := [(1, 3), (2, 7)] }
  let d := ((((d.wr R.pav_ENDPOINTS 8 1).wr R.pav_HEARTH_QUOTA 1024 1).wr R.ep_STATE 2 3).wr R.ep_PATHS 0x8000 3).wr R.link_LINK_STATUS 4 0
  let d := ((d.wr R.ep_CQ_BASE (tBase + 0x4000) 3).wr R.ep_CQ_ENTRIES 2 3).setLink 0 { peerMax := 15 }
  { d with plat := { d.plat with step := 12, presented := true }, mem := { d.mem with spad := ({} : Ram).write 0x100 [0x01, 0x01] } }
/-- CHST of a list of one command without data. -/
def tChst : OpDev := { core := 0, rd := 3, ra := 1, rb := 2, cx := 1 }
/-- The operation running, with its START acknowledged by OPENED. -/
def tOp : ChanOp := { pav := 1, gen := 0, ep := 3, opnum := 7, st := .running, cmds := [⟨1, 1, 0, 0, 0⟩], code := 0x8000, tag := 1, live := true }
/-- The device with an operation. -/
def tWith (o : ChanOp) : Dev := tChan.onChan fun c => { c with ops := [o], lastTag := 1 }
/-- The name of the operation, at a time. -/
def tOpnum (t : Nat) : OpOpnumT := { ep := 3, opnum := 7, t := t }

theorem test_hyp_ChstStarts :
    let d := tChan
    d.access 1 (tCap 0x100) (tBase + 0x100 : Nat) 32 0x92 32 = .ok (tBase + 0x100) ∧ d.epOwner 3 = some 1 ∧ d.epOwner 4 = none ∧
      (Dev.readList 1 (tCap 0x100) 64 0 d []).isOk = true ∧ d.claimedNum 3 < 7 ∧ d.opsFit 3 = true ∧ d.cqTakes 3 = true ∧
      d.choosePath 1 3 = some 0 ∧ d.roomForOpst 1 = true ∧
      (let t := tRun (.chst tChst) d
       ((t.core 0).gr 3) = 0 ∧ (t.core 0).arch.bit 0 = true ∧ t.claimedNum 3 = 7 ∧
         (t.findOp 3 7).map (fun o => decide (o.st = .opening ∧ o.cmds = tOp.cmds)) = some true ∧
         (tX (.chst tChst) t).gr 3 = 0x0106) ∧
      (tX (.chst { tChst with ra := 2 }) d).gr 3 = 0x0401 ∧ (tX (.chst tChst) (d.wr R.ep_STATE 0 3)).gr 3 = 0x020A ∧
      (tX (.chst tChst) (d.wr R.link_LINK_STATUS 0 0)).gr 3 = 0x020B ∧ (tX (.chst tChst) (d.wr R.ep_CQ_ENTRIES 0 3)).gr 3 = 0x020D := by
  decide +kernel
/-- The first descriptor bad (DFLAGS of 4), and a buffer that its capability does not cover. -/
theorem test_chst_lists :
    let bad (b : Bytes) : Word := (tX (.chst tChst) { tChan with mem := { tChan.mem with spad := ({} : Ram).write 0x100 b } }).gr 3
    bad [0x01, 0x04] = 0x0107 ∧ bad [0x41, 0x01, 0, 0, 1, 0, 0, 0] = 0x0108 ∧ bad [0x01, 0x00, 0, 0, 1] = 0x0107 ∧
      (tChan.badBuffer 1 [(⟨0x41, 1, 1, 0, 0⟩, {})]) = some 0 := by decide +kernel
theorem test_hyp_ChctlControls :
    let d := tWith { tOp with ackedOn := [0] }
    let c := { tCap 0x100 with perms := 0xFD }
    let no := { d with cores := tDev { tArch with k := [(1, 3), (2, 7)], caps := [(1, c), (15, tCap 0x1000)], ttb := tCap 0x2000 } |>.cores }
    (tCap 0x100).perms.getLsbD 1 = true ∧ d.findOp 3 7 = some { tOp with ackedOn := [0] } ∧
      (let t := tRun (.chctlStop tChst) d
       (t.findOp 3 7).map (·.ctl) = some [{ code := 1, scope := 0, sent := [0] }] ∧ (t.core 0).gr 3 = 0) ∧
      (let t := tRun (.chctlHaltall tChst) d
       (t.findOp 3 7).map (fun o => (o.ctl, o.st)) = some ([{ code := 2, scope := 1, sent := [0] }], .halting)) ∧
      (tX (.chctlStop tChst) tChan).gr 3 = 0x020C ∧
      tRun (.chctlHalt tChst) no = (tFet no).takeTrap 0 1 { num := 0x04, fault := tBase + 0x100 } ∧
      (let p := (tWith { tOp with st := .done, posted := true }).onChan fun c => { c with posted := [(3, [(5, false), (7, false), (9, false)])] }
       let t := tRun (.chctlRelease tChst) p
       t.postedOf 3 = [(9, false)] ∧ (t.core 0).gr 3 = 0) := by decide +kernel
theorem test_hyp_OperationRecords :
    let d := tRun (.chst tChst) tChan
    let t := tRun (.opstComplete (tOpnum 10)) d
    let done := (tWith { tOp with st := .done, status := 3, residual := 9, doneAt := 4 }).setRing 1
      { ctl0 := { seq := 1, size := 2 ^ 20 }, recs := [{ body := .opdn 7 3 3 9 4 0 0xFF 0 0 0 }], head := 64 }
    let p := tRun (.opdnComplete (tOpnum 20)) done
    (d.findOp 3 7).map (fun o => (o.st, d.opUsable o)) = some (.opening, true) ∧
      (t.findOp 3 7).map (fun o => (o.st, o.live, o.tag)) = some (.running, true, 1) ∧
      ((t.link 0).dataQ.map (·.msg)) = [.start false, .cmd 0 0] ∧ t.rd R.ep_LAST_OPNUM 3 = 7 ∧
      p.mem.spad.read 0x4000 32 = leBytes 8 7 ++ leBytes 2 3 ++ leBytes 2 0 ++ leBytes 4 9 ++ leBytes 8 4 ++ [0xFF, 0, 0, 1, 0, 0, 0, 0] ∧
      p.pbit 1 0x1010 = true ∧ p.postedOf 3 = [(7, false)] ∧ (p.findOp 3 7).map (·.posted) = some true := by decide +kernel

/-- OPENED, RDATA or FINAL of the operation: its first 16 bytes. -/
def tMsg (type mseq i len off : Nat) : Bytes :=
  leBytes 1 type ++ zeros 1 ++ leBytes 2 1 ++ leBytes 4 mseq ++ leBytes 1 i ++ zeros 1 ++ leBytes 2 len ++ leBytes 4 off
/-- Link 0 has passed a message up. -/
def tPassed (d : Dev) (b : Bytes) : Dev := d.setLink 0 { d.link 0 with passed := [b] }
/-- The message taken. -/
def tRx (b : Bytes) : RxOp := { link := 0, payload := b, t := 30 }

theorem test_hyp_EndpointMessages :
    let read : ChanOp := { tOp with cmds := [⟨0x81, 1, 4, 0, tBase + 0x200⟩] }
    let rdata := tMsg 0x82 0 0 2 2 ++ [0xAA, 0xBB]
    let a := tRun (.rdata (tRx rdata)) (tPassed (tWith read) rdata)
    let final := tMsg 0x83 0 0 0 0 ++ leBytes 1 1 ++ zeros 1 ++ leBytes 2 0 ++ leBytes 4 0 ++ leBytes 8 7 ++ leBytes 2 1 ++ leBytes 2 0x55 ++
      leBytes 4 6 ++ leBytes 1 0 ++ leBytes 1 1 ++ zeros 2 ++ leBytes 4 0
    let f := tRun (.final (tRx final)) (tPassed (tWith tOp) final)
    let opened := tMsg 0x81 0 0 0 0 ++ leBytes 4 1 ++ zeros 12
    let o := tRun (.opened (tRx opened)) (tPassed (tWith { tOp with st := .moving }) opened)
    (tWith tOp).opOfTag 0 1 = some tOp ∧ (tWith tOp).opOfTag 0 2 = none ∧
      a.mem.spad.read 0x200 4 = [0, 0, 0xAA, 0xBB] ∧ (a.findOp 3 7).map (·.rxNext) = some 1 ∧
      (f.findOp 3 7).map (fun o => (o.st, o.status, o.unitStatus, o.residual, o.dup)) = some (.done, 1, 0x55, 6, true) ∧
      (o.findOp 3 7).map (·.st) = some .running ∧
      (tRun (.opened (tRx (tMsg 0x81 0 0 0 0 |>.set 2 9))) (tPassed (tWith tOp) (tMsg 0x81 0 0 0 0 |>.set 2 9))).rd R.link_STRAY_MESSAGES 0 = 1 := by
  decide +kernel
theorem test_hyp_OperationTimers :
    let op := { tOp with due := 1000000000, msgDue := 1000000000, queryDue := 250000000 }
    let d := tWith op
    let stat (i : OpOpnumT → Instr) (o : ChanOp) (t : Nat) : Option (OpSt × Nat) :=
      ((tRun (i (tOpnum t)) (tWith o)).findOp 3 7).map fun o => (o.st, o.status)
    ((tRun (.queryTimer (tOpnum 250000000)) d).link 0).dataQ.map (·.msg) = [.query] ∧
      tRun (.queryTimer (tOpnum 249999999)) d = d.at 249999999 ∧
      stat .operationTimeout op 1000000000 = some (.halting, 0) ∧ stat .operationTimeout op 999999999 = some (.running, 0) ∧
      stat .movingTimeout { op with st := .moving } 1000000000 = some (.done, 6) ∧
      stat .haltingTimeout { op with st := .halting, startAcked := true } 1000000000 = some (.done, 8) ∧
      stat .queryingTimeout { op with st := .querying, replay := true } 1000000000 = some (.done, 8) := by decide +kernel

/-! ### Links -/

/-- A block received on link 0 as it came. -/
def tBlk (b : Bytes) : RxBlock := { link := 0, bytes := b, opensRun := false, broken := false, fecGood := 0, fecBad := 0, t := 40 }
/-- A block that the peer sends: nothing acknowledged, CREDIT of `credit`. -/
def tPeer (kind seq : Nat) (payload : Bytes) : Bytes := Link.block { rxData := 1, rxCtl := 1 } kind 0 seq payload

theorem test_hyp_LinkBlocks :
    let d := tWith tOp
    let data := tPeer 1 1 (tMsg 0x81 0 0 0 0 ++ leBytes 4 1 ++ zeros 12)
    let ctl := tPeer 2 1 (zeros 16)
    let ack := tPeer 8 0 (leBytes 2 0 ++ zeros 14)
    let nak := tPeer 9 0 (leBytes 1 1 ++ leBytes 1 1 ++ leBytes 2 1 ++ leBytes 2 1 ++ zeros 10)
    let bad := data.set 9 0xFF
    let hello (seen : Nat) := tPeer 10 0 (leBytes 1 1 ++ leBytes 1 1 ++ leBytes 1 (2 + seen) ++ leBytes 1 15 ++ leBytes 2 9 ++ leBytes 2 64 ++
      leBytes 8 0x77 ++ zeros 16)
    let up := d.wr R.link_LINK_STATUS 3 0
    data.length = 44 ∧ fieldLE data (44 - 4) 4 = crc32c (data.take 40) ∧
      ((tRun (.dataBlock (tBlk data)) d).link 0).passed.length = 1 ∧ ((tRun (.dataBlock (tBlk data)) d).link 0).rxData = 2 ∧
      ((tRun (.controlBlock (tBlk ctl)) d).link 0).replies = [zeros 16] ∧ ((tRun (.linkAckBlock (tBlk ack)) d).link 0).lastRx = 40 ∧
      ((tRun (.linkNakBlock (tBlk nak)) d).link 0).lastRx = 40 ∧
      (tRun (.dataBlock (tBlk bad)) d).rd R.link_CRC_ERRORS 0 = 1 ∧ ((tRun (.dataBlock (tBlk bad)) d).link 0).nakOwed = some (3, 1) ∧
      tRun (.dataBlock (tBlk data)) (d.wr R.link_LINK_STATUS 5 0) = (d.wr R.link_LINK_STATUS 5 0).at 40 ∧
      (let t := tRun (.hello (tBlk (hello 0))) up
       t.rd R.link_LINK_STATUS 0 = 3 ∧ (t.link 0).seen = true ∧ t.rd R.link_PEER_UNIT 0 = 0x77 ∧ t.rd R.link_PEER_PORT 0 = 9) ∧
      (let t := tRun (.hello (tBlk (hello 1))) (up.onLink 0 fun x => { x with sentSeen := true })
       t.rd R.link_LINK_STATUS 0 = 4 ∧ (t.link 0).credit = 64) ∧
      (let t := tRun (.hello (tBlk (hello 1))) (up.onLink 0 fun x => { x with expected := 5 })
       t.rd R.link_LINK_STATUS 0 = 6 ∧ t.rd R.link_FAIL_CAUSE 0 = 5) := by decide +kernel
theorem test_hyp_LinkStates :
    let k (t : Nat) : OpLinkT := { link := 0, t := t }
    let st (n : Nat) : Dev := tWith tOp |>.wr R.link_LINK_STATUS n 0
    let s (i : Instr) (n : Nat) : Nat × Nat := ((tRun i (st n)).rd R.link_LINK_STATUS 0, (tRun i (st n)).rd R.link_FAIL_CAUSE 0)
    let d := st 4
    s (.linkTrainingDone (k 9)) 1 = (2, 0) ∧ s (.lockGained (k 9)) 2 = (3, 0) ∧ s (.linkStateTimeout (k 500000000)) 1 = (5, 3) ∧
      s (.linkStateTimeout (k 10000000)) 2 = (5, 7) ∧ s (.linkStateTimeout (k 10000000)) 3 = (5, 4) ∧ s (.linkStateTimeout (k 9999999)) 3 = (3, 0) ∧
      s (.linkDeadTimeout (k 100000)) 4 = (5, 2) ∧ s (.linkDeadTimeout (k 99999)) 4 = (4, 0) ∧
      (let f := { (st 5).wr R.link_ENABLE 1 0 with plat := { d.plat with refA := true } }
       (tRun (.retryDelayEnd (k 10000000)) f).rd R.link_LINK_STATUS 0 = 1 ∧ (tRun (.retryDelayEnd (k 9999999)) f).rd R.link_LINK_STATUS 0 = 5) ∧
      ((tRun (.helloSend (k 10000)) (st 3)).link 0).out.length = 44 ∧ ((tRun (.blockLockLost (k 1)) d).link 0).noLock = true ∧
      ((tRun (.ackOwed (k 10000)) d).link 0).out = (d.link 0).block 8 0 0 (leBytes 2 0 ++ zeros 14) ∧
      (let q := (d.wr R.pav_SHARES (2 ^ 40) 1).setLink 0 { d.link 0 with
         dataQ := [{ pav := 1, ep := 3, opnum := 7, tag := 1, msg := .query, twin := false }], credit := 4 }
       (q.link 0).mayData = true ∧ ((tRun (.blockSent (k 1)) q).link 0).data.unacked.length = 1 ∧ ((tRun (.blockSent (k 1)) q).link 0).dataQ = []) ∧
      (let q := d.setLink 0 { d.link 0 with ctlQ := [(false, zeros 16)] }
       ((tRun (.blockSent (k 1)) q).link 0).out = (d.link 0).block 2 0 1 (zeros 16)) ∧
      (let q := d.setLink 0 { d.link 0 with nakOwed := some (1, 2) }
       ((tRun (.blockSent (k 1)) q).link 0).nakOwed = none) ∧
      (let b : TxBlock := { seq := 1, twin := false, payload := zeros 16 }
       let q (n : Nat) : Dev := d.setLink 0 { d.link 0 with ctl := { unacked := [b], rounded := true, failed := n, due := 2000 } }
       let a (t : Nat) : Instr := .ackTimeout { link := 0, control := true, t := t }
       ((tRun (a 2000) (q 14)).link 0).ctl.failed = 15 ∧ ((tRun (a 1999) (q 14)).link 0).ctl.failed = 14 ∧
         (tRun (a 2000) (q 15)).rd R.link_LINK_STATUS 0 = 5 ∧ (tRun (a 2000) (q 15)).rd R.link_FAIL_CAUSE 0 = 1) := by decide +kernel

/-! ### Hosts: session 5 of pavilion 1, with a data class without a deadline -/

/-- RATE 1,000, MAX_REQUEST 64, MAX_DELIVER 64. -/
def tDesc : Bytes := zeros 4 ++ leBytes 4 1000 ++ leBytes 2 64 ++ leBytes 2 64 ++ zeros 36
/-- The host's place. -/
def tSrc : HostSrc := { ip := 0xFFFF0A000002, udp := 9000 }
/-- The session. -/
def tSess : Session where
  id := 5
  pav := 1
  st := .open
  authKey := 0xFFFF
  desc := tDesc
  handle := 6
  ceiling := 1024
  kHD := zeros 32
  kDH := zeros 32
  fixHD := zeros 4
  fixDH := zeros 4
  limitIv := 1000
  place0 := some (tSrc, 0)
  limit := 1
/-- A HOST_ADDR value with one valid entry, the first of port 0. -/
def tAddr (ip : Nat) : Nat := leNat (beBytes 16 ip ++ leBytes 2 0 ++ leBytes 2 1)
/-- The device in service with the session, port 0 up, and an inbound ring of four entries of 128 bytes at +0x8000. -/
def tHostOf (s : Session) : Dev :=
  let d := tChan.wr R.port_LINK_STATUS 2 0
  let d := ((d.wr R.amn_INBOUND_BASE (tBase + 0x8000) 0 1).wr R.amn_INBOUND_SLOT 128 0 1).wr R.amn_INBOUND_ENTRIES 4 0 1
  let d := (d.wr R.pav_HOST_ADDR (tAddr 0xFFFF0A000001) 1).wr R.pav_HOST_ADDR (tAddr 0xFFFF0A000009) 0
  d.onNet fun n => { n with sessions := [s] }
/-- A message of the session at time 100. -/
def tRxOf (type : Byte) (flags : BitVec 16) (seq : Nat) (payload : Bytes) : Rx where
  port := 0
  pcp := if flags.getLsbD 3 then 7 else 2
  src := tSrc
  pav := 1
  addrSlot := 0
  msg := {
    version := 1, type := type, flags := flags, session := 5, seq := seq, ack := 0, cls := 6, res0 := 0, iv := 1, payload := payload, crc := 0
    tag := 0 }
  t := 100
/-- The device with a message in its queue. -/
def tIn (d : Dev) (o : Rx) : Dev := d.onNet fun n => { n with rx := [o] }
/-- The device after the message is taken, and then with its host proved. -/
def tTaken (d : Dev) (o : Rx) : Dev := ((d.netAt o.t).onNet fun n => { n with rx := n.rx.erase o }).pfcRules o.port.val
/-- The same, with the host proved. -/
def tProved (d : Dev) (o : Rx) : Dev := (tTaken d o).proveHost o o.msg.session.toNat
/-- The session after a message of it at time 100. -/
def tSess1 : Session := { tSess with deadDue := 10000100 }

/-- A device and a message that a session hears, as every statement about sessions asks. -/
theorem tHeard (d : Dev) (o : Rx) (type : Nat) (s : Session) (h1 : o.msg.type.toNat = type) (h2 : (d.netAt o.t).nextRx o = some o)
    (h3 : ((tTaken d o).sess o.msg.session.toNat).any (fun x => decide (x.st ≠ .suspended)) = true)
    (h4 : (tProved d o).sess o.msg.session.toNat = some s) : d.Hears o type (tProved d o) s := by
  cases h : (tTaken d o).sess o.msg.session.toNat with
  | none => rw [h] at h3; simp at h3
  | some x =>
    rw [h] at h3
    exact ⟨tTaken d o, x, ⟨h1, h2, rfl⟩, h, by simpa using h3, rfl, h4⟩

/-- A keep-alive of session 5 but for its tag, 52 bytes. -/
def tPing : Bytes :=
  let h := leBytes 1 1 ++ leBytes 1 0x0C ++ leBytes 2 8 ++ leBytes 4 5 ++ zeros 8 ++ zeros 8 ++ zeros 2 ++ leBytes 2 8 ++ zeros 4
  h ++ leBytes 8 1 ++ leBytes 8 77 ++ leBytes 4 (crc32c (h ++ leBytes 8 77))
/-- Its tag. -/
def tPingTag : Bytes := gcmTag (zeros 32) (zeros 4 ++ leBytes 8 1) tPing []
theorem test_hyp_HostPorts :
    let d := tHostOf tSess
    let b := tPing ++ tPingTag
    let m := msgOfBytes b
    b.length = 68 ∧ fieldLE b 0 1 = 1 ∧ fieldLE b 1 1 = 0x0C ∧ fieldLE b 26 2 + 60 = b.length ∧ streamOk m = true ∧ m.payload = leBytes 8 77 ∧
      m.iv = 1 ∧ crc32c (b.take 32 ++ m.payload) = m.crc.toNat ∧ shapeOk m.type.toNat m.seq m.payload = true ∧ d.plat.step = 12 ∧
      d.sess m.session.toNat = some tSess ∧ (d.acceptUdp 0 2 0 7 false tSrc b).net.rx = [] ∧ (d.acceptUdp 0 1 0 2 false tSrc b).net.rx = [] ∧
      (d.acceptUdp 0 1 0 7 true tSrc b).net.rx = [] := by decide +kernel
theorem test_ping_good : gcmTag tSess.kHD (tSess.fixHD ++ leBytes 8 1) ((tPing ++ tPingTag).take (44 + 8)) [] = (tPing ++ tPingTag).drop (44 + 8) := by
  have h : tPing.length = 44 + 8 := by decide +kernel
  rw [← h, List.take_left, List.drop_left]
  rfl
theorem test_host_frame :
    let d0 := tHostOf tSess
    let d := { d0 with dict := Table.set 0 d0.dict (R.port_MAC_ADDR.key 0 0) 0x060504030201 }
    let req := zeros 68
    let udp := beBytes 2 9000 ++ beBytes 2 (d.rd R.amn_UDP_PORT) ++ beBytes 2 76 ++ zeros 2 ++ req
    let ip := [0x45, 0xE0] ++ beBytes 2 96 ++ zeros 4 ++ [64, 17] ++ zeros 2 ++ [10, 0, 0, 2, 10, 0, 0, 1] ++ udp
    let f (et : Nat) : Dev := tRun (.frameReceive { port := 0, bytes := [1, 2, 3, 4, 5, 6] ++ zeros 6 ++ beBytes 2 et ++ ip, fecGood := 0, fecBad := 0, t := 5 }) d
    d.addrOwner 0 0xFFFF0A000001 false none = some (1, 0) ∧ (f 0x88B5).rd R.port_RX_DROPPED 0 = 1 ∧
      ipParse false ip = some (0xFFFF0A000002, 0xFFFF0A000001, udp, true) ∧ (f 0x0800).rd R.port_RX_DROPPED 0 = 1 ∧
      (tRun (.arpRequest { port := 0, target := 0xFFFF0A000001, vid := none, sender := tSrc }) d).net.out.map Out.port = [0] := by
  decide +kernel
theorem test_host_ports :
    let d := tHostOf tSess
    let up := (d.wr R.port_STATE 2 0).wr R.port_LINK_STATUS 1 0
    (tRun (.portLinkUp { port := 0, t := 1 }) up).rd R.port_LINK_STATUS 0 = 2 ∧ (tRun (.portLinkDown { port := 0, t := 1 }) d).rd R.port_LINK_STATUS 0 = 1 ∧
      (tRun (.pfcFrame { port := 0, enable := 4, times := [0, 0, 100] }) (d.wr R.port_PFC_ENABLE 0x7F 0)).net.paused = [(2, 128)] ∧
      tSess.HasCounters ∧ tSess.place 0 = some (tSrc, 0) ∧
      (let t := d.sendMsg 5 0x0C 0 0 (leBytes 8 1)
       t.net.out.length = 1 ∧ (t.sess 5).map (·.txIv) = some 2) ∧
      (let t := tRun (.twinNakTimer { session := 5, control := false, seq := 1, t := 2100 }) (d.onNet fun n => { n with nakTimers := [(5, false, 1, 100)] })
       t.net.nakTimers = [] ∧ t.net.out.length = 1) ∧
      (tRun (.twinNakTimer { session := 5, control := false, seq := 1, t := 2099 }) (d.onNet fun n => { n with nakTimers := [(5, false, 1, 100)] })).net.out = [] := by
  unfold Session.HasCounters
  decide +kernel

/-- KEEPALIVE, STOP, CLOSE and a repeated CLOSE of the session. -/
theorem test_hears_keepalive : (tIn (tHostOf tSess) (tRxOf 0x0C 8 0 (zeros 8))).Hears (tRxOf 0x0C 8 0 (zeros 8)) 0x0C
    (tProved (tIn (tHostOf tSess) (tRxOf 0x0C 8 0 (zeros 8))) (tRxOf 0x0C 8 0 (zeros 8))) tSess1 :=
  tHeard _ _ _ _ (by decide +kernel) (by decide +kernel) (by decide +kernel) (by decide +kernel)
theorem test_hears_control : (tIn (tHostOf tSess) (tRxOf 0x0A 8 1 (leBytes 1 1 ++ zeros 15))).HearsNew (tRxOf 0x0A 8 1 (leBytes 1 1 ++ zeros 15)) 0x0A
    (tProved (tIn (tHostOf tSess) (tRxOf 0x0A 8 1 (leBytes 1 1 ++ zeros 15))) (tRxOf 0x0A 8 1 (leBytes 1 1 ++ zeros 15))) tSess1 :=
  ⟨tHeard _ _ _ _ (by decide +kernel) (by decide +kernel) (by decide +kernel) (by decide +kernel), by decide +kernel, by decide +kernel⟩
theorem test_hyp_Sessions :
    let ctl (op scope : Nat) : Rx := tRxOf 0x0A 8 1 (leBytes 1 op ++ leBytes 1 scope ++ zeros 14)
    let st (i : Rx → Instr) (o : Rx) (s : Session) : Option SessSt := ((tRun (i o) (tIn (tHostOf s) o)).sess 5).map (·.st)
    let req : HostReq := { seq := 1, arrival := 1, due := 0, rxflags := 0, payload := [1], accepted := true }
    let k (t : Nat) : OpSessT := { session := 5, t := t }
    st .stop (ctl 1 0) tSess = some .stopped ∧ st .resume (ctl 2 0) { tSess with st := .stopped } = some .open ∧
      st .drain (ctl 3 0) { tSess with reqs := [req] } = some .draining ∧ st .stop (ctl 1 1) tSess = some .stopped ∧
      st .stop (ctl 1 1) { tSess with authKey := 4 } = some .open ∧ st .stop (ctl 1 0) { tSess with st := .closing } = some .closing ∧
      st .close (tRxOf 0x0D 8 1 (zeros 8)) tSess = none ∧ st .close (tRxOf 0x0D 8 1 (zeros 8)) { tSess with reqs := [req] } = some .closing ∧
      controlBad (leBytes 1 5 ++ zeros 15) = true ∧
      (let t := tRun (.controlUndefined (ctl 5 0)) (tIn (tHostOf tSess) (ctl 5 0))
       ((t.sess 5).bind fun s => Table.get none s.answers 1).map (fun a => (fieldLE a.payload 0 1, fieldLE a.payload 2 2)) = some (0x80, 0x0107)) ∧
      (let x := { tSess with deadDue := 500, kaDue := 500 }
       ((tRun (.sessionSuspend (k 500)) (tHostOf x)).sess 5).map (·.st) = some .suspended ∧
         ((tRun (.sessionSuspend (k 499)) (tHostOf x)).sess 5).map (·.st) = some .open ∧
         (tRun (.openingTimeout (k 500)) (tHostOf { x with st := .opening })).sess 5 = none ∧
         ((tRun (.openingTimeout (k 500)) (tHostOf { x with st := .opening, resumed := true })).sess 5).map (·.st) = some .suspended ∧
         (tRun (.keepaliveSend (k 500)) (tHostOf x)).net.out.length = 2 ∧ (tRun (.keepaliveSend (k 499)) (tHostOf x)).net.out = [] ∧
         ((tRun (.drainedRepeat (k 500)) (tHostOf { x with st := .draining, drained := some 500 })).net.out.length) = 1 ∧
         (tRun (.drainedRepeat (k 499)) (tHostOf { x with st := .draining, drained := some 500 })).net.out = []) := by decide +kernel
/-- An OPEN of a new session, and one that resumes session 5. -/
theorem test_hyp_Opens :
    let m (resume : Nat) (desc : Bytes) : Bytes := leBytes 1 1 ++ zeros 3 ++ leBytes 2 0xFFFF ++ zeros 2 ++ leBytes 4 resume ++ zeros 4 ++ zeros 32 ++
      leBytes 16 9 ++ desc
    let o (resume : Nat) (desc : Bytes) : Rx := { tRxOf 0x01 8 0 (m resume desc) with msg := { (tRxOf 0x01 8 0 (m resume desc)).msg with session := 0 } }
    let d := tHostOf tSess
    let s := tHostOf { tSess with st := .suspended }
    (d.netAt 100).nextRx (o 0 (zeros 48)) = none ∧ ((tIn d (o 0 (zeros 48))).netAt 100).nextRx (o 0 (zeros 48)) = some (o 0 (zeros 48)) ∧
      (tTaken (tIn d (o 0 tDesc)) (o 0 tDesc)).openNewStatus (OpenMsg.ofBytes (m 0 tDesc)) false = 0 ∧
      (tTaken (tIn d (o 0 tDesc)) (o 0 tDesc)).freeSession = 1 ∧
      (tTaken (tIn s (o 5 tDesc)) (o 5 tDesc)).openResumeStatus (OpenMsg.ofBytes (m 5 tDesc)) = 0 ∧
      (tTaken (tIn d (o 5 tDesc)) (o 5 tDesc)).openResumeStatus (OpenMsg.ofBytes (m 5 tDesc)) = 0x0206 := by decide +kernel

/-- A REQUEST of the session. -/
def tReq : Rx := tRxOf 0x03 0 1 [0xAB]
/-- The same request accepted. -/
def tAccepted : HostReq := { seq := 1, arrival := 100, due := 0, rxflags := 0, payload := [0xAB], accepted := true }
/-- The request with a DELIVER posted and sent. -/
def tSent : HostReq := { tAccepted with deliver := some ([1, 2], 150), sent := some 150, lastSent := 150, interval := 1000 }

theorem test_hears_request : (tIn (tHostOf tSess) tReq).Hears tReq 0x03 (tProved (tIn (tHostOf tSess) tReq) tReq) tSess1 :=
  tHeard _ _ _ _ (by decide +kernel) (by decide +kernel) (by decide +kernel) (by decide +kernel)
theorem test_hyp_Requests :
    let t := tRun (.request tReq) (tIn (tHostOf tSess) tReq)
    let r := tRun (.reqRecordComplete { session := 5, seq := 1, t := 120 }) t
    let refused (s : Session) : Option Nat := ((tRun (.request tReq) (tIn (tHostOf s) tReq)).sess 5).bind fun s => s.outcomes.find? (·.1 = 1) |>.map (·.2)
    let k (t : Nat) : OpSeqT := { session := 5, seq := 1, t := t }
    let sent (t : Nat) : Dev := tRun (.deliverResend (k t)) (tHostOf { tSess with reqs := [tSent] })
    let cancel (seq : Nat) : Rx := tRxOf 0x0A 8 1 (leBytes 1 4 ++ zeros 7 ++ leBytes 8 seq)
    let status (seq : Nat) : Option Nat := ((tRun (.cancel (cancel seq)) (tIn (tHostOf { tSess with reqs := [tAccepted] }) (cancel seq))).sess 5).bind
      fun s => (Table.get none s.answers 1).map fun a => fieldLE a.payload 2 2
    (t.sess 5).map (fun s => s.reqs.map (fun r => (r.seq, r.arrival, r.accepted))) = some [(1, 100, false)] ∧
      (r.sess 5).map (fun s => s.reqs.map (·.accepted)) = some [true] ∧ (r.sess 5).map (·.answered) = some 1 ∧
      refused { tSess with st := .stopped } = some 0x0203 ∧ refused { tSess with limit := 0 } = some 0x0505 ∧
      refused { tSess with desc := zeros 4 ++ leBytes 4 1000 ++ zeros 4 ++ zeros 36 } = some 0x0105 ∧
      (sent 1150).net.out.length = 1 ∧ (sent 1149).net.out = [] ∧ status 1 = some 0 ∧ status 2 = some 0x0208 ∧
      ((tHostOf { tSess with reqs := [tSent] }).acknowledge 5 1 []).sess 5 = some tSess := by decide +kernel
theorem test_hears_ack : (tIn (tHostOf { tSess with reqs := [tSent] }) (tRxOf 0x08 0 1 (leBytes 8 1))).Hears (tRxOf 0x08 0 1 (leBytes 8 1)) 0x08
    (tProved (tIn (tHostOf { tSess with reqs := [tSent] }) (tRxOf 0x08 0 1 (leBytes 8 1))) (tRxOf 0x08 0 1 (leBytes 8 1))) { tSess1 with reqs := [tSent] } :=
  tHeard _ _ _ _ (by decide +kernel) (by decide +kernel) (by decide +kernel) (by decide +kernel)
theorem test_acks :
    let d := tHostOf { tSess with reqs := [tSent] }
    let ack := { tRxOf 0x07 0 0 (zeros 8) with msg := { (tRxOf 0x07 0 0 (zeros 8)).msg with ack := 1 } }
    ((tRun (.ack ack) (tIn d ack)).sess 5).map (·.reqs) = some [] ∧
      (tRun (.nak (tRxOf 0x08 0 1 (leBytes 8 1))) (tIn d (tRxOf 0x08 0 1 (leBytes 8 1)))).net.out.length = 1 ∧
      (tRun (.nak (tRxOf 0x08 0 2 (leBytes 8 1))) (tIn d (tRxOf 0x08 0 2 (leBytes 8 1)))).net.out = [] := by decide +kernel
/-- A request of a class with a deadline is placed in the inbound ring, and LIMIT rises with RATE. -/
theorem test_placement_and_credit :
    let timed := tDesc.set 36 1
    let d := (tHostOf { tSess with desc := timed, reqs := [tAccepted] }).onNet fun n => { n with inQ := [{ tSess.placing tAccepted 1 with timed := true }] }
    let t := tRun (.inboundPlacement { pav := 1, t := 200 }) d
    cdTimed timed = true ∧ d.rd R.amn_INBOUND_ENTRIES 0 1 = 4 ∧
      t.mem.spad.read 0x8000 12 = leBytes 4 5 ++ leBytes 2 6 ++ leBytes 2 1 ++ leBytes 4 1 ∧ t.mem.spad.read 0x8040 1 = [0xAB] ∧
      t.net.inQ = [] ∧ t.net.inRing = [{ pav := 1, index := 0, session := 5, kind := 1 }] ∧ t.pbit 1 (d.rd R.amn_INBOUND_DOORBELL 0 1) = true ∧
      (let c := tHostOf { tSess with answered := 1 }
       cdWindow tDesc = 1 ∧ (c.sess 5).map (·.st.live) = some true ∧ c.roomFor 1 (1 * (64 + 64)) = true ∧
         ((tRun (.credit { session := 5, t := 1000000 }) c).sess 5).map (·.limit) = some 2 ∧
         ((tRun (.credit { session := 5, t := 999999 }) c).sess 5).map (·.limit) = some 1) := by decide +kernel
/-- DLVR of two bytes for request 1, and each refusal of Table 9.20. -/
theorem test_hyp_DlvrPosts :
    let post (s len seq : Nat) : Bytes := leBytes 4 s ++ leBytes 2 len ++ leBytes 2 0 ++ leBytes 8 seq
    let d (b : Bytes) : Dev :=
      let d := tHostOf { tSess with reqs := [tAccepted] }
      { d with mem := { d.mem with spad := ((((({} : Ram).write 0x100 b).write 0x110 (tCap 0x200).bytes).setTag 0x11 true).write 0x200 [7, 8]) } }
    let r (b : Bytes) : Word := (tX (.dlvr tChst) (d b)).gr 3
    let t := tRun (.dlvr tChst) (d (post 5 2 1))
    r (post 5 2 1) = 0 ∧ (t.sess 5).map (fun s => s.reqs.map (fun r => r.deliver.map (·.1))) = some [some [7, 8]] ∧ t.net.out.length = 1 ∧
      r (post 6 2 1) = 0x0401 ∧ r (post 5 2 2) = 0x0208 ∧ r (post 5 65 1) = 0x0105 ∧ r ((post 5 2 1).set 6 1) = 0x0107 ∧
      (tX (.dlvr tChst) { d (post 5 2 1) with mem := { (d (post 5 2 1)).mem with spad := ({} : Ram).write 0x100 (post 5 2 1) } }).gr 3 = 0x0108 ∧
      r (post 5 0 1) = 0 := by decide +kernel

/-! ### Engines -/

/-- FIPS 197's examples: an S-box entry, a product, a column of MixColumns, a key word and a row shift. -/
theorem test_aes : sbox 0x53 = 0xED ∧ invSbox 0xED = 0x53 ∧ gmul 0x57 0x83 = 0xC1 ∧
    (mixColumns [2, 3, 1, 1] ([0xDB, 0x13, 0x53, 0x45] ++ zeros 12)).take 4 = [0x8E, 0x4D, 0xA1, 0xBC] ∧
    (keyExtend 4 (keyWords 4 [0x2B, 0x7E, 0x15, 0x16, 0x28, 0xAE, 0xD2, 0xA6, 0xAB, 0xF7, 0x15, 0x88, 0x09, 0xCF, 0x4F, 0x3C])).getLastD [] =
      [0xA0, 0xFA, 0xFE, 0x17] ∧ (shiftRows 1 ((List.range 16).map fun i => BitVec.ofNat 8 i)).take 4 = [0, 5, 10, 15] := by decide +kernel
/-- GCM test case 2: the key's hash subkey and the ciphertext block. -/
theorem test_ghash : ghashMul 0x0388dace60b6a392f328c2b971b2fe78 0x66e94bd4ef8a2c3b884cfa59ca342b2e = 0x5e2ec746917062882c85b0685353deb7 := by
  decide +kernel
/-- The device with key slot 0 of pavilion 1 holding an AES-128 key, both completion rings at +0x4000, and a share of the engines. -/
def tEng (b : Bytes) : Dev :=
  let d := (((tChan.wr R.pav_SHARES (2 ^ 24) 1).wr R.pav_KEY_SLOTS 2 1).wr R.cie_ENABLE 1 0).wr R.cpe_ENABLE 1 0
  let d := (((d.wr R.cip_CQ_BASE (tBase + 0x4000) 0 1).wr R.cip_CQ_ENTRIES 64 0 1).wr R.cpr_CQ_BASE (tBase + 0x4000) 0 1).wr R.cpr_CQ_ENTRIES 64 0 1
  let m := ((({} : Ram).write 0x100 b).write 0x120 (tCap 0x200).bytes).setTag 0x12 true
  { d.setKeySlot 1 0 { kind := 1, limit := 9, next := 3, key := zeros 16 } with
    cores := tDev { tArch with k := [(1, 0), (2, 7)] } |>.cores
    mem := { d.mem with spad := (m.write 0x130 (tCap 0x300).bytes).setTag 0x13 true } }
/-- A cipher descriptor. -/
def tCiph (op slot len aux : Nat) : Bytes := leBytes 1 op ++ zeros 1 ++ leBytes 2 slot ++ leBytes 4 len ++ leBytes 4 aux ++ leBytes 4 77
/-- A job of the engines, as GCM_ENC of four bytes. -/
def tJob : CipherJob where
  pav := 1
  engine := 0
  op := 1
  wipe := false
  slot := 0
  length := 4
  aux := 0
  id := 77
  iv := zeros 12
  counter := 3
  key := zeros 16
  src := tBase + 0x200
  dst := tBase + 0x300
  density := 0

theorem test_hyp_CipherJobs :
    let r (b : Bytes) : Word := (tX (.gcmEnc tChst) (tEng b)).gr 3
    let t := tRun (.gcmEnc tChst) (tEng (tCiph 1 0 4 0))
    (tEng []).cipherOpen 1 0 = true ∧ (tEng []).holdsSlot 1 0 = true ∧ (tEng []).holdsSlot 1 2 = false ∧
      r (tCiph 1 0 4 0) = 0 ∧ t.eng.cipherJobs.map (fun j => (j.op, j.counter, j.id)) = [(1, 3, 77)] ∧ (t.keySlot 1 0).next = 4 ∧
      r (tCiph 7 0 4 0) = 0x0107 ∧ r (tCiph 1 2 4 0) = 0x0603 ∧ r (tCiph 5 0 16 16) = 0x0603 ∧
      (tX (.gcmEnc tChst) ((tEng (tCiph 1 0 4 0)).setKeySlot 1 0 { kind := 1, limit := 9, next := 10, key := zeros 16 })).gr 3 = 0x0601 ∧
      (tX (.gcmEnc tChst) ((tEng (tCiph 1 0 4 0)).wr R.cip_CQ_ENTRIES 0 0 1)).gr 3 = 0x020D ∧
      (tX (.gcmEnc tChst) ((tEng (tCiph 1 0 4 0)).wr R.cie_ENABLE 0 0)).gr 3 = 0x0401 := by decide +kernel
theorem test_cipher_chunks :
    let d (j : CipherJob) : Dev := (tEng []).onEng fun e => { e with cipherJobs := [j] }
    let go (m : Bool) (j : CipherJob) : Dev := tRun (.cipherChunk { engine := 0, mismatch := m, t := 5 }) (d j)
    (d tJob).cipherNext 0 = some tJob ∧ (d tJob).cipherNext 1 = none ∧
      (go true tJob).eng.cipherJobs.map (·.again) = [true] ∧ (go true { tJob with again := true }).eng.cipherDone.map (·.status) = [2] ∧
      (go true { tJob with again := true }).eng.cipherCheck = [0] ∧
      (go false tJob).eng.cipherDone.map (fun c => (c.status, c.counter)) = [(0, 3)] ∧
      (go false { tJob with op := 0x11, length := 0 }).keySlot 1 0 = {} ∧
      (let t := tRun (.cipherCompletion { pav := 1, t := 6 }) (go false { tJob with op := 0x11, length := 0 })
       t.mem.spad.read 0x4000 8 = leBytes 4 77 ++ leBytes 2 0 ++ [0, 1] ∧ t.eng.cipherDone = [] ∧ t.pbit 1 (t.rd R.cip_DOORBELL 0 1) = true) ∧
      (let c (p : Bool) : Dev := tRun (.cipherSelfCheckEnd { engine := 0, passed := p, t := 9 }) ((tEng []).onEng fun e => { e with cipherCheck := [0] })
       (c true).rd R.cie_STATE 0 = 2 ∧ (c false).rd R.cie_STATE 0 = 4 ∧ (c true).eng.cipherCheck = []) := by decide +kernel

/-- A compression descriptor of one chain buffer, whose capability stands at +0x180. -/
def tComp (op f n len : Nat) : Bytes := leBytes 1 op ++ leBytes 1 f ++ leBytes 1 n ++ leBytes 1 1 ++ leBytes 4 len ++ leBytes 4 88 ++ zeros 4
/-- The device with the descriptor. -/
def tCompDev (b : Bytes) : Dev :=
  let d := tEng []
  let m := ((({} : Ram).write 0x100 b).write 0x110 (tCap 0x200).bytes).setTag 0x11 true
  let m := (((m.write 0x120 (tCap 0x180).bytes).setTag 0x12 true).write 0x180 { tCap 0x400 with base := BitVec.ofNat 38 (tBase + 0x400), len := 0x100 }.bytes).setTag 0x18 true
  { d with mem := { d.mem with spad := m.write 0x200 [1, 2, 3, 4] } }
/-- A compression job of four bytes. -/
def tCJob : CompJob where
  pav := 1
  engine := 0
  op := 1
  flush := false
  finish := false
  more := false
  block := 1024
  length := 4
  id := 88
  src := tBase + 0x200
  chain := [(tBase + 0x400, 0x100)]
  ctx := 0

theorem test_hyp_CompressionJobs :
    let r (b : Bytes) : Word := (tX (.compress tChst) (tCompDev b)).gr 3
    r (tComp 1 0 1 4) = 0 ∧ (tRun (.compress tChst) (tCompDev (tComp 1 0 1 4))).eng.compJobs.map (fun j => (j.op, j.id, j.chain)) =
        [(1, 88, [(tBase + 0x400, 0x100)])] ∧
      r (tComp 0 0 1 4) = 0x0107 ∧ r (tComp 1 0 17 4) = 0x0107 ∧ r (tComp 1 0 2 4) = 0x10108 ∧
      (tX (.compress tChst) ((tCompDev (tComp 1 0 1 4)).wr R.cpr_CQ_ENTRIES 0 0 1)).gr 3 = 0x020D ∧
      (tX (.compress tChst) ((tCompDev (tComp 1 0 1 4)).wr R.cpe_ENABLE 0 0)).gr 3 = 0x0401 := by decide +kernel
theorem test_compression_chunks :
    let d (j : CompJob) : Dev := (tCompDev []).onEng fun e => { e with compJobs := [j] }
    let go (m : Bool) (j : CompJob) : Dev := tRun (.compressionChunk { engine := 0, mismatch := m, t := 5 }) (d j)
    let raw := { tCJob with work := some ([1, 2, 3, 4], .raw), left := 1 }
    let b := containerBlock true true false 4 (crc32c [1, 2, 3, 4]) [1, 2, 3, 4]
    let dec := { tCJob with op := 2, work := some (b, .first), left := 1 }
    (d tCJob).compNext 0 = some tCJob ∧ (d tCJob).compNext 1 = none ∧
      (go true raw).eng.compDone.map (·.status) = [4] ∧ (go false raw).mem.spad.read 0x400 28 = b ∧
      (go false dec).mem.spad.read 0x400 4 = [1, 2, 3, 4] ∧
      (go false { dec with work := some (b.set 24 9, .first) }).eng.compDone.map (·.status) = [2] ∧
      (go false { dec with chain := [(tBase + 0x400, 3)] }).eng.compDone.map (·.status) = [1] ∧
      (go false { tCJob with ended := true }).eng.compDone.map (·.status) = [0] ∧
      (go false { tCJob with op := 2 }).eng.compDone.map (fun c => (c.status, c.job.part)) = [(0, true)] ∧
      (let t := tRun (.compressionCompletion { pav := 1, t := 6 }) (go false { tCJob with ended := true })
       t.mem.spad.read 0x4000 8 = leBytes 4 88 ++ leBytes 2 0 ++ [0, 1] ∧ t.eng.compDone = []) ∧
      (tRun (.compressionSelfCheckEnd { engine := 0, passed := false, t := 9 }) ((tEng []).onEng fun e => { e with compCheck := [0] })).rd R.cpe_STATE 0 = 4 := by
  decide +kernel

/-! ### Cores, lines and memory -/

/-- The device with granule 0 as segment 0 of pavilion 1, a way group of cluster 0 and a directory way. -/
def tLine : Dev :=
  let d := (tDev.wr R.pav_WAY_GROUPS 1 1).wr R.pav_SHARES (2 ^ 12) 1
  { d with mem := { d.mem with segs := [(256, 0)], dirOwn := [(0, 2)] } }
/-- Line 2 of pavilion 1 at agent 0. -/
def tL : OpLine := { agent := 0, pav := 1, line := 2 }
/-- The same line held by cluster 0. -/
def tHold (st : LState) : Dev :=
  tLine.onMem fun m => { m with l2 := [(l2SetKey 0 2, { pav := 1, line := 2, st := st, data := { data := 9 } })] }
/-- A message about it. -/
def tCoh (k : CohKind) : CohMsg := { kind := k, agent := 0, pav := 1, line := 2 }
/-- A message in flight. -/
def tFlight (d : Dev) (m : CohMsg) : Dev := d.onMem fun x => { x with msgs := [m] }

theorem test_hyp_CoreEvents :
    let e : MergeEntry := { line := tBase / 64 + 4, data := 0x55, mask := 1, tags := 0 }
    let m : MergeEntry := { line := 2, data := 0x55, mask := 1, tags := 0 }
    let w : MergeEntry := { line := 0x3E00000000 / 64, data := 0x55, mask := 1, tags := 0 }
    let with_ (d : Dev) (e : MergeEntry) : Dev := d.onCore 0 fun x => { x with merge := [e] }
    let o : OpDrain := { core := 0, idx := 0, collide := .none }
    placeOf (64 * e.line) = .scratchpad ∧ placeOf (64 * m.line) = .memory ∧ placeOf (64 * w.line) = .window ∧
      (let t := tRun (.mergingBufferDrain o) (with_ tDev e)
       t.mem.spad.bytes = [(0x100, 0x55)] ∧ (t.core 0).merge = [] ∧ (t.core 0).stored = []) ∧
      (let t := tRun (.mergingBufferDrain o) (with_ (tHold .x) m)
       (t.held 0 1 2).map (fun l => (l.st, l.data.data)) = some (.d, 0x55) ∧ (t.core 0).stored = [2]) ∧
      (tRun (.mergingBufferDrain o) (with_ tDev w)).mem.win.bytes = [(2 ^ 33, 0x55)] ∧
      (tRun (.mergingBufferDrain { o with collide := .device }) (with_ tDev e)).mem.dmaLost = [(1, tBase + 0x100)] ∧
      (let j : MoverJob := { cluster := 0, pav := 1, addr := 0, head := [], status := 0, src := none, pattern := [], dst := tBase + 0x100, len := 8, lost := [] }
       (tRun (.mergingBufferDrain { o with collide := .mover }) ((with_ tDev e).onMem fun m => { m with moverJobs := [j] })).mem.moverJobs =
         [{ j with lost := [tBase + 0x100] }]) := by decide +kernel
theorem test_core_interrupts :
    let d := ({ tTrapDev with cores := tDev { tTrapArch with bits := 0x10, arm := 4, tcmp := 50 } |>.cores } : Dev)
    let b := d.setPbit 1 0x1002 true
    let k (t : Nat) : OpCoreT := { core := 0, t := t }
    Table.Wf false b.mem.bits ∧ b.coreReady 0 = true ∧ (b.core 0).arch.bit 4 = true ∧
      tRun (.doorbellInterrupt (k 9)) b = (b.at 9).takeTrap 0 1 { num := 0x10, fault := 0x1002 } ∧ tRun (.coreTimer (k 60)) b = b.at 60 ∧
      tRun (.coreTimer (k 50)) d = (d.at 50).takeTrap 0 1 { num := 0x11, fault := 50 } ∧ tRun (.coreTimer (k 49)) d = d.at 49 ∧
      (decodeWord 0 0xE400000F).isSome = true ∧ decodeWord 0 0xFC000000 = none ∧
      tRun (.undefinedOpcodeWord { core := 0, word := 0xFC000000 }) tTrapDev = (tFet tTrapDev).takeTrap 0 1 { num := 0x01, fault := tBase } := by decide +kernel

theorem test_hyp_RetryAndSparing :
    let go (x : Core) (ok : Bool) : Dev := tRun (.instructionRetry { core := 0, event := .compare, success := ok, t := 5 }) (tDevX x)
    let x := tCore tArch
    let test (x : Core) (bad : Bool) : Dev := tRun (.selfTestEnd { core := 0, confirmed := bad, t := 9 }) (tDevX x)
    let s := { x with run := .selfTest }
    let k : OpClusterT := { cluster := 0, t := 20 }
    let h := { x with run := .handingOver }
    ((go x true).core 0).run = .running ∧ ((go x false).core 0).run = .retrying ∧ (go x true).rd R.clu_RETRIES 0 = 1 ∧
      ((go { x with retry := { count := 1 } } false).core 0).run = .retrying ∧ ((go { x with retry := { count := 2 } } false).core 0).run = .selfTest ∧
      ((test s false).core 0).run = .running ∧ ((test s true).core 0).run = .handingOver ∧
      ((test { s with retry := { passed := [7, 8] } } false).core 0).run = .handingOver ∧
      ((test { s with retry := { passed := [8] } } false).core 0).run = .running ∧
      (tRun (.selfTestEnd { core := 0, confirmed := true, t := 9 }) ((tDevX s).wr R.clu_SPARE 3 0) |>.core 0).run = .lost ∧
      ((tRun (.spareAwake k) (tDevX h)).core 0).retry.spareAwake = true ∧ (tDevX h).handing 0 = some 0 ∧ (tDevX x).handing 0 = none ∧
      (let t := tRun (.checkpointTransfer k) (tDevX { h with retry := { spareAwake := true } })
       (t.core 0).inSpareSlot = true ∧ t.rd R.clu_SPARE 0 = 0 ∧ bitOf (t.rd R.clu_RETIRED 0) 0 = true) ∧
      (tRun (.spareFirstCommit k) (tDevX { h with retry := { spareAwake := true, inSpare := true } })).rd R.clu_SPARINGS 0 = 1 := by decide +kernel

/-- Twins 0 and 16 of pavilion 1. -/
def tTwin (i : Option (Instr × Nat)) (f : Core → Core) : Dev :=
  let x := { tCore tArch with exchange := i }
  let d := (tDev.wr R.pav_CORES (1 + 2 ^ 16) 1).setTwinPartner 0 16 |>.setTwinPartner 16 0
  { d with cores := [(0, f { x with twin := some 16 }), (16, { x with twin := some 0 })] }
theorem test_hyp_TwinExecution :
    let i : Instr := .stL { core := 0, rd := 1, cs := 1, rb := 0, off := 0 }
    let d := tTwin (some (i, 90)) id
    let off := tTwin (some (i, 90)) fun x => { x with arch := { tArch with k := [(1, 5)] } }
    let k (t : Nat) : OpCoreT := { core := 0, t := t }
    (exchangeOf i (Fin.ofNat 256 0)).map (·.1) = some i ∧ d.coreOwner 0 = some 1 ∧ (d.core 0).twin = some 16 ∧
      (let t := tRun (.twinExchange (k 5)) d
       (t.core 0).exchange = none ∧ (t.core 0).arch = (t.core 16).arch ∧ (t.core 0).arch.pcc = tCap 4) ∧
      (let t := tRun (.twinExchange (k 5)) off
       (t.core 0).exRetries = 1 ∧ (t.core 0).arch = tArch ∧ (t.core 16).run = .running) ∧
      (let t := tRun (.twinExchange (k 5)) (tTwin (some (i, 90)) fun x => { x with arch := { tArch with k := [(1, 5)] }, exRetries := 3 })
       (t.core 0).run = .selfTest ∧ (t.core 16).run = .selfTest) ∧
      (tTwin none id).coreReady 0 = true ∧ ((tRun (.idleExchange (k 5)) (tTwin none id)).core 0).arch = tArch ∧
      (let g := tTwin (some (i, 90)) fun x => { x with exchange := none }
       let t := tRun (.twinTimeout { k 90 with midFrame := false }) g
       (t.core 0).run = .stopped ∧ (t.core 0).twin = none ∧ (t.core 16).twin = none ∧ t.twinPartner 0 = 0xFFFF ∧ t.twinPartner 16 = 0xFFFF ∧
         tRun (.twinTimeout { k 89 with midFrame := false }) g = g.at 89) ∧
      (let t := tRun (.twinGiveUp { core := 0, t := 5, midFrame := false }) (tTwin none fun x => { x with run := .selfTest })
       (t.core 0).run = .selfTest ∧ (t.core 16).twin = none ∧ t.rd R.clu_TWIN_GIVEUPS 0 = 1) := by decide +kernel
/-- A give-up while the partner writes the frame of a machine check that is due (R342), and while nothing is due there. -/
theorem test_give_up_mid_frame :
    let d (l : List Nat) : Dev := (tTwin none fun x => { x with run := .selfTest }).onCore 16 fun x => { x with mchecks := l }
    let go (l : List Nat) : CoreRun := ((tRun (.twinGiveUp { core := 0, t := 5, midFrame := true }) (d l)).core 16).run
    (d [3]).frameDue 16 1 = true ∧ (d []).frameDue 16 1 = false ∧ go [3] = .wedged ∧ go [] = .running := by decide +kernel

/-- One directory way in use. -/
theorem tDirAt (d : Dev) (k : Nat) (e : DirEntry) (hd : d.mem.dir = [(k, e)]) : d.dirAt k = e := by
  simp [Dev.dirAt, hd, Table.get]
/-- The ways of a set, the first apart. -/
theorem tWays (k : Nat) : (List.range 16).map (k + ·) = k :: ((List.range 15).map fun i => k + (i + 1)) := by
  rfl
/-- A directory way that lists a line is found. The set depends on the model (`Config.is288`), so it stays a name. -/
theorem test_dirFind (d : Dev) (p a : Nat) (st : DState) (keeper : Nat) (pr : BitVec 18) (h : st ≠ .i)
    (hd : d.mem.dir = [(dirSetKey a, { pav := p, tag := dirTag a, st := st, keeper := keeper, presence := pr })]) :
    d.dirFind p a = some (dirSetKey a) := by
  unfold Dev.dirFind
  rw [tWays]
  simp only [List.find?_cons, tDirAt d _ _ hd, DirEntry.used]
  simp [h]
/-- Device address 128 has the same home slice in both models, and so one directory set. -/
theorem tSlice : homeSlice 128 = 2 := by
  unfold homeSlice
  cases Config.is288 <;> decide
theorem tKey : dirSetKey 128 = 262176 := by
  unfold dirSetKey
  rw [tSlice]
  decide
/-- The set of line 2 with one entry. -/
def tSet (e : DirEntry) : Dev := tLine.onMem fun m => { m with segs := [(256, 0), (512, 0)], dir := [(262176, e)] }
/-- A directory way in use by another pavilion's line, which a request takes for reuse; the same way pinned (R391, R392). -/
theorem test_dir_reuse :
    let d := tSet { pav := 2, st := .s, presence := 2 }
    let pinned := tSet { pav := 2, st := .s, presence := 2, pin := true }
    d.lineAddr 1 2 = some 128 ∧ d.dirFind 1 128 = none ∧ (d.dirWay 1 128).map (·.1) = some 262176 ∧ (d.dirAt 262176).used = true ∧
      (d.dirAt 262176).agents = [1] ∧ d.dirLine 262176 = some (2, 128) ∧ pinned.dirFind 1 128 = none ∧ pinned.dirWays 1 = [0] ∧
      ((pinned.dirAt (dirSetKey 128)).used && (pinned.dirAt (dirSetKey 128)).pin) = true := by
  refine ⟨by decide +kernel, ?_, ?_, by decide +kernel, by decide +kernel, ?_, ?_, by decide +kernel, ?_⟩
  · unfold Dev.dirFind
    rw [tKey]
    decide +kernel
  · unfold Dev.dirWay
    rw [tKey]
    decide +kernel
  · unfold Dev.dirLine
    cases Config.is288 <;> decide +kernel
  · unfold Dev.dirFind
    rw [tKey]
    decide +kernel
  · rw [tKey]
    decide +kernel
/-- The line that such a way named comes back, and the request that waited goes on; a message that would overtake another one of its
home's to the same agent (R391, R399). -/
theorem test_dir_reuse_ends :
    let d := (tSet { pav := 1, pin := true, st := .s, presence := 2 }).onMem fun m => { m with
      msgs := [{ tCoh .iack with agent := 1 }]
      txns := [{ req := tCoh .snpi, wait := [1], dataFrom := none, due := 0, evictFor := some { tCoh .rds with line := 3 } }] }
    let two := tLine.onMem fun m => { m with msgs := [tCoh .snpi, tCoh .complete] }
    d.dirFind 1 128 = some 262176 ∧ d.mem.msgs.find? (isMsg .iack { tL with agent := 1 }) = some { tCoh .iack with agent := 1 } ∧
      two.overtakes (tCoh .complete) = true ∧ two.overtakes (tCoh .snpi) = false := by
  refine ⟨?_, by decide +kernel, ?_, by decide +kernel⟩
  · unfold Dev.dirFind
    rw [tKey]
    decide +kernel
  · have h : (List.map (·.1) ((tLine.onMem fun m => { m with msgs := [tCoh .snpi, tCoh .complete] }).home 1 2).toList) = [homeSlice 128] := by
      rfl
    simp [Dev.overtakes, Dev.onMem, tCoh, CohKind.fromHome]
theorem test_hyp_HomeRequests :
    let d := tLine
    let kinds (d : Dev) : List (CohKind × Nat) := d.mem.msgs.map fun m => (m.kind, m.agent)
    d.lineAddr 1 2 = some 128 ∧ d.dirFind 1 128 = none ∧ d.dirWays 1 = [0] ∧ d.lstate 0 1 2 = .i ∧ (tHold .s).lstate 0 1 2 = .s ∧
      d.lineAddr 1 (2 ^ 24) = none ∧ kinds (tRun (.rds tL) d) = [(.data, 0), (.complete, 0)] ∧
      kinds (tRun (.rdx tL) d) = [(.data, 0), (.complete, 0)] ∧ kinds (tRun (.rdu tL) d) = [(.data, 0)] ∧
      kinds (tRun (.upg tL) (tHold .s)) = [(.data, 0), (.complete, 0)] ∧ tRun (.rds tL) (tHold .s) = tHold .s ∧ tRun (.upg tL) d = d ∧
      (let t := tRun (.rds tL) (d.onMem fun m => { m with txns := [{ req := tCoh .rdx, wait := [], dataFrom := none, due := 0 }] })
       t.mem.turned.map (·.age) = [1] ∧ t.rd R.coh_PIN_WAITS = 1) ∧
      (let t := tRun (.wru { agent := 0, pav := 1, line := 2, off := 63, bytes := [0x77] }) d
       t.mem.main.bytes = [(191, 0x77)] ∧ kinds t = [(.data, 0)]) ∧
      (let t := tRun (.fatom { agent := 0, pav := 1, addr := 0xBC, kind := .add, four := true, operand := 3, compare := 0 }) d
       t.mem.main.bytes = [(0xBC, 3)]) ∧
      kinds (tRun (.requestRetry { agent := 0, pav := 1, line := 2, t := 9 }) (d.onMem fun m => { m with turned := [{ tCoh .rdu with age := 1 }] })) =
        [(.data, 0)] := by decide +kernel

theorem test_hyp_CoherenceMessages :
    let go (i : Instr) (d : Dev) (m : CohMsg) : Dev := tRun i (tFlight d m)
    let kinds (d : Dev) : List (CohKind × Nat) := d.mem.msgs.map fun m => (m.kind, m.agent)
    let st (d : Dev) : LState := d.lstate 0 1 2
    let need (k : CohKind) : CohMsg := { tCoh k with requester := 5, needData := true }
    let txn (k : CohKind) (w : List Nat) : Dev := tLine.onMem fun m => { m with txns := [{ req := { tCoh k with agent := 5 }, wait := w, dataFrom := none, due := 0 }] }
    kinds (go (.snps tL) (tHold .d) (need .snps)) = [(.data, 5), (.rsp, 0)] ∧ st (go (.snps tL) (tHold .d) (need .snps)) = .k ∧
      kinds (go (.snpi tL) (tHold .x) (need .snpi)) = [(.data, 5), (.iack, 0)] ∧ st (go (.snpi tL) (tHold .x) (need .snpi)) = .i ∧
      kinds (go (.fwd tL) (tHold .s) (need .fwd)) = [(.np, 0)] ∧ kinds (go (.fwd tL) (tHold .k) (need .fwd)) = [(.data, 5), (.rsp, 0)] ∧
      st (go (.kill tL) (tHold .x) (tCoh .kill)) = .i ∧ kinds (go (.snps tL) tLine (need .snps)) = [(.np, 0)] ∧
      kinds (go (.snpi tL) (tLine.onMem fun m => { m with wbBuf := [{ agent := 0, pav := 1, line := 2, id := 4, data := {} }] }) (tCoh .snpi)) = [(.rsp, 0)] ∧
      kinds (go (.iack tL) (txn .rdx [0]) (tCoh .iack)) = [(.complete, 5)] ∧ kinds (go (.iack tL) (txn .rdx [0, 1]) (tCoh .iack)) = [] ∧
      (go (.rsp tL) (txn .rds [0]) { tCoh .rsp with payload := some { data := 0x66 } }).mem.main.bytes = [(128, 0x66)] ∧
      (go (.np tL) (tLine.onMem fun m => { m with timedOut := [(0, 1, 2)] }) (tCoh .np)).rd R.coh_LATE_RESPONSES = 1 ∧
      tLine.l2Ways 0 1 2 = [0, 1] ∧ st (go (.dataMsg tL) tLine { tCoh .data with grant := .x, payload := some {} }) = .x ∧
      kinds (go (.complete tL) (tLine.onMem fun m => { m with outstanding := [{ agent := 0, pav := 1, line := 2, gotData := true }] }) (tCoh .complete)) = [(.done, 0)] ∧
      (let w : CohMsg := { tCoh .wb with wbId := some 4, payload := some { data := 0x11 } }
       kinds (go (.wb { agent := 0, id := 4 }) tLine w) = [(.wback, 0)] ∧
         (go (.wb { agent := 0, id := 4 }) tLine w).rd R.coh_CROSSED_WB = 1 ∧
         (go (.wback { agent := 0, id := 4 }) tLine { tCoh .wback with wbId := some 4 }).mem.msgs = []) ∧
      (let t := tRun (.homeTimeout { agent := 0, pav := 1, line := 2, t := 0 }) (txn .rdx [0])
       kinds t = [(.kill, 0), (.complete, 5)] ∧ t.mem.timedOut = [(0, 1, 2)] ∧ t.rd R.coh_TIMEOUTS = 1 ∧ (t.memLine 128).poison = 15) := by decide +kernel

/-- Stack 0 is fitted in both models, and stack 8 in none. -/
theorem test_hyp_patrol : fitted 0 = true ∧ fitted 8 = false := by
  unfold fitted
  cases Config.is288 <;> decide
theorem test_hyp_MemoryResources :
    let bank (d : Dev) (s : BankSt) : Dev := d.onMem fun m => { m with banks := Table.set .free m.banks 3 s }
    let o : OpBank := { cluster := 0, bank := 3 }
    let full := tDev.onMem fun m => { m with spad := { bytes := [(0x18, 1), (0x20, 2)] } }
    let t := tRun (.bankClearDone o) (bank full (.clearing 1))
    t.bank 3 = .held 1 ∧ t.mem.spad.bytes = [(0x20, 2)] ∧ tRun (.bankClearDone o) full = full ∧
      (tRun (.bankReleased o) (bank tDev (.releasing 1 0))).bank 3 = .released 1 0 ∧
      (tRun (.bankReleased o) (bank (tDevX { tCore tArch with merge := [{ line := tBase / 64, data := 0, mask := 2 ^ 24, tags := 0 }] }) (.releasing 1 0))).bank 3 =
        .releasing 1 0 := by decide +kernel
/-- A fill of 16 bytes by the mover of cluster 0, its descriptor at +0x100, and one whose length is no multiple of 8. -/
theorem test_mover :
    let desc (n : Nat) : Bytes := [2, 1] ++ zeros 2 ++ zeros 4 ++ leBytes 4 n ++ zeros 4 ++ [1, 2, 3, 4, 5, 6, 7, 8] ++ zeros 8
    let d (n : Nat) : Dev :=
      let d := (tDev.wr R.spad_MOVER_RING (tBase + 0x100) 0 1).wr R.spad_MOVER_ENTRIES 2 0 1
      d.onMem fun m => { m with moverAwake := [(1, true)], spad := (((({} : Ram).write 0x100 (desc n)).write 0x130 (tCap 0x200).bytes).setTag 0x13 true) }
    let k : OpMover := { cluster := 0, pav := 1, t := 5 }
    let t := tRun (.moverDescriptor k) (d 16)
    let z := tRun (.moverCompletion k) t
    (d 16).moverDesc 0 1 = some (tBase + 0x100) ∧ t.mem.moverJobs.map (fun j => (j.status, j.len, j.src)) = [(0, 16, none)] ∧
      z.mem.spad.read 0x200 16 = [1, 2, 3, 4, 5, 6, 7, 8, 1, 2, 3, 4, 5, 6, 7, 8] ∧ z.mem.moverJobs = [] ∧ z.mem.spad.read 0x101 1 = [0] ∧
      (tRun (.moverDescriptor k) (d 12)).mem.moverJobs.map (·.status) = [0x0107] := by decide +kernel
/-- A granule and a key slot that a commit has taken from pavilion 1. -/
theorem test_removal :
    let d (x : Res) : Dev := { tLine with removing := [(1, x)], mem := { tLine.mem with main := { bytes := [(0x40, 1), (0x40000000, 2)] } } }
    let go (x : Res) : Dev := tRun (.resourceRemoval { pav := 1, t := 5 }) (d x)
    (d (.granule 0)).targeted 1 (.granule 0) = false ∧ (go (.granule 0)).removing = [] ∧ (go (.granule 0)).mem.main.bytes = [(0x40000000, 2)] ∧
      (go (.granule 0)).seg 1 0 = 0xFFFF ∧ (go (.core 0)).core 0 = {} ∧ (go (.bank 3)).bank 3 = .free := by decide +kernel

/-! ### The dictionary: the same session, and one of the estate -/

/-- The estate's session, under the estate control key. -/
def tEst : Session := { tSess with pav := 0, desc := zeros 48 }
/-- A request of OP `op` for entry (index, sub). -/
def tDict (op index sub type total : Nat) (data : Bytes) : Bytes :=
  leBytes 1 op ++ leBytes 1 sub ++ leBytes 2 index ++ zeros 2 ++ leBytes 1 type ++ zeros 1 ++ leBytes 4 0 ++ leBytes 4 total ++
    leBytes 2 data.length ++ zeros 6 ++ data
/-- The message that carries it. -/
def tAsk (b : Bytes) : Rx := tRxOf 0x0B 8 1 b
/-- A WRITE of one entry with its type and size. -/
def tPut (e : Entry) (i v : Nat) : Rx := tAsk (tDict 2 (e.base + i) e.sub e.ty.code e.size (leBytes e.size v))
/-- A WRITE of an entry of variable size. -/
def tPutBytes (e : Entry) (i : Nat) (b : Bytes) : Rx := tAsk (tDict 2 (e.base + i) e.sub e.ty.code b.length b)
/-- The device after a DICT message of session `s`. -/
def tDo (f : Rx → Instr) (o : Rx) (d : Dev) : Dev := tRun (f o) (tIn d o)
/-- The STATUS of the reply. -/
def tStatus (d : Dev) : Option Nat := ((d.sess 5).bind fun s => Table.get none s.answers 1).map fun a => fieldLE a.payload 4 2
/-- The value of the reply. -/
def tValue (d : Dev) : Option Bytes := ((d.sess 5).bind fun s => Table.get none s.answers 1).map fun a => a.payload.drop 24

theorem test_hears_dict : (tIn (tHostOf tEst) (tPut R.amn_DATA_PCP 0 3)).HearsNew (tPut R.amn_DATA_PCP 0 3) 0x0B
    (tProved (tIn (tHostOf tEst) (tPut R.amn_DATA_PCP 0 3)) (tPut R.amn_DATA_PCP 0 3)) { tEst with deadDue := 10000100 } :=
  ⟨tHeard _ _ _ _ (by decide +kernel) (by decide +kernel) (by decide +kernel) (by decide +kernel), by decide +kernel, by decide +kernel⟩
theorem test_writes :
    let o := tPut R.amn_DATA_PCP 0 3
    let d := tIn (tHostOf tEst) o
    d.Writes o .write ((tProved d o).onSess 5 fun x => { x with assembly := none }) { tEst with deadDue := 10000100 }
      { entry := R.amn_DATA_PCP, i := 0, p := 0, raw := [3], v := 3 } :=
  ⟨by decide +kernel, by decide +kernel, by decide +kernel, by decide +kernel, by decide +kernel, by decide +kernel, by decide +kernel,
    ⟨_, test_hears_dict, by decide +kernel, rfl⟩, by decide +kernel, by decide +kernel⟩
theorem test_hyp_DictMessages :
    let d := tHostOf tEst
    let p := tHostOf tSess
    let ask (op index sub : Nat) : Rx := tAsk (tDict op index sub 0 0 [])
    let more := tRxOf 0x0B 0x88 1 (tDict 2 0x2001 0x20 8 2000 (List.replicate 1024 7))
    let t := tDo .loadImage more p
    let late (n : Nat) : Option Bool := ((tRun (.segmentTimeout { session := 5, t := n }) t).sess 5).map (·.assembly.isSome)
    tValue (tDo .dictRead (ask 1 0x6100 4) d) = some [4] ∧ tStatus (tDo .dictRead (ask 1 0x6100 4) p) = some 0x0401 ∧
      tStatus (tDo .dictRead (ask 1 0x6100 0x99) d) = some 0x0103 ∧ tStatus (tDo .dictRead (ask 1 0x6100 0x0A) d) = some 0x0109 ∧
      tStatus (tDo .dictRead (tAsk (zeros 23)) d) = none ∧ tStatus (tDo .dictWrite (tAsk (zeros 23)) d) = some 0x0107 ∧
      tValue (tDo .dictDescribe (ask 3 0x6100 4) p) = some (R.amn_DATA_PCP.describe) ∧
      tStatus (tDo .dictWrite (tPut R.amn_DATA_PCP 0 7) d) = some 0x0101 ∧
      (tDo .dictWrite (tPut R.amn_DATA_PCP 0 7) d).rd R.refusal_REASON = 0x0101 ∧
      tStatus (tDo .dictWrite (tAsk (tDict 2 0x6100 4 2 2 [3, 0])) d) = some 0x0104 ∧
      tStatus (tDo .dictWrite (tAsk (tDict 2 0x6100 4 2 1 [3, 0])) d) = some 0x010C ∧
      ((t.sess 5).bind (·.assembly)).map (·.held.length) = some 1024 ∧ late 2000000 = some true ∧ late 20000000000 = some false := by
  decide +kernel
theorem test_hyp_Settings :
    let d := tHostOf tEst
    let put (f : Rx → Instr) (e : Entry) (v : Nat) : Dev := tDo f (tPut e 0 v) d
    (put .dictWrite R.amn_DATA_PCP 3).rd R.amn_DATA_PCP = 3 ∧ tStatus (put .dictWrite R.amn_DATA_PCP 3) = some 0 ∧
      (put .dictWrite R.amn_UDP_PORT 9999).hearth.stagedPort = some 9999 ∧
      (put .dictWrite R.amn_UDP_PORT 9999).rd R.amn_UDP_PORT = d.rd R.amn_UDP_PORT ∧
      tStatus (put .dictWrite R.amn_KEEPALIVE_TIME 600000) = some 0 ∧ tStatus (put .dictWrite R.amn_DEAD_TIME 3999) = some 0x0101 ∧ tStatus (put .dictWrite R.amn_DEAD_TIME 4000) = some 0 ∧
      (put .alertAck R.i2c_ALERT_ACK 1).alertOpen = false ∧ tStatus (put .alertAck R.i2c_ALERT_ACK 1) = some 0 ∧
      tStatus (put .eck R.amn_ECK 7) = some 0 ∧ (put .eck R.amn_ECK 7).rd R.amn_ECK_SET = 1 ∧
      ucodeImageOk (zeros 64) = false := by decide +kernel
theorem test_power_cap : tDev.pAdmit 0 ≤ 500 ∧ 500 < ({ tDev with dict := Table.set 0 tDev.dict (R.pow_FLOOR_POWER.key 0 0) 3000 } : Dev).pAdmit 1 := by
  unfold Dev.pAdmit
  cases Config.is288 <;> decide +kernel
theorem test_settings_pavilion :
    let d := tHostOf tSess
    let put (f : Rx → Instr) (e : Entry) (i v : Nat) (d : Dev) : Dev := tDo f (tPut e i v) d
    let key := leNat (leBytes 2 0 ++ leBytes 1 1 ++ zeros 3 ++ leBytes 4 7 ++ leBytes 8 5 ++ List.replicate 16 3)
    let slots := d.wr R.pav_KEY_SLOTS 4 1
    let k := put .keyWrite R.cip_KEY_WRITE 0 key slots
    let pairs := ((d.wr R.pav_TWIN_PERMIT 1 1).wr R.pav_CORES (2 ^ 16 + 1) 1)
    let part (v : Nat) : Nat := 2 ^ 256 - 1 - 0xFFFF + v
    tStatus (put .keyWrite R.cip_KEY_WRITE 0 key d) = some 0x0603 ∧ tStatus k = some 0 ∧ ((k.keySlot 1 0).kind, (k.keySlot 1 0).fix, (k.keySlot 1 0).limit) = (1, 7, 5) ∧
      tStatus (put .keyWrite R.cip_KEY_WRITE 0 (key + 2 ^ 24) slots) = some 0 ∧ tStatus (put .keyWrite R.cip_KEY_WRITE 0 (key + 2 ^ 20) slots) = some 0x0107 ∧
      tStatus (put .twinPartner R.clu_TWIN_PARTNER 0 (part 16) d) = some 0x0401 ∧ tStatus (put .twinPartner R.clu_TWIN_PARTNER 0 (part 16) pairs) = some 0 ∧
      (put .twinPartner R.clu_TWIN_PARTNER 0 (part 16) pairs).twinPartner 16 = 0 ∧
      tStatus (put .twinPartner R.clu_TWIN_PARTNER 0 (part 0) pairs) = some 0x0210 ∧
      tStatus (put .rangeInval R.coh_RANGE_INVAL 0 0 d) = some 0 ∧ tStatus (put .wayLock R.l2_WAY_LOCK 0 1 d) = some 0x0401 ∧
      tStatus (put .inboundConfig R.amn_INBOUND_SLOT 0 256 d) = some 0 ∧ tStatus (put .inboundConfig R.amn_INBOUND_SLOT 0 64 d) = some 0x0101 ∧
      tStatus (put .inboundConfig R.amn_INBOUND_SLOT 0 128 (tHostOf { tSess with desc := tDesc.set 8 128 })) = some 0x0105 ∧
      tStatus (put .cqConfig R.ep_CQ_ENTRIES 3 16 d) = some 0 ∧ tStatus (put .moverConfig R.spad_MOVER_ENTRIES 0 16 d) = some 0x020D ∧
      tStatus (put .cipherCqConfig R.cip_CQ_BASE 0 64 d) = some 0 ∧ tStatus (put .compressionCqConfig R.cpr_CQ_BASE 0 64 d) = some 0 ∧
      tStatus (put .density R.cip_DENSITY 0 2 d) = some 0 := by decide +kernel
/-- A KEY_WRITE waits for a job that names its slot (R485). -/
theorem test_key_write_waits :
    let d := (tHostOf tSess).onEng fun e => { e with cipherJobs := [tJob] }
    let o (slot : Nat) : Rx := tPut R.cip_KEY_WRITE 0 (leNat (leBytes 2 slot ++ leBytes 1 1))
    d.keyWriteWaits (o 0) = true ∧ d.keyWriteWaits (o 1) = false ∧ tRun (.keyWrite (o 0)) (tIn d (o 0)) = (tIn d (o 0)).netAt 100 := by
  decide +kernel
/-- The estate's session as new. -/
def tAgain (d : Dev) : Dev := d.onNet fun n => { n with sessions := [tEst] }

theorem test_hyp_Blocks :
    let d := tHostOf tEst
    let r := { d with plat := { d.plat with refA := true } }
    let put (f : Rx → Instr) (e : Entry) (i v : Nat) (d : Dev) : Dev := tDo f (tPut e i v) d
    let off := d.wr R.port_STATE 0 1
    let on := put .blockEnable R.port_ENABLE 1 1 { off with plat := r.plat }
    let ep := (d.wrStaged R.ep_PATHS (some 0x8005) 3)
    let c := put .commit R.ep_COMMIT 3 1 ep
    let stopped (n t : Nat) (d : Dev) : Dev := tRun (.blockStopped { index := BitVec.ofNat 16 n, t := t }) d
    tStatus (put .blockEnable R.port_ENABLE 1 1 off) = some 0x0701 ∧ (put .blockEnable R.port_ENABLE 1 1 off).rd R.port_STATE 1 = 3 ∧
      tStatus on = some 0 ∧ on.rd R.port_STATE 1 = 2 ∧ on.rd R.port_LINK_STATUS 1 = 1 ∧
      (put .blockDisable R.port_ENABLE 1 0 (tAgain on)).rd R.port_STATE 1 = 5 ∧ (stopped 0x6001 2000 (put .blockDisable R.port_ENABLE 1 0 (tAgain on))).rd R.port_STATE 1 = 0 ∧
      tStatus (put .blockEnable R.l2_ENABLE 0 1 d) = some 0 ∧ (put .blockDisable R.l2_ENABLE 5 0 d).rd R.l2_STATE 5 = 5 ∧
      tStatus (put .blockDisable R.l2_ENABLE 0 0 d) = some 0x0207 ∧
      tStatus c = some 0 ∧ c.rd R.ep_PATHS 3 = 0x8005 ∧ c.rdStaged R.ep_PATHS 3 = none ∧
      tStatus (put .commit R.ep_COMMIT 3 1 (d.wrStaged R.ep_PATHS (some 0) 3)) = some 0x020B ∧
      (put .commit R.ep_COMMIT 3 1 (d.wrStaged R.ep_PATHS (some 0) 3)).rd R.ep_PATHS 3 = 0x8000 ∧
      (put .commitDiscard R.ep_COMMIT 3 0 ep).rdStaged R.ep_PATHS 3 = none ∧ (put .commitDiscard R.ep_COMMIT 3 0 ep).rd R.ep_PATHS 3 = 0x8000 := by
  decide +kernel
theorem test_hyp_Pavilions :
    let d := tHostOf tEst
    let p := (tHostOf tSess).wr R.pav_ENTRY 0x40 1
    let put (f : Rx → Instr) (e : Entry) (i v : Nat) (d : Dev) : Dev := tDo f (tPut e i v) d
    let new := put .pavilionCreate R.pav_ENABLE 2 1 d
    let gone := put .pavilionDestroy R.pav_ENABLE 1 0 d
    let t (n : Nat) : OpPavT := { pav := 1, t := n }
    let going := tRun (.destructionProceed (t 2000)) (gone.wr R.pav_ENDPOINTS 0 1)
    let image := leBytes 8 (tBase + 0x200) ++ [1, 2, 3, 4]
    let load := tDo .loadImage (tPutBytes R.pav_LOAD 1 image) p
    let go := put .start R.pav_START 1 0 p
    tStatus new = some 0x0308 ∧ new.rd R.pav_STATE 2 = 3 ∧ (put .pavilionDestroy R.pav_ENABLE 2 0 (tAgain new)).rd R.pav_STATE 2 = 0 ∧
      tStatus (put .pavilionCreate R.pav_ENABLE 1 1 d) = some 0 ∧ tStatus (put .pavilionDestroy R.pav_ENABLE 0 0 d) = some 0x0102 ∧
      tStatus gone = some 0 ∧ gone.rd R.pav_STATE 1 = 5 ∧ gone.forced 1 = false ∧
      (put .pavilionDestroy R.pav_ENABLE 1 0 (d.wr R.pav_DESTROY_MODE 1 1)).forced 1 = true ∧
      (put .destroyMode R.pav_DESTROY_MODE 1 1 (tAgain gone)).forced 1 = true ∧
      tStatus (put .commit R.pav_COMMIT 2 1 d) = some 0 ∧ going.quenching 1 = true ∧
      (tRun (.destructionComplete (t 3000)) going).rd R.pav_STATE 1 = 0 ∧
      tStatus load = some 0 ∧ load.mem.spad.read 0x200 4 = [1, 2, 3, 4] ∧
      tStatus (tDo .loadImage (tPutBytes R.pav_LOAD 1 (leBytes 8 0x200 ++ [1])) p) = some 0x0108 ∧
      tStatus go = some 0 ∧ (go.core 0).run = .running ∧ (go.core 0).arch.pcc.cursor.toNat = 0x40 ∧ tStatus (put .start R.pav_START 1 1 p) = some 0x0101 := by
  decide +kernel
/-- The check of pavilion 1, shared, passes whichever package the device is. -/
theorem test_pavilion_check : ((tHostOf tEst).wr R.pav_MODE 1 1).pavCheck 1 none = (0, none) := by
  unfold Dev.pavCheck Dev.classNeeds Dev.pAdmit
  cases Config.is288 <;> decide +kernel
theorem test_pavilion_window : (((tHostOf tEst).wr R.pav_MODE 1 1).takeWindow 1).isSome = true := by decide +kernel

/-! ### The hearth, pace, the board and start-up -/

/-- A request of 600 bytes that nothing has settled, and the mark that settles it. -/
def tReqRec : RecBody := .req 5 6 1 100 0 0 (List.replicate 600 1)
/-- Pavilion 1 with a ring of 1 KiB whose control block stands at its start, and these records in it, one after the other. -/
def tRing (l : List RecBody) : Dev :=
  let place (x : Ring) (b : RecBody) : Ring :=
    { x with recs := x.recs ++ [{ body := b, complete := true, off := x.head }], head := x.head + b.length }
  (tDev.wr R.pav_HEARTH_QUOTA 1 1).setRing 1 (l.foldl place { ctl0 := { seq := 1, size := 1024 } })
theorem test_hyp_HearthEvents :
    let o : OpRing := { ring := 1, t := 5 }
    let rw (d : Dev) : Ring := (tRun (.controlBlockRewrite o) d).hring 1
    let unit := winLineKey 1 0 * 4
    let dirty (l : List WinStore) : Dev := (tDev.onMem fun m => { m with winPend := l }).onCore 0 fun x => { x with cbar := [winLineKey 1 0] }
    let one (c : Nat) : WinStore := { by_ := c, unit := unit, mask := 1, data := 7 }
    let go (n line : Nat) (l : List WinStore) : Dev := tRun (.windowLineWrite { pav := 1, line := line, t := n }) (dirty l)
    let w (l : List WinStore) : List Host.Cell := (go 5 0 l).mem.winDurable
    let late (n : Nat) : List Nat :=
      (tRun (.windowLineWrite { pav := 1, line := 0, t := n }) ((dirty [one 0]).onMem fun m => { m with winLast := [(winLineKey 1 0, 6)] })).core 0 |>.cbar
    let f (x : HearthFinding) : Dev := tRun (.hearthScrub { findings := [(.window 1 0, x)], t := 5 }) tDev
    let tb (n : Nat) : Dev := tRun (.timebaseRecord { t := 5 }) { tDev with plat := { tDev.plat with step := n } }
    (rw (tRing [tReqRec, .markRetire 5 1 1])).recs = [] ∧ (rw (tRing [tReqRec, .markRetire 5 1 1])).ctl = { seq := 2, size := 1024, off := 720 } ∧
      (rw (tRing [tReqRec])).recs.length = 1 ∧ (rw (tRing [tReqRec])).ctl.seq = 1 ∧
      ((tRun (.carryForward o) (tRing [tReqRec])).hring 1).live = [{ body := tReqRec, complete := true, carried := true, off := 672 }] ∧
      ((tRun (.carryForward o) (tRing [.sess 5 1 0 0 0 0 []])).hring 1).recs.length = 1 ∧
      w [one 0] = [(winLineKey 1 0 * 64, 7)] ∧ w [one 1] = [] ∧ w [one 1, one 0] = [] ∧ (go 5 1 [one 0]).mem.winDurable = [] ∧
      ((go 5 0 [one 0]).core 0).cbar = [] ∧ late 1004 = [winLineKey 1 0] ∧ late 1005 = [] ∧
      (f .lost).mem.win.poisoned (winLineKey 1 0) = true ∧ (f .rebuilt).rd R.hearth_RECONSTRUCTED = 1 ∧
      (tb 4).hearth.timebase = 5 ∧ (tb 3).hearth.timebase = 0 := by decide +kernel
/-- Pavilion 1 with an admitted class with a deadline. -/
def tTimed : Dev :=
  let d := tHostOf { tSess with desc := (leBytes 4 1000000 ++ tDesc.drop 4).set 36 1 }
  { d with plat := { d.plat with step := 12 } }
theorem test_hyp_PaceAndGovernor :
    let o (r t : Nat) : OpPace := { cluster := 0, r0 := r, r1 := 2500, r2 := 2500, r3 := 2500, t := t }
    let low (n : Nat) : Dev := { tTimed with plat := { tTimed.plat with low := [(0, n)] } }
    let s (r t : Nat) (d : Dev) : Dev := tRun (.paceSample (o r t)) d
    let g (draw : List Nat) : Dev :=
      tRun (.governorEvaluation { cluster := 0, pace := [1900, 2000, 2100, 2200], loadMv := 655, draw := draw, partMv := 0, pct := 50, t := 20000 }) tTimed
    let cap := tTimed.rd R.pow_POWER_CAP
    let v := tTimed.wr R.pow_VCORE 700
    let st (up : Bool) (mv : Nat) : Nat :=
      elem 2 ((tRun (.vcoreStep { cluster := 0, up := up, t := 20000 }) { v with plat := { v.plat with vtarget := [(0, mv)] } }).rd R.pow_VCORE) 0
    tTimed.deadlineClusters = 1 ∧ (s 2400 1000 tTimed).rd R.clu_PACE_MEASURED = 2400 ∧ (s 2400 1001 tTimed).rd R.clu_PACE_MEASURED = 0 ∧
      (s 1900 1000 tTimed).rd R.clu_BELOW_FLOOR = 1 ∧ (s 1900 1000 (low 3)).plat.deficit = true ∧ (s 1900 1000 (low 3)).rd R.pow_DEFICIT_EVENTS = 1 ∧
      (s 1900 1000 (low 2)).plat.deficit = false ∧
      elem 2 ((tRun (.paceReport { t := 3000 }) (s 2200 2000 (s 2400 1000 tTimed))).rd R.pow_PACE) 0 = 2300 ∧
      Table.get 0 (g [cap]).plat.vtarget 0 = 680 ∧ (g (List.replicate 4 (cap + 1) ++ [cap])).rd R.clu_ISSUE_FRACTION = 50 ∧
      (g (List.replicate 5 (cap + 1))).rd R.clu_ISSUE_FRACTION = 0 ∧ (g (List.replicate 3 (cap + 1) ++ [cap])).rd R.clu_ISSUE_FRACTION = 100 ∧
      leastMv [1900, 2000] 2000 = 610 ∧ leastMv [1900] 2000 = 900 ∧
      st true 710 = 710 ∧ st false 690 = 690 ∧ st true 690 = 700 := by decide +kernel
/-- An OPEN_REPLY that waits for the governor leaves with the evaluation that finds the demand met, and not before (R127). -/
theorem test_open_reply_waits :
    let w : OpenWait := { session := 5, pav := 1, nonce := [], tx := {
      port := 0, tag := { pcp := 7, vid := 0 }, pav := 1, slot := 0, dst := tSrc, bytes := [], packet := [] } }
    let go (mv : Nat) : Dev := tRun (.governorEvaluation { cluster := 0, pace := [2500], loadMv := 0, draw := [], partMv := 0, pct := 0, t := 20000 })
      ((tTimed.wr R.pow_VCORE mv).onNet fun n => { n with openWait := [w] })
    (go 680).net.openWait = [] ∧ (go 680).net.out = [.msg w.tx] ∧ (go 670).net.openWait = [w] ∧ (go 670).net.out = [] := by decide +kernel
theorem test_hyp_ClocksAndTimebase :
    let d (f : Plat → Plat) : Dev := { tTimed with plat := f { tTimed.plat with vin := true, xtal := true, refA := true } }
    let lost (i : ClockIn) (d : Dev) : Dev := tRun (.clockLoss { input := i, t := 200 }) d
    let back (i : ClockIn) (d : Dev) : Dev := tRun (.clockPresent { input := i, t := 200 }) d
    let both := d fun x => { x with refB := true }
    let none_ := lost .refA (d id)
    let ptp (f : Ptp → Ptp) (st : Nat) : Dev :=
      let x := ((d fun x => { x with ptp := [(0, f { lastSync := 100 })] }).wr R.port_PTP_ENABLE 1 0).wr R.pow_PTP_STATE st
      { x with time := 100 }
    let pt (n : Nat) : OpPtp := { port := 0, t := n }
    let sync (dom : BitVec 8) : OpSync := { port := 0, domain := dom, sent := 250, t := 300 }
    let resp (dom : BitVec 8) (got : Nat) : Dev := tRun (.delayResp { port := 0, domain := dom, got := got, interval := 100, t := 300 })
      (ptp (fun x => { x with asked := true, askedAt := 250, sync := some (150, 200), good := 15 }) 1)
    let st (d : Dev) : Nat := elem 1 (d.rd R.pow_PTP_STATE) 0
    (lost .refA both).plat.onB = true ∧ (lost .refA both).rd R.pow_REF_SWITCHES = 1 ∧ none_.rd R.port_LINK_STATUS 0 = 0 ∧
      none_.rd R.link_FAIL_CAUSE 0 = 6 ∧ (back .refB none_).plat.onB = true ∧
      (lost .xtal (d id)).plat.coast = true ∧ (lost .xtal (d id)).pbit 1 0x1FFD = true ∧ (lost .xtal (d fun x => { x with xtal := false })).plat.coast = false ∧
      (tRun (.refReturn { t := 2000000000 }) (d fun x => { x with onB := true })).plat.onB = false ∧
      (tRun (.refReturn { t := 2000 }) (d fun x => { x with onB := true })).plat.onB = true ∧
      (tRun (.tbCoastClear { t := 500 }) (d fun x => { x with coast := true, coastFrom := 200 })).rd R.pow_COAST_TIME = 300 ∧
      st (tRun (.ptpSync (sync 0)) (ptp id 3)) = 1 ∧ st (tRun (.ptpSync (sync 1)) (ptp id 3)) = 3 ∧
      (tRun (.delayReqSend (pt 300)) (ptp id 1)).net.out = [.delayReq 0 0 { pcp := 7, vid := 0 }] ∧
      st (tRun (.ptpHoldover (pt 8000000100)) (ptp id 2)) = 3 ∧ st (tRun (.ptpHoldover (pt 8000000099)) (ptp id 2)) = 2 ∧
      st (resp 0 310) = 2 ∧ (resp 0 310).rd R.pow_PTP_OFFSET = 2 ^ 64 - 5 ∧ st (resp 1 310) = 1 ∧ st (resp 0 9000) = 1 ∧
      (tDev.correct (-(tDev.rd R.pow_PTP_STEP_LIMIT : Int) - 1)).rd R.pow_PTP_STEPS = 1 ∧ tDev.correct 1000 = tDev := by decide +kernel

theorem test_hyp_WindowAndTemperature :
    let d := { tTimed with plat := { tTimed.plat with vin := true, window := [1, 2, 3, 4] } }
    let w (a : Byte) (b : Bytes) : Dev := tRun (.i2cWriteTransfer { offset := a, bytes := b, t := 200 }) d
    let cap (d : Dev) (v : Nat) : Dev := tRun (.i2cPowerCap { watts := BitVec.ofNat 16 v, t := 300 }) d
    let tap (d : Dev) (i : TapInstr) : TapInstr := (tRun (.tapInstruction { instr := i }) d).plat.tap
    (w 0x08 [0xF4, 0x01]).plat.capBytes = (some 0xF4, some 1) ∧ (w 0x08 [0xF4, 0x01]).plat.i2cOffset = 10 ∧ (w 0x0D [0, 1]).plat.i2cResult = 0x0109 ∧
      (w 0x0E [1]).plat.i2cResult = 0 ∧ (tRun (.i2cReadTransfer { count := 3, t := 300 }) (w 2 [])).plat.i2cOut = [3, 4, 0xFF] ∧
      (cap ((w 0x08 [0xF4, 0x01]).wr R.i2c_I2C_WRITES 0) 500).plat.i2cResult = 0x0401 ∧ (cap ((w 0x08 [0xF4, 0x01]).wr R.i2c_I2C_WRITES 0) 500).rd R.refusal_REASON = 0x0401 ∧
      (cap ((w 0x08 [10, 0]).wr R.i2c_I2C_WRITES 1) 10).plat.i2cResult = 0x0101 ∧ (cap (w 0x08 [0xF4]) 500).plat.i2cResult = 0 ∧
      (tRun (.i2cAlertAck { t := 300 }) { d with alertOpen := true }).alertOpen = false ∧
      tap d .extest = .bypass ∧ tap { d with plat := { d.plat with resetLow := true } } .extest = .extest ∧ tap d .preload = .preload ∧
      elem 2 ((d.readTj 14 (-10)).rd R.dev_TJ) 14 = 65526 := by decide +kernel
/-- The hottest die is at least as hot as any of the dies that every package has, and no hotter than all of them. -/
theorem tHot (d : Dev) : (elem 2 (d.rd R.dev_TJ) 14 = 1300 → 1250 ≤ d.tjMax) ∧
    ((∀ i < 15, elem 2 (d.rd R.dev_TJ) i ≤ 1000) → d.tjMax ≤ 1000) := by
  have up (l : List Int) : ∀ a : Int, a ≤ l.foldl max a ∧ ∀ x ∈ l, x ≤ l.foldl max a := by
    induction l with
    | nil => simp
    | cons y l ih =>
      intro a
      obtain ⟨h1, h2⟩ := ih (max a y)
      simp only [List.foldl_cons, List.mem_cons]
      refine ⟨le_trans (le_max_left _ _) h1, fun x hx => ?_⟩
      rcases hx with rfl | hx
      · exact le_trans (le_max_right _ _) h1
      · exact h2 x hx
  have down (l : List Int) : ∀ a m : Int, a ≤ m → (∀ x ∈ l, x ≤ m) → l.foldl max a ≤ m := by
    induction l with
    | nil => intro a m h _; simpa
    | cons y l ih =>
      intro a m h hx
      exact ih _ _ (max_le h (hx y (by simp))) fun x h => hx x (by simp [h])
  constructor
  · intro h
    unfold Dev.tjMax
    refine le_trans ?_ ((up _ _).2 1300 ?_)
    · decide
    · rw [List.mem_filterMap]
      exact ⟨14, by simp, by simp [h]⟩
  · intro h
    unfold Dev.tjMax
    have all : ∀ x ∈ (List.range 15).filterMap (fun i =>
        let v := elem 2 (d.rd R.dev_TJ) i
        if 5 ≤ i ∧ i < 13 ∧ !bitOf Config.stacks (i - 5) then none
        else some (if v < 32768 then (v : Int) else (v : Int) - 65536)), x ≤ 1000 := by
      intro x hx
      rw [List.mem_filterMap] at hx
      obtain ⟨i, hi, hx⟩ := hx
      have := h i (by simpa using hi)
      simp only at hx
      split at hx
      · simp at hx
      · injection hx with hx
        split at hx <;> omega
    refine down _ _ _ ?_ all
    cases hl : ((List.range 15).filterMap (fun i =>
        let v := elem 2 (d.rd R.dev_TJ) i
        if 5 ≤ i ∧ i < 13 ∧ !bitOf Config.stacks (i - 5) then none
        else some (if v < 32768 then (v : Int) else (v : Int) - 65536))) with
    | nil => decide
    | cons y l => exact all y (by rw [hl]; simp)
theorem test_temperature :
    let hot := (tTimed.at 300).readTj 14 1300
    let cool := (tTimed.at 300).readTj 14 1000
    tTimed.plat.step = 12 ∧ 1250 ≤ hot.tjMax ∧ cool.tjMax ≤ 1000 :=
  ⟨by decide +kernel, (tHot _).1 (by decide +kernel), (tHot _).2 (by decide +kernel)⟩
/-- The device at a step of start-up. -/
def tStep (n : Nat) (f : Plat → Plat := id) : Dev :=
  { tDev with plat := f { tDev.plat with vin := true, por := true, xtal := true, refA := true, step := n } }
theorem test_hyp_StartUp :
    let t (n : Nat) : OpT0 := { t := n }
    let low := tRun (.resetLAssert (t 0)) (tStep 12)
    let up := tRun (.resetLRelease (t 0)) low
    let rise := tRun (.vinRise (t 0)) {}
    let straps : OpStraps := { oscDly := 5, i2cAddr := 2, bootSel := 1, t := 40 }
    let por := tRun (.porRelease straps) rise
    let boot (a b : Bool) : Dev := tRun (.groundskeeperBoot { copyA := a, copyB := b, t := 60 }) (tStep 5)
    let ucode (l : List (Fin 272)) : Dev := tRun (.microcodeLoad { failed := l, t := 70 }) (tStep 6)
    let was : RecBody := .opst 7 3 0 false 1 0
    let done : RecBody := .opdn 7 3 0 0 0 0 0 0 0 0
    rise.plat.step = 1 ∧ por.plat.step = 2 ∧ por.rd R.pow_STRAPS = 53 ∧ por.rd R.pow_RESET_CAUSE = 1 ∧ low.plat.step = 0 ∧ low.cores = [] ∧
      low.plat.xtalKept = true ∧ up.plat.step = 3 ∧ up.rd R.pow_RESET_CAUSE = 2 ∧ (tRun (.porRearm (t 0)) (tStep 12)).plat.vin = false ∧
      (tRun (.oscDelayEnd { present := false, t := 500 }) (tStep 2)).plat.xtalWait = true ∧ (tRun (.oscDelayEnd { present := true, t := 499 }) (tStep 2)).plat.step = 2 ∧
      (tRun (.xtalRecheck { present := true, t := 555 }) (tStep 3 fun x => { x with xtalWait := true, xtalLook := 55 })).plat.xtalWait = false ∧
      (tRun (.xtalRecheck { present := true, t := 554 }) (tStep 3 fun x => { x with xtalWait := true, xtalLook := 55 })).plat.xtalWait = true ∧
      (tRun (.startupClocksLocked (t 60)) (tStep 3)).plat.step = 4 ∧ (tRun (.startupRampDone (t 60)) (tStep 4)).vcore 15 = 700 ∧
      (boot false false).plat.bootFailed = true ∧ (boot false false).faultL = true ∧
      (ucode [3]).rd R.clu_SPARE 0 = 3 ∧ ((ucode [3, 5]).core 5).run = .lost ∧ ((ucode [16, 3]).core 3).run = .lost ∧ (ucode [3]).plat.step = 7 ∧
      (tRun (.memoryQuenchDone { failed := [], t := 80 }) (tStep 7)).plat.step = 8 ∧
      (tRun (.inDoubtSettle (t 90)) (tStep 9)).plat.step = 10 ∧ (tRun (.replayPresent (t 95)) (tStep 10)).plat.presented = true ∧
      (tRun (.ready (t 99)) (tStep 11)).readyL = true ∧ (tDev.replayedOp 1 [was] was []).map (·.st) = some .querying ∧
      (tDev.replayedOp 1 [was, done] was [done]).isNone = true ∧ (tDev.replayedOp 1 [was, done] done []).map (·.st) = some .done ∧
      (tDev.replayedOp 1 [was, done] done [.markConsumed 3 5 9]).isNone = true := by
  decide +kernel
/-- What the loss of the volatile state leaves of a window: a store that a CBAR covers is there (R155). One record of a ring may be torn. -/
theorem test_cold :
    let s : WinStore := { by_ := 0, unit := winLineKey 1 0 * 4, mask := 1, data := 7, covered := true }
    let t := tRun (.porRearm { t := 0 }) ((tStep 12).onMem fun m => { m with winPend := [s] })
    let y : Record := { body := .markClosed 5 }
    t.mem.win.bytes = [(winLineKey 1 0 * 64, 7)] ∧ t.mem.winPend = [] ∧
      (((tRing []).setRing 1 { recs := [y] }).hring 1).recs.filter (fun y => !y.complete) = [y] := by decide +kernel
/-- A ring of 1 KiB that a MARK and an OPST were written into, and the scan of what MRAM holds of it: both come back; behind a header
of another lap nothing does; a lost line costs the record in it (R151, R160). -/
theorem test_scan :
    let was : RecBody := .opst 7 3 0 false 1 0
    let x0 : Ring := { ctl0 := { seq := 1, size := 1024 } }
    let x := ((x0.push 1 1024 (.markClosed 5) true false).push 1 1024 was true false).cold
    let s (x : Ring) : Scan := x.scan 0 9 0
    ((s x).recs.map (·.body), (s x).stop, (s x).lost) = ([.markClosed 5, was], 112, []) ∧ x.header 0 = some (6, 48) ∧ x.header 112 = none ∧
      (s { x with ctl0 := { seq := 1, size := 1024, lap := 1 } }).recs = [] ∧ (s (x.putLine 0 20 [1] false)).recs = [] ∧
      ((s { x with lost := [1] }).recs.map (·.body), (s { x with lost := [1] }).lost, (s { x with lost := [1] }).again) = ([.markClosed 5], [2], []) ∧
      (s (x0.push 1 1024 was false false).cold).recs = [] := by
  decide +kernel
theorem test_hyp_ThermalStop :
    let d : Dev := { tDev with thermalStop := true }
    d.ThermallyStopped ∧ step { pending := [.vinRise { t := 0 }], dev := d } = .next { pending := [], dev := d } ∧
      (tRun (.porRearm { t := 0 }) d).thermalStop = false := ⟨rfl, rfl, by decide +kernel⟩
theorem test_hyp_DecodeEncode :
    let i : Instr := .addi { core := 0, rd := 3, ra := 1, imm := 0xFFFF }
    let k : Instr := .gcmDec { core := 0, rd := 3, ra := 1, rb := 2, cx := 1 }
    i.wf = true ∧ (encodeWord i).bind (decodeWord 0) = some i ∧ k.wf = true ∧
      (encodeWord k).bind (decodeWord 0) = some (.gcmEnc { core := 0, rd := 3, ra := 1, rb := 2, cx := 1 }) ∧
      (0xFC000000 : BitVec 32) >>> 26 = 0x3F ∧ decodeWord 0 0xFC000000 = none := by decide +kernel
theorem test_hyp_CanonicalMemory :
    let s : State := { pending := [.vinRise { t := 0 }], dev := tLine }
    Memory.wf s.dev.mem ∧ ∃ t, step s = .next t := by
  refine ⟨by decide +kernel, _, rfl⟩
theorem test_front : (step { pending := [.vinRise { t := 0 }, .bankReleased { cluster := 0, bank := 3 }], dev := {} } : Host.Outcome State Fault Refusal) =
    exec (.vinRise { t := 0 }) { pending := [.bankReleased { cluster := 0, bank := 3 }], dev := {} } := rfl

end Sys2Proof
end

section
/-! PROOFS of the family of chapter 1: the state before the first rise of VIN (O60). -/

namespace Sys2Proof
open Machine

/-- Settles O60: every field of the reset state is empty, zero or false, and a read of an empty dictionary gives the entry's default. -/
theorem resetState : Obligations.ResetState := by
  unfold Obligations.ResetState
  exact ⟨rfl, reset_memory_wf, fun _ => ⟨rfl, rfl⟩, rfl, rfl, fun _ _ _ => ⟨rfl, rfl⟩, fun _ _ => rfl, fun _ => rfl,
    rfl, rfl, rfl, rfl, rfl, rfl⟩

end Sys2Proof
end

section
/-! PROOFS. Laws of the numbers that hold arrays and bitmaps (R551), of the keys of dictionary entries, and of the events of the board. -/

namespace Sys2Proof.Machine

/-! ## Arrays and bitmaps held in one number (R551) -/

/-- What lies under, in and over element `i` of an array whose element `i` is replaced. -/
theorem withElem_eq (w v i x : Nat) :
    withElem w v i x = v / 256 ^ (w * i) / 256 ^ w * (256 ^ w * 256 ^ (w * i)) + (x % 256 ^ w * 256 ^ (w * i) + v % 256 ^ (w * i)) := by
  have h1 := Nat.div_add_mod v (256 ^ (w * i))
  have h2 := Nat.div_add_mod (v / 256 ^ (w * i)) (256 ^ w)
  unfold withElem elem
  generalize 256 ^ (w * i) = b at *
  generalize 256 ^ w = m at *
  generalize v / b / m = q at *
  generalize v / b % m = e at *
  rw [← h2] at h1
  generalize v % b = r at *
  generalize x % m * b = y
  have h3 : v = q * (m * b) + (e * b + r) := by rw [← h1]; ring
  omega

/-- An element written reads back, cut to its width. -/
@[simp] theorem elem_withElem_self (w v i x : Nat) : elem w (withElem w v i x) i = x % 256 ^ w := by
  have hb : 0 < 256 ^ (w * i) := by positivity
  have h1 : withElem w v i x = 256 ^ (w * i) * (256 ^ w * (v / 256 ^ (w * i) / 256 ^ w) + x % 256 ^ w) + v % 256 ^ (w * i) := by
    rw [withElem_eq]; ring
  rw [elem, h1, Nat.mul_add_div hb, Nat.div_eq_of_lt (Nat.mod_lt _ hb), Nat.add_zero, Nat.mul_add_mod, Nat.mod_mod]

/-- Every other element stays. -/
theorem elem_withElem_ne (w v x : Nat) {i j : Nat} (h : j ≠ i) : elem w (withElem w v i x) j = elem w v j := by
  have hb : ∀ n, 0 < 256 ^ n := fun n => by positivity
  rcases Nat.lt_or_gt_of_ne h with h | h
  · -- a lower element is fixed by what lies under element `i`
    obtain ⟨k, hk⟩ : ∃ k, w * i = w * j + w + k := ⟨w * (i - j - 1), by
      obtain ⟨n, rfl⟩ := Nat.exists_eq_add_of_lt h
      have : j + n + 1 - j - 1 = n := by omega
      rw [this]; ring⟩
    have low : ∀ z, elem w z j = z % 256 ^ (w * i) / 256 ^ (w * j) % 256 ^ w := by
      intro z
      rw [hk, Nat.pow_add, Nat.pow_add, Nat.mul_assoc, Nat.mod_mul_right_div_self, Nat.mod_mul_right_mod]
      rfl
    rw [low, low, withElem_eq]
    congr 2
    rw [show ∀ q m b y r : Nat, q * (m * b) + (y * b + r) = b * (q * m + y) + r by intros; ring, Nat.mul_add_mod, Nat.mod_mod]
  · -- a higher element is fixed by what lies over element `i`
    obtain ⟨k, hk⟩ : ∃ k, w * j = w * i + w + k := ⟨w * (j - i - 1), by
      obtain ⟨n, rfl⟩ := Nat.exists_eq_add_of_lt h
      have : i + n + 1 - i - 1 = n := by omega
      rw [this]; ring⟩
    have high : ∀ z, elem w z j = z / 256 ^ (w * i) / 256 ^ w / 256 ^ k % 256 ^ w := by
      intro z
      rw [elem, hk, Nat.pow_add, Nat.pow_add, Nat.div_div_eq_div_mul, Nat.div_div_eq_div_mul, Nat.mul_assoc]
    rw [high, high, withElem_eq]
    congr 2
    rw [show ∀ q m b y r : Nat, q * (m * b) + (y * b + r) = b * (m * q + y) + r by intros; ring, Nat.mul_add_div (hb _),
      Nat.div_eq_of_lt (Nat.mod_lt v (hb _)), Nat.add_zero, Nat.mul_add_div (hb _), Nat.div_eq_of_lt (Nat.mod_lt x (hb _)), Nat.add_zero]

/-- An element of an array made from a list. -/
theorem elem_ofElems (w : Nat) (l : List Nat) (k : Nat) : elem w (ofElems w l) k = l.getD k 0 % 256 ^ w := by
  have hw : 0 < 256 ^ w := by positivity
  induction l generalizing k with
  | nil => simp [ofElems, elem]
  | cons x l ih =>
    have hc : ofElems w (x :: l) = x % 256 ^ w + 256 ^ w * ofElems w l := rfl
    cases k with
    | zero => simp [elem, hc]
    | succ k =>
      have h := ih k
      rw [elem] at h
      rw [elem, hc, Nat.mul_succ, Nat.add_comm (w * k), Nat.pow_add, ← Nat.div_div_eq_div_mul, Nat.add_mul_div_left _ _ hw,
        Nat.div_eq_of_lt (Nat.mod_lt _ hw), Nat.zero_add, h]
      rfl

/-- A bit of a bitmap after one of its bits is set. -/
theorem bitOf_withBit_true (v i j : Nat) : bitOf (withBit v i true) j = (bitOf v j || decide (j = i)) := by
  unfold bitOf withBit
  by_cases hv : v.testBit i = true
  · by_cases hj : j = i
    · subst hj; simp [hv]
    · simp [hv, hj]
  · have hf : v.testBit i = false := by simpa using hv
    simp only [hf, Bool.false_eq_true, if_false, if_true]
    rcases lt_trichotomy j i with hj | rfl | hj
    · rw [Nat.add_comm, Nat.testBit_two_pow_add_gt hj]
      simp [hj.ne]
    · rw [Nat.add_comm, Nat.testBit_two_pow_add_eq]
      simp [hf]
    · -- the sum and `v` agree over bit `i`, which is 0 in `v`
      have hm : v / 2 ^ i % 2 = 0 := by simpa [Nat.testBit_eq_decide_div_mod_eq] using hf
      have hq : (v + 2 ^ i) / 2 ^ i / 2 = v / 2 ^ i / 2 := by
        rw [Nat.add_div_right _ (by positivity)]; omega
      obtain ⟨k, rfl⟩ := Nat.exists_eq_add_of_lt hj
      have up : ∀ z : Nat, z.testBit (i + k + 1) = (z / 2 ^ i / 2).testBit k := fun z => by
        rw [← Nat.testBit_succ, Nat.testBit_div_two_pow, show i + k + 1 = k.succ + i by omega]
      have hne : ¬ i + k + 1 = i := by omega
      rw [up, up, hq, decide_eq_false hne, Bool.or_false]

/-! ## Keys of entries -/

/-- The block and subindex of an entry's key. -/
theorem Entry.key_div (e : Entry) (i : Nat) {p : Nat} (hp : p < 64) : e.key i p / 64 = (e.base + i) * 256 + e.sub := by
  unfold Entry.key
  split <;> omega

/-- An entry's key lies at or above the start of its block. -/
theorem Entry.base_le_key (e : Entry) (i p : Nat) : e.base * 2 ^ 14 ≤ e.key i p := by
  unfold Entry.key
  omega

/-- An entry's key lies below the block of the next number. -/
theorem Entry.key_lt (e : Entry) (i : Nat) {p : Nat} (hs : e.sub < 256) (hp : p < 64) : e.key i p < (e.base + i + 1) * 2 ^ 14 := by
  unfold Entry.key
  split <;> omega

/-! ## Events of the board -/

/-- An event of the supply, RESET_L, a clock input or the TAP answers its device. -/
theorem answers_of_board {i : Instr} {q : List Instr} {d t : Dev} (f : Dev → Dev)
    (hx : exec i { pending := q, dev := d } = State.board { pending := q, dev := d } f) (ht : f d = t) : Answers i q d t := by
  rw [Answers, hx, State.board, ← ht]

end Sys2Proof.Machine
end

section
/-! PROOFS. What the end of a step of start-up writes, and the events of steps 1 to 8 and 10 to 12 that do no more (R561, R567, R572,
R576 to R581). -/

namespace Sys2Proof.Machine

/-! ## Reads of entries beside other changes -/

theorem Dev.rd_onPlat (d : Dev) (f : Plat → Plat) (e : Entry) (i p : Nat) : (d.onPlat f).rd e i p = d.rd e i p := rfl

theorem Dev.rd_withHearth (d : Dev) (x : Hearth) (e : Entry) (i p : Nat) : ({ d with hearth := x } : Dev).rd e i p = d.rd e i p := rfl

/-- A counter raised reads its new value. -/
theorem Dev.rd_bump_self (d : Dev) (e : Entry) (i p n : Nat) : (d.bump e i p n).rd e i p = min (d.rd e i p + n) (256 ^ e.size - 1) :=
  Dev.rd_wr_self ..

/-- A counter raised leaves every other entry. -/
theorem Dev.rd_bump_ne (d : Dev) {e e' : Entry} {i i' p p' n : Nat} (h : e'.key i' p' ≠ e.key i p) :
    (d.bump e i p n).rd e' i' p' = d.rd e' i' p' := Dev.rd_wr_ne _ _ h

/-! ## The end of a step (Table 21.4) -/

/-- When step `n` of Table 21.4 has ended, in µs. -/
def Dev.stepEnd (d : Dev) (n : Nat) : Nat := elem 4 (d.rd R.pow_STARTUP_STEPS) (n - 1)

theorem Dev.stepEnd_onPlat (d : Dev) (f : Plat → Plat) (n : Nat) : (d.onPlat f).stepEnd n = d.stepEnd n :=
  congrArg (elem 4 · (n - 1)) (Dev.rd_onPlat ..)

/-- From `d` to `t` step `n` has ended, at `us`. -/
def Dev.Ends (t d : Dev) (n us : Nat) : Prop :=
  t.plat.step = n ∧ t.stepEnd n = us % 2 ^ 32 ∧ (∀ k, 1 ≤ k → k ≤ 12 → k ≠ n → t.stepEnd k = d.stepEnd k) ∧
    (5 ≤ n → t.time = max d.time (d.plat.stepAt + (us - d.stepEnd (n - 1)) * 1000) ∧ t.plat.stepAt = t.time)

/-- A read of another entry than STARTUP_STEPS. -/
theorem Dev.rd_endStep_ne (d : Dev) (n t : Nat) {e : Entry} {i p : Nat} (h : e.key i p ≠ R.pow_STARTUP_STEPS.key 0 0) :
    (d.endStep n t).rd e i p = d.rd e i p := by
  unfold Dev.endStep
  split <;> exact Dev.rd_wr_ne _ _ h

theorem Dev.rd_endStep (d : Dev) (n t : Nat) :
    (d.endStep n t).rd R.pow_STARTUP_STEPS = withElem 4 (d.rd R.pow_STARTUP_STEPS) (n - 1) t := by
  unfold Dev.endStep
  split <;> exact Dev.rd_wr_self ..

@[simp] theorem Dev.endStep_step (d : Dev) (n t : Nat) : (d.endStep n t).plat.step = n := by
  unfold Dev.endStep
  split <;> rfl

/-- What the end of a step leaves. -/
theorem Dev.endStep_frame (d : Dev) (n t : Nat) : { d.endStep n t with plat := d.plat, dict := d.dict, time := d.time } = d := by
  unfold Dev.endStep
  split <;> rfl

/-- Of the platform the end of a step writes the step and its moment. -/
theorem Dev.endStep_plat (d : Dev) (n t : Nat) : (d.endStep n t).plat = { d.plat with step := n, stepAt := (d.endStep n t).time } := by
  unfold Dev.endStep
  split <;> rfl

theorem Dev.endStep_time (d : Dev) (n t : Nat) (h : 5 ≤ n) :
    (d.endStep n t).time = max d.time (d.plat.stepAt + (t - d.stepEnd (n - 1)) * 1000) ∧ (d.endStep n t).plat.stepAt = (d.endStep n t).time := by
  simp [Dev.endStep, h, Dev.stepEnd, Nat.sub_sub]

theorem Dev.endStep_thermalStop (d : Dev) (n t : Nat) : (d.endStep n t).thermalStop = d.thermalStop := by
  unfold Dev.endStep
  split <;> rfl

theorem Dev.endStep_cores (d : Dev) (n t : Nat) : (d.endStep n t).cores = d.cores := by
  unfold Dev.endStep
  split <;> rfl

theorem Dev.endStep_hearth (d : Dev) (n t : Nat) : (d.endStep n t).hearth = d.hearth := by
  unfold Dev.endStep
  split <;> rfl

/-- The end of a step, and nothing else. -/
theorem Dev.endStep_ends (d : Dev) {n us : Nat} (hn : 1 ≤ n) : (d.endStep n us).Ends d n us := by
  refine ⟨d.endStep_step n us, ?_, fun k h1 _ hk => ?_, d.endStep_time n us⟩
  · rw [Dev.stepEnd, Dev.rd_endStep, elem_withElem_self]; norm_num
  · rw [Dev.stepEnd, Dev.rd_endStep, elem_withElem_ne _ _ _ (by omega), Dev.stepEnd]

/-- Changes of entries other than STARTUP_STEPS and of the platform, the step and its moment apart, do not matter to the end of a
step. -/
theorem Dev.Ends.onPlat {t d : Dev} {n us : Nat} (h : t.Ends d n us) (f : Plat → Plat) (hf : ∀ x, (f x).step = x.step)
    (ha : ∀ x, (f x).stepAt = x.stepAt) : (t.onPlat f).Ends d n us := by
  obtain ⟨h1, h2, h3, h4⟩ := h
  exact ⟨(hf _).trans h1, h2, h3, fun h => ⟨(h4 h).1, (ha _).trans (h4 h).2⟩⟩

theorem Dev.Ends.wr {t d : Dev} {n us : Nat} (h : t.Ends d n us) (e : Entry) (v i p : Nat)
    (he : R.pow_STARTUP_STEPS.key 0 0 ≠ e.key i p) : (t.wr e v i p).Ends d n us := by
  have hs : ∀ k, (t.wr e v i p).stepEnd k = t.stepEnd k := fun k => by rw [Dev.stepEnd, Dev.rd_wr_ne _ _ he]; rfl
  obtain ⟨h1, h2, h3, h4⟩ := h
  exact ⟨h1, (hs n).trans h2, fun k a b c => (hs k).trans (h3 k a b c), h4⟩

/-- Step `n` has ended from `d` on where it has from a device with the same ends of steps, time and moment of its last step. -/
theorem Dev.Ends.from {t d d' : Dev} {n us : Nat} (h : t.Ends d' n us) (hr : d'.rd R.pow_STARTUP_STEPS = d.rd R.pow_STARTUP_STEPS)
    (ht : 5 ≤ n → d'.time = d.time ∧ d'.plat.stepAt = d.plat.stepAt) : t.Ends d n us := by
  have hs : ∀ k, d'.stepEnd k = d.stepEnd k := fun k => by rw [Dev.stepEnd, hr]; rfl
  obtain ⟨h1, h2, h3, h4⟩ := h
  refine ⟨h1, h2, fun k a b c => (h3 k a b c).trans (hs k), fun h => ?_⟩
  obtain ⟨ht1, ht2⟩ := ht h
  rw [← hs, ← ht1, ← ht2]
  exact h4 h

end Sys2Proof.Machine
end

section
/-! PROOFS. The events of start-up that a few writes make: the supply, RESET_L, XTAL, the clocks, the firmware, the memory tests, settlement and
READY_L (R431, R561, R567, R572, R576 to R581, Table 21.4). -/

namespace Sys2Proof.Machine

/-! ## The arms of the dispatch that start-up uses -/

theorem exec_vinRise (o : OpT0) (s : State) : exec (.vinRise o) s = execVinRise o s := rfl
theorem exec_resetLAssert (o : OpT0) (s : State) : exec (.resetLAssert o) s = execResetLAssert o s := rfl
theorem exec_resetLRelease (o : OpT0) (s : State) : exec (.resetLRelease o) s = execResetLRelease o s := rfl
theorem exec_porRelease (o : OpStraps) (s : State) : exec (.porRelease o) s = execPorRelease o s := rfl
theorem exec_oscDelayEnd (o : OpXtal) (s : State) : exec (.oscDelayEnd o) s = execOscDelayEnd o s := rfl
theorem exec_xtalRecheck (o : OpXtal) (s : State) : exec (.xtalRecheck o) s = execXtalRecheck o s := rfl
theorem exec_startupClocksLocked (o : OpT0) (s : State) : exec (.startupClocksLocked o) s = execStartupClocksLocked o s := rfl
theorem exec_startupRampDone (o : OpT0) (s : State) : exec (.startupRampDone o) s = execStartupRampDone o s := rfl
theorem exec_groundskeeperBoot (o : OpBoot) (s : State) : exec (.groundskeeperBoot o) s = execGroundskeeperBoot o s := rfl
theorem exec_memoryQuenchDone (o : OpQuench) (s : State) : exec (.memoryQuenchDone o) s = execMemoryQuenchDone o s := rfl
theorem exec_inDoubtSettle (o : OpT0) (s : State) : exec (.inDoubtSettle o) s = execInDoubtSettle o s := rfl
theorem exec_ready (o : OpT0) (s : State) : exec (.ready o) s = execReady o s := rfl
theorem exec_porRearm (o : OpT0) (s : State) : exec (.porRearm o) s = execPorRearm o s := rfl
theorem exec_microcodeLoad (o : OpUcode) (s : State) : exec (.microcodeLoad o) s = execMicrocodeLoad o s := rfl
theorem exec_hearthReplayScan (o : OpScrub) (s : State) : exec (.hearthReplayScan o) s = execHearthReplayScan o s := rfl
theorem exec_replayPresent (o : OpT0) (s : State) : exec (.replayPresent o) s = execReplayPresent o s := rfl

variable (q : List Instr) (d : Dev)

/-! ## Supply, straps and XTAL (R561, R576 to R578, R581) -/

/-- VIN rises. -/
theorem vinRise_answers (o : OpT0) :
    (d.plat.vin = true ∨ d.thermalStop = true → Answers (.vinRise o) q d d) ∧
    (d.plat.vin = false → d.thermalStop = false → ∃ t, Answers (.vinRise o) q d t ∧ t.plat.vin = true ∧ t.Ends d 1 0 ∧
      { t with plat := d.plat, dict := d.dict } = d) := by
  constructor
  · intro h
    refine answers_of_board _ ((exec_vinRise o _).trans rfl) ?_
    exact if_pos (by simpa using h)
  · intro h1 h2
    refine ⟨(d.onPlat fun x => { x with vin := true }).endStep 1 0, ?_, rfl, ?_, by cases d; rfl⟩
    · refine answers_of_board _ ((exec_vinRise o _).trans rfl) ?_
      exact if_neg (by simp [h1, h2])
    · exact (Dev.endStep_ends _ le_rfl).from rfl (by simp)

/-- RESET_L goes low where power-on reset or a thermal stop holds the device. -/
theorem resetLAssert_held (o : OpT0) (h : d.thermalStop = true ∨ d.plat.por = false) :
    Answers (.resetLAssert o) q d { d with plat := { d.plat with resetLow := true } } := by
  refine answers_of_board _ ((exec_resetLAssert o _).trans rfl) ?_
  exact if_pos (by simpa using h)

/-- RESET_L goes high while something holds the device, or when it has started. -/
theorem resetLRelease_held (o : OpT0) (h : (d.thermalStop = true ∨ d.plat.por = false) ∨ d.plat.step ≠ 0) :
    Answers (.resetLRelease o) q d { d with plat := { d.plat with resetLow := false, tap := .bypass } } := by
  refine answers_of_board _ ((exec_resetLRelease o _).trans rfl) ?_
  exact if_pos (by rcases h with (h | h) | h <;> simp [h])

/-- RESET_L goes high and start-up begins at step 2. -/
theorem resetLRelease_starts (o : OpT0) (h : ¬ (d.thermalStop = true ∨ d.plat.por = false)) (h0 : d.plat.step = 0) :
    ∃ t, Answers (.resetLRelease o) q d t ∧ t.rd R.pow_RESET_CAUSE = 2 ∧ t.plat.resetLow = false ∧ t.plat.tap = .bypass ∧
      (d.plat.xtalKept = false → t.Ends d 2 0) ∧
      (d.plat.xtalKept = true → t.plat.step = 3 ∧ t.stepEnd 2 = 0 ∧ t.stepEnd 3 = 0) ∧ { t with plat := d.plat, dict := d.dict } = d := by
  obtain ⟨h1, h2⟩ : d.thermalStop = false ∧ d.plat.por = true := by simpa using h
  let d1 := (d.onPlat fun x => { x with resetLow := false, tap := .bypass }).wr R.pow_RESET_CAUSE 2
  let d2 := (d1.onPlat fun x => { x with byReset := true }).endStep 2 0
  have cause : d2.rd R.pow_RESET_CAUSE = 2 :=
    (Dev.rd_endStep_ne _ _ _ (by decide)).trans ((Dev.rd_onPlat ..).trans (Dev.rd_wr_self ..))
  have steps : (d1.onPlat fun x => { x with byReset := true }).rd R.pow_STARTUP_STEPS = d.rd R.pow_STARTUP_STEPS :=
    (Dev.rd_onPlat ..).trans ((Dev.rd_wr_ne _ _ (by decide)).trans (Dev.rd_onPlat ..))
  have e2 : d2.Ends d 2 0 := (Dev.endStep_ends _ (by decide)).from steps (by simp)
  have plat : d2.plat = { d.plat with resetLow := false, tap := .bypass, byReset := true, step := 2, stepAt := d2.time } :=
    Dev.endStep_plat ..
  have kept : d2.plat.xtalKept = d.plat.xtalKept := by rw [plat]
  have go : Answers (.resetLRelease o) q d (if d2.plat.xtalKept then d2.endStep 3 0 else d2) := by
    refine answers_of_board _ ((exec_resetLRelease o _).trans rfl) ?_
    exact if_neg (by simp [h1, h2, h0])
  refine ⟨_, go, ?_⟩
  cases hk : d2.plat.xtalKept with
  | false => exact ⟨cause, congrArg (·.resetLow) plat, congrArg (·.tap) plat, fun _ => e2, by simp [← kept, hk], by cases d; rfl⟩
  | true =>
    have e3 : (d2.endStep 3 0).Ends d2 3 0 := Dev.endStep_ends _ (by decide)
    have plat3 := d2.endStep_plat 3 0
    rw [plat] at plat3
    refine ⟨(Dev.rd_endStep_ne _ _ _ (by decide)).trans cause, congrArg (·.resetLow) plat3, congrArg (·.tap) plat3, by simp [← kept, hk],
      fun _ => ⟨e3.1, ?_, e3.2.1⟩, by cases d; rfl⟩
    exact (e3.2.2.1 2 (by decide) (by decide) (by decide)).trans e2.2.1

/-- Power-on reset releases. -/
theorem porRelease_answers (o : OpStraps) :
    let may := d.thermalStop = false ∧ d.plat.vin = true ∧ d.plat.por = false ∧ d.plat.resetLow = false ∧ d.plat.step = 1
    (¬ may → Answers (.porRelease o) q d d) ∧
    (may → ∃ t, Answers (.porRelease o) q d t ∧ t.plat.por = true ∧ t.Ends d 2 o.t ∧
      t.rd R.pow_STRAPS = o.oscDly + 8 * o.i2cAddr + 32 * o.bootSel ∧ t.rd R.pow_RESET_CAUSE = (if d.hearth.thermal then 3 else 1) ∧
      t.hearth.thermal = false ∧ { t.hearth with thermal := d.hearth.thermal } = d.hearth ∧
      { t with plat := d.plat, dict := d.dict, hearth := d.hearth } = d) := by
  intro may
  constructor
  · intro h
    refine answers_of_board _ ((exec_porRelease o _).trans rfl) ?_
    refine if_pos ?_
    by_contra hn
    exact h (by simpa [may, and_assoc] using hn)
  · rintro ⟨h1, h2, h3, h4, h5⟩
    let d1 := (d.wr R.pow_STRAPS (o.oscDly.val + 8 * o.i2cAddr.val + 32 * o.bootSel.val)).wr R.pow_RESET_CAUSE
      (if d.hearth.thermal then 3 else 1)
    let d2 := ({ d1 with hearth := { d1.hearth with thermal := false } } : Dev).endStep 2 o.t
    have rd : ∀ {e : Entry}, e.key 0 0 ≠ R.pow_STARTUP_STEPS.key 0 0 → d2.rd e = d1.rd e := fun h =>
      (Dev.rd_endStep_ne _ _ _ h).trans (Dev.rd_withHearth d1 _ _ _ _)
    have steps : d1.rd R.pow_STARTUP_STEPS = d.rd R.pow_STARTUP_STEPS :=
      (Dev.rd_wr_ne _ _ (by decide)).trans (Dev.rd_wr_ne _ _ (by decide))
    have ends : d2.Ends d 2 o.t := (Dev.endStep_ends _ (by decide)).from ((Dev.rd_withHearth d1 _ _ _ _).trans steps) (by simp)
    have straps : d1.rd R.pow_STRAPS = o.oscDly + 8 * o.i2cAddr + 32 * o.bootSel :=
      (Dev.rd_wr_ne _ _ (by decide)).trans (Dev.rd_wr_self ..)
    refine ⟨d2.onPlat fun x => { x with por := true }, ?_, rfl, ends.onPlat _ (fun _ => rfl) (fun _ => rfl), ?_, ?_, rfl, rfl, by cases d; rfl⟩
    · refine answers_of_board _ ((exec_porRelease o _).trans rfl) ?_
      exact if_neg (by simp [h1, h2, h3, h4, h5])
    · exact (Dev.rd_onPlat ..).trans ((rd (by decide)).trans straps)
    · exact (Dev.rd_onPlat ..).trans ((rd (by decide)).trans (Dev.rd_wr_self ..))

/-- The oscillator delay ends, and XTAL that was found absent is looked for again. -/
theorem xtal_answers (o : OpXtal) (hs : d.thermalStop = false) :
    let delay := (([500, 1000, 2000, 5000, 10000, 20000, 50000, 100000] : List Nat)[d.rd R.pow_STRAPS % 8]?).getD 0
    let ended := d.plat.step = 2 ∧ d.stepEnd 2 + delay ≤ o.t
    let again := d.plat.step = 3 ∧ d.plat.xtalWait = true ∧ d.plat.xtalLook + delay ≤ o.t
    (¬ ended → Answers (.oscDelayEnd o) q d d) ∧
    (ended → ∃ t, Answers (.oscDelayEnd o) q d t ∧ t.Ends d 3 o.t ∧ t.plat.xtal = o.present ∧ t.plat.xtalWait = !o.present ∧
      t.plat.xtalLook = o.t ∧ { t with plat := d.plat, dict := d.dict } = d) ∧
    (¬ again → Answers (.xtalRecheck o) q d d) ∧
    (again → Answers (.xtalRecheck o) q d { d with plat := { d.plat with xtal := o.present, xtalWait := !o.present, xtalLook := o.t } }) := by
  intro delay ended again
  have hd : d.oscDelay = delay := rfl
  refine ⟨fun h => ?_, fun h => ⟨(d.endStep 3 o.t).lookForXtal o, ?_, ?_, rfl, rfl, rfl, by cases d; rfl⟩, fun h => ?_, fun h => ?_⟩
  · refine answers_of_act _ ((exec_oscDelayEnd o _).trans rfl) hs (if_pos ?_)
    by_contra hn
    push Not at hn
    exact h hn
  · refine answers_of_act _ ((exec_oscDelayEnd o _).trans rfl) hs (if_neg ?_)
    push Not
    exact h
  · exact (Dev.endStep_ends d (by decide)).onPlat _ (fun _ => rfl) (fun _ => rfl)
  · refine answers_of_act _ ((exec_xtalRecheck o _).trans rfl) hs (if_pos ?_)
    by_contra hn
    simp only [not_or, not_lt, Bool.not_eq_true', Bool.not_eq_false, ne_eq, not_not] at hn
    exact h hn
  · refine answers_of_act _ ((exec_xtalRecheck o _).trans rfl) hs (if_neg ?_)
    simp only [not_or, not_lt, Bool.not_eq_true', Bool.not_eq_false, ne_eq, not_not]
    exact h

/-! ## Clocks, supply and firmware (R567, R572, R581) -/

/-- The clocks lock and the timebase starts. -/
theorem startupClocksLocked_answers (o : OpT0) (hs : d.thermalStop = false) :
    let locks := d.plat.step = 3 ∧ d.plat.xtalWait = false ∧ d.plat.xtal = true
    (¬ locks → Answers (.startupClocksLocked o) q d d) ∧
    (locks → ∃ t, Answers (.startupClocksLocked o) q d t ∧ t.Ends d 4 o.t ∧
      t.time = (if d.hearth.timebase = 0 then 0 else d.hearth.timebase + 1000000) ∧ t.plat.onB = (!d.plat.refA && d.plat.refB) ∧
      { t with plat := d.plat, dict := d.dict, time := d.time } = d) := by
  intro locks
  let now := if d.hearth.timebase = 0 then 0 else d.hearth.timebase + 1000000
  let d1 : Dev := { d with time := now }
  have ends : (d1.endStep 4 o.t).Ends d 4 o.t := (Dev.endStep_ends d1 (by decide)).from rfl (by simp)
  refine ⟨fun h => ?_, fun h => ⟨(d1.endStep 4 o.t).onPlat fun x =>
    { x with onB := !x.refA && x.refB, refASince := now, refBSince := now }, ?_, ends.onPlat _ (fun _ => rfl) (fun _ => rfl), rfl, rfl,
    by cases d; rfl⟩⟩
  · refine answers_of_act _ ((exec_startupClocksLocked o _).trans rfl) hs (if_pos ?_)
    by_contra hn
    simp only [not_or, Bool.not_eq_true, Bool.not_eq_true', Bool.not_eq_false, ne_eq, not_not] at hn
    exact h hn
  · refine answers_of_act _ ((exec_startupClocksLocked o _).trans rfl) hs (if_neg ?_)
    simp only [not_or, Bool.not_eq_true, Bool.not_eq_true', Bool.not_eq_false, ne_eq, not_not]
    exact h

/-- Every VCORE reaches 0.70 V. -/
theorem startupRampDone_answers (o : OpT0) (hs : d.thermalStop = false) :
    (d.plat.step ≠ 4 → Answers (.startupRampDone o) q d d) ∧
    (d.plat.step = 4 → ∃ t, Answers (.startupRampDone o) q d t ∧ t.Ends d 5 o.t ∧ (∀ c < 16, t.vcore c = 700) ∧
      { t with plat := d.plat, dict := d.dict, time := d.time } = d) := by
  refine ⟨fun h => answers_of_act _ ((exec_startupRampDone o _).trans rfl) hs (if_pos h), fun h =>
    ⟨(d.wr R.pow_VCORE (ofElems 2 (List.replicate 16 700))).endStep 5 o.t, ?_, ?_, ?_, by cases d; rfl⟩⟩
  · exact answers_of_act _ ((exec_startupRampDone o _).trans rfl) hs (if_neg (not_not.mpr h))
  · exact (Dev.endStep_ends _ (by decide)).from (Dev.rd_wr_ne _ _ (by decide)) fun _ => ⟨rfl, rfl⟩
  · intro c hc
    rw [Dev.vcore, Dev.rd_endStep_ne _ _ _ (by decide), Dev.rd_wr_self, elem_ofElems]
    rw [List.getD_replicate _ hc]
    norm_num

/-- Bytes cut or filled to a length have it. -/
@[simp] theorem length_padTo (n : Nat) (b : Bytes) : (padTo n b).length = n := by
  simp only [padTo, zeros, List.length_append, List.length_take, List.length_replicate]
  omega

@[simp] theorem length_leBytes (n v : Nat) : (leBytes n v).length = n := by
  induction n generalizing v with
  | zero => rfl
  | succ n ih => simp [leBytes, ih]

/-- The I2C window has 64 bytes (Table 19.10). -/
theorem length_windowNow : d.windowNow.length = 64 := by
  simp [Dev.windowNow, zeros]

/-- One firmware copy verifies, or start-up stops. -/
theorem groundskeeperBoot_answers (o : OpBoot) (hs : d.thermalStop = false) :
    let at5 := d.plat.step = 5 ∧ d.plat.bootFailed = false
    (¬ at5 → Answers (.groundskeeperBoot o) q d d) ∧
    (at5 → o.copyA = true ∨ o.copyB = true → ∃ t, Answers (.groundskeeperBoot o) q d t ∧ t.Ends d 6 o.t ∧ t.plat.window.length = 64 ∧
      { t with plat := d.plat, dict := d.dict, time := d.time } = d) ∧
    (at5 → o.copyA = false → o.copyB = false → ∃ t, Answers (.groundskeeperBoot o) q d t ∧ t.plat.step = 5 ∧ t.plat.bootFailed = true ∧
      t.faultL = true ∧ { t with plat := d.plat } = d) := by
  intro at5
  have go : at5 → ¬ (d.plat.step ≠ 5 ∨ d.plat.bootFailed = true) := by simp [at5]
  refine ⟨fun h => ?_, fun h hc => ?_, fun h ha hb => ?_⟩
  · refine answers_of_act _ ((exec_groundskeeperBoot o _).trans rfl) hs (if_pos ?_)
    by_contra hn
    exact h (by simpa [at5] using hn)
  · refine ⟨(d.endStep 6 o.t).onPlat fun x => { x with window := (d.endStep 6 o.t).windowNow }, ?_, ?_, length_windowNow _, by cases d; rfl⟩
    · exact answers_of_act _ ((exec_groundskeeperBoot o _).trans rfl) hs ((if_neg (go h)).trans (if_pos (by simpa using hc)))
    · exact (Dev.endStep_ends d (by decide)).onPlat _ (fun _ => rfl) (fun _ => rfl)
  · refine ⟨d.onPlat fun x => { x with bootFailed := true }, ?_, h.1, rfl, ?_, by cases d; rfl⟩
    · exact answers_of_act _ ((exec_groundskeeperBoot o _).trans rfl) hs ((if_neg (go h)).trans (if_neg (by simp [ha, hb])))
    · simp [Dev.faultL, h.1]

/-! ## Memory tests, settlement and READY_L (R242, R431, R584, Table 21.4) -/

/-- Memory is zero, and the stacks are tested where BOOT_SEL asks for it. -/
theorem memoryQuenchDone_answers (o : OpQuench) (hs : d.thermalStop = false) :
    (d.plat.step ≠ 7 → Answers (.memoryQuenchDone o) q d d) ∧
    (d.plat.step = 7 → ∃ t, Answers (.memoryQuenchDone o) q d t ∧ t.Ends d 8 o.t ∧
      (d.rd R.pow_STRAPS / 32 % 4 = 1 → ∀ k, k ∈ t.plat.badStacks ↔ k < 8 ∧ fitted k = true ∧ ∃ f ∈ o.failed, f.val = k) ∧
      (d.rd R.pow_STRAPS / 32 % 4 ≠ 1 → t.plat.badStacks = d.plat.badStacks) ∧
      { t with plat := d.plat, dict := d.dict, time := d.time } = d) := by
  refine ⟨fun h => answers_of_act _ ((exec_memoryQuenchDone o _).trans rfl) hs (if_pos h), fun h => ?_⟩
  let bad := (List.range 8).filter fun k => fitted k && o.failed.any fun f => decide (f.val = k)
  let d1 := d.endStep 8 o.t
  have hstraps : bitsOf (d1.rd R.pow_STRAPS) 6 5 = d.rd R.pow_STRAPS / 32 % 4 := by
    rw [Dev.rd_endStep_ne _ _ _ (by decide)]
    rfl
  have go : ∀ {t}, (if bitsOf (d1.rd R.pow_STRAPS) 6 5 = 1 then d1.onPlat fun x => { x with badStacks := bad } else d1) = t →
      Answers (.memoryQuenchDone o) q d t :=
    fun ht => answers_of_act _ ((exec_memoryQuenchDone o _).trans rfl) hs ((if_neg (not_not.mpr h)).trans ht)
  rw [hstraps] at go
  by_cases hb : d.rd R.pow_STRAPS / 32 % 4 = 1
  · refine ⟨d1.onPlat fun x => { x with badStacks := bad }, go (if_pos hb), ?_, fun _ k => ?_, fun hn => absurd hb hn, by cases d; rfl⟩
    · exact (Dev.endStep_ends d (by decide)).onPlat _ (fun _ => rfl) (fun _ => rfl)
    · simp [bad]
  · exact ⟨d1, go (if_neg hb), Dev.endStep_ends d (by decide), fun hp => absurd hp hb, fun _ => rfl, d.endStep_frame 8 o.t⟩

/-- No operation is open any more. -/
theorem inDoubtSettle_answers (o : OpT0) (hs : d.thermalStop = false) :
    let settled := d.plat.step = 9 ∧ ∀ x ∈ d.chan.ops, x.isOpen = false
    (¬ settled → Answers (.inDoubtSettle o) q d d) ∧
    (settled → ∃ t, Answers (.inDoubtSettle o) q d t ∧ t.Ends d 10 o.t ∧ { t with plat := d.plat, dict := d.dict, time := d.time } = d) := by
  intro settled
  have hset : ¬ settled ↔ d.plat.step ≠ 9 ∨ d.chan.ops.any ChanOp.isOpen = true := by
    simp [settled, List.any_eq_true, imp_iff_not_or]
  refine ⟨fun h => answers_of_act _ ((exec_inDoubtSettle o _).trans rfl) hs (if_pos (hset.mp h)), fun h =>
    ⟨d.endStep 10 o.t, ?_, Dev.endStep_ends d (by decide), d.endStep_frame 10 o.t⟩⟩
  exact answers_of_act _ ((exec_inDoubtSettle o _).trans rfl) hs (if_neg fun hn => hset.mpr hn h)

/-- READY_L is asserted once step 12 has ended, unless a thermal stop holds the device. -/
theorem Dev.readyL_of_step {d : Dev} (h : d.plat.step = 12) (hs : d.thermalStop = false) : d.readyL = true := by
  simp [Dev.readyL, h, hs]

/-- READY_L is asserted. -/
theorem ready_answers (o : OpT0) (hs : d.thermalStop = false) :
    (d.plat.step ≠ 11 → Answers (.ready o) q d d) ∧
    (d.plat.step = 11 → ∃ t, Answers (.ready o) q d t ∧ t.Ends d 12 o.t ∧ t.readyL = true ∧ t.plat.readyAt = t.time ∧
      t.rd R.dev_STARTUPS = min (d.rd R.dev_STARTUPS + 1) (2 ^ 32 - 1) ∧ t.rd R.hearth_REPLAY_TIME = t.stepEnd 12 - d.stepEnd 8 ∧
      (∀ k < 8, elem 1 (t.rd R.mem_SCRUB_CURRENT) k = if fitted k then d.rd R.mem_SCRUB_PERIOD % 256 else 0) ∧
      { t with plat := d.plat, dict := d.dict, time := d.time } = d) := by
  refine ⟨fun h => answers_of_act _ ((exec_ready o _).trans rfl) hs (if_pos h), fun h => ?_⟩
  let d1 := (d.endStep 12 o.t).bump R.dev_STARTUPS
  let scrub := ofElems 1 ((List.range 8).map fun n => if fitted n then d1.rd R.mem_SCRUB_PERIOD else 0)
  let d2 := d1.wr R.mem_SCRUB_CURRENT scrub
  let replay := elem 4 (d1.rd R.pow_STARTUP_STEPS) 11 - elem 4 (d1.rd R.pow_STARTUP_STEPS) 7
  let d3 := d2.wr R.hearth_REPLAY_TIME replay
  have go : Answers (.ready o) q d (d3.onPlat fun x => { x with readyAt := d2.time }) :=
    answers_of_act _ ((exec_ready o _).trans rfl) hs (if_neg (not_not.mpr h))
  have e1 : d1.Ends d 12 o.t := (Dev.endStep_ends d (by decide)).wr _ _ _ _ (by decide)
  have e3 : d3.Ends d 12 o.t := (e1.wr _ _ _ _ (by decide)).wr _ _ _ _ (by decide)
  have end3 : ∀ k, d3.stepEnd k = elem 4 (d1.rd R.pow_STARTUP_STEPS) (k - 1) := fun k =>
    congrArg (elem 4 · (k - 1)) ((Dev.rd_wr_ne _ _ (by decide)).trans (Dev.rd_wr_ne _ _ (by decide)))
  have e4 := e3.onPlat (fun x => { x with readyAt := d2.time }) (fun _ => rfl) (fun _ => rfl)
  refine ⟨_, go, e4, ?_, ?_, ?_, ?_, ?_, by cases d; rfl⟩
  · have hstop : d3.thermalStop = false := (Dev.wr_thermalStop d2 ..).trans ((Dev.wr_thermalStop d1 ..).trans
      ((Dev.bump_thermalStop ..).trans ((Dev.endStep_thermalStop ..).trans hs)))
    exact Dev.readyL_of_step e4.1 ((Dev.onPlat_thermalStop ..).trans hstop)
  · rw [Dev.onPlat_plat, Dev.onPlat_time]
    exact (Dev.wr_time d2 _ _ _ _).symm
  · have h1 : d1.rd R.dev_STARTUPS = min ((d.endStep 12 o.t).rd R.dev_STARTUPS + 1) (256 ^ R.dev_STARTUPS.size - 1) := Dev.rd_bump_self ..
    have h3 : d3.rd R.dev_STARTUPS = d1.rd R.dev_STARTUPS := (Dev.rd_wr_ne d2 _ (by decide)).trans (Dev.rd_wr_ne d1 _ (by decide))
    rw [Dev.rd_onPlat, h3, h1, Dev.rd_endStep_ne _ _ _ (by decide), show R.dev_STARTUPS.size = 4 from rfl]
    norm_num
  · have h3 : d3.rd R.hearth_REPLAY_TIME = replay := Dev.rd_wr_self ..
    rw [Dev.rd_onPlat, h3, Dev.stepEnd_onPlat, end3, ← e3.2.2.1 8 (by decide) (by decide) (by decide), end3]
  · intro k hk
    have hper : d1.rd R.mem_SCRUB_PERIOD = d.rd R.mem_SCRUB_PERIOD :=
      (Dev.rd_bump_ne _ (by decide)).trans (Dev.rd_endStep_ne _ _ _ (by decide))
    have hcur : d3.rd R.mem_SCRUB_CURRENT = scrub := (Dev.rd_wr_ne _ _ (by decide)).trans (Dev.rd_wr_self ..)
    rw [Dev.rd_onPlat, hcur, elem_ofElems, List.getD_eq_getElem?_getD, List.getElem?_map, List.getElem?_range hk, hper]
    show (if fitted k then d.rd R.mem_SCRUB_PERIOD else 0) % 256 ^ 1 = _
    split <;> rfl

/-! ## Replayed requests and completions presented (R22, R85, R102) -/

/-- Writing lines of a record leaves the control block. -/
@[simp] theorem Ring.putRecord_ctl (x : Ring) (r size : Nat) (y : Record) (f : Nat → Bool) : (x.putRecord r size y f).ctl = x.ctl := by
  refine foldl_keeps (P := fun z : Ring => z.ctl = x.ctl) _ (fun z e hz => ?_) _ rfl
  split
  · exact hz
  · exact hz

@[simp] theorem Ring.completeFirst_ctl (x : Ring) (r size n : Nat) : (x.completeFirst r size n).ctl = x.ctl :=
  foldl_keeps (P := fun z : Ring => z.ctl = x.ctl) _ (fun z _ hz => (z.putRecord_ctl ..).trans hz) _ rfl

/-- A ring replaced reads back; the others stay. -/
theorem Dev.hring_setRing (d : Dev) (r k : Nat) (x : Ring) : (d.setRing r x).hring k = if k = r then x else d.hring k :=
  Table.get_set ..

/-- The size of a ring depends on its control block, the quota and what is being removed. -/
theorem Dev.ringSize_congr {d t : Dev} (r : Nat) (hc : (t.hring r).ctl = (d.hring r).ctl) (hd : t.dict = d.dict) (hr : t.removing = d.removing) :
    t.ringSize r = d.ringSize r := by
  simp only [Dev.ringSize, Dev.windowRemoving, Dev.ringAsked, Dev.rd, hc, hd, hr]
  rfl

/-- With every final operation's completion posted, there is nothing to post. -/
theorem Dev.postRing_of_posted (d : Dev) (p : Nat) (last : RecBody → Bool) (h : ∀ x ∈ d.chan.ops, x.st = .done → x.posted = true) :
    d.postRing p last = d := by
  refine foldl_keeps (P := fun z : Dev => z = d) _ (fun z y hz => ?_) _ rfl
  subst hz
  cases y.body <;> try rfl
  rename_i opnum ep _ _ _ _ _ _ _ _
  dsimp only
  split
  · rename_i op hop
    refine if_neg fun hc => ?_
    simp only [Bool.and_eq_true, decide_eq_true_eq, Bool.not_eq_true'] at hc
    have := h op (List.mem_of_find?_eq_some hop) hc.1.2
    simp [hc.2] at this
  · rfl

end Sys2Proof.Machine
end

section
/-! PROOFS. A step over each ring of the hearth, and the presentation of completions and requests (R22, R85, R102, R146). -/

namespace Sys2Proof.Machine

/-! ## Steps over the rings, one after the other -/

/-- A change of the device that a ring causes touches only that ring, and not its control block; entries and what is being removed
stay. -/
structure RingStep (f : Dev → Nat → Dev) : Prop where
  others : ∀ d r k, k ≠ r → (f d r).hring k = d.hring k
  ctl : ∀ d r, ((f d r).hring r).ctl = (d.hring r).ctl
  dict : ∀ d r, (f d r).dict = d.dict
  removing : ∀ d r, (f d r).removing = d.removing

theorem RingStep.ringSize {f : Dev → Nat → Dev} (hf : RingStep f) (d : Dev) (r k : Nat) : (f d r).ringSize k = d.ringSize k := by
  refine Dev.ringSize_congr k ?_ (hf.dict d r) (hf.removing d r)
  by_cases hk : k = r
  · subst hk; exact hf.ctl d k
  · rw [hf.others d r k hk]

/-- After a step for each of several rings, a ring of the list is what its own step made of it, and every other ring is as it was. -/
theorem RingStep.foldl {f : Dev → Nat → Dev} (hf : RingStep f) {l : List Nat} (hl : l.Nodup) (d : Dev) :
    (∀ r, r ∉ l → (l.foldl f d).hring r = d.hring r) ∧
    (∀ r ∈ l, ∃ d', d'.hring r = d.hring r ∧ d'.ringSize r = d.ringSize r ∧ (l.foldl f d).hring r = (f d' r).hring r) := by
  induction l generalizing d with
  | nil => simp
  | cons a l ih =>
    obtain ⟨ha, hl⟩ := List.nodup_cons.mp hl
    obtain ⟨out, mem⟩ := ih hl (f d a)
    refine ⟨fun r hr => ?_, fun r hr => ?_⟩
    · obtain ⟨h1, h2⟩ := not_or.mp (mt List.mem_cons.mpr hr)
      exact (out r h2).trans (hf.others d a r h1)
    · by_cases hra : r = a
      · subst hra
        exact ⟨d, rfl, rfl, out r ha⟩
      · obtain ⟨d', h1, h2, h3⟩ := mem r ((List.mem_cons.mp hr).resolve_left hra)
        exact ⟨d', h1.trans (hf.others d a r hra), h2.trans (hf.ringSize d a r), h3⟩

/-- The device with other rings in the hearth, after free values were drawn. -/
def Dev.withRings (d : Dev) (f : Nat) (R : Table Ring) : Dev := { d with fresh := f, hearth := { d.hearth with rings := R } }

theorem Dev.Ends.withRings {t d : Dev} {n us : Nat} (h : t.Ends d n us) (f : Nat) (R : Table Ring) : (t.withRings f R).Ends d n us := h

/-! ## Every record complete (R146) -/

theorem Dev.hring_syncRing (d : Dev) (r k : Nat) :
    (d.syncRing r).hring k = if k = r then (d.hring r).completeFirst r (d.ringSize r) (d.hring r).recs.length else d.hring k :=
  Dev.hring_setRing ..

theorem syncRing_ringStep : RingStep Dev.syncRing where
  others d r k h := by rw [Dev.hring_syncRing, if_neg h]
  ctl d r := by rw [Dev.hring_syncRing, if_pos rfl, Ring.completeFirst_ctl]
  dict _ _ := rfl
  removing _ _ := rfl

theorem syncRings_eq (d : Dev) (l : List Nat) : ∃ R, l.foldl Dev.syncRing d = d.withRings d.fresh R := by
  refine foldl_keeps (P := fun t : Dev => ∃ R, t = d.withRings d.fresh R) _ (fun t r ht => ?_) l ⟨_, rfl⟩
  obtain ⟨R, rfl⟩ := ht
  exact ⟨_, rfl⟩

/-- Every record of the pavilions' rings complete. -/
theorem hring_syncRings (d : Dev) (r : Nat) : ((List.range 64).foldl Dev.syncRing d).hring r =
    if r < 64 then (d.hring r).completeFirst r (d.ringSize r) (d.hring r).recs.length else d.hring r := by
  obtain ⟨out, mem⟩ := syncRing_ringStep.foldl List.nodup_range d
  split
  · rename_i hr
    obtain ⟨d', h1, h2, h3⟩ := mem r (List.mem_range.mpr hr)
    rw [h3, Dev.hring_syncRing, if_pos rfl, h1, h2]
  · rename_i hr
    exact out r (mt List.mem_range.mp hr)

/-- With every final operation's completion posted, presenting completes the records and posts nothing. -/
theorem foldl_sync_post_of_posted (l : List Nat) (d : Dev) (h : ∀ x ∈ d.chan.ops, x.st = .done → x.posted = true) :
    l.foldl (fun d p => (d.syncRing p).postRing p fun _ => false) d = l.foldl Dev.syncRing d := by
  induction l generalizing d with
  | nil => rfl
  | cons p l ih =>
    rw [List.foldl_cons, List.foldl_cons, Dev.postRing_of_posted (d.syncRing p) _ _ h]
    exact ih _ h

/-- The requests of the sessions presented to the device that `f` gives. -/
def Dev.presentFrom (d : Dev) (f : Dev → Dev) : Dev :=
  ((f d).net.sessions.flatMap fun x => x.reqs.map fun r => x.placing r 1).foldl (fun d p => d.enqueueIn p) (f d)

/-- REPLAY_PRESENT in terms of its two halves. -/
theorem exec_replayPresent_eq (o : OpT0) (s : State) : exec (.replayPresent o) s = s.act fun d => if d.plat.step ≠ 10 then d
    else Dev.presentFrom ((d.endStep 11 o.t).onPlat fun x => { x with presented := true }) fun d =>
      (List.range 64).foldl (fun d p => (d.syncRing p).postRing p fun _ => false) d := by
  rw [exec_replayPresent]
  unfold execReplayPresent Dev.presentFrom
  refine congrArg s.act (funext fun d => ?_)
  refine if_congr Iff.rfl rfl ?_
  dsimp only

/-- Completions and the requests of each session are presented. -/
theorem replayPresent_answers (q : List Instr) (d : Dev) (o : OpT0) (hs : d.thermalStop = false) :
    (d.plat.step ≠ 10 → Answers (.replayPresent o) q d d) ∧
    (d.plat.step = 10 → (∀ x ∈ d.chan.ops, x.st = .done → x.posted = true) → ∃ t2 : Dev, t2.plat.presented = true ∧ t2.Ends d 11 o.t ∧
      (∀ r, t2.hring r = if r < 64 then (d.hring r).completeFirst r (d.ringSize r) (d.hring r).recs.length else d.hring r) ∧
      { t2 with plat := d.plat, dict := d.dict, time := d.time, hearth := { t2.hearth with rings := d.hearth.rings } } = d ∧
      Answers (.replayPresent o) q d
        ((d.net.sessions.flatMap fun x => x.reqs.map fun r => x.placing r 1).foldl (fun d p => d.enqueueIn p) t2)) := by
  refine ⟨fun h => answers_of_act _ (exec_replayPresent_eq o _) hs (if_pos h), fun h hp => ?_⟩
  let d2 := (d.endStep 11 o.t).onPlat fun x => { x with presented := true }
  have e2 : d2.Ends d 11 o.t := (Dev.endStep_ends d (by decide)).onPlat _ (fun _ => rfl) (fun _ => rfl)
  have frame : { d2 with plat := d.plat, dict := d.dict, time := d.time } = d := by cases d; rfl
  have chan : d2.chan = d.chan := by cases d; rfl
  have net : d2.net = d.net := by cases d; rfl
  have ring : ∀ r, d2.hring r = d.hring r := fun r => by cases d; rfl
  have rd : ∀ (e : Entry) i, 0x2000 ≤ e.base → d2.rd e i = d.rd e i := fun e i h => (Dev.rd_onPlat ..).trans
    (Dev.rd_endStep_ne _ _ _ (Nat.ne_of_gt (lt_of_lt_of_le (b := 0x2000 * 2 ^ 14) (by decide)
      ((Nat.mul_le_mul_right _ h).trans (Entry.base_le_key ..)))))
  have removing : d2.removing = d.removing := by cases d; rfl
  have size : ∀ r, d2.ringSize r = d.ringSize r := fun r => by
    simp only [Dev.ringSize, Dev.windowRemoving, Dev.ringAsked, ring, removing, rd R.pav_HEARTH_QUOTA r (by decide),
      rd R.hearth_WINDOW_SIZE 0 (by decide)]
    rfl
  obtain ⟨R, hR⟩ := syncRings_eq d2 (List.range 64)
  have rings := hring_syncRings d2
  rw [hR] at rings
  have post := foldl_sync_post_of_posted (List.range 64) d2 (by rw [chan]; exact hp)
  have go : Answers (.replayPresent o) q d (d2.presentFrom fun t => (List.range 64).foldl (fun d p => (d.syncRing p).postRing p fun _ => false) t) :=
    answers_of_act _ (exec_replayPresent_eq o _) hs (if_neg (not_not.mpr h))
  rw [Dev.presentFrom] at go
  rw [post, hR] at go
  have waiting : (d2.withRings d2.fresh R).net = d.net := net
  simp only [waiting] at go
  refine ⟨_, rfl, e2.withRings d2.fresh R, fun r => ?_, ?_, go⟩
  · rw [rings, ring, size]
  · exact frame

end Sys2Proof.Machine
end

section
/-! PROOFS. The self-tests of the slots of a cluster, of every cluster, and the microcode image (R457, R467, R470). -/

namespace Sys2Proof.Machine

/-! ## A cluster beside the others -/

/-- The key of a cluster's entry. -/
theorem Entry.cluster_key {e : Entry} (k : Nat) (hb : e.base = 0x3000) (ho : e.own ≠ .caller) :
    e.key k 0 = ((0x3000 + k) * 256 + e.sub) * 64 := by
  rw [Entry.key, if_neg ho, hb, Nat.add_zero]

theorem retired_key (k : Nat) : R.clu_RETIRED.key k 0 = ((0x3000 + k) * 256 + 6) * 64 := Entry.cluster_key k rfl (by decide)
theorem spare_key (k : Nat) : R.clu_SPARE.key k 0 = ((0x3000 + k) * 256 + 5) * 64 := Entry.cluster_key k rfl (by decide)
theorem lost_key (k : Nat) : R.clu_LOST.key k 0 = ((0x3000 + k) * 256 + 22) * 64 := Entry.cluster_key k rfl (by decide)

/-- From `d` to `t` nothing but cluster `k`'s block and cores, and the alerts, has changed. -/
structure Dev.Beside (k : Nat) (t d : Dev) : Prop where
  time : t.time = d.time
  plat : t.plat = d.plat
  hearth : t.hearth = d.hearth
  rd : ∀ e i, e.key i 0 < (0x3000 + k) * 2 ^ 14 ∨ (0x3001 + k) * 2 ^ 14 ≤ e.key i 0 → t.rd e i = d.rd e i
  core : ∀ c, c / 16 ≠ k → t.core c = d.core c

theorem Dev.Beside.refl (k : Nat) (d : Dev) : d.Beside k d := ⟨rfl, rfl, rfl, fun _ _ _ => rfl, fun _ _ => rfl⟩

theorem Dev.Beside.wr {k : Nat} {t d : Dev} (h : t.Beside k d) {e : Entry} (hb : e.base = 0x3000) (ho : e.own ≠ .caller) (hs : e.sub < 256)
    (v : Nat) : (t.wr e v k).Beside k d where
  time := h.time
  plat := h.plat
  hearth := h.hearth
  core := h.core
  rd e' i hk := by
    rw [Dev.rd_wr_ne _ _ (by rw [Entry.cluster_key k hb ho]; omega)]
    exact h.rd e' i hk

theorem Dev.Beside.onCore {k : Nat} {t d : Dev} (h : t.Beside k d) {c : Nat} (hc : c / 16 = k) (f : Core → Core) :
    (t.onCore c f).Beside k d where
  time := h.time
  plat := h.plat
  hearth := h.hearth
  core c' hk := by
    rw [Dev.core_onCore_ne _ _ (by rintro rfl; exact hk hc)]
    exact h.core c' hk
  rd := h.rd

theorem Dev.Beside.alert {k : Nat} {t d : Dev} (h : t.Beside k d) (x y p n : Nat) : (t.alert x y p n).Beside k d :=
  ⟨h.time, h.plat, h.hearth, h.rd, h.core⟩

/-! ## The self-test of a slot (R467, R470) -/

theorem Dev.rd_retireSlot_spare (d : Dev) (k s j : Nat) : (d.retireSlot k s).rd R.clu_SPARE j = d.rd R.clu_SPARE j :=
  Dev.rd_wr_ne _ _ (by rw [retired_key, spare_key]; omega)

/-- The spare takes the number of a core whose slot fails. -/
theorem Dev.slotFails_spared {d : Dev} {c : Nat} (h : d.rd R.clu_SPARE (c / 16) = 0xFF) :
    d.slotFails c = ((d.retireSlot (c / 16) (d.slotOf c)).wr R.clu_SPARE (c % 16) (c / 16)).onCore c fun x => { x with inSpareSlot := true } :=
  if_pos ((d.rd_retireSlot_spare ..).trans h)

/-- Without a spare a core whose slot fails is lost. -/
theorem Dev.slotFails_lost {d : Dev} {c : Nat} (h : d.rd R.clu_SPARE (c / 16) ≠ 0xFF) :
    ∃ x y p n, d.slotFails c = ((((d.retireSlot (c / 16) (d.slotOf c)).onCore c fun x => { x with run := .lost }).bump
      R.clu_LOST (c / 16)).alert x y p n) :=
  ⟨_, _, _, _, if_neg (mt (d.rd_retireSlot_spare ..).symm.trans h)⟩

theorem Dev.core_bump_alert (d : Dev) (e : Entry) (i x y p n c : Nat) : ((d.bump e i).alert x y p n).core c = d.core c := rfl

/-- What the failure of a slot does to its cluster. -/
theorem Dev.slotFails_spec (d : Dev) (c : Nat) :
    (d.slotFails c).Beside (c / 16) d ∧
    (d.slotFails c).rd R.clu_RETIRED (c / 16) = withBit (d.rd R.clu_RETIRED (c / 16)) (d.slotOf c) true ∧
    (∀ c', c' ≠ c → (d.slotFails c).core c' = d.core c') ∧
    (d.rd R.clu_SPARE (c / 16) = 0xFF → (d.slotFails c).core c = { d.core c with inSpareSlot := true } ∧
      (d.slotFails c).rd R.clu_SPARE (c / 16) = c % 16) ∧
    (d.rd R.clu_SPARE (c / 16) ≠ 0xFF → (d.slotFails c).core c = { d.core c with run := .lost } ∧
      (d.slotFails c).rd R.clu_SPARE (c / 16) = d.rd R.clu_SPARE (c / 16)) := by
  have retire : (d.retireSlot (c / 16) (d.slotOf c)).Beside (c / 16) d := (Dev.Beside.refl _ d).wr rfl (by decide) (by decide) _
  have retired : (d.retireSlot (c / 16) (d.slotOf c)).rd R.clu_RETIRED (c / 16) = withBit (d.rd R.clu_RETIRED (c / 16)) (d.slotOf c) true :=
    Dev.rd_wr_self ..
  by_cases h : d.rd R.clu_SPARE (c / 16) = 0xFF
  · rw [Dev.slotFails_spared h]
    refine ⟨(retire.wr rfl (by decide) (by decide) _).onCore rfl _, ?_, fun c' hc => Dev.core_onCore_ne _ _ hc,
      fun _ => ⟨?_, ?_⟩, fun hn => absurd h hn⟩
    · exact (Dev.rd_wr_ne _ _ (by rw [retired_key, spare_key]; omega)).trans retired
    · exact Dev.core_onCore_self ..
    · exact Dev.rd_wr_self ..
  · obtain ⟨x, y, p, n, e⟩ := Dev.slotFails_lost h
    rw [e]
    refine ⟨((retire.onCore rfl _).wr rfl (by decide) (by decide) _).alert .., ?_, fun c' hc =>
      (Dev.core_bump_alert ..).trans (Dev.core_onCore_ne (d.retireSlot (c / 16) (d.slotOf c)) _ hc), fun hn => absurd hn h, fun _ => ⟨?_, ?_⟩⟩
    · exact (Dev.rd_bump_ne (e := R.clu_LOST) _ (by rw [retired_key, lost_key]; omega)).trans retired
    · exact (Dev.core_bump_alert ..).trans (Dev.core_onCore_self (d.retireSlot (c / 16) (d.slotOf c)) c _)
    · exact (Dev.rd_bump_ne (e := R.clu_LOST) _ (by rw [spare_key, lost_key]; omega)).trans (d.rd_retireSlot_spare ..)

theorem Dev.Beside.trans {k : Nat} {u t d : Dev} (h : u.Beside k t) (h' : t.Beside k d) : u.Beside k d where
  time := h.time.trans h'.time
  plat := h.plat.trans h'.plat
  hearth := h.hearth.trans h'.hearth
  rd e i hk := (h.rd e i hk).trans (h'.rd e i hk)
  core c hc := (h.core c hc).trans (h'.core c hc)

/-- The slots of several cores of cluster `k` fail, one after the other: the first takes the spare, if there is one. -/
theorem Dev.foldl_slotFails (k : Nat) (l : List Nat) (d : Dev) (hk : ∀ c ∈ l, c / 16 = k) (hl : l.Nodup) :
    (l.foldl Dev.slotFails d).Beside k d ∧
    (∀ s, bitOf ((l.foldl Dev.slotFails d).rd R.clu_RETIRED k) s = true ↔
      bitOf (d.rd R.clu_RETIRED k) s = true ∨ ∃ c ∈ l, d.slotOf c = s) ∧
    (∀ c, c ∉ l → (l.foldl Dev.slotFails d).core c = d.core c) ∧
    (d.rd R.clu_SPARE k ≠ 0xFF → (l.foldl Dev.slotFails d).rd R.clu_SPARE k = d.rd R.clu_SPARE k ∧
      ∀ c ∈ l, (l.foldl Dev.slotFails d).core c = { d.core c with run := .lost }) := by
  induction l generalizing d with
  | nil => exact ⟨.refl k d, by simp, fun _ _ => rfl, fun _ => ⟨rfl, by simp⟩⟩
  | cons a l ih =>
    obtain ⟨ha, hl⟩ := List.nodup_cons.mp hl
    have hak : a / 16 = k := hk a List.mem_cons_self
    obtain ⟨beside, retired, core, -, lost⟩ := d.slotFails_spec a
    rw [hak] at beside retired lost
    obtain ⟨beside', retired', core', lost'⟩ := ih (d.slotFails a) (fun c hc => hk c (List.mem_cons_of_mem _ hc)) hl
    have slot : ∀ c ∈ l, (d.slotFails a).slotOf c = d.slotOf c := fun c hc => by
      rw [Dev.slotOf, core c fun h => ha (h ▸ hc)]; rfl
    refine ⟨beside'.trans beside, fun s => ?_, fun c hc => ?_, fun hs => ?_⟩
    · rw [List.foldl_cons, retired', retired, bitOf_withBit_true, Bool.or_eq_true, decide_eq_true_eq, List.exists_mem_cons_iff, or_assoc,
        eq_comm (a := s)]
      exact or_congr Iff.rfl (or_congr Iff.rfl (exists_congr fun c => and_congr_right fun hc => by rw [slot c hc]))
    · obtain ⟨h1, h2⟩ := not_or.mp (mt List.mem_cons.mpr hc)
      exact (core' c h2).trans (core c h1)
    · obtain ⟨h1, h2⟩ := lost hs
      obtain ⟨h3, h4⟩ := lost' (by rw [h2]; exact hs)
      refine ⟨h3.trans h2, fun c hc => ?_⟩
      rcases List.mem_cons.mp hc with rfl | hc
      · exact (core' c ha).trans h1
      · rw [List.foldl_cons, h4 c hc, core c fun h => ha (h ▸ hc)]

/-- With a spare, the first core whose slot fails takes it, and the others are lost. -/
theorem Dev.foldl_slotFails_spared (a : Nat) (l : List Nat) (d : Dev) (hk : ∀ c ∈ l, c / 16 = a / 16) (hl : (a :: l).Nodup)
    (hs : d.rd R.clu_SPARE (a / 16) = 0xFF) :
    ((a :: l).foldl Dev.slotFails d).rd R.clu_SPARE (a / 16) = a % 16 ∧
    ((a :: l).foldl Dev.slotFails d).core a = { d.core a with inSpareSlot := true } ∧
    ∀ c ∈ l, ((a :: l).foldl Dev.slotFails d).core c = { d.core c with run := .lost } := by
  obtain ⟨ha, hl⟩ := List.nodup_cons.mp hl
  obtain ⟨-, -, core, spared, -⟩ := d.slotFails_spec a
  obtain ⟨h1, h2⟩ := spared hs
  obtain ⟨-, -, core', lost⟩ := Dev.foldl_slotFails (a / 16) l (d.slotFails a) hk hl
  obtain ⟨h3, h4⟩ := lost (by rw [h2]; omega)
  refine ⟨h3.trans h2, (core' a ha).trans h1, fun c hc => ?_⟩
  rw [List.foldl_cons, h4 c hc, core c fun h => ha (h ▸ hc)]

/-! ## The self-tests of a cluster -/

/-- Core `16 * k + j` runs in a slot that fails its self-test or is retired. -/
def Dev.SlotUnfit (d : Dev) (failed : Nat → Prop) (k j : Nat) : Prop :=
  let s := if (d.core (16 * k + j)).inSpareSlot then 16 else j
  failed s ∨ bitOf (d.rd R.clu_RETIRED k) s = true

/-- Cluster `k` has a spare for core `16 * k + slot`. -/
def Dev.SpareFor (d : Dev) (failed : Nat → Prop) (k slot : Nat) : Prop :=
  d.rd R.clu_SPARE k = 0xFF ∧ (failed 16 → bitOf (d.rd R.clu_RETIRED k) 16 = true) ∧ ∀ j < slot, ¬ d.SlotUnfit failed k j

/-- From `d` to `t` the slots of cluster `k` have been tested (R467, R470). -/
structure Dev.Tested (t d : Dev) (failed : Nat → Prop) (k : Nat) : Prop where
  core : ∀ slot < 16,
    (¬ d.SlotUnfit failed k slot → t.core (16 * k + slot) = d.core (16 * k + slot)) ∧
    (d.SlotUnfit failed k slot → d.SpareFor failed k slot →
      t.core (16 * k + slot) = { d.core (16 * k + slot) with inSpareSlot := true } ∧ t.rd R.clu_SPARE k = slot) ∧
    (d.SlotUnfit failed k slot → ¬ d.SpareFor failed k slot → t.core (16 * k + slot) = { d.core (16 * k + slot) with run := .lost })
  retired : ∀ slot < 17, bitOf (t.rd R.clu_RETIRED k) slot = true ↔
    bitOf (d.rd R.clu_RETIRED k) slot = true ∨ (failed slot ∧ (slot = 16 ∨ (d.core (16 * k + slot)).inSpareSlot = false))

/-- The device after the spare slot of cluster `k` is tested. -/
def Dev.spareTest (d : Dev) (k : Nat) (failed : Nat → Bool) : Dev :=
  if failed 16 && !d.slotRetired k 16 then (d.retireSlot k 16).wr R.clu_SPARE 0xFE k else d

/-- The cores of cluster `k` whose slots are not fit. -/
def Dev.unfitCores (d : Dev) (k : Nat) (failed : Nat → Bool) : List Nat :=
  (clusterCores k).filter fun c => failed (d.slotOf c) || d.slotRetired k (d.slotOf c)

theorem Dev.clusterTests_eq (d : Dev) (k : Nat) (failed : Nat → Bool) :
    d.clusterTests k failed = ((d.spareTest k failed).unfitCores k failed).foldl Dev.slotFails (d.spareTest k failed) := rfl

theorem Dev.spareTest_spec (d : Dev) (k : Nat) (failed : Nat → Bool) :
    (d.spareTest k failed).Beside k d ∧ (∀ c, (d.spareTest k failed).core c = d.core c) ∧
    (∀ s, bitOf ((d.spareTest k failed).rd R.clu_RETIRED k) s = true ↔
      bitOf (d.rd R.clu_RETIRED k) s = true ∨ (s = 16 ∧ failed 16 = true)) ∧
    ((d.spareTest k failed).rd R.clu_SPARE k = 0xFF ↔
      d.rd R.clu_SPARE k = 0xFF ∧ (failed 16 = true → bitOf (d.rd R.clu_RETIRED k) 16 = true)) := by
  unfold Dev.spareTest
  split
  · rename_i h
    simp only [Bool.and_eq_true, Bool.not_eq_true', Dev.slotRetired] at h
    obtain ⟨hf, hr⟩ := h
    have retire : (d.retireSlot k 16).Beside k d := (Dev.Beside.refl _ d).wr rfl (by decide) (by decide) _
    have retired : ((d.retireSlot k 16).wr R.clu_SPARE 0xFE k).rd R.clu_RETIRED k = withBit (d.rd R.clu_RETIRED k) 16 true :=
      (Dev.rd_wr_ne _ _ (by rw [retired_key, spare_key]; omega)).trans (Dev.rd_wr_self ..)
    refine ⟨retire.wr rfl (by decide) (by decide) _, fun _ => rfl, fun s => ?_, ?_⟩
    · rw [retired, bitOf_withBit_true]; simp [hf]
    · rw [Dev.rd_wr_self]; simp [hf, hr]
  · rename_i h
    simp only [Bool.and_eq_true, Bool.not_eq_true', Dev.slotRetired, not_and, Bool.not_eq_false] at h
    refine ⟨.refl k d, fun _ => rfl, fun s => ⟨.inl, ?_⟩, ⟨fun hs => ⟨hs, h⟩, And.left⟩⟩
    rintro (hs | ⟨rfl, hf⟩)
    · exact hs
    · exact h hf

theorem pairwise_clusterCores (k : Nat) : (clusterCores k).Pairwise (· < ·) :=
  List.pairwise_map.mpr (List.pairwise_lt_range.imp fun h => by omega)

theorem mem_clusterCores {k c : Nat} : c ∈ clusterCores k ↔ c / 16 = k := by
  simp only [clusterCores, List.mem_map, List.mem_range]
  exact ⟨by rintro ⟨j, hj, rfl⟩; omega, fun h => ⟨c % 16, by omega, by omega⟩⟩

theorem mem_unfitCores (d : Dev) (k slot : Nat) (failed : Nat → Bool) (h : slot < 16) :
    16 * k + slot ∈ (d.spareTest k failed).unfitCores k failed ↔ d.SlotUnfit (failed · = true) k slot := by
  obtain ⟨-, core, retired, -⟩ := d.spareTest_spec k failed
  have hk : 16 * k + slot ∈ clusterCores k := mem_clusterCores.mpr (by omega)
  have hs : (16 * k + slot) % 16 = slot := by omega
  simp only [Dev.unfitCores, List.mem_filter, hk, true_and, Bool.or_eq_true, Dev.slotRetired, retired, Dev.slotOf, core, hs, Dev.SlotUnfit]
  constructor
  · rintro (h | h | ⟨h, h'⟩)
    · exact .inl h
    · exact .inr h
    · exact .inl (by rw [h]; exact h')
  · rintro (h | h)
    · exact .inl h
    · exact .inr (.inl h)

/-- The self-tests of a cluster change nothing of the others. -/
theorem Dev.clusterTests_beside (d : Dev) (k : Nat) (failed : Nat → Bool) : (d.clusterTests k failed).Beside k d := by
  rw [Dev.clusterTests_eq]
  obtain ⟨beside, -⟩ := d.spareTest_spec k failed
  refine (Dev.foldl_slotFails k _ _ (fun c hc => mem_clusterCores.mp (List.mem_filter.mp hc).1) ?_).1.trans beside
  exact ((pairwise_clusterCores k).imp Nat.ne_of_lt).filter _

/-- The self-tests of a cluster, slot by slot. -/
theorem Dev.clusterTests_tested (d : Dev) (k : Nat) (failed : Nat → Bool) : (d.clusterTests k failed).Tested d (failed · = true) k := by
  rw [Dev.clusterTests_eq]
  obtain ⟨-, core, retired, spare⟩ := d.spareTest_spec k failed
  have mem := fun slot h => mem_unfitCores d k slot failed h
  have inCluster : ∀ c ∈ (d.spareTest k failed).unfitCores k failed, c / 16 = k := fun c hc => mem_clusterCores.mp (List.mem_filter.mp hc).1
  have sorted : ((d.spareTest k failed).unfitCores k failed).Pairwise (· < ·) := (pairwise_clusterCores k).filter _
  have slotOf : ∀ c, (d.spareTest k failed).slotOf c = d.slotOf c := fun c => by rw [Dev.slotOf, core]; rfl
  generalize (d.spareTest k failed).unfitCores k failed = l at *
  generalize d.spareTest k failed = e at *
  have nodup : l.Nodup := sorted.imp Nat.ne_of_lt
  obtain ⟨-, retired', core', lost⟩ := Dev.foldl_slotFails k l e inCluster nodup
  refine ⟨fun slot hs => ⟨fun h => ?_, fun h hsp => ?_, fun h hsp => ?_⟩, fun slot hs => ?_⟩
  · rw [core' _ (mt (mem slot hs).mp h), core]
  · -- no core before this one is unfit: it is the first of the list
    obtain ⟨h1, h2, h3⟩ := hsp
    have hmem := (mem slot hs).mpr h
    obtain ⟨a, l, rfl⟩ := List.exists_cons_of_ne_nil (List.ne_nil_of_mem hmem)
    have hak := inCluster a List.mem_cons_self
    have ha : a = 16 * k + slot := by
      rcases List.mem_cons.mp hmem with h | h
      · exact h.symm
      · have hlt := List.rel_of_pairwise_cons sorted h
        have := (mem (a % 16) (by omega)).mp (by rw [show 16 * k + a % 16 = a by omega]; exact List.mem_cons_self)
        exact absurd this (h3 _ (by omega))
    obtain ⟨h4, h5, -⟩ := Dev.foldl_slotFails_spared a l e (fun c hc => (inCluster c (List.mem_cons_of_mem _ hc)).trans hak.symm) nodup
      (by rw [hak]; exact spare.mpr ⟨h1, h2⟩)
    rw [hak] at h4
    rw [← ha, h5, h4, core]
    exact ⟨rfl, by omega⟩
  · have hmem := (mem slot hs).mpr h
    by_cases hsp' : e.rd R.clu_SPARE k = 0xFF
    · -- an earlier core takes the spare
      obtain ⟨h1, h2⟩ := spare.mp hsp'
      obtain ⟨a, l, rfl⟩ := List.exists_cons_of_ne_nil (List.ne_nil_of_mem hmem)
      have hak := inCluster a List.mem_cons_self
      obtain ⟨-, -, h5⟩ := Dev.foldl_slotFails_spared a l e (fun c hc => (inCluster c (List.mem_cons_of_mem _ hc)).trans hak.symm) nodup
        (by rw [hak]; exact hsp')
      rcases List.mem_cons.mp hmem with ha | ha
      · refine absurd ⟨h1, h2, fun j hj hu => ?_⟩ hsp
        rcases List.mem_cons.mp ((mem j (by omega)).mpr hu) with hb | hb
        · omega
        · have := List.rel_of_pairwise_cons sorted hb
          omega
      · rw [h5 _ ha, core]
    · rw [(lost hsp').2 _ hmem, core]
  · rw [retired', retired, or_assoc]
    refine or_congr_right' fun hold => ⟨?_, ?_⟩
    · rintro (⟨rfl, hf⟩ | ⟨c, hc, rfl⟩)
      · exact ⟨hf, .inl rfl⟩
      · have hck := inCluster c hc
        have hcc : 16 * k + c % 16 = c := by omega
        have hu := (mem (c % 16) (by omega)).mp (by rw [hcc]; exact hc)
        rw [slotOf] at *
        unfold Dev.SlotUnfit at hu
        rw [hcc] at hu
        refine ⟨hu.resolve_right hold, ?_⟩
        unfold Dev.slotOf
        split
        · exact .inl rfl
        · rename_i h; rw [hcc]; exact .inr (by simpa using h)
    · rintro ⟨hf, hs16 | hin⟩
      · exact .inl ⟨hs16, by rw [← hs16]; exact hf⟩
      · by_cases hs16 : slot = 16
        · exact .inl ⟨hs16, by rw [← hs16]; exact hf⟩
        · refine .inr ⟨16 * k + slot, (mem slot (by omega)).mpr (.inl ?_), ?_⟩
          · simpa [hin] using hf
          · rw [slotOf, Dev.slotOf, hin]
            simp; omega

/-! ## The self-tests of every cluster -/

/-- Cluster `k`'s cores, retired slots and spare are the same. -/
structure Dev.SameCluster (t d : Dev) (k : Nat) : Prop where
  core : ∀ slot < 16, t.core (16 * k + slot) = d.core (16 * k + slot)
  retired : t.rd R.clu_RETIRED k = d.rd R.clu_RETIRED k
  spare : t.rd R.clu_SPARE k = d.rd R.clu_SPARE k

theorem Dev.Beside.sameCluster {k j : Nat} {t d : Dev} (h : t.Beside k d) (hk : j ≠ k) : t.SameCluster d j where
  core slot hs := h.core _ (by omega)
  retired := h.rd _ _ (by rw [retired_key]; omega)
  spare := h.rd _ _ (by rw [spare_key]; omega)

theorem Dev.SameCluster.trans {k : Nat} {u t d : Dev} (h : u.SameCluster t k) (h' : t.SameCluster d k) : u.SameCluster d k where
  core slot hs := (h.core slot hs).trans (h'.core slot hs)
  retired := h.retired.trans h'.retired
  spare := h.spare.trans h'.spare

theorem Dev.SameCluster.slotUnfit {k j : Nat} {t d : Dev} (h : t.SameCluster d k) (f : Nat → Prop) (hj : j < 16) :
    t.SlotUnfit f k j ↔ d.SlotUnfit f k j := by
  rw [Dev.SlotUnfit, Dev.SlotUnfit, h.core j hj, h.retired]

theorem Dev.SameCluster.spareFor {k slot : Nat} {t d : Dev} (h : t.SameCluster d k) (f : Nat → Prop) (hs : slot < 16) :
    t.SpareFor f k slot ↔ d.SpareFor f k slot := by
  rw [Dev.SpareFor, Dev.SpareFor, h.spare, h.retired]
  refine and_congr_right' (and_congr_right' (forall₂_congr fun j hj => not_congr (h.slotUnfit f (hj.trans hs))))

/-- A test of a cluster counts from a device with the same cluster on. -/
theorem Dev.Tested.from {k : Nat} {t d' d : Dev} {f : Nat → Prop} (h : t.Tested d' f k) (h' : d'.SameCluster d k) : t.Tested d f k where
  core slot hs := by
    have := h.core slot hs
    rwa [h'.slotUnfit f hs, h'.spareFor f hs, h'.core slot hs] at this
  retired slot hs := by
    rw [h.retired slot hs, h'.retired]
    refine or_congr Iff.rfl (and_congr_right' ?_)
    rcases Nat.lt_succ_iff_lt_or_eq.mp hs with hs | rfl
    · rw [h'.core slot hs]
    · simp

theorem Dev.Tested.to {k : Nat} {t' t d : Dev} {f : Nat → Prop} (h : t.Tested d f k) (h' : t'.SameCluster t k) : t'.Tested d f k where
  core slot hs := by
    rw [h'.core slot hs, h'.spare]
    exact h.core slot hs
  retired slot hs := by
    rw [h'.retired]
    exact h.retired slot hs

/-- Tests of several clusters, one after the other. -/
theorem Dev.foldl_clusterTests (failed : Nat → Nat → Bool) (l : List Nat) (hl : l.Nodup) (d : Dev) :
    let t := l.foldl (fun d k => d.clusterTests k (failed k)) d
    t.time = d.time ∧ t.plat = d.plat ∧ t.hearth = d.hearth ∧ (∀ e i, e.key i 0 < 0x3000 * 2 ^ 14 → t.rd e i = d.rd e i) ∧
      (∀ k, k ∉ l → t.SameCluster d k) ∧ ∀ k ∈ l, t.Tested d (failed k · = true) k := by
  induction l generalizing d with
  | nil => exact ⟨rfl, rfl, rfl, fun _ _ _ => rfl, fun _ _ => ⟨fun _ _ => rfl, rfl, rfl⟩, by simp⟩
  | cons a l ih =>
    obtain ⟨ha, hl⟩ := List.nodup_cons.mp hl
    have beside := d.clusterTests_beside a (failed a)
    have tested := d.clusterTests_tested a (failed a)
    obtain ⟨time, plat, hearth, rd, same, mem⟩ := ih hl (d.clusterTests a (failed a))
    refine ⟨time.trans beside.time, plat.trans beside.plat, hearth.trans beside.hearth,
      fun e i h => (rd e i h).trans (beside.rd e i (.inl (h.trans_le (Nat.mul_le_mul_right _ (Nat.le_add_right ..))))),
      fun k hk => ?_, fun k hk => ?_⟩
    · obtain ⟨h1, h2⟩ := not_or.mp (mt List.mem_cons.mpr hk)
      exact (same k h2).trans (beside.sameCluster h1)
    · by_cases hka : k = a
      · subst hka
        exact tested.to (same k ha)
      · exact (mem k ((List.mem_cons.mp hk).resolve_left hka)).from (beside.sameCluster hka)

/-! ## The microcode image (R457) -/

/-- The staged image is accepted. -/
def Dev.UcodeAccepted (d : Dev) : Prop :=
  d.hearth.ucodeStaged ≠ [] ∧ ucodeImageOk d.hearth.ucodeStaged = true ∧ d.rd R.dev_UCODE_RELEASE ≤ ucodeRelease d.hearth.ucodeStaged

theorem Dev.loadMicrocode_spec (d : Dev) :
    (∃ x D, d.loadMicrocode = { d with hearth := x, dict := D }) ∧
    (∀ e i, e.key i 0 ≠ R.dev_UCODE_STAGED.key 0 0 → e.key i 0 ≠ R.dev_UCODE_RELEASE.key 0 0 → d.loadMicrocode.rd e i = d.rd e i) ∧
    d.loadMicrocode.hearth.ucodeStaged = [] ∧
    (d.UcodeAccepted → d.loadMicrocode.hearth.ucodeRunning = d.hearth.ucodeStaged ∧
      d.loadMicrocode.rd R.dev_UCODE_RELEASE = ucodeRelease d.hearth.ucodeStaged) ∧
    (¬ d.UcodeAccepted → d.loadMicrocode.hearth.ucodeRunning = d.hearth.ucodeRunning ∧
      d.loadMicrocode.rd R.dev_UCODE_RELEASE = d.rd R.dev_UCODE_RELEASE) := by
  let d1 := ({ d with hearth := { d.hearth with ucodeStaged := [] } } : Dev).wr R.dev_UCODE_STAGED 0
  let d2 := ({ d1 with hearth := { d1.hearth with ucodeRunning := d.hearth.ucodeStaged } } : Dev).wr R.dev_UCODE_RELEASE
    (ucodeRelease d.hearth.ucodeStaged)
  have e : d.loadMicrocode = if d.hearth.ucodeStaged.isEmpty then d else
    if ucodeImageOk d.hearth.ucodeStaged && decide (d1.rd R.dev_UCODE_RELEASE ≤ ucodeRelease d.hearth.ucodeStaged) then d2 else d1 := rfl
  have rd1 : ∀ e i, e.key i 0 ≠ R.dev_UCODE_STAGED.key 0 0 → d1.rd e i = d.rd e i := fun e i h => Dev.rd_wr_ne _ _ h
  have release : d1.rd R.dev_UCODE_RELEASE = d.rd R.dev_UCODE_RELEASE := rd1 _ _ (by decide)
  rw [release] at e
  by_cases h0 : d.hearth.ucodeStaged = []
  · have e : d.loadMicrocode = d := e.trans (if_pos (by simp [h0]))
    rw [e]
    exact ⟨⟨_, _, rfl⟩, fun _ _ _ _ => rfl, h0, fun h => absurd h0 h.1, fun _ => ⟨rfl, rfl⟩⟩
  · rw [if_neg (by simpa using h0)] at e
    by_cases h : d.UcodeAccepted
    · have e : d.loadMicrocode = d2 := e.trans (if_pos (by simpa using h.2))
      rw [e]
      exact ⟨⟨_, _, rfl⟩, fun e i h1 h2 => (Dev.rd_wr_ne _ _ h2).trans (rd1 e i h1), rfl, fun _ => ⟨rfl, Dev.rd_wr_self ..⟩,
        fun hn => absurd h hn⟩
    · have e : d.loadMicrocode = d1 := e.trans (if_neg fun hc => h ⟨h0, by simpa using hc⟩)
      rw [e]
      exact ⟨⟨_, _, rfl⟩, fun e i h1 _ => rd1 e i h1, rfl, fun hp => absurd hp h, fun _ => ⟨rfl, release⟩⟩

/-- The microcode image is chosen and the slots tested. -/
theorem microcodeLoad_answers (q : List Instr) (d : Dev) (o : OpUcode) (hs : d.thermalStop = false) :
    let failed (k slot : Nat) : Prop := ∃ f ∈ o.failed, f.val = 17 * k + slot
    (d.plat.step ≠ 6 → Answers (.microcodeLoad o) q d d) ∧
    (d.plat.step = 6 → ∃ t, Answers (.microcodeLoad o) q d t ∧ t.Ends d 7 o.t ∧ t.hearth.ucodeStaged = [] ∧
      (d.UcodeAccepted → t.hearth.ucodeRunning = d.hearth.ucodeStaged ∧ t.rd R.dev_UCODE_RELEASE = ucodeRelease d.hearth.ucodeStaged) ∧
      (¬ d.UcodeAccepted → t.hearth.ucodeRunning = d.hearth.ucodeRunning ∧ t.rd R.dev_UCODE_RELEASE = d.rd R.dev_UCODE_RELEASE) ∧
      ∀ k < 16, t.Tested d (failed k) k) := by
  intro failed
  refine ⟨fun h => answers_of_act _ ((exec_microcodeLoad o _).trans rfl) hs (if_pos h), fun h => ?_⟩
  let test (k s : Nat) : Bool := o.failed.any fun f => decide (f.val = 17 * k + s)
  have htest : ∀ k, (test k · = true) = failed k := fun k => funext fun s => by simp [test, failed]
  obtain ⟨⟨x, D, load⟩, rd, staged, accepted, refused⟩ := d.loadMicrocode_spec
  let d1 := d.loadMicrocode.endStep 7 o.t
  have rd1 : ∀ e i, e.key i 0 ≠ R.dev_UCODE_STAGED.key 0 0 → e.key i 0 ≠ R.dev_UCODE_RELEASE.key 0 0 →
      e.key i 0 ≠ R.pow_STARTUP_STEPS.key 0 0 → d1.rd e i = d.rd e i :=
    fun e i h1 h2 h3 => (Dev.rd_endStep_ne _ _ _ h3).trans (rd e i h1 h2)
  have hearth1 : d1.hearth = d.loadMicrocode.hearth := Dev.endStep_hearth ..
  have release1 : d1.rd R.dev_UCODE_RELEASE = d.loadMicrocode.rd R.dev_UCODE_RELEASE := Dev.rd_endStep_ne _ _ _ (by decide)
  have cores1 : d1.cores = d.cores := (Dev.endStep_cores ..).trans (by rw [load])
  have ends1 : d1.Ends d 7 o.t := (Dev.endStep_ends _ (by decide)).from (rd _ _ (by decide) (by decide)) fun _ => by rw [load]; exact ⟨rfl, rfl⟩
  have same1 : ∀ k, d1.SameCluster d k := fun k => by
    have hk : ∀ e : Entry, e.base = 0x3000 → d1.rd e k = d.rd e k := fun e he => by
      have hb := e.base_le_key k 0
      rw [he] at hb
      exact rd1 e k (fun h => absurd (h ▸ hb) (by decide)) (fun h => absurd (h ▸ hb) (by decide)) (fun h => absurd (h ▸ hb) (by decide))
    exact ⟨fun slot _ => by rw [Dev.core, cores1]; rfl, hk _ rfl, hk _ rfl⟩
  obtain ⟨time, plat, hearth, rd2, -, tested⟩ := Dev.foldl_clusterTests test (List.range 16) List.nodup_range d1
  refine ⟨(List.range 16).foldl (fun d k => d.clusterTests k (test k)) d1, ?_, ?_, ?_, fun h => ?_, fun h => ?_, fun k hk => ?_⟩
  · exact answers_of_act _ ((exec_microcodeLoad o _).trans rfl) hs (if_neg (not_not.mpr h))
  · obtain ⟨h1, h2, h3, h4⟩ := ends1
    have steps : ∀ n, Dev.stepEnd ((List.range 16).foldl (fun d k => d.clusterTests k (test k)) d1) n = d1.stepEnd n := fun n => by
      rw [Dev.stepEnd, rd2 _ _ (by decide)]; rfl
    refine ⟨by rw [plat, h1], by rw [steps, h2], fun k a b c => by rw [steps, h3 k a b c], fun hn => ?_⟩
    rw [time, plat]
    exact h4 hn
  · rw [hearth, hearth1]; exact staged
  · rw [hearth, hearth1, rd2 _ _ (by decide), release1]
    exact accepted h
  · rw [hearth, hearth1, rd2 _ _ (by decide), release1]
    exact refused h
  · rw [← htest k]
    exact (tested k (List.mem_range.mpr hk)).from (same1 k)

end Sys2Proof.Machine
end

section
/-! PROOFS. What replay makes of the records of a ring: operations, and the scan itself (R22, R151, R160, R242). -/

namespace Sys2Proof.Machine

/-! ## What replay makes of an operation's record (R22, R242) -/

/-- The OPDN of an operation, whatever it reports. -/
theorem RecBody.isOpdn_iff (ep opnum : Nat) (x : RecBody) :
    x.isOpdn ep opnum = true ↔ ∃ s r t v u f pt c, x = .opdn opnum ep s r t v u f pt c := by
  cases x <;> simp [RecBody.isOpdn, and_comm]

/-- A MARK CONSUMED whose range holds the number. -/
theorem RecBody.consumes_iff (ep opnum : Nat) (x : RecBody) :
    x.consumes ep opnum = true ↔ ∃ f n, x = .markConsumed ep f n ∧ f ≤ opnum ∧ opnum ≤ n := by
  cases x with
  | markConsumed e f l =>
    simp only [RecBody.consumes, Bool.and_eq_true, decide_eq_true_eq, RecBody.markConsumed.injEq]
    exact ⟨fun ⟨⟨he, hf⟩, hl⟩ => ⟨f, l, ⟨he, rfl, rfl⟩, hf, hl⟩,
      fun ⟨_, _, ⟨he, hf, hl⟩, h1, h2⟩ => ⟨⟨he, hf ▸ h1⟩, hl ▸ h2⟩⟩
  | _ => simp [RecBody.consumes]

/-- An operation with no completion recorded is queried. -/
theorem replayedOp_started (d : Dev) (p : Nat) (l later : List RecBody) (opnum ep path : Nat) (auth : Bool) (a b : Nat) :
    ((∃ x ∈ l, ∃ s r t v u f pt c, x = RecBody.opdn opnum ep s r t v u f pt c) →
      d.replayedOp p l (.opst opnum ep path auth a b) later = none) ∧
    (¬ (∃ x ∈ l, ∃ s r t v u f pt c, x = RecBody.opdn opnum ep s r t v u f pt c) → ∃ z,
      d.replayedOp p l (.opst opnum ep path auth a b) later = some z ∧ z.pav = p ∧ z.ep = ep ∧ z.opnum = opnum ∧ z.path = path ∧
      z.st = .querying ∧ z.due = d.time + d.epTimeout ep) := by
  simp only [← RecBody.isOpdn_iff, ← List.any_eq_true]
  exact ⟨fun h => if_pos h, fun h => ⟨_, if_neg h, rfl, rfl, rfl, rfl, rfl, rfl⟩⟩

/-- A completion that was not consumed is to be posted. -/
theorem replayedOp_done (d : Dev) (p : Nat) (l later : List RecBody)
    (opnum ep path status residual done source unitStatus cflags failedCmd : Nat) :
    let y := d.replayedOp p l (.opdn opnum ep status residual done source failedCmd unitStatus path cflags) later
    ((∃ x ∈ later, ∃ f n, x = RecBody.markConsumed ep f n ∧ f ≤ opnum ∧ opnum ≤ n) → y = none) ∧
    (¬ (∃ x ∈ later, ∃ f n, x = RecBody.markConsumed ep f n ∧ f ≤ opnum ∧ opnum ≤ n) → ∃ z, y = some z ∧
      z.pav = p ∧ z.ep = ep ∧
      z.opnum = opnum ∧ z.st = .done ∧ z.status = status ∧ z.residual = residual ∧ z.failedCmd = failedCmd ∧ z.doneAt = done ∧
      z.posted = false) := by
  simp only [← RecBody.consumes_iff, ← List.any_eq_true]
  exact ⟨fun h => if_pos h, fun h => ⟨_, if_neg h, rfl, rfl, rfl, rfl, rfl, rfl, rfl, rfl, rfl⟩⟩

/-! ## One step of the scan of a ring (R151, R160) -/

variable (x : Ring) (free fuel : Nat) {pos type len : Nat}

theorem Ring.scan_no_header (hp : pos + 48 ≤ x.ctl.size) (h1 : x.lostAt pos 16 = false) (h2 : x.header pos = none) :
    x.scan free (fuel + 1) pos = { stop := pos } := by
  simp [Ring.scan, Nat.not_lt.mpr hp, h1, h2]

theorem Ring.scan_no_record (hp : pos + 48 ≤ x.ctl.size) (h1 : x.lostAt pos 16 = false) (h2 : x.header pos = some (type, len))
    (h3 : x.lostAt pos len = false) (h4 : x.recordAt pos type len = none) : x.scan free (fuel + 1) pos = { stop := pos } := by
  simp [Ring.scan, Nat.not_lt.mpr hp, h1, h2, h3, h4]

theorem Ring.scan_record (hp : pos + 48 ≤ x.ctl.size) (h1 : x.lostAt pos 16 = false) (h2 : x.header pos = some (type, len))
    (h3 : x.lostAt pos len = false) {y : Record} (h4 : x.recordAt pos type len = some y) :
    x.scan free (fuel + 1) pos = { x.scan free fuel (pos + len) with recs := y :: (x.scan free fuel (pos + len)).recs } := by
  simp [Ring.scan, Nat.not_lt.mpr hp, h1, h2, h3, h4]

theorem Ring.scan_lost (hp : pos + 48 ≤ x.ctl.size) (h1 : x.lostAt pos 16 = false) (h2 : x.header pos = some (type, len))
    (h3 : x.lostAt pos len = true) :
    x.scan free (fuel + 1) pos =
      { x.scan free fuel (pos + len) with
        recs := ((x.salvage free pos type).map (·.2.2)).toList ++ (x.scan free fuel (pos + len)).recs
        lost := type :: (x.scan free fuel (pos + len)).lost
        again := ((x.salvage free pos type).map fun e => (e.1, e.2.1)).toList ++ (x.scan free fuel (pos + len)).again } := by
  simp [Ring.scan, Nat.not_lt.mpr hp, h1, h2, h3]

theorem Ring.salvage_none (h2 : type ≠ 2) (h3 : type ≠ 3) : x.salvage free pos type = none :=
  if_pos (.inl (by simp [h2, h3]))

/-- An operation whose record a lost line has made invalid counts as started while its key can be read. -/
theorem Ring.salvage_op (h : type = 2 ∨ type = 3) (hk : x.lostAt (pos + 16) 16 = false) :
    ∃ path, x.salvage free pos type = some (fieldLE (x.read pos 64) 24 2, fieldLE (x.read pos 64) 16 8,
      { body := .opst (fieldLE (x.read pos 64) 16 8) (fieldLE (x.read pos 64) 24 2) path false 0 0, complete := true,
        off := x.offAt pos, lap := x.lapAt pos }) :=
  ⟨_, if_neg (by simp [h, hk])⟩

/-- A record of the scan lies at its place, complete, and its bytes are its body's. -/
theorem Ring.recordAt_some {y : Record} (h : x.recordAt pos type len = some y) :
    y.complete = true ∧ y.off = x.offAt pos ∧ y.lap = x.lapAt pos ∧ RecBody.ofBytes type ((x.read pos len).drop 16) = some y.body := by
  simp only [Ring.recordAt] at h
  split at h
  · obtain ⟨b, hb, rfl⟩ := Option.map_eq_some_iff.mp h
    exact ⟨rfl, rfl, rfl, hb⟩
  · exact nomatch h

/-- One step of the scan, by what lies at its place. -/
theorem scan_step (hp : pos + 48 ≤ x.ctl.size) :
    let o := x.scan free (fuel + 1) pos
    let next (n : Nat) : Scan := x.scan free fuel (pos + n)
    (x.lostAt pos 16 = false → x.header pos = none → o.recs = [] ∧ o.lost = [] ∧ o.stop = pos) ∧
    (∀ type len, x.lostAt pos 16 = false → x.header pos = some (type, len) →
      (x.lostAt pos len = false → x.recordAt pos type len = none → o.recs = [] ∧ o.lost = [] ∧ o.stop = pos) ∧
      (∀ y, x.lostAt pos len = false → x.recordAt pos type len = some y → y.complete = true ∧ y.off = x.offAt pos ∧ y.lap = x.lapAt pos ∧
        RecBody.ofBytes type ((x.read pos len).drop 16) = some y.body ∧
        o.recs = y :: (next len).recs ∧ o.lost = (next len).lost ∧ o.stop = (next len).stop) ∧
      (x.lostAt pos len = true → o.lost = type :: (next len).lost ∧ o.stop = (next len).stop ∧
        (type ≠ 2 → type ≠ 3 → o.recs = (next len).recs ∧ o.again = (next len).again) ∧
        (type = 2 ∨ type = 3 → x.lostAt (pos + 16) 16 = false →
          let opnum := fieldLE (x.read pos 64) 16 8
          let ep := fieldLE (x.read pos 64) 24 2
          o.again = (ep, opnum) :: (next len).again ∧
            ∃ y path, o.recs = y :: (next len).recs ∧ y.body = .opst opnum ep path false 0 0 ∧ y.complete = true))) := by
  intro o next
  refine ⟨fun h1 h2 => ?_, fun type len h1 h2 => ⟨fun h3 h4 => ?_, fun y h3 h4 => ?_, fun h3 => ?_⟩⟩
  · have e : o = { stop := pos } := x.scan_no_header free fuel hp h1 h2
    rw [e]; exact ⟨rfl, rfl, rfl⟩
  · have e : o = { stop := pos } := x.scan_no_record free fuel hp h1 h2 h3 h4
    rw [e]; exact ⟨rfl, rfl, rfl⟩
  · have e : o = { next len with recs := y :: (next len).recs } := x.scan_record free fuel hp h1 h2 h3 h4
    obtain ⟨a, b, c, f⟩ := x.recordAt_some h4
    rw [e]; exact ⟨a, b, c, f, rfl, rfl, rfl⟩
  · have e := x.scan_lost free fuel hp h1 h2 h3
    refine ⟨congrArg Scan.lost e, (congrArg Scan.stop e).trans rfl, fun ht2 ht3 => ?_, fun ht hk => ?_⟩
    · rw [x.salvage_none free ht2 ht3] at e
      exact ⟨(congrArg Scan.recs e).trans rfl, (congrArg Scan.again e).trans rfl⟩
    · obtain ⟨path, hy⟩ := x.salvage_op free ht hk
      rw [hy] at e
      exact ⟨congrArg Scan.again e, _, path, congrArg Scan.recs e, rfl, rfl⟩

/-! ## A ring scanned (R151, R160) -/

theorem Dev.rd_recordLost_ne (d : Dev) (r t : Nat) {e : Entry} {i p : Nat} (h : e.key i p ≠ R.hearth_LOST_RECORDS.key 0 0) :
    (d.recordLost r t).rd e i p = d.rd e i p := Dev.rd_bump_ne (e := R.hearth_LOST_RECORDS) _ h

/-- A record lost is counted. -/
theorem Dev.rd_recordLost (d : Dev) (r t : Nat) :
    (d.recordLost r t).rd R.hearth_LOST_RECORDS = min (d.rd R.hearth_LOST_RECORDS + 1) (256 ^ R.hearth_LOST_RECORDS.size - 1) :=
  Dev.rd_bump_self ..

/-- A counter of `e` has been raised by `n`. -/
def Dev.More (t d : Dev) (e : Entry) (n : Nat) : Prop := t.rd e = if n = 0 then d.rd e else min (d.rd e + n) (256 ^ e.size - 1)

/-- Records lost, one after the other. -/
theorem Dev.foldl_recordLost (r : Nat) (l : List Nat) (d : Dev) :
    let t := l.foldl (fun d t => d.recordLost r t) d
    t.hearth = d.hearth ∧ t.mem = d.mem ∧ t.net = d.net ∧ t.cores = d.cores ∧
      t.rd R.hearth_DISCARDED = d.rd R.hearth_DISCARDED ∧ t.More d R.hearth_LOST_RECORDS l.length := by
  induction l generalizing d with
  | nil => exact ⟨rfl, rfl, rfl, rfl, rfl, rfl⟩
  | cons a l ih =>
    obtain ⟨h1, h2, h3, h4, h5, h6⟩ := ih (d.recordLost r a)
    refine ⟨h1, h2, h3, h4, h5.trans (d.rd_recordLost_ne r a (by decide)), ?_⟩
    refine h6.trans ?_
    rw [Dev.rd_recordLost, List.length_cons, if_neg (Nat.succ_ne_zero _)]
    generalize 256 ^ R.hearth_LOST_RECORDS.size - 1 = cap
    split <;> omega

/-- A ring after its scan, with its counts; the other rings stay. -/
theorem scanRing_spec (d : Dev) (r : Nat) :
    let x := d.hring r
    let t := d.scanRing r
    let o := x.scan d.fresh (x.ctl.size / 48 + 1) 0
    (x.ctl.seq = 0 → t = d) ∧
    (x.ctl.seq ≠ 0 → (t.hring r).recs = o.kept ∧ (t.hring r).past = 0 ∧ (t.hring r).waiting = [] ∧ (t.hring r).ctl = x.ctl ∧
      (t.hring r).lines = x.lines ∧ (∀ k, k ≠ r → t.hring k = d.hring k) ∧ t.mem = d.mem ∧ t.net = d.net ∧ t.cores = d.cores ∧
      t.More d R.hearth_LOST_RECORDS o.lost.length ∧ t.More d R.hearth_DISCARDED (x.discards (x.ctl.size / 48 + 1) o.stop)) := by
  intro x t o
  refine ⟨fun h => if_pos h, fun h => ?_⟩
  let n := x.discards (x.ctl.size / 48 + 1) o.stop
  let d1 := ({ d with fresh := d.fresh + x.ctl.size } : Dev).setRing r (x.resume o)
  let d2 := if n = 0 then d1 else d1.bump R.hearth_DISCARDED (n := n)
  have e : t = o.lost.foldl (fun d t => d.recordLost r t) d2 := if_neg h
  have rd1 : ∀ e : Entry, d1.rd e = d.rd e := fun _ => rfl
  have f1 : d1.mem = d.mem ∧ d1.net = d.net ∧ d1.cores = d.cores := ⟨rfl, rfl, rfl⟩
  have f2 : d2.hearth = d1.hearth ∧ d2.mem = d1.mem ∧ d2.net = d1.net ∧ d2.cores = d1.cores ∧
      d2.rd R.hearth_LOST_RECORDS = d1.rd R.hearth_LOST_RECORDS ∧ d2.More d1 R.hearth_DISCARDED n := by
    by_cases hn : n = 0
    · have e2 : d2 = d1 := if_pos hn
      rw [e2]
      exact ⟨rfl, rfl, rfl, rfl, rfl, (if_pos hn).symm⟩
    · have e2 : d2 = d1.bump R.hearth_DISCARDED (n := n) := if_neg hn
      rw [e2]
      exact ⟨rfl, rfl, rfl, rfl, Dev.rd_bump_ne _ (by decide), (Dev.rd_bump_self ..).trans (if_neg hn).symm⟩
  obtain ⟨m1, n1, c1⟩ := f1
  obtain ⟨h2, m2, n2, c2, l2, dis2⟩ := f2
  obtain ⟨h3, m3, n3, c3, dis3, l3⟩ := Dev.foldl_recordLost r o.lost d2
  rw [← e] at h3 m3 n3 c3 dis3 l3
  have ring : ∀ k, t.hring k = if k = r then x.resume o else d.hring k := fun k => by
    rw [Dev.hring, h3, h2]
    exact Dev.hring_setRing ..
  have self := (ring r).trans (if_pos rfl)
  refine ⟨?_, ?_, ?_, ?_, ?_, fun k hk => (ring k).trans (if_neg hk), m3.trans (m2.trans m1),
    n3.trans (n2.trans n1), c3.trans (c2.trans c1), ?_, ?_⟩
  · rw [self]; rfl
  · rw [self]; rfl
  · rw [self]; rfl
  · rw [self]; rfl
  · rw [self]; rfl
  · rw [Dev.More] at l3 ⊢
    rw [l3, l2, rd1]
  · rw [Dev.More] at dis2 ⊢
    rw [dis3, dis2, rd1]

end Sys2Proof.Machine
end

section
/-! PROOFS. The loss of the volatile state: what survives it, records torn, windows settled, and the device after it (R10, R21, R142, R155,
R375, R467). -/

namespace Sys2Proof.Machine

/-! ## What survives a loss of the volatile state (R142, R204) -/

/-- In the pavilion table, the blocks of pavilions that exist survive, and every GENERATION. -/
theorem Dev.survives_pav (d : Dev) {p sub k : Nat} (hk : k / 64 = (0x2000 + p) * 256 + sub) (hp : p < 64) (hs : sub ≤ 0x12) :
    d.survives k = (d.pavExists p || sub == 0x11) := by
  have h1 : k / 64 / 256 = 0x2000 + p := by omega
  have h2 : k / 64 % 256 = sub := by omega
  have h3 : ¬ (0x5000 ≤ 0x2000 + p) := by omega
  have h4 : ∀ n m, 0x2040 ≤ n ∨ n < 0x2000 → ((0x2000 + p == n) && (sub == m)) = false := fun n m hn => by
    rw [beq_false_of_ne (by omega), Bool.false_and]
  have h5 : 0x2000 + p < 0x2040 := by omega
  have h6 : ∀ n m, 0x2040 ≤ n ∨ n < 0x2000 → (((0x2000 + p, sub) : Nat × Nat) == (n, m)) = false := fun n m hn => h4 n m hn
  unfold Dev.survives
  simp only [h1, h2, h3, decide_false, Bool.false_and, Bool.or_false, List.contains, List.elem, h6, Nat.le_add_right, decide_true, h5, hs,
    Bool.true_and, Nat.add_sub_cancel_left, Nat.reduceLeDiff, true_or, or_true, Nat.reduceLT]
  rfl

theorem Dev.survives_block2000 (d : Dev) {p : Nat} (hp : p < 64) {e : Entry} (he : e ∈ R.block2000) (hs : e.sub ≤ 0x12) :
    d.survives (e.key p 0) = (d.pavExists p || e.sub == 0x11) := by
  have hb : ∀ e ∈ R.block2000, e.base = 0x2000 := by decide
  exact d.survives_pav (by rw [Entry.key_div _ _ (by decide), hb e he]) hp hs

/-- LAST_OPNUM of each endpoint survives. -/
theorem Dev.survives_lastOpnum (d : Dev) {n : Nat} (hn : n < 4096) : d.survives (R.ep_LAST_OPNUM.key n 0) = true := by
  have hk : R.ep_LAST_OPNUM.key n 0 / 64 = (0x5000 + n) * 256 + 9 := Entry.key_div _ _ (by decide)
  have h1 : R.ep_LAST_OPNUM.key n 0 / 64 / 256 = 0x5000 + n := by omega
  have h2 : R.ep_LAST_OPNUM.key n 0 / 64 % 256 = 9 := by omega
  have h3 : 0x5000 + n < 0x6000 := by omega
  unfold Dev.survives
  simp [h1, h2, h3]

/-! ## Tables cut down -/

/-- A table cut to some of its keys. -/
theorem Table.get_filter_key {α : Type} (x : α) (t : Table α) (f : Nat → Bool) (k : Nat) :
    Table.get x (t.filter fun e => f e.1) k = if f k then Table.get x t k else x := by
  induction t with
  | nil => simp
  | cons a t ih =>
    by_cases ha : a.1 = k
    · subst ha
      cases hf : f a.1
      · rw [List.filter_cons_of_neg (by simp [hf]), ih, hf]; simp
      · rw [List.filter_cons_of_pos (by simp [hf])]; simp [Table.get]
    · cases hf : f a.1
      · rw [List.filter_cons_of_neg (by simp [hf]), ih]; simp [Table.get, ha]
      · rw [List.filter_cons_of_pos (by simp [hf])]; simp [Table.get, ha, ih]

/-- A table in which each value is replaced and what is then default is left out. -/
theorem Table.get_map_filter {α : Type} [DecidableEq α] (x : α) {t : Table α} (ht : t.Pairwise fun a b => a.1 < b.1) (g : α → α)
    (hg : g x = x) (k : Nat) :
    Table.get x ((t.map fun e => (e.1, g e.2)).filter fun e => decide (e.2 ≠ x)) k = g (Table.get x t k) := by
  induction t with
  | nil => simp [hg]
  | cons a t ih =>
    obtain ⟨hlt, ht⟩ := List.pairwise_cons.mp ht
    have ih := ih ht
    by_cases ha : a.1 = k
    · subst ha
      by_cases h : g a.2 = x
      · -- the pair is left out, and no other has its key
        rw [List.map_cons, List.filter_cons_of_neg (by simp [h]), ih, Table.get_of_not_mem x t _ fun e he => (hlt e he).ne', hg]
        simp [Table.get, h]
      · rw [List.map_cons, List.filter_cons_of_pos (by simp [h])]
        simp [Table.get]
    · have skip : Table.get x (a :: t) k = Table.get x t k := by simp [Table.get, ha]
      rw [skip, ← ih, List.map_cons]
      by_cases h : g a.2 = x
      · rw [List.filter_cons_of_neg (by simp [h])]
      · rw [List.filter_cons_of_pos (by simp [h])]; simp [Table.get, ha]

/-- A table cut to the pairs whose value meets `p`, with one value in place of theirs. -/
theorem Table.get_filter_const {α : Type} (x v : α) {t : Table α} (ht : t.Pairwise fun a b => a.1 < b.1) (p : α → Bool)
    (hp : p x = false) (k : Nat) :
    Table.get x ((t.filter fun e => p e.2).map fun e => (e.1, v)) k = if p (Table.get x t k) then v else x := by
  induction t with
  | nil => simp [hp]
  | cons a t ih =>
    obtain ⟨hlt, ht⟩ := List.pairwise_cons.mp ht
    have ih := ih ht
    by_cases ha : a.1 = k
    · subst ha
      cases h : p a.2
      · rw [List.filter_cons_of_neg (by simp [h]), ih, Table.get_of_not_mem x t _ fun e he => (hlt e he).ne', hp]
        simp [Table.get, h]
      · rw [List.filter_cons_of_pos (by simp [h])]
        simp [Table.get, h]
    · have skip : Table.get x (a :: t) k = Table.get x t k := by simp [Table.get, ha]
      rw [skip, ← ih]
      cases h : p a.2
      · rw [List.filter_cons_of_neg (by simp [h])]
      · rw [List.filter_cons_of_pos (by simp [h])]; simp [Table.get, ha]

/-! ## Incomplete records when the volatile state is lost (R146, R159) -/

/-- One record's lines, any of them, in MRAM. -/
def Dev.tearRecord (r : Nat) (d : Dev) (y : Record) : Dev :=
  { d with fresh := d.fresh + 1 }.setRing r ((d.hring r).putRecord r (d.ringSize r) y (Config.free d.fresh).testBit)

theorem Dev.tearRing_eq (d : Dev) (r : Nat) :
    d.tearRing r = ((d.hring r).recs.filter fun y => !y.complete).foldl (Dev.tearRecord r) d := rfl

theorem Dev.hring_tearRecord (d : Dev) (r k : Nat) (y : Record) : (Dev.tearRecord r d y).hring k =
    if k = r then (d.hring r).putRecord r (d.ringSize r) y (Config.free d.fresh).testBit else d.hring k :=
  Dev.hring_setRing ..

theorem tearRing_ringStep : RingStep Dev.tearRing where
  others d r k hk := foldl_keeps (P := fun t : Dev => t.hring k = d.hring k) (Dev.tearRecord r)
    (fun t y ht => by rw [Dev.hring_tearRecord, if_neg hk, ht]) _ rfl
  ctl d r := foldl_keeps (P := fun t : Dev => (t.hring r).ctl = (d.hring r).ctl) (Dev.tearRecord r)
    (fun t y ht => by rw [Dev.hring_tearRecord, if_pos rfl, Ring.putRecord_ctl, ht]) _ rfl
  dict d r := foldl_keeps (P := fun t : Dev => t.dict = d.dict) (Dev.tearRecord r) (fun _ _ ht => ht) _ rfl
  removing d r := foldl_keeps (P := fun t : Dev => t.removing = d.removing) (Dev.tearRecord r) (fun _ _ ht => ht) _ rfl

/-- The device with the incomplete records of every ring torn. -/
def Dev.torn (d : Dev) : Dev := (devRing :: List.range 64).foldl Dev.tearRing d

/-- From `d` to `t` nothing but the rings has changed, and free values were drawn. -/
def Dev.RingsOnly (d t : Dev) : Prop :=
  ∃ f R, t = d.withRings f R ∧ (Table.Wf ({} : Ring) d.hearth.rings → Table.Wf ({} : Ring) R)

theorem Dev.RingsOnly.tearRecord {d t : Dev} (h : d.RingsOnly t) (r : Nat) (y : Record) : d.RingsOnly (Dev.tearRecord r t y) := by
  obtain ⟨f, R, rfl, hR⟩ := h
  exact ⟨_, _, rfl, fun h => (hR h).set _ _⟩

theorem Dev.torn_ringsOnly (d : Dev) : d.RingsOnly d.torn :=
  foldl_keeps (P := d.RingsOnly) Dev.tearRing (fun _ r h => foldl_keeps (P := d.RingsOnly) (Dev.tearRecord r) (fun _ y h => h.tearRecord r y) _ h)
    _ ⟨d.fresh, d.hearth.rings, rfl, id⟩

/-- A ring whose records are complete is as it was; of one incomplete record any lines are written. -/
theorem Dev.hring_torn (d : Dev) {r : Nat} (hr : r ≤ 64) :
    ((∀ y ∈ (d.hring r).recs, y.complete = true) → d.torn.hring r = d.hring r) ∧
    (∀ y, (d.hring r).recs.filter (fun y => !y.complete) = [y] → ∃ f, d.torn.hring r = (d.hring r).putRecord r (d.ringSize r) y f) := by
  have nodup : (devRing :: List.range 64).Nodup := List.nodup_cons.mpr ⟨by simp [devRing], List.nodup_range⟩
  have mem : r ∈ devRing :: List.range 64 := by
    simp only [List.mem_cons, List.mem_range, devRing]
    omega
  obtain ⟨d', h1, h2, h3⟩ := (tearRing_ringStep.foldl nodup d).2 r mem
  refine ⟨fun h => ?_, fun y h => ⟨(Config.free d'.fresh).testBit, ?_⟩⟩
  · have none : (d'.hring r).recs.filter (fun y => !y.complete) = [] := by
      rw [h1]; exact List.filter_eq_nil_iff.mpr fun y hy => by simp [h y hy]
    rw [Dev.torn, h3, Dev.tearRing_eq, none, List.foldl_nil, h1]
  · rw [Dev.torn, h3, Dev.tearRing_eq, h1, h, List.foldl_cons, List.foldl_nil, Dev.hring_tearRecord, if_pos rfl, h1, h2]

/-! ## The durable windows after a loss of the volatile state (R155) -/

/-- A store writes byte `a`. -/
def WinStore.Hits (s : WinStore) (a : Nat) : Prop := s.unit = a / 16 ∧ s.mask.getLsbD (a % 16) = true

/-- What a store makes of the byte at `a`, if it writes it. -/
def WinStore.byteAt (s : WinStore) (a : Nat) : BitVec 8 := s.data.extractLsb' (8 * (a % 16)) 8

/-- The bytes of a store's unit that `l` names, put in what MRAM holds. -/
theorem WinStore.get_applied (s : WinStore) (l : List Nat) (hl : ∀ i ∈ l, i < 16) (m : List Host.Cell) (a : Nat) :
    ((s.Hits a ∧ a % 16 ∈ l) → Table.get 0 (l.foldl (fun m i =>
      if s.mask.getLsbD i then Table.set 0 m (16 * s.unit + i) (s.data.extractLsb' (8 * i) 8) else m) m) a = s.byteAt a) ∧
    (¬ (s.Hits a ∧ a % 16 ∈ l) → Table.get 0 (l.foldl (fun m i =>
      if s.mask.getLsbD i then Table.set 0 m (16 * s.unit + i) (s.data.extractLsb' (8 * i) 8) else m) m) a = Table.get 0 m a) := by
  induction l using List.reverseRecOn with
  | nil => simp
  | append_singleton l i ih =>
    obtain ⟨ih1, ih2⟩ := ih fun j hj => hl j (List.mem_append_left _ hj)
    have hi : i < 16 := hl i (by simp)
    rw [List.foldl_append, List.foldl_cons, List.foldl_nil]
    by_cases hm : s.mask.getLsbD i = true
    · rw [if_pos hm, Table.get_set]
      by_cases ha : a = 16 * s.unit + i
      · have h1 : a % 16 = i := by omega
        have h2 : s.unit = a / 16 := by omega
        rw [if_pos ha]
        refine ⟨fun _ => by rw [WinStore.byteAt, h1], fun h => absurd ⟨⟨h2, by rw [h1]; exact hm⟩, by simp [h1]⟩ h⟩
      · rw [if_neg ha]
        refine ⟨fun h => ih1 ⟨h.1, ?_⟩, fun h => ih2 fun h' => h ⟨h'.1, List.mem_append_left _ h'.2⟩⟩
        obtain ⟨⟨hu, -⟩, hmem⟩ := h
        rcases List.mem_append.mp hmem with h | h
        · exact h
        · have : a % 16 = i := by simpa using h
          omega
    · rw [if_neg hm]
      refine ⟨fun h => ih1 ⟨h.1, ?_⟩, fun h => ih2 fun h' => h ⟨h'.1, List.mem_append_left _ h'.2⟩⟩
      obtain ⟨⟨-, hbit⟩, hmem⟩ := h
      rcases List.mem_append.mp hmem with h | h
      · exact h
      · have : a % 16 = i := by simpa using h
        exact absurd (this ▸ hbit) hm

/-- A store gives the bytes that it writes and leaves the others. -/
theorem WinStore.get_apply (s : WinStore) (m : List Host.Cell) (a : Nat) :
    (s.Hits a → Table.get 0 (s.apply m) a = s.byteAt a) ∧ (¬ s.Hits a → Table.get 0 (s.apply m) a = Table.get 0 m a) := by
  have mem : a % 16 ∈ List.range 16 := List.mem_range.mpr (by omega)
  obtain ⟨h1, h2⟩ := s.get_applied (List.range 16) (fun _ => List.mem_range.mp) m a
  exact ⟨fun h => h1 ⟨h, mem⟩, fun h => h2 fun h' => h h'.1⟩

/-- What several stores make of MRAM, in their order. -/
def applyAll (l : List WinStore) (m : List Host.Cell) : List Host.Cell := l.foldl (fun m s => s.apply m) m

theorem get_applyAll_of_not_hits {l : List WinStore} {a : Nat} (h : ∀ s ∈ l, ¬ s.Hits a) (m : List Host.Cell) :
    Table.get 0 (applyAll l m) a = Table.get 0 m a := by
  induction l generalizing m with
  | nil => rfl
  | cons s l ih => exact (ih (fun y hy => h y (List.mem_cons_of_mem _ hy)) _).trans ((s.get_apply m a).2 (h s List.mem_cons_self))

/-- The last store that writes a byte gives it. -/
theorem get_applyAll_last {l r : List WinStore} {s : WinStore} {a : Nat} (hs : s.Hits a) (h : ∀ y ∈ r, ¬ y.Hits a) (m : List Host.Cell) :
    Table.get 0 (applyAll (l ++ s :: r) m) a = s.byteAt a := by
  rw [applyAll, List.foldl_append, List.foldl_cons]
  exact (get_applyAll_of_not_hits h _).trans ((s.get_apply _ a).1 hs)

/-- Each byte is as it was, or as a store gave it. -/
theorem get_applyAll (l : List WinStore) (m : List Host.Cell) (a : Nat) :
    Table.get 0 (applyAll l m) a = Table.get 0 m a ∨ ∃ s ∈ l, s.Hits a ∧ Table.get 0 (applyAll l m) a = s.byteAt a := by
  induction l generalizing m with
  | nil => exact .inl rfl
  | cons s l ih =>
    rcases ih (s.apply m) with h | ⟨y, hy, h⟩
    · by_cases hs : s.Hits a
      · exact .inr ⟨s, List.mem_cons_self, hs, h.trans ((s.get_apply m a).1 hs)⟩
      · exact .inl (h.trans ((s.get_apply m a).2 hs))
    · exact .inr ⟨y, List.mem_cons_of_mem _ hy, h⟩

/-- The stores that MRAM holds after a loss of the volatile state: the covered ones, and of the others those that `f` names. -/
def settledStores (f : Nat → Bool) (l : List WinStore) : List WinStore := (l.zipIdx.filter fun e => e.1.covered || f e.2).map (·.1)

theorem mem_settledStores {f : Nat → Bool} {n : Nat} {l : List WinStore} {s : WinStore}
    (h : s ∈ ((l.zipIdx n).filter fun e => e.1.covered || f e.2).map (·.1)) : s ∈ l := by
  obtain ⟨e, he, rfl⟩ := List.mem_map.mp h
  exact List.fst_mem_of_mem_zipIdx (List.mem_filter.mp he).1

/-- A covered store is among them, and after it only stores that came after it. -/
theorem settledStores_covered (f : Nat → Bool) (l m : List WinStore) {s : WinStore} (h : s.covered = true) :
    ∃ l' m', settledStores f (l ++ s :: m) = l' ++ s :: m' ∧ ∀ y ∈ m', y ∈ m := by
  refine ⟨((l.zipIdx 0).filter fun e => e.1.covered || f e.2).map (·.1),
    ((m.zipIdx (0 + l.length + 1)).filter fun e => e.1.covered || f e.2).map (·.1), ?_, fun y hy => mem_settledStores hy⟩
  rw [settledStores, List.zipIdx_append, List.zipIdx_cons, List.filter_append, List.filter_cons_of_pos (by simp [h]), List.map_append,
    List.map_cons]

/-- Stores put in MRAM, each with its line's parity. -/
theorem foldl_winPut (l : List WinStore) (x : Mem) :
    ∃ P, l.foldl (fun (x : Mem) s => x.winPut (s.unit / 4) [s]) x = { x with winDurable := applyAll l x.winDurable, winParity := P } := by
  induction l generalizing x with
  | nil => exact ⟨x.winParity, rfl⟩
  | cons s l ih =>
    obtain ⟨P, hP⟩ := ih (x.winPut (s.unit / 4) [s])
    exact ⟨P, hP⟩

/-- The settled windows, and nothing else of the device. -/
theorem Dev.settleWindow_eq (d : Dev) : ∃ f P, d.settleWindow = { d with
    fresh := d.fresh + 1
    mem := { d.mem with winDurable := applyAll (settledStores f d.mem.winPend) d.mem.winDurable, winParity := P, winPend := [] } } := by
  let f := (Config.free d.fresh).testBit
  obtain ⟨P, hP⟩ := foldl_winPut (settledStores f d.mem.winPend) d.mem
  refine ⟨f, P, ?_⟩
  have e : d.settleWindow = { d with
    fresh := d.fresh + 1
    mem := { (settledStores f d.mem.winPend).foldl (fun (x : Mem) s => x.winPut (s.unit / 4) [s]) d.mem with winPend := [] } } := rfl
  rw [e, hP]

/-! ## The device with its volatile state lost (R10, R21, R375, R467) -/

/-- What is kept under a key tells which slots and spares of a cluster serve. -/
def sparingKey (k : Nat) : Prop := ∃ c < 16, k / 64 = R.clu_SPARE.key c 0 / 64 ∨ k / 64 = R.clu_RETIRED.key c 0 / 64

theorem isSparing_iff (k : Nat) : isSparing k = true ↔ sparingKey k := by
  have h : isSparing k = true ↔ (0x3000 ≤ k / 64 / 256 ∧ k / 64 / 256 < 0x3010) ∧ (k / 64 % 256 = 5 ∨ k / 64 % 256 = 6) := by
    simp [isSparing]
  rw [h, sparingKey]
  constructor
  · rintro ⟨⟨h1, h2⟩, h3⟩
    refine ⟨k / 64 / 256 - 0x3000, by omega, ?_⟩
    rw [spare_key, retired_key]
    omega
  · rintro ⟨c, hc, h⟩
    rw [spare_key, retired_key] at h
    omega

/-- What MRAM and the board hold of `e` when its volatile state is lost. -/
def Dev.coldBase (e : Dev) : Dev :=
  { fresh := e.fresh
    dict := e.dict.filter fun e => isSparing e.1
    cores := (e.cores.filter fun e => e.2.inSpareSlot).map fun e => (e.1, { inSpareSlot := true })
    mem := {
      win := { bytes := e.mem.winDurable, poison := e.mem.win.poison }
      winDurable := e.mem.winDurable
      winParity := e.mem.winParity
      segs := e.mem.segs }
    eng := { keys := e.eng.keys, high := e.eng.high }
    hearth := e.coldHearth
    plat := {
      vin := e.plat.vin, por := e.plat.por, resetLow := e.plat.resetLow
      xtal := e.plat.xtal, refA := e.plat.refA, refB := e.plat.refB } }

/-- The releases of the microcode images that the device keeps. -/
def Dev.coldReleases (n e : Dev) : Dev :=
  let n := if e.hearth.ucodeStaged.isEmpty then n else n.wr R.dev_UCODE_STAGED (ucodeRelease e.hearth.ucodeStaged)
  if e.hearth.ucodeRunning.isEmpty then n else n.wr R.dev_UCODE_RELEASE (ucodeRelease e.hearth.ucodeRunning)

theorem Dev.cold_eq (d : Dev) : d.cold = d.torn.settleWindow.coldBase.coldReleases d.torn.settleWindow := by
  unfold Dev.cold Dev.torn Dev.coldReleases Dev.coldBase
  dsimp only

theorem Dev.coldReleases_frame (n e : Dev) : { n.coldReleases e with dict := n.dict } = n := by
  unfold Dev.coldReleases
  split <;> split <;> rfl

theorem Dev.rd_coldReleases (n e : Dev) {x : Entry} {i p : Nat} (h1 : x.key i p ≠ R.dev_UCODE_STAGED.key 0 0)
    (h2 : x.key i p ≠ R.dev_UCODE_RELEASE.key 0 0) : (n.coldReleases e).rd x i p = n.rd x i p := by
  unfold Dev.coldReleases
  split <;> split
  · rfl
  · exact Dev.rd_wr_ne _ _ h2
  · exact Dev.rd_wr_ne _ _ h1
  · exact (Dev.rd_wr_ne _ _ h2).trans (Dev.rd_wr_ne _ _ h1)

/-- A record's ring as MRAM holds it. -/
theorem Dev.hring_coldBase (e : Dev) (h : Table.Wf ({} : Ring) e.hearth.rings) (r : Nat) : e.coldBase.hring r = (e.hring r).cold :=
  Table.get_map_filter _ h.1 Ring.cold rfl r

theorem Dev.core_coldBase (e : Dev) (h : Table.Wf ({} : Core) e.cores) (c : Nat) :
    e.coldBase.core c = if (e.core c).inSpareSlot then { inSpareSlot := true } else {} :=
  Table.get_filter_const _ _ h.1 Core.inSpareSlot rfl c

theorem Dev.rd_coldBase (e : Dev) (x : Entry) (i p : Nat) :
    e.coldBase.rd x i p = if isSparing (x.key i p) then e.rd x i p else x.default i :=
  Table.get_filter_key _ _ _ _

/-- From `d` to `t` the volatile state is lost. -/
def Dev.Cold (t d : Dev) : Prop :=
  (Table.Wf {} d.cores → ∀ c, t.core c = if (d.core c).inSpareSlot then { inSpareSlot := true } else {}) ∧ t.chan = {} ∧ t.net = {} ∧
  t.pavs = [] ∧ t.staged = [] ∧ t.alerts = [] ∧ t.alertOpen = false ∧
  t.thermalStop = false ∧ t.mem.main = {} ∧ t.mem.spad = {} ∧ t.mem.bits = [] ∧ t.mem.winPend = [] ∧
  t.mem.win.poison = d.mem.win.poison ∧ t.mem.segs = d.mem.segs ∧
  t.eng = { keys := d.eng.keys, high := d.eng.high } ∧ t.plat.step = 0 ∧ t.plat.coast = false ∧ t.plat.therm = false ∧
  (∀ (e : Entry) i p, e.key i p ≠ R.pow_STRAPS.key 0 0 → e.key i p ≠ R.dev_UCODE_STAGED.key 0 0 →
    e.key i p ≠ R.dev_UCODE_RELEASE.key 0 0 → (¬ sparingKey (e.key i p) → t.rd e i p = e.default i) ∧
    (sparingKey (e.key i p) → t.rd e i p = d.rd e i p)) ∧
  (Table.Wf {} d.hearth.rings → ∀ r ≤ 64,
    ((∀ y ∈ (d.hring r).recs, y.complete = true) → t.hring r = (d.hring r).cold) ∧
    (∀ y, (d.hring r).recs.filter (fun y => !y.complete) = [y] → ∃ f, t.hring r = ((d.hring r).putRecord r (d.ringSize r) y f).cold)) ∧
  { t.hearth with rings := d.hearth.rings, saved := d.hearth.saved } = d.hearth ∧
  t.hearth.saved = (if d.plat.step < 9 then d.hearth.saved else d.dict.filter fun e => d.survives e.1) ∧
  (∀ a, Table.get 0 t.mem.win.bytes a = Table.get 0 t.mem.winDurable a) ∧
  (∀ a, Table.get 0 t.mem.winDurable a = Table.get 0 d.mem.winDurable a ∨
    ∃ s ∈ d.mem.winPend, s.Hits a ∧ Table.get 0 t.mem.winDurable a = s.byteAt a) ∧
  (∀ l s m a, d.mem.winPend = l ++ s :: m → s.covered = true → s.Hits a → (∀ y ∈ m, ¬ y.Hits a) →
    Table.get 0 t.mem.winDurable a = s.byteAt a)

/-- The device with its incomplete records torn and its windows settled. -/
def Dev.tornSettled (d : Dev) (f : Nat) (T : Table Ring) (g : Nat → Bool) (P : Table (BitVec 512)) : Dev :=
  { d.withRings f T with
    fresh := f + 1
    mem := { d.mem with winDurable := applyAll (settledStores g d.mem.winPend) d.mem.winDurable, winParity := P, winPend := [] } }

theorem Dev.tornSettled_eq (d : Dev) : ∃ f T g P, d.torn.settleWindow = d.tornSettled f T g P ∧
    (Table.Wf ({} : Ring) d.hearth.rings → Table.Wf ({} : Ring) T) ∧ ∀ r, d.torn.hring r = Table.get {} T r := by
  obtain ⟨f, T, torn, wf⟩ := d.torn_ringsOnly
  obtain ⟨g, P, settled⟩ := d.torn.settleWindow_eq
  rw [torn] at settled
  refine ⟨f, T, g, P, ?_, wf, fun r => by rw [torn]; rfl⟩
  rw [torn, settled]
  rfl

/-- A read of the pavilion table, and so what survives, depends on the values in force. -/
theorem Dev.survives_congr {t d : Dev} (h : t.dict = d.dict) : t.survives = d.survives := by
  have rd : ∀ (e : Entry) i p, t.rd e i p = d.rd e i p := fun e i p => by rw [Dev.rd, h]; rfl
  funext k
  simp only [Dev.survives, Dev.pavExists, Dev.pavState, rd]
  rfl

theorem Dev.coldHearth_tornSettled (d : Dev) (f : Nat) (T : Table Ring) (g : Nat → Bool) (P : Table (BitVec 512)) :
    { (d.tornSettled f T g P).coldHearth with rings := d.hearth.rings, saved := d.hearth.saved } = d.hearth ∧
    (d.tornSettled f T g P).coldHearth.saved = (if d.plat.step < 9 then d.hearth.saved else d.dict.filter fun e => d.survives e.1) := by
  refine ⟨rfl, ?_⟩
  have e : (d.tornSettled f T g P).survives = d.survives := Dev.survives_congr rfl
  rw [← e]
  rfl

/-- The platform when the volatile state is lost: the board's levels. -/
def Plat.board (x : Plat) : Plat :=
  { vin := x.vin, por := x.por, resetLow := x.resetLow, xtal := x.xtal, refA := x.refA, refB := x.refB }

theorem Dev.cold_of_tornSettled (d t : Dev) (f : Nat) (T : Table Ring) (g : Nat → Bool) (P : Table (BitVec 512))
    (frame : { t with dict := (d.tornSettled f T g P).coldBase.dict } = (d.tornSettled f T g P).coldBase)
    (rd : ∀ (x : Entry) i p, x.key i p ≠ R.dev_UCODE_STAGED.key 0 0 → x.key i p ≠ R.dev_UCODE_RELEASE.key 0 0 →
      t.rd x i p = (d.tornSettled f T g P).coldBase.rd x i p)
    (wf : Table.Wf ({} : Ring) d.hearth.rings → Table.Wf ({} : Ring) T) (ring : ∀ r, d.torn.hring r = Table.get {} T r) :
    t.Cold d ∧ t.plat = d.plat.board := by
  have plat : t.plat = d.plat.board := congrArg Dev.plat frame
  have hearth : t.hearth = (d.tornSettled f T g P).coldHearth := congrArg Dev.hearth frame
  have durable : t.mem.winDurable = applyAll (settledStores g d.mem.winPend) d.mem.winDurable := congrArg (·.mem.winDurable) frame
  refine ⟨⟨fun h c => ?_, congrArg Dev.chan frame, congrArg Dev.net frame, congrArg Dev.pavs frame, congrArg Dev.staged frame,
    congrArg Dev.alerts frame, congrArg Dev.alertOpen frame, congrArg Dev.thermalStop frame, congrArg (·.mem.main) frame,
    congrArg (·.mem.spad) frame, congrArg (·.mem.bits) frame, congrArg (·.mem.winPend) frame, congrArg (·.mem.win.poison) frame,
    congrArg (·.mem.segs) frame, congrArg Dev.eng frame, ?_, ?_, ?_, fun e i p _ h2 h3 => ?_, fun h r hr => ?_, ?_, ?_, fun a => ?_,
    fun a => ?_, fun l s m a hl hc hs hm => ?_⟩, plat⟩
  · have cores : t.cores = (d.tornSettled f T g P).coldBase.cores := (congrArg Dev.cores frame :)
    rw [Dev.core, cores]
    exact Dev.core_coldBase (d.tornSettled f T g P) h c
  · rw [plat]; rfl
  · rw [plat]; rfl
  · rw [plat]; rfl
  · rw [rd e i p h2 h3, Dev.rd_coldBase, ← isSparing_iff]
    exact ⟨fun h => if_neg h, fun h => if_pos h⟩
  · have h1 : t.hring r = (Table.get {} T r).cold :=
      (congrArg (fun x : Hearth => Table.get ({} : Ring) x.rings r) hearth).trans (Dev.hring_coldBase (d.tornSettled f T g P) (wf h) r)
    obtain ⟨all, one⟩ := d.hring_torn hr
    rw [ring] at all one
    refine ⟨fun hy => by rw [h1, all hy], fun y hy => ?_⟩
    obtain ⟨f, hf⟩ := one y hy
    exact ⟨f, by rw [h1, hf]⟩
  · rw [hearth]; exact (d.coldHearth_tornSettled f T g P).1
  · rw [hearth]; exact (d.coldHearth_tornSettled f T g P).2
  · have h1 : t.mem.win.bytes = applyAll (settledStores g d.mem.winPend) d.mem.winDurable := congrArg (·.mem.win.bytes) frame
    rw [h1, durable]
  · rw [durable]
    refine (get_applyAll _ d.mem.winDurable a).imp_right ?_
    rintro ⟨s, hs, h⟩
    exact ⟨s, mem_settledStores hs, h⟩
  · obtain ⟨l', m', h1, h2⟩ := settledStores_covered g l m hc
    rw [durable, hl, h1]
    exact get_applyAll_last hs (fun y hy => hm y (h2 y hy)) _

theorem Dev.cold_spec (d : Dev) : d.cold.Cold d ∧ d.cold.plat = d.plat.board := by
  obtain ⟨f, T, g, P, he, wf, ring⟩ := d.tornSettled_eq
  refine d.cold_of_tornSettled d.cold f T g P ?_ (fun x i p h1 h2 => ?_) wf ring
  · rw [d.cold_eq, he]; exact Dev.coldReleases_frame ..
  · rw [d.cold_eq, he]; exact Dev.rd_coldReleases _ _ h1 h2

theorem Dev.Cold.onPlat {t d : Dev} (h : t.Cold d) (f : Plat → Plat) (h1 : ∀ x, (f x).step = x.step)
    (h2 : ∀ x, (f x).coast = x.coast) (h3 : ∀ x, (f x).therm = x.therm) : (t.onPlat f).Cold d := by
  obtain ⟨a1, a2, a3, a4, a5, a6, a7, a8, a9, a10, a11, a12, a13, a14, a15, a16, a17, a18, a⟩ := h
  exact ⟨a1, a2, a3, a4, a5, a6, a7, a8, a9, a10, a11, a12, a13, a14, a15, (h1 _).trans a16, (h2 _).trans a17, (h3 _).trans a18, a⟩

theorem Dev.Cold.wrStraps {t d : Dev} (h : t.Cold d) (v : Nat) : (t.wr R.pow_STRAPS v).Cold d := by
  obtain ⟨a1, a2, a3, a4, a5, a6, a7, a8, a9, a10, a11, a12, a13, a14, a15, a16, a17, a18, a19, a⟩ := h
  refine ⟨a1, a2, a3, a4, a5, a6, a7, a8, a9, a10, a11, a12, a13, a14, a15, a16, a17, a18, fun e i p h1 h2 h3 => ?_, a⟩
  rw [Dev.rd_wr_ne _ _ h1]
  exact a19 e i p h1 h2 h3

/-- VIN falls: the volatile state is lost, and the clock inputs count as absent. -/
theorem porRearm_answers (q : List Instr) (d : Dev) (o : OpT0) :
    ∃ t, Answers (.porRearm o) q d t ∧ t.Cold d ∧ t.plat.vin = false ∧ t.plat.por = false ∧ t.plat.xtal = false ∧ t.plat.refA = false ∧
      t.plat.refB = false ∧ t.plat.resetLow = d.plat.resetLow := by
  obtain ⟨cold, plat⟩ := d.cold_spec
  refine ⟨d.cold.onPlat fun x => { x with vin := false, por := false, xtal := false, refA := false, refB := false }, ?_,
    cold.onPlat _ (fun _ => rfl) (fun _ => rfl) (fun _ => rfl), rfl, rfl, rfl, rfl, rfl, ?_⟩
  · exact answers_of_board _ ((exec_porRearm o _).trans rfl) rfl
  · rw [Dev.onPlat_plat, plat]; rfl

/-- RESET_L goes low on a device that nothing holds: the volatile state is lost, but not the straps. -/
theorem resetLAssert_resets (q : List Instr) (d : Dev) (o : OpT0) (h : ¬ (d.thermalStop = true ∨ d.plat.por = false)) :
    ∃ t, Answers (.resetLAssert o) q d t ∧ t.Cold d ∧ t.plat.resetLow = true ∧ t.plat.vin = d.plat.vin ∧ t.plat.por = true ∧
      t.plat.xtalKept = d.plat.xtal ∧ t.rd R.pow_STRAPS = d.rd R.pow_STRAPS := by
  obtain ⟨cold, plat⟩ := d.cold_spec
  have por : d.plat.por = true := by simpa using (not_or.mp h).2
  refine ⟨(d.cold.wr R.pow_STRAPS (d.rd R.pow_STRAPS)).onPlat fun x => { x with resetLow := true, xtalKept := d.plat.xtal }, ?_,
    (cold.wrStraps _).onPlat _ (fun _ => rfl) (fun _ => rfl) (fun _ => rfl), rfl, ?_, ?_, rfl, ?_⟩
  · exact answers_of_board _ ((exec_resetLAssert o _).trans rfl) (if_neg (by simpa using h))
  · rw [Dev.onPlat_plat, Dev.wr_plat, plat]; rfl
  · rw [Dev.onPlat_plat, Dev.wr_plat, plat]; exact por
  · exact (Dev.rd_onPlat ..).trans (Dev.rd_wr_self ..)

end Sys2Proof.Machine
end

section
/-! PROOFS. A relation of two devices that says what the configuration of step 9 leaves, kept by each function of it (R142). -/

namespace Sys2Proof.Machine

/-! ## What the configuration of step 9 leaves -/

/-- A session restored by replay: suspended, until its peer is back (R85, R93). -/
def Session.Resting (s : Session) : Prop := s.st = .suspended ∧ s.resumed = true

/-- From `d` to `t` the values of the blocks from 0x2000 to `hi` stay, and so do the time, the step of start-up, the presence of a reference clock
and the values to be restored; UDP_PORT stays unstaged, and sessions that rest do so still. -/
structure Dev.Keeps (hi : Nat) (d t : Dev) : Prop where
  bound : hi ≤ 0x7000
  value : ∀ k, 0x2000 * 2 ^ 14 ≤ k → k < hi * 2 ^ 14 → ∀ x, Table.get x t.dict k = Table.get x d.dict k
  time : t.time = d.time
  step : t.plat.step = d.plat.step
  ref : t.refPresent = d.refPresent
  saved : t.hearth.saved = d.hearth.saved
  port : d.hearth.stagedPort = none → t.hearth.stagedPort = none
  rest : (∀ s ∈ d.net.sessions, s.Resting) → ∀ s ∈ t.net.sessions, s.Resting

namespace Dev.Keeps

theorem refl {hi : Nat} (h : hi ≤ 0x7000) (d : Dev) : Dev.Keeps hi d d := ⟨h, fun _ _ _ _ => rfl, rfl, rfl, rfl, rfl, id, id⟩

variable {hi : Nat} {d0 d : Dev}

/-- A change of other parts of the device. -/
theorem of_eq (h : Keeps hi d0 d) {t : Dev} (ht : t.time = d.time) (hd : t.dict = d.dict) (hp : t.plat = d.plat)
    (hh : t.hearth = d.hearth) (hn : t.net = d.net) : Keeps hi d0 t where
  bound := h.bound
  value k a b x := hd ▸ h.value k a b x
  time := ht.trans h.time
  step := hp ▸ h.step
  ref := (by rw [Dev.refPresent, hp]; rfl : t.refPresent = d.refPresent).trans h.ref
  saved := hh ▸ h.saved
  port p := hh ▸ h.port p
  rest r := hn ▸ h.rest r

/-! ### Values written -/

theorem wr (h : Keeps hi d0 d) {e : Entry} {i p : Nat} (hk : e.key i p < 0x2000 * 2 ^ 14 ∨ hi * 2 ^ 14 ≤ e.key i p) (v : Nat) :
    Keeps hi d0 (d.wr e v i p) where
  bound := h.bound
  value k a b x := by
    have hne : k ≠ e.key i p := by omega
    have get : Table.get x (d.wr e v i p).dict k = Table.get x d.dict k := by
      show Table.get x (Table.set _ _ _ _) _ = _
      unfold Table.set
      split
      · exact Table.get_erase_ne x _ hne
      · rw [Table.get_insert_ne x _ v hne, Table.get_erase_ne x _ hne]
    exact get.trans (h.value k a b x)
  time := h.time
  step := h.step
  ref := h.ref
  saved := h.saved
  port := h.port
  rest := h.rest

/-- A value of a block at or above the bound. -/
theorem wrAbove (h : Keeps hi d0 d) {e : Entry} (he : hi ≤ e.base) (v i p : Nat) : Keeps hi d0 (d.wr e v i p) :=
  h.wr (.inr ((Nat.mul_le_mul_right _ he).trans (e.base_le_key i p))) v

theorem bumpAbove (h : Keeps hi d0 d) {e : Entry} (he : hi ≤ e.base) (i p n : Nat) : Keeps hi d0 (d.bump e i p n) := h.wrAbove he _ i p

/-- A value of a block under the pavilion table. -/
theorem wrBelow (h : Keeps hi d0 d) {e : Entry} (he : e.base < 0x2000 ∧ e.sub < 256) (v : Nat) : Keeps hi d0 (d.wr e v) :=
  h.wr (.inl ((e.key_lt 0 he.2 (by decide)).trans_le (Nat.mul_le_mul_right _ he.1))) v

theorem bumpBelow (h : Keeps hi d0 d) {e : Entry} (he : e.base < 0x2000 ∧ e.sub < 256) (n : Nat) : Keeps hi d0 (d.bump e 0 0 n) := h.wrBelow he _

/-! ### Parts of the device -/

theorem ite (c : Prop) [Decidable c] {a b : Dev} (ha : Keeps hi d0 a) (hb : Keeps hi d0 b) : Keeps hi d0 (if c then a else b) := by
  split
  · exact ha
  · exact hb

theorem foldl {β : Type} {f : Dev → β → Dev} (h : Keeps hi d0 d) (hf : ∀ d b, Keeps hi d0 d → Keeps hi d0 (f d b)) (l : List β) :
    Keeps hi d0 (l.foldl f d) := foldl_keeps (P := Keeps hi d0) f hf l h

theorem onMem (h : Keeps hi d0 d) (f : Mem → Mem) : Keeps hi d0 (d.onMem f) := h.of_eq rfl rfl rfl rfl rfl
theorem onChan (h : Keeps hi d0 d) (f : Chan → Chan) : Keeps hi d0 (d.onChan f) := h.of_eq rfl rfl rfl rfl rfl
theorem onCore (h : Keeps hi d0 d) (c : Nat) (f : Core → Core) : Keeps hi d0 (d.onCore c f) := h.of_eq rfl rfl rfl rfl rfl
theorem onPav (h : Keeps hi d0 d) (p : Nat) (f : Pav → Pav) : Keeps hi d0 (d.onPav p f) := h.of_eq rfl rfl rfl rfl rfl
theorem alert (h : Keeps hi d0 d) (x y p n : Nat) : Keeps hi d0 (d.alert x y p n) := h.of_eq rfl rfl rfl rfl rfl
theorem ring (h : Keeps hi d0 d) (p a : Nat) : Keeps hi d0 (d.ring p a) := h.of_eq rfl rfl rfl rfl rfl
theorem setBank (h : Keeps hi d0 d) (b : Nat) (x : BankSt) : Keeps hi d0 (d.setBank b x) := h.of_eq rfl rfl rfl rfl rfl

theorem setRing (h : Keeps hi d0 d) (r : Nat) (x : Ring) : Keeps hi d0 (d.setRing r x) :=
  ⟨h.bound, h.value, h.time, h.step, h.ref, h.saved, h.port, h.rest⟩

theorem onPlat (h : Keeps hi d0 d) {f : Plat → Plat} (hf : ∀ x, (f x).step = x.step ∧ (f x).refA = x.refA ∧ (f x).refB = x.refB) :
    Keeps hi d0 (d.onPlat f) where
  bound := h.bound
  value := h.value
  time := h.time
  step := (hf _).1.trans h.step
  ref := by
    rw [← h.ref]
    simp only [Dev.refPresent, Dev.onPlat_plat, (hf _).2.1, (hf _).2.2]
  saved := h.saved
  port := h.port
  rest := h.rest

theorem onNet (h : Keeps hi d0 d) {f : HostNet → HostNet}
    (hf : (∀ s ∈ d.net.sessions, s.Resting) → ∀ s ∈ (f d.net).sessions, s.Resting) : Keeps hi d0 (d.onNet f) :=
  ⟨h.bound, h.value, h.time, h.step, h.ref, h.saved, h.port, fun r => hf (h.rest r)⟩

end Dev.Keeps

end Sys2Proof.Machine
end

section
/-! PROOFS. What step 9 leaves is kept by the memory system: caches, directories, messages and stores performed. -/

namespace Sys2Proof.Machine

namespace Dev.Keeps

variable {d0 d : Dev}

/-! ### Caches, directories and messages -/

theorem send (h : Keeps 0x3000 d0 d) (m : CohMsg) : Keeps 0x3000 d0 (d.send m) := h.onMem _
theorem putMemLine (h : Keeps 0x3000 d0 d) (a : Nat) (l : Line) : Keeps 0x3000 d0 (d.putMemLine a l) := h.of_eq rfl rfl rfl rfl rfl
theorem setDir (h : Keeps 0x3000 d0 d) (k : Nat) (e : DirEntry) : Keeps 0x3000 d0 (d.setDir k e) := h.onMem _
theorem setL2 (h : Keeps 0x3000 d0 d) (k : Nat) (l : L2Line) : Keeps 0x3000 d0 (d.setL2 k l) := h.onMem _
theorem takeWback (h : Keeps 0x3000 d0 d) (a i : Nat) : Keeps 0x3000 d0 (d.takeWback a i) := h.onMem _
theorem openTxn (h : Keeps 0x3000 d0 d) (m : CohMsg) (w : List Nat) (f : Option Nat) : Keeps 0x3000 d0 (d.openTxn m w f) := h.onMem _
theorem mapOut (h : Keeps 0x3000 d0 d) (a p l : Nat) (f : Outstanding → Outstanding) : Keeps 0x3000 d0 (d.mapOut a p l f) := h.onMem _
theorem forgetPast (h : Keeps 0x3000 d0 d) (p a b : Nat) : Keeps 0x3000 d0 (d.forgetPast p a b) := h.onMem _

theorem note (h : Keeps 0x3000 d0 d) (p l : Nat) (a b : Line) : Keeps 0x3000 d0 (d.note p l a b) := h.ite _ (h.onMem _)

theorem dropL1 (h : Keeps 0x3000 d0 d) (c l : Nat) (s : BitVec 17) (k : Nat) : Keeps 0x3000 d0 (d.dropL1 c l s k) :=
  h.foldl (fun _ _ h => ite _ (h.onCore _ _) h) _

theorem setHeld (h : Keeps 0x3000 d0 d) (a : Nat) (l : L2Line) : Keeps 0x3000 d0 (d.setHeld a l) := by
  refine ite _ ?_ (h.onMem _)
  split
  · exact (ite _ (h.dropL1 _ _ _ _) h).setL2 _ _
  · exact h

theorem l2Victim (n : Nat) (h : Keeps 0x3000 d0 d) (b : Nat) (w : List Nat) : Keeps 0x3000 d0 (l2Victim n d b w).2 := by
  fun_induction Machine.l2Victim n d b w with
  | case1 => exact h
  | case2 => exact h
  | case3 _ _ _ ih => exact ih (h.foldl (fun _ _ h => h.setL2 _ _) _)

theorem homeWb (h : Keeps 0x3000 d0 d) (m : CohMsg) : Keeps 0x3000 d0 (d.homeWb m) := by
  have discard := fun id => ((h.bumpAbove (e := R.coh_CROSSED_WB) (by decide) 0 0 1).onMem fun x =>
    { x with servedWb := x.servedWb.filter (· ≠ id) }).send
      { kind := .wback, agent := m.agent, pav := m.pav, line := m.line, wbId := some id }
  unfold Dev.homeWb
  dsimp only
  split
  · exact discard _
  · split
    · exact discard _
    · exact ite _ (((h.putMemLine _ _).setDir _ _).send _) (discard _)

theorem sendWb (h : Keeps 0x3000 d0 d) (a : Nat) (l : L2Line) : Keeps 0x3000 d0 (d.sendWb a l) :=
  (ite _ ((h.onMem _).bumpAbove (by decide) _ _ _) (h.onMem _)).send _

theorem wbRoom (h : Keeps 0x3000 d0 d) (a : Nat) : Keeps 0x3000 d0 (d.wbRoom a) := by
  refine ite _ h ?_
  split
  · exact h
  · exact (((h.onMem _).homeWb _).onMem _).takeWback _ _

theorem evict (h : Keeps 0x3000 d0 d) (c k : Nat) : Keeps 0x3000 d0 (d.evict c k) :=
  have h := (h.dropL1 c (d.l2At k).line (d.l2At k).slots 0xFFFF).setL2 k {}
  ite _ ((h.wbRoom c).sendWb c _) h

theorem install (h : Keeps 0x3000 d0 d) (a p l : Nat) (st : LState) (x : Line) (s : Bool) : Keeps 0x3000 d0 (d.install a p l st x s) := by
  refine ite _ ?_ (h.setHeld _ _)
  split
  · exact h.setL2 _ _
  · have victim := l2Victim 4 h (l2SetKey a l) (d.l2Ways a p l)
    dsimp only
    split
    · rename_i he
      rw [he] at victim
      exact victim
    · rename_i w d he
      rw [he] at victim
      have evicted := ite ((d.l2At (l2SetKey a l + w)).st = .i) victim (evict victim a (l2SetKey a l + w))
      exact (ite _ (evicted.bumpAbove (by decide) _ _ _) evicted).setL2 _ _

theorem dirWay (h : Keeps 0x3000 d0 d) {p a k : Nat} {t : Dev} (ht : d.dirWay p a = some (k, t)) : Keeps 0x3000 d0 t := by
  unfold Dev.dirWay at ht
  dsimp only at ht
  split at ht
  · cases ht; exact h
  · split at ht
    · cases ht; exact h
    · obtain ⟨k, -, hk⟩ := Option.map_eq_some_iff.mp ht
      cases hk
      exact h.foldl (fun _ _ h => ite _ h (h.setDir _ _)) _

theorem turnAway (h : Keeps 0x3000 d0 d) (m : CohMsg) : Keeps 0x3000 d0 (d.turnAway m) :=
  have h := fun f => (h.bumpAbove (e := R.coh_PIN_WAITS) (by decide) 0 0 1).onMem f
  ite _ (((h _).bumpAbove (by decide) _ _ _).onMem _) (h _)

theorem finishTxn (h : Keeps 0x3000 d0 d) (t : Txn) : Keeps 0x3000 d0 (d.finishTxn t) := by
  unfold Dev.finishTxn
  refine ite _ ?_ (ite _ (h.send _) ?_)
  · have counted := fun f => (h.onMem f).bumpAbove (e := R.coh_DIR_EVICTIONS) (by decide) 0 0 1
    refine onMem ?_ _
    split
    · exact (counted _).setDir _ _
    · exact counted _
  · split
    · exact h.onMem _
    · dsimp only
      split
      · exact h.onMem _
      · have closed := fun f => h.onMem f
        exact ite _ (ite _ (((closed _).setDir _ _).send _) ((closed _).setDir _ _))
          (((((closed _).setDir _ _).note _ _ _ _).putMemLine _ _).send _)

theorem dirEvict (h : Keeps 0x3000 d0 d) (k : Nat) (m : CohMsg) : Keeps 0x3000 d0 (d.dirEvict k m) := by
  unfold Dev.dirEvict
  dsimp only
  split
  · exact ((h.bumpAbove (by decide) _ _ _).setDir _ _).onMem _
  · have opened := fun e f => (h.setDir k e).onMem f
    exact ite _ ((opened _ _).finishTxn _) ((opened _ _).foldl (fun _ _ h => h.send _) _)

end Dev.Keeps

namespace Dev.Keeps

variable {d0 d : Dev}

/-! ### The home, snoops and answers -/

theorem snoops {f : Nat → CohMsg} (h : Keeps 0x3000 d0 d) (l : List Nat) : Keeps 0x3000 d0 (l.foldl (fun d n => d.send (f n)) d) :=
  h.foldl (fun _ _ h => h.send _) l

theorem homeServe (h : Keeps 0x3000 d0 d) (m : CohMsg) : Keeps 0x3000 d0 (d.homeServe m) := by
  unfold Dev.homeServe
  dsimp only
  split
  · exact h
  · refine ite _ (h.homeWb m) (ite _ (h.turnAway m) ?_)
    have opened := h.onMem fun x => { x with bellows := x.bellows.filter fun b => b ≠ (m.agent, m.pav, m.line) }
    split
    · exact opened.turnAway m
    · rename_i k t hslot
      have h : Keeps 0x3000 d0 t := by
        split at hslot
        · cases hslot; exact opened
        · split at hslot
          · exact opened.dirWay hslot
          · cases hslot; exact opened
      have pinned := fun e w f => (h.setDir k e).openTxn m w f
      refine ite _ (h.dirEvict k m) ?_
      split
      case h_1 =>
        split
        · exact ((pinned _ _ _).send _).finishTxn _
        · exact ((pinned _ _ _).send _).finishTxn _
        · exact (pinned _ _ _).send _
        · exact (pinned _ _ _).send _
      case h_2 | h_3 =>
        split
        · exact ((pinned _ _ _).send _).finishTxn _
        · have asked := fun e w f (x : CohMsg) g (l : List Nat) => snoops (f := g) ((pinned e w f).send x) l
          exact ite _ ((asked _ _ _ _ _ _).finishTxn _) (asked _ _ _ _ _ _)
        · have asked := fun e w f c [Decidable c] (x : CohMsg) g (l : List Nat) => snoops (f := g) (ite c ((pinned e w f).send x) (pinned e w f)) l
          exact ite _ ((asked _ _ _ _ _ _ _).finishTxn _) (asked _ _ _ _ _ _ _)
        · exact (pinned _ _ _).send _
      case h_4 =>
        split
        · exact (pinned _ _ _).send _
        · exact h.send _
      case h_5 | h_6 =>
        exact ite _ ((((ite _ h (h.setDir _ _)).note _ _ _ _).putMemLine _ _).send _) (snoops (pinned _ _ _) _)
      case h_7 => exact h.homeWb m
      case h_8 => exact h

theorem answerSnoop (h : Keeps 0x3000 d0 d) (m : CohMsg) : Keeps 0x3000 d0 (d.answerSnoop m) := by
  unfold Dev.answerSnoop
  dsimp only
  split
  · split
    · exact ((h.setHeld _ _).send _).send _
    · exact ((h.setHeld _ _).send _).send _
    · exact h.send _
  · split
    · exact (h.send _).send _
    · exact h.send _
  · split
    · exact ite _ (((h.setHeld _ _).send _).send _) ((h.setHeld _ _).send _)
    · exact ite _ (((h.setHeld _ _).send _).send _) ((h.setHeld _ _).send _)
    · exact ite _ (((h.setHeld _ _).send _).send _) ((h.setHeld _ _).send _)
    · exact (h.setHeld _ _).send _
  · exact h.setHeld _ _
  · exact h
  · split
    · exact ite _ (h.send _) ((h.send _).send _)
    · exact h.send _
  · exact h

theorem closed {c : Prop} [Decidable c] (h : Keeps 0x3000 d0 d) (f : Mem → Mem) (t : Txn) :
    Keeps 0x3000 d0 (if c then (d.onMem f).finishTxn t else d.onMem f) := ite c ((h.onMem f).finishTxn t) (h.onMem f)

theorem answerTxn (h : Keeps 0x3000 d0 d) (m : CohMsg) (t : Txn) : Keeps 0x3000 d0 (d.answerTxn m t) := by
  unfold Dev.answerTxn
  split
  · exact h
  · dsimp only
    generalize m.payload = p
    generalize m.wbId = w
    rcases p with _ | l <;> rcases w with _ | i
    all_goals
      refine closed (ite _ ?_ ?_) _ _
      · split
        · refine ite _ (setDir ?_ _ _) ?_
          all_goals apply_rules [onMem, putMemLine]
        · apply_rules [onMem, putMemLine]
      · split
        · apply_rules [onMem, putMemLine]
        · refine ite _ (ite _ (send (setDir ?_ _ _) _) (ite _ (send (setDir ?_ _ _) _) (send (setDir ?_ _ _) _))) (send ?_ _)
          all_goals apply_rules [onMem, putMemLine]

theorem takeAnswer (h : Keeps 0x3000 d0 d) (m : CohMsg) : Keeps 0x3000 d0 (d.takeAnswer m) := by
  have counted := ite (m.kind = .np) (h.bumpAbove (e := R.coh_STALE_SNOOPS) (by decide) 0 0 1) h
  refine ite _ ((h.bumpAbove (by decide) _ _ _).onMem _) ?_
  dsimp only
  split
  · exact counted
  · exact counted.answerTxn _ _

theorem tryDone (h : Keeps 0x3000 d0 d) (a p l : Nat) : Keeps 0x3000 d0 (d.tryDone a p l) := by
  unfold Dev.tryDone
  split
  · exact ite _ ((h.onMem _).send _) h
  · exact h

theorem takeData (h : Keeps 0x3000 d0 d) (m : CohMsg) : Keeps 0x3000 d0 (d.takeData m) := by
  refine ite _ (h.onMem _) (tryDone (mapOut ?_ _ _ _ _) _ _ _)
  split
  · exact h.install _ _ _ _ _ _
  · split
    · exact h.setHeld _ _
    · exact h

theorem deliver (h : Keeps 0x3000 d0 d) (m : CohMsg) : Keeps 0x3000 d0 (d.deliver m) := by
  unfold Dev.deliver
  split
  case h_17 =>
    split
    · exact h
    · dsimp only
      split
      · exact (h.onMem _).setDir _ _
      · exact h.onMem _
  all_goals apply_rules [homeServe, answerSnoop, takeData, takeAnswer, mapOut, tryDone, takeWback]

theorem take (h : Keeps 0x3000 d0 d) (m : CohMsg) : Keeps 0x3000 d0 (d.take m) := (h.onMem _).deliver m

/-! ### A line settled -/

theorem settleLine (n : Nat) (h : Keeps 0x3000 d0 d) (p l : Nat) : Keeps 0x3000 d0 (settleLine n d p l) := by
  induction n generalizing d with
  | zero => exact h
  | succ n ih =>
    unfold Machine.settleLine
    split
    · exact ih (h.take _)
    · split
      · exact h
      · split
        · exact ih (h.take _)
        · exact ih ((h.onMem _).deliver _)

theorem settle (h : Keeps 0x3000 d0 d) (p l : Nat) : Keeps 0x3000 d0 (d.settle p l) := settleLine _ h p l

theorem settleData (n : Nat) (h : Keeps 0x3000 d0 d) (a p l : Nat) : Keeps 0x3000 d0 (settleData n d a p l) := by
  induction n generalizing d with
  | zero => exact h
  | succ n ih =>
    unfold Machine.settleData
    refine ite _ h ?_
    split
    · exact ih (h.take _)
    · exact h.settle p l

theorem requestOwned (h : Keeps 0x3000 d0 d) (m : CohMsg) : Keeps 0x3000 d0 (d.requestOwned m) :=
  have h := fun f => settleData settleFuel (((h.settle m.pav m.line).onMem f).send m) m.agent m.pav m.line
  ite _ (h _) ((h _).settle _ _)

theorem request (h : Keeps 0x3000 d0 d) (m : CohMsg) : Keeps 0x3000 d0 (d.request m) :=
  have h := h.settle m.pav m.line
  ((ite _ (h.onMem _) h).send m).settle _ _

theorem obtainOwned (h : Keeps 0x3000 d0 d) (a p l : Nat) (s : Bool) : Keeps 0x3000 d0 (d.obtainOwned a p l s) := by
  have h := h.settle p l
  unfold Dev.obtainOwned
  dsimp only
  split
  · exact h
  · exact h
  · exact h.requestOwned _
  · exact h.requestOwned _

theorem flushLine (h : Keeps 0x3000 d0 d) (p l : Nat) (x : Bool) : Keeps 0x3000 d0 (d.flushLine p l x) := by
  have h := h.settle p l
  unfold Dev.flushLine
  dsimp only
  split
  · exact h
  · have flushed : ∀ a, Keeps 0x3000 d0 _ := fun a => h.foldl (f := fun d n => match d.held n p l with
      | some l => Dev.setHeld (if decide (l.st = .d) && !x then d.putMemLine a l.data else d) n { l with st := .i }
      | none => d) (fun d n h => by
        split
        · exact (ite _ (h.putMemLine _ _) h).setHeld _ _
        · exact h) (List.range 18)
    split
    · exact (flushed _).setDir _ _
    · exact flushed _

theorem flushDirWay (h : Keeps 0x3000 d0 d) (w : Nat) : Keeps 0x3000 d0 (d.flushDirWay w) :=
  h.foldl (fun d k h => by
    refine ite _ h ?_
    split
    · exact h.flushLine _ _ _
    · exact h.setDir _ _) _

theorem reserveDirWays (h : Keeps 0x3000 d0 d) (p n : Nat) : Keeps 0x3000 d0 (d.reserveDirWays p n) :=
  (h.onMem _).foldl (fun _ w h => h.flushDirWay w) _

theorem fitDirWays (h : Keeps 0x3000 d0 d) : Keeps 0x3000 d0 d.fitDirWays :=
  (h.foldl (fun _ _ h => ite _ (h.reserveDirWays _ _) h) _).foldl (fun _ _ h => ite _ (h.reserveDirWays _ _) h) _

/-! ### Stores performed -/

theorem bankCleared (h : Keeps 0x3000 d0 d) (b : Nat) : Keeps 0x3000 d0 (d.bankCleared b) := by
  unfold Dev.bankCleared
  split
  · exact ((h.onMem _).setBank _ _).bumpAbove (by decide) _ _ _
  · exact h

theorem awaitBanks (h : Keeps 0x3000 d0 d) (l : Nat) : Keeps 0x3000 d0 (d.awaitBanks l) :=
  h.foldl (fun d i h => by
    split
    · exact h.bankCleared _
    · exact h) _

theorem spadWrite (h : Keeps 0x3000 d0 d) (p l : Nat) (m : BitVec 64) (x : BitVec 512) (t : BitVec 4) :
    Keeps 0x3000 d0 (d.spadWrite p l m x t) := by
  unfold Dev.spadWrite
  exact ((h.awaitBanks l).note _ _ _ _).onMem _

theorem winWrite (h : Keeps 0x3000 d0 d) (w p l : Nat) (m : BitVec 64) (x : BitVec 512) : Keeps 0x3000 d0 (d.winWrite w p l m x) := by
  unfold Dev.winWrite
  exact (h.note _ _ _ _).onMem _

theorem observe (h : Keeps 0x3000 d0 d) (c p l : Nat) : Keeps 0x3000 d0 (d.observe c p l) := ite _ (h.onCore _ _) h

theorem writeL2 (h : Keeps 0x3000 d0 d) (c k : Nat) (x : Bool) (f : Line → Line) : Keeps 0x3000 d0 (d.writeL2 c k x f) :=
  ((h.dropL1 _ _ _ _).note _ _ _ _).setL2 _ _

theorem l2Own (h : Keeps 0x3000 d0 d) (c p l : Nat) (x : Bool) : Keeps 0x3000 d0 (d.l2Own c p l x).2.2 := by
  unfold Dev.l2Own
  dsimp only
  split
  · exact h
  · exact ((ite _ (h.bumpAbove (by decide) _ _ _) (h.bumpAbove (by decide) _ _ _)).obtainOwned _ _ _ _).observe _ _ _

theorem perform (h : Keeps 0x3000 d0 d) (c p : Nat) (e : MergeEntry) : Keeps 0x3000 d0 (d.perform c p e) := by
  unfold Dev.perform
  split
  · have own := h.l2Own c p e.line e.hint
    split
    · rename_i k x d he
      rw [he] at own
      exact own.writeL2 _ _ _ _
    · rename_i x d he
      rw [he] at own
      exact own.request _
  · exact h.spadWrite _ _ _ _ _
  · exact h.winWrite _ _ _ _ _

theorem drainAt (h : Keeps 0x3000 d0 d) (c p i : Nat) : Keeps 0x3000 d0 (d.drainAt c p i) := by
  unfold Dev.drainAt
  split
  · exact h
  · exact ((h.onCore _ _).perform _ _ _).onCore _ _

theorem drainLine (h : Keeps 0x3000 d0 d) (c p l : Nat) : Keeps 0x3000 d0 (d.drainLine c p l) := by
  unfold Dev.drainLine
  split
  · exact h.drainAt _ _ _
  · exact h

theorem drainTo (h : Keeps 0x3000 d0 d) (p : Nat) (x : Res) : Keeps 0x3000 d0 (d.drainTo p x) :=
  h.foldl (fun _ c h => h.foldl (fun _ l h => h.drainLine c p l) _) _

theorem cutWindow (h : Keeps 0x3000 d0 d) (p n : Nat) : Keeps 0x3000 d0 (d.cutWindow p n) :=
  (((h.drainTo p _).forgetPast _ _ _).onMem _).foldl (fun _ c h => h.onCore c _) _

theorem assignCore (h : Keeps 0x3000 d0 d) (c : Nat) : Keeps 0x3000 d0 (d.assignCore c) := h.onCore c _

end Dev.Keeps

end Sys2Proof.Machine
end

section
/-! PROOFS. What step 9 leaves is kept by the rings of the hearth and by the sessions. -/

namespace Sys2Proof.Machine

namespace Dev.Keeps

variable {hi : Nat} {d0 d : Dev}

/-! ### Rings of the hearth -/

/-- A count of the hearth's block. -/
theorem bumpHearth (h : Keeps hi d0 d) {e : Entry} (he : 0x7000 ≤ e.base) (n : Nat) : Keeps hi d0 (d.bump e 0 0 n) :=
  h.bumpAbove (h.bound.trans he) 0 0 n

theorem append (h : Keeps hi d0 d) (r : Nat) (b : RecBody) (x y : Bool) : Keeps hi d0 (d.append r b x y) := by
  unfold Dev.append
  exact (h.setRing _ _).bumpHearth (by decide) _

theorem syncRing (h : Keeps hi d0 d) (r : Nat) : Keeps hi d0 (d.syncRing r) := h.setRing _ _

theorem placeWaiting (r : Nat) (l : List RecBody) (h : Keeps hi d0 d) : Keeps hi d0 (placeWaiting r l d) := by
  induction l generalizing d with
  | nil => exact h.setRing _ _
  | cons b l ih => exact ite _ (ih (h.append _ _ _ _)) (h.setRing _ _)

theorem advanceTail (h : Keeps hi d0 d) (r : Nat) : Keeps hi d0 (d.advanceTail r) := placeWaiting _ _ (h.setRing _ _)

theorem appendMark (h : Keeps hi d0 d) (r : Nat) (b : RecBody) : Keeps hi d0 (d.appendMark r b) :=
  have h := h.advanceTail r
  ite _ ((h.append _ _ _ _).advanceTail _) ((h.setRing _ _).bumpHearth (by decide) _)

theorem fitRing (h : Keeps hi d0 d) (r : Nat) : Keeps hi d0 (d.fitRing r) := ite _ h ((h.setRing _ _).advanceTail _)

theorem recordDict (h : Keeps hi d0 d) {e : Entry} {i p v : Nat} {t : Dev} (ht : d.recordDict e i p v = some t) : Keeps hi d0 t := by
  unfold Dev.recordDict at ht
  dsimp only at ht
  split at ht
  · cases ht
    exact ((h.advanceTail _).append _ _ _ _).syncRing _
  · exact nomatch ht

theorem recordLost (h : Keeps hi d0 d) (r t : Nat) : Keeps hi d0 (d.recordLost r t) := (h.bumpHearth (by decide) _).alert _ _ _ _

theorem scanRing (h : Keeps hi d0 d) (r : Nat) : Keeps hi d0 (d.scanRing r) := by
  have resumed := fun n x => setRing (d := { d with fresh := n }) (h.of_eq rfl rfl rfl rfl rfl) r x
  unfold Dev.scanRing
  exact ite _ h ((ite _ (resumed _ _) ((resumed _ _).bumpHearth (by decide) _)).foldl (fun _ t h => h.recordLost r t) _)

theorem scrubFinding (h : Keeps 0x3000 d0 d) (e : HearthPlace × HearthFinding) : Keeps 0x3000 d0 (d.scrubFinding e) := by
  unfold Dev.scrubFinding
  split
  · exact h.bumpHearth (by decide) _
  · refine bumpHearth ?_ (by decide) _
    split
    · exact h.setRing _ _
    · exact h.onMem _
    · exact h
  · have h := h.bumpHearth (e := R.hearth_UNCORRECTABLE) (by decide) 1
    dsimp only
    split
    · exact h.setRing _ _
    · exact ((h.onMem _).wrAbove (by decide) _ _ _).alert _ _ _ _
    · exact h.wrBelow (by decide) _

/-! ### Sessions and what they send -/

theorem onSess (h : Keeps hi d0 d) (id : Nat) {f : Session → Session} (hf : ∀ s, s.Resting → (f s).Resting) : Keeps hi d0 (d.onSess id f) := by
  refine h.onNet fun r s hs => ?_
  obtain ⟨s', hs', rfl⟩ := List.mem_map.mp hs
  split
  · exact hf s' (r s' hs')
  · exact r s' hs'

theorem withSess (h : Keeps hi d0 d) (id : Nat) {f : Session → Dev} (hf : ∀ s, Keeps hi d0 (f s)) : Keeps hi d0 (d.withSess id f) := by
  unfold Dev.withSess
  split
  · exact hf _
  · exact h

theorem markOpen (h : Keeps hi d0 d) (f : HostReq → HostReq) : Keeps hi d0 (d.markOpen f) := by
  refine h.onNet (f := fun n => { n with sessions := n.sessions.map fun s => { s with reqs := s.reqs.map f } }) fun r s hs => ?_
  obtain ⟨s', hs', rfl⟩ := List.mem_map.mp hs
  exact r s' hs'

theorem ringPace (h : Keeps hi d0 d) (f : Nat → Bool) : Keeps hi d0 (d.ringPace f) := h.foldl (fun _ _ h => ite _ (h.ring _ _) h) _

theorem raiseDeficit (h : Keeps hi d0 d) : Keeps hi d0 d.raiseDeficit :=
  (((h.onPlat (by exact fun _ => ⟨rfl, rfl, rfl⟩)).bumpBelow (by decide) _).markOpen _).alert _ _ _ _

theorem deficitRules (h : Keeps hi d0 d) : Keeps hi d0 d.deficitRules := by
  have ruled := fun c c' c'' [Decidable c] [Decidable c'] [Decidable c''] => ite c (ite c' h h.raiseDeficit)
    (ite c'' (h.onPlat (f := fun x => { x with deficit := false }) (by exact fun _ => ⟨rfl, rfl, rfl⟩)) h)
  unfold Dev.deficitRules
  exact ((ruled _ _ _).ringPace _).onPlat (by exact fun _ => ⟨rfl, rfl, rfl⟩)

theorem emit (h : Keeps hi d0 d) (x : Out) : Keeps hi d0 (d.emit x) := ite _ (h.onNet id) h

theorem launchAt (h : Keeps hi d0 d) (s : Session) (x : HeldTx) (iv : Nat) : Keeps hi d0 (d.launchAt s x iv) := by
  unfold Dev.launchAt
  split
  · exact h
  · exact ite _ ((h.emit _).onSess _ (by exact fun _ hs => hs)) (h.emit _)

theorem endSession (h : Keeps hi d0 d) (s : Session) : Keeps hi d0 (d.endSession s) := by
  have marked := ite (s.recorded = true) (h.appendMark s.pav (.markClosed s.id)) h
  unfold Dev.endSession
  refine deficitRules (onNet (ite _ marked ?_) fun r s hs => r s (List.mem_filter.mp hs).1)
  exact ⟨marked.bound, marked.value, marked.time, marked.step, marked.ref, marked.saved, marked.port, marked.rest⟩

theorem suspend (h : Keeps hi d0 d) (id : Nat) : Keeps hi d0 (d.suspend id) :=
  (h.onSess id (by exact fun _ hs => ⟨rfl, hs.2⟩)).onNet (by exact fun r => r)

theorem endOrSuspend (h : Keeps hi d0 d) (id : Nat) : Keeps hi d0 (d.endOrSuspend id) :=
  h.withSess id fun s => ite _ (h.endSession s) (h.suspend id)

theorem spend (h : Keeps hi d0 d) (id : Nat) : Keeps hi d0 (d.spend id) :=
  h.withSess id fun s => ite _ h (((h.onSess id (by exact fun _ hs => hs)).foldl (fun _ e h => h.launchAt s _ _) _).endOrSuspend id)

theorem countLate (h : Keeps hi d0 d) (p : Nat) (r : HostReq) : Keeps hi d0 (d.countLate p r) :=
  have h := fun v => (h.bumpBelow (e := R.pow_LATE_COUNT) (by decide) 1).wrBelow (e := R.pow_LATE_BY_PAVILION) (by decide) v
  ite _ ((h _).bumpBelow (by decide) _) (h _)

theorem firstDeliver (h : Keeps hi d0 d) (s : Session) (r : HostReq) : Keeps hi d0 (d.firstDeliver s r) :=
  (ite _ (h.countLate _ _) h).onSess _ (by exact fun _ hs => hs)

theorem launch (h : Keeps hi d0 d) (x : HeldTx) : Keeps hi d0 (d.launch x) := by
  refine h.withSess _ fun s => ite _ h (ite _ (h.spend _) ?_)
  have first : ∀ r : Option HostReq, Keeps hi d0 (match r with
      | some r => if r.sent.isNone then d.firstDeliver s r else d
      | none => d) := fun r => by
    split
    · exact ite _ (h.firstDeliver _ _) h
    · exact h
  exact (first _).withSess _ fun s => ite _ (first _) (((first _).onSess _ (by exact fun _ hs => hs)).launchAt _ _ _)

theorem sendMsg (h : Keeps hi d0 d) (id type seq flags : Nat) (b : Bytes) : Keeps hi d0 (d.sendMsg id type seq flags b) :=
  h.withSess id fun _ => ite _ h (ite _ (h.spend _) (h.foldl (fun _ _ h => ite _ (h.onNet (by exact fun r => r)) (h.launch _)) _))

theorem sendDeliver (h : Keeps hi d0 d) (id seq : Nat) : Keeps hi d0 (d.sendDeliver id seq) := by
  refine h.withSess id fun s => ite _ h ?_
  split
  · exact h
  · split
    · exact h
    · exact ite _ (h.sendMsg _ _ _ _ _) h

theorem sendHeld (h : Keeps hi d0 d) (id : Nat) : Keeps hi d0 (d.sendHeld id) :=
  h.withSess id fun _ => h.foldl (fun _ _ h => h.sendDeliver _ _) _

end Dev.Keeps

end Sys2Proof.Machine
end

section
/-! PROOFS. What step 9 leaves is kept by links and operations, and by the blocks that are enabled; the ports without a reference clock
(R540, R564). -/

namespace Sys2Proof.Machine

namespace Dev.Keeps

variable {d0 d : Dev}

/-! ### Links and operations -/

theorem onLink (h : Keeps 0x3000 d0 d) (n : Nat) (f : Link → Link) : Keeps 0x3000 d0 (d.onLink n f) := h.of_eq rfl rfl rfl rfl rfl
theorem setOp (h : Keeps 0x3000 d0 d) (o : ChanOp) : Keeps 0x3000 d0 (d.setOp o) := h.onChan _

theorem queueData (h : Keeps 0x3000 d0 d) (o : ChanOp) (l : List OpMsg) : Keeps 0x3000 d0 (d.queueData o l) :=
  h.foldl (fun _ _ h => h.onLink _ _) _

theorem unqueue (h : Keeps 0x3000 d0 d) (o : ChanOp) (f : OpMsg → Bool) : Keeps 0x3000 d0 (d.unqueue o f) :=
  h.foldl (fun _ _ h => h.onLink _ _) _

theorem sendFirst (h : Keeps 0x3000 d0 d) (o : ChanOp) (i : Nat) (m : OpMsg) : Keeps 0x3000 d0 (d.sendFirst o i m) :=
  ((h.onChan _).setOp _).queueData _ _

theorem tryResume (h : Keeps 0x3000 d0 d) (o : ChanOp) : Keeps 0x3000 d0 (d.tryResume o) := by
  unfold Dev.tryResume
  split
  · exact h.sendFirst _ _ _
  · exact h.setOp _

theorem tryQuery (h : Keeps 0x3000 d0 d) (o : ChanOp) : Keeps 0x3000 d0 (d.tryQuery o) := by
  unfold Dev.tryQuery
  split
  · exact (h.bumpAbove (by decide) _ _ _).sendFirst _ _ _
  · exact h.setOp _

theorem sendCtl (h : Keeps 0x3000 d0 d) (o : ChanOp) : Keeps 0x3000 d0 (d.sendCtl o) := by
  unfold Dev.sendCtl
  refine setOp ?_ _
  exact foldl_keeps (P := fun acc : Dev × List OpCtl => Keeps 0x3000 d0 acc.1) _
    (fun acc x h => h.foldl (fun _ _ h => h.onLink _ _) _) o.ctl h

theorem startHalting (h : Keeps 0x3000 d0 d) (o : ChanOp) : Keeps 0x3000 d0 (d.startHalting o) :=
  have h := fun o' => (h.unqueue o OpMsg.sequenced).setOp o'
  ite _ ((h _).sendCtl _) ((h _).tryQuery _)

theorem enterHalting (h : Keeps 0x3000 d0 d) (o : ChanOp) (s : Nat) (x : Bool) : Keeps 0x3000 d0 (d.enterHalting o s x) := h.startHalting _

theorem protocolError (h : Keeps 0x3000 d0 d) (o : ChanOp) : Keeps 0x3000 d0 (d.protocolError o) := by
  have h := h.bumpAbove (e := R.ep_PROTOCOL_ERRORS) (by decide) o.ep 0 1
  have halted := fun o' => (h.bumpAbove (e := R.ep_HALTS) (by decide) o.ep 0 1).enterHalting o' 0 true
  unfold Dev.protocolError
  dsimp only
  split
  · exact halted _
  · exact halted _
  · exact halted _
  · exact h.setOp _

theorem enterMoving (h : Keeps 0x3000 d0 d) (o : ChanOp) : Keeps 0x3000 d0 (d.enterMoving o) :=
  ((h.unqueue _ _).bumpAbove (by decide) _ _ _).tryResume _

theorem recheckOp (h : Keeps 0x3000 d0 d) (o : ChanOp) : Keeps 0x3000 d0 (d.recheckOp o) := by
  unfold Dev.recheckOp
  dsimp only
  split
  · exact ite _ (h.enterMoving _) (ite _ (h.protocolError _) h)
  · exact ite _ ((h.unqueue _ _).tryResume _) (ite _ (h.protocolError _) h)
  · exact ite _ ((h.unqueue _ _).tryQuery _) (ite _ (h.protocolError _) (h.sendCtl _))
  · exact ite _ ((h.unqueue _ _).tryQuery _) (ite _ (h.protocolError _) (h.sendCtl _))
  · exact ite _ h (h.setOp _)
  · exact h

theorem recheckOps (h : Keeps 0x3000 d0 d) : Keeps 0x3000 d0 d.recheckOps := h.foldl (fun _ _ h => h.recheckOp _) _

theorem leaveTo (h : Keeps 0x3000 d0 d) (n s c : Nat) : Keeps 0x3000 d0 (d.leaveTo n s c) := by
  have left := ((ite (c = 0) h (h.wrAbove (e := R.link_FAIL_CAUSE) (by decide) c n 0)).wrAbove (e := R.link_LINK_STATUS) (by decide) s n
    0).onLink n (·.cleared (((if c = 0 then d else d.wr R.link_FAIL_CAUSE c n)).wr R.link_LINK_STATUS s n).time)
  unfold Dev.leaveTo
  refine ite _ left ?_
  exact (((left.bumpAbove (by decide) _ _ _).alert _ _ _ _).onLink _ _).recheckOps

theorem pairChanged (h : Keeps 0x3000 d0 d) (n b : Nat) : Keeps 0x3000 d0 (d.pairChanged n b) :=
  ite _ h (ite _ (h.alert _ _ _ _) h).recheckOps

theorem enterTraining (h : Keeps 0x3000 d0 d) (n : Nat) : Keeps 0x3000 d0 (d.enterTraining n) :=
  ((h.leaveTo n 1 0).onLink n _).pairChanged n _

theorem haltAll (h : Keeps 0x3000 d0 d) (p : Nat) : Keeps 0x3000 d0 (d.haltAll p) :=
  h.foldl (fun d o h => by
    dsimp only
    split
    · exact h.setOp _
    · exact h.enterHalting _ _ _
    · exact h.enterHalting _ _ _
    · exact h.sendCtl _
    · exact h.sendCtl _
    · exact h) _

theorem force (h : Keeps 0x3000 d0 d) (p : Nat) : Keeps 0x3000 d0 (d.force p) := (h.onPav p _).haltAll p

/-! ### Blocks enabled (R540) -/

theorem ptpSettle (h : Keeps 0x3000 d0 d) : Keeps 0x3000 d0 d.ptpSettle :=
  ((h.wrBelow (by decide) _).foldl (fun _ _ h => ite _ (h.onPlat (by exact fun _ => ⟨rfl, rfl, rfl⟩)) h) _).wrBelow (by decide) _

theorem startBlock (h : Keeps 0x3000 d0 d) (b i : Nat) : Keeps 0x3000 d0 (d.startBlock b i) := by
  unfold Dev.startBlock
  split
  · exact (h.onLink _ _).enterTraining i
  · exact (h.wrAbove (by decide) _ _ _).ptpSettle
  · exact h

end Dev.Keeps

/-! ## The entry that an index names (R519, R549) -/

/-- The blocks of the dictionary: below the pavilion table each has one index, and the entries of each have its base and a
subindex of one byte. -/
theorem dictBlocks_layout : ∀ b ∈ dictBlocks, (b.1 < 0x2000 ∧ b.2.1 = 1 ∨ b.1 = 0x2000 ∧ b.2.1 ≤ 0x1000 ∨ 0x3000 ≤ b.1) ∧
    ∀ e ∈ b.2.2, e.base = b.1 ∧ e.sub < 256 := by decide

theorem findEntry_some {index sub i : Nat} {e : Entry} (h : findEntry index sub = some (e, i)) :
    (e.base < 0x2000 ∧ i = 0 ∨ e.base = 0x2000 ∧ index < 0x3000 ∨ 0x3000 ≤ e.base) ∧ e.base + i = index ∧ e.sub < 256 := by
  unfold findEntry at h
  split at h
  · rename_i b hb
    obtain ⟨e', he, heq⟩ := Option.map_eq_some_iff.mp h
    cases heq
    have range := List.find?_some hb
    simp only [Bool.and_eq_true, decide_eq_true_eq] at range
    obtain ⟨place, entries⟩ := dictBlocks_layout b (List.mem_of_find?_eq_some hb)
    obtain ⟨base, sub⟩ := entries e (List.mem_of_find?_eq_some he)
    omega
  · exact nomatch h

namespace Dev.Keeps
variable {hi : Nat} {d0 d : Dev}

theorem enableAtStart (h : Keeps 0x3000 d0 d) (b i : Nat) (hb : 0x3000 ≤ b) : Keeps 0x3000 d0 (d.enableAtStart b i) := by
  unfold Dev.enableAtStart
  split
  · rename_i st _ en _ hst hen
    obtain ⟨ps, is, -⟩ := findEntry_some hst
    obtain ⟨pe, ie, -⟩ := findEntry_some hen
    have hs : 0x3000 ≤ st.base := by omega
    have he : 0x3000 ≤ en.base := by omega
    exact ite _ (h.wrAbove hs _ _ _) (ite _ ((h.wrAbove hs _ _ _).startBlock _ _) (((h.wrAbove hs _ _ _).wrAbove he _ _ _).alert _ _ _ _))
  · exact h

theorem enableBlock (h : Keeps 0x3000 d0 d) (b : Nat × Nat) (hb : 0x3000 ≤ b.1) :
    Keeps 0x3000 d0 ((List.range b.2).foldl (fun d i => d.enableAtStart b.1 i) d) := h.foldl (fun _ i h => h.enableAtStart _ i hb) _

theorem enableBlocks (h : Keeps 0x3000 d0 d) (l : List (Nat × Nat)) (hl : ∀ b ∈ l, 0x3000 ≤ b.1) :
    Keeps 0x3000 d0 (l.foldl (fun d b => (List.range b.2).foldl (fun d i => d.enableAtStart b.1 i) d) d) := by
  induction l generalizing d with
  | nil => exact h
  | cons b l ih => exact ih (h.enableBlock b (hl b List.mem_cons_self)) fun b hb => hl b (List.mem_cons_of_mem _ hb)

/-- A port that goes down changes nothing but its status that a session does not. -/
theorem portDown {n v : Nat} (h : Keeps hi d0 (d.wr R.port_LINK_STATUS v n)) : Keeps hi d0 (d.portDown n v) := by
  unfold Dev.portDown
  refine foldl (onNet (h.onNet (by exact fun r => r)) fun r s hs => ?_) (fun _ _ h => h.sendHeld _) _
  obtain ⟨s', hs', rfl⟩ := List.mem_map.mp hs
  split
  · exact r s' hs'
  · exact r s' hs'

end Dev.Keeps

theorem linkStatus_key (n : Nat) : R.port_LINK_STATUS.key n 0 = ((0x6000 + n) * 256 + R.port_LINK_STATUS.sub) * 64 := rfl

/-- The status of a port that goes down. -/
theorem Dev.rd_portDown (d : Dev) {n m : Nat} (hm : m < 0x1000) (v : Nat) :
    (d.portDown n v).rd R.port_LINK_STATUS m = if m = n then v else d.rd R.port_LINK_STATUS m := by
  have keeps := Dev.Keeps.portDown (v := v) (n := n) (d := d) (.refl le_rfl _)
  have sub : R.port_LINK_STATUS.sub < 256 := by decide
  refine (keeps.value (R.port_LINK_STATUS.key m 0) (by rw [linkStatus_key]; omega) (by rw [linkStatus_key]; omega) _).trans ?_
  split
  · rename_i h
    subst h
    exact Dev.rd_wr_self ..
  · exact Dev.rd_wr_ne _ _ (by rw [linkStatus_key, linkStatus_key]; omega)

/-- Without a reference clock the ports stay down (R564). -/
theorem Dev.enableAll_spec {d0 d : Dev} (h : Dev.Keeps 0x3000 d0 d) :
    Dev.Keeps 0x3000 d0 d.enableAll ∧
    (d0.refPresent = false → d.enableAll.rd R.port_LINK_STATUS 0 = 0 ∧ d.enableAll.rd R.port_LINK_STATUS 1 = 0) := by
  have enabled := h.enableBlocks Machine.enableBlocks (by decide)
  unfold Dev.enableAll
  generalize Machine.enableBlocks.foldl (fun d b => (List.range b.2).foldl (fun d i => d.enableAtStart b.1 i) d) d = t at *
  dsimp only
  cases hr : t.refPresent
  · rw [if_neg (by simp)]
    have down0 : Dev.Keeps 0x3000 d0 (t.portDown 0 0) := .portDown (enabled.wrAbove (by decide) _ _ _)
    have down1 : Dev.Keeps 0x3000 d0 ((t.portDown 0 0).portDown 1 0) := .portDown (down0.wrAbove (by decide) _ _ _)
    refine ⟨down1, fun _ => ⟨?_, ?_⟩⟩
    · rw [Dev.rd_portDown _ (by decide), Dev.rd_portDown _ (by decide)]; rfl
    · rw [Dev.rd_portDown _ (by decide)]; rfl
  · rw [if_pos rfl]
    exact ⟨enabled, fun h0 => absurd (enabled.ref.symm.trans hr) (by simp [h0])⟩

end Sys2Proof.Machine
end

section
/-! PROOFS. Replay at step 9: configuration, operations and sessions (R85, R93, R142, R152, R204). -/

namespace Sys2Proof.Machine

namespace Dev.Keeps

variable {d0 d : Dev}

/-! ### Configuration (R142, R152) -/

theorem applyDict (h : Keeps 0x3000 d0 d) (r : Nat) (b : RecBody) : Keeps 0x3000 d0 (d.applyDict r b) := by
  unfold Dev.applyDict
  split
  · split
    · exact h
    · rename_i e i he
      split
      · exact h
      · rename_i hb
        obtain ⟨place, -, sub⟩ := findEntry_some he
        rcases place with ⟨below, rfl⟩ | ⟨pav, -⟩ | above
        · exact h.wr (.inl ((e.key_lt 0 sub (by split <;> omega)).trans_le (Nat.mul_le_mul_right _ below))) _
        · exact absurd (.inl pav) hb
        · exact h.wrAbove above _ _ _
  · exact h

theorem applyStagedPort (h : Keeps 0x3000 d0 d) : Keeps 0x3000 d0 d.applyStagedPort := by
  unfold Dev.applyStagedPort
  split
  · exact h
  · have h := h.wrAbove (e := R.amn_UDP_PORT) (by decide) ‹Nat› 0 0
    dsimp only
    split
    · rename_i t ht
      have h := h.recordDict ht
      exact ⟨h.bound, h.value, h.time, h.step, h.ref, h.saved, fun _ => rfl, h.rest⟩
    · exact h

theorem keepHeld (h : Keeps 0x3000 d0 d) : Keeps 0x3000 d0 d.keepHeld := h.of_eq rfl rfl rfl rfl rfl

theorem restorePav (h : Keeps 0x3000 d0 d) (p : Nat) : Keeps 0x3000 d0 (d.restorePav p) :=
  (((h.foldl (fun _ b h => h.setBank b _) _).foldl (fun _ c h => h.assignCore c) _).cutWindow _ _).fitRing _

/-! ### Operations and sessions (R85, R93, R204, R242) -/

theorem numberUsed (h : Keeps 0x3000 d0 d) (b : RecBody) : Keeps 0x3000 d0 (d.numberUsed b) := by
  unfold Dev.numberUsed
  split
  · exact h.wrAbove (by decide) _ _ _
  · exact h

theorem replayOps (h : Keeps 0x3000 d0 d) (p : Nat) : Keeps 0x3000 d0 (d.replayOps p) := h.foldl (fun _ _ h => ite _ h (h.onChan _)) _

end Dev.Keeps

theorem Session.Resting.setOutcome {s : Session} (h : s.Resting) (n o : Nat) : (s.setOutcome n o).Resting := by
  unfold Session.setOutcome
  exact ⟨h.1, h.2⟩

theorem Session.Resting.advance {s : Session} (h : s.Resting) : s.advance.Resting := by
  unfold Session.advance
  exact ⟨h.1, h.2⟩

theorem Session.Resting.withLimit {s : Session} (h : s.Resting) (n : Nat) : Session.Resting { s with limit := n } := ⟨h.1, h.2⟩

/-- A session that replay restores is suspended, until its peer is back. -/
theorem Dev.restoredSession_resting (d : Dev) (p : Nat) (l : List RecBody) (id st o k f c : Nat) (x : Bytes) :
    (d.restoredSession p l id st o k f c x).Resting := by
  have outcomes : ∀ (l : List HostReq) (s : Session), s.Resting → (l.foldl (fun s r => s.setOutcome r.seq 0) s).Resting := by
    intro l
    induction l with
    | nil => exact fun s h => h
    | cons r l ih =>
      intro s h
      rw [List.foldl_cons]
      exact ih _ (h.setOutcome _ _)
  unfold Dev.restoredSession
  refine Session.Resting.withLimit (Session.Resting.advance (outcomes _ _ ?_)) _
  exact ⟨rfl, rfl⟩

namespace Dev.Keeps

variable {d0 d : Dev}

theorem restoreSession (h : Keeps 0x3000 d0 d) (p : Nat) (l : List RecBody) (id : Nat) : Keeps 0x3000 d0 (d.restoreSession p l id) := by
  have counted := fun g : HostNet → Table Nat => h.onNet (f := fun n => { n with gens := g n }) fun r => r
  unfold Dev.restoreSession
  refine ite _ (counted _) ?_
  split
  · refine (counted _).onNet fun r s hs => ?_
    rcases List.mem_append.mp hs with hs | hs
    · exact r s hs
    · rw [List.mem_singleton.mp hs]
      exact Dev.restoredSession_resting ..
  · exact ((counted _).foldl (fun _ _ h => h.recordLost _ _) _).appendMark _ _

theorem restoreSessions (h : Keeps 0x3000 d0 d) (p : Nat) : Keeps 0x3000 d0 (d.restoreSessions p) :=
  h.foldl (fun _ id h => h.restoreSession _ _ id) _

end Dev.Keeps

/-! ## The values of the device area in force -/

/-- From `d` to `t` only values in force have changed. -/
def Dev.OnlyValues (d t : Dev) : Prop := { t with dict := d.dict } = d

theorem Dev.OnlyValues.wr {d t : Dev} (h : d.OnlyValues t) (e : Entry) (v i p : Nat) : d.OnlyValues (t.wr e v i p) := h

/-- The values of the device area, with the pavilions that exist. -/
def Dev.areaValues (d : Dev) : Dev :=
  (List.range 64).foldl (fun d p => if d.pavExists p then d else (d.wr R.pav_STATE 0 p).wr R.pav_ENABLE 0 p)
    { d with dict := overlay d.dict d.hearth.saved }

/-- The estate runs. -/
def Dev.estateRuns (d : Dev) : Dev := if d.pavState 0 = 2 then d else (d.wr R.pav_STATE 2).wr R.pav_ENABLE 1

theorem Dev.applySaved_eq (d : Dev) : d.applySaved =
    { d.areaValues.estateRuns with hearth := { d.areaValues.estateRuns.hearth with saved := [] } } := by
  unfold Dev.applySaved Dev.estateRuns Dev.areaValues
  dsimp only

theorem Dev.areaValues_onlyValues (d : Dev) : d.OnlyValues d.areaValues := by
  refine foldl_keeps (P := d.OnlyValues) _ (fun t p h => ?_) _ (rfl : d.OnlyValues { d with dict := overlay d.dict d.hearth.saved })
  split
  · exact h
  · exact (h.wr _ _ _ _).wr _ _ _ _

theorem Dev.OnlyValues.estateRuns {d t : Dev} (h : d.OnlyValues t) : d.OnlyValues t.estateRuns := by
  unfold Dev.estateRuns
  split
  · exact h
  · exact (h.wr _ _ _ _).wr _ _ _ _

theorem Dev.rd_estateRuns (d : Dev) : d.estateRuns.rd R.pav_STATE = 2 := by
  unfold Dev.estateRuns
  split
  · assumption
  · exact (Dev.rd_wr_ne _ _ (by decide)).trans (Dev.rd_wr_self ..)

/-- With the device area's values in force the estate runs, and nothing awaits to be restored. -/
theorem Dev.applySaved_spec (d : Dev) :
    d.applySaved.plat = d.plat ∧ d.applySaved.net = d.net ∧ d.applySaved.hearth.stagedPort = d.hearth.stagedPort ∧
    d.applySaved.hearth.saved = [] ∧ d.applySaved.rd R.pav_STATE = 2 := by
  have values := d.areaValues_onlyValues.estateRuns
  have runs := d.areaValues.rd_estateRuns
  rw [Dev.applySaved_eq]
  generalize d.areaValues.estateRuns = t at *
  have plat : t.plat = d.plat := (congrArg Dev.plat values :)
  have net : t.net = d.net := (congrArg Dev.net values :)
  have hearth : t.hearth = d.hearth := (congrArg Dev.hearth values :)
  exact ⟨plat, net, (congrArg Hearth.stagedPort hearth :), rfl, runs⟩

/-! ## HEARTH_REPLAY_SCAN -/

/-- The rings read, with the findings of the scrub, and the entries that they record applied. -/
def Dev.ringsRead (d : Dev) (l : List (HearthPlace × HearthFinding)) : Dev :=
  (devRing :: List.range 64).foldl (fun d r => (d.bodies r).foldl (fun d b => d.applyDict r b) d)
    ((devRing :: List.range 64).foldl (fun d r => d.scanRing r) (l.foldl Dev.scrubFinding d))

/-- What the pavilions hold, their operations and their sessions. -/
def Dev.pavsRestored (d : Dev) (held : List Nat) : Dev :=
  held.foldl (fun d p => (d.replayOps p).restoreSessions p)
    (held.foldl (fun d p => (d.bodies p).foldl Dev.numberUsed d)
      (held.foldl (fun d p => d.restorePav p) d.applyStagedPort.keepHeld).fitDirWays)

/-- The pavilions of `held` whose destruction is forced wait anew. -/
def Dev.destructionsForced (d : Dev) (held : List Nat) : Dev :=
  (held.filter fun p => decide (d.pavState p = 5) && decide (d.rd R.pav_DESTROY_MODE p = 1)).foldl (fun d p => d.force p) d

/-- Only a session that exists has an entry beside its SESS record. -/
def Dev.sessOpenKept (d : Dev) : Dev :=
  { d with hearth := { d.hearth with sessOpen := d.hearth.sessOpen.filter fun e => (d.sess e.1).isSome } }

/-- The pavilions that exist. -/
def Dev.pavsHeld (d : Dev) : List Nat := (List.range 64).filter d.pavExists

/-- The rings read and the configuration of step 9 applied, on the values that the device area gives. -/
def Dev.configured (d : Dev) (l : List (HearthPlace × HearthFinding)) : Dev :=
  (((d.ringsRead l).pavsRestored (d.ringsRead l).pavsHeld).destructionsForced (d.ringsRead l).pavsHeld).sessOpenKept

namespace Dev.Keeps

variable {d0 d : Dev}

theorem ringsRead (h : Keeps 0x3000 d0 d) (l : List (HearthPlace × HearthFinding)) : Keeps 0x3000 d0 (d.ringsRead l) :=
  ((h.foldl (fun _ e h => h.scrubFinding e) l).foldl (fun _ r h => h.scanRing r) _).foldl (fun _ r h => h.foldl (fun _ b h => h.applyDict r b) _) _

theorem pavsRestored (h : Keeps 0x3000 d0 d) (held : List Nat) : Keeps 0x3000 d0 (d.pavsRestored held) :=
  ((h.applyStagedPort.keepHeld.foldl (fun _ p h => h.restorePav p) held).fitDirWays.foldl
    (fun _ _ h => h.foldl (fun _ b h => h.numberUsed b) _) held).foldl (fun _ p h => (h.replayOps p).restoreSessions p) held

theorem destructionsForced (h : Keeps 0x3000 d0 d) (held : List Nat) : Keeps 0x3000 d0 (d.destructionsForced held) :=
  h.foldl (fun _ p h => h.force p) _

theorem sessOpenKept (h : Keeps 0x3000 d0 d) : Keeps 0x3000 d0 d.sessOpenKept :=
  ⟨h.bound, h.value, h.time, h.step, h.ref, h.saved, h.port, h.rest⟩

theorem configured (h : Keeps 0x3000 d0 d) (l : List (HearthPlace × HearthFinding)) : Keeps 0x3000 d0 (d.configured l) :=
  (((h.ringsRead l).pavsRestored _).destructionsForced _).sessOpenKept

end Dev.Keeps

theorem exec_hearthReplayScan_eq (o : OpScrub) (s : State) : exec (.hearthReplayScan o) s = s.act fun d =>
    if d.plat.step ≠ 8 then d
    else ((d.endStep 9 o.t).applySaved.configured o.findings).enableAll.onPlat fun x =>
      { x with scanAt := ((d.endStep 9 o.t).applySaved.configured o.findings).time } := by
  rw [exec_hearthReplayScan]
  unfold execHearthReplayScan Dev.configured Dev.sessOpenKept Dev.destructionsForced Dev.pavsRestored Dev.pavsHeld Dev.ringsRead
  refine congrArg s.act (funext fun d => ?_)
  refine if_congr Iff.rfl rfl ?_
  dsimp only

/-- What step 9 gives a device whose values are those of the device area. -/
theorem Dev.configured_enabled (d : Dev) (l : List (HearthPlace × HearthFinding)) :
    Dev.Keeps 0x3000 d (d.configured l).enableAll ∧ (d.configured l).time = (d.configured l).enableAll.time ∧
    (d.refPresent = false → (d.configured l).enableAll.rd R.port_LINK_STATUS 0 = 0 ∧
      (d.configured l).enableAll.rd R.port_LINK_STATUS 1 = 0) := by
  have configured := (Dev.Keeps.refl (hi := 0x3000) (by decide) d).configured l
  obtain ⟨enabled, down⟩ := Dev.enableAll_spec configured
  exact ⟨enabled, configured.time.trans enabled.time.symm, down⟩

theorem Dev.Keeps.scanned {d t : Dev} (h : Dev.Keeps 0x3000 d t) (now : Nat) : Dev.Keeps 0x3000 d (t.onPlat fun x => { x with scanAt := now }) :=
  h.onPlat fun _ => ⟨rfl, rfl, rfl⟩

/-- What step 9 begins from. -/
theorem Dev.areaRead_spec (d : Dev) (us : Nat) :
    (d.endStep 9 us).applySaved.plat.step = 9 ∧ (d.endStep 9 us).applySaved.refPresent = d.refPresent ∧
    (d.endStep 9 us).applySaved.net = d.net ∧ (d.endStep 9 us).applySaved.hearth.stagedPort = d.hearth.stagedPort ∧
    (d.endStep 9 us).applySaved.hearth.saved = [] ∧ (d.endStep 9 us).applySaved.rd R.pav_STATE = 2 := by
  obtain ⟨plat, net, port, saved, runs⟩ := (d.endStep 9 us).applySaved_spec
  refine ⟨by rw [plat, Dev.endStep_step], ?_, ?_, by rw [port, Dev.endStep_hearth], saved, runs⟩
  · rw [Dev.refPresent, plat, Dev.endStep_plat]
    rfl
  · exact net.trans (congrArg Dev.net (d.endStep_frame 9 us) :)

/-- The device area, the rings and the configuration are read. -/
theorem hearthReplayScan_answers (q : List Instr) (d : Dev) (o : OpScrub) (hs : d.thermalStop = false) :
    (d.plat.step ≠ 8 → Answers (.hearthReplayScan o) q d d) ∧
    (d.plat.step = 8 → ∃ t, Answers (.hearthReplayScan o) q d t ∧ t.plat.step = 9 ∧ t.plat.scanAt = t.time ∧
      (d.hearth.stagedPort = none → t.hearth.stagedPort = none) ∧ t.hearth.saved = [] ∧ t.rd R.pav_STATE = 2 ∧
      (d.net.sessions = [] → ∀ s ∈ t.net.sessions, s.Resting) ∧
      (d.refPresent = false → t.rd R.port_LINK_STATUS 0 = 0 ∧ t.rd R.port_LINK_STATUS 1 = 0)) := by
  refine ⟨fun h => answers_of_act _ (exec_hearthReplayScan_eq o _) hs (if_pos h), fun h => ?_⟩
  have go : Answers (.hearthReplayScan o) q d (((d.endStep 9 o.t).applySaved.configured o.findings).enableAll.onPlat fun x =>
      { x with scanAt := ((d.endStep 9 o.t).applySaved.configured o.findings).time }) :=
    answers_of_act _ (exec_hearthReplayScan_eq o _) hs (if_neg (not_not.mpr h))
  obtain ⟨step, ref, net, port, saved, runs⟩ := d.areaRead_spec o.t
  obtain ⟨enabled, time, down⟩ := (d.endStep 9 o.t).applySaved.configured_enabled o.findings
  generalize ((d.endStep 9 o.t).applySaved.configured o.findings).enableAll = t at go enabled time down
  generalize ((d.endStep 9 o.t).applySaved.configured o.findings).time = now at go time
  generalize (d.endStep 9 o.t).applySaved = d1 at step ref net port saved runs enabled down
  have scanned := enabled.scanned now
  have scanAt : (t.onPlat fun x => { x with scanAt := now }).plat.scanAt = (t.onPlat fun x => { x with scanAt := now }).time := by
    rw [Dev.onPlat_plat, Dev.onPlat_time]
    exact time
  refine ⟨_, go, scanned.step.trans step, scanAt, fun h => scanned.port (port.trans h), scanned.saved.trans saved,
    (scanned.value _ (by decide) (by decide) _).trans runs, fun h => scanned.rest (by rw [net, h]; simp), fun h => ?_⟩
  rw [Dev.rd_onPlat, Dev.rd_onPlat]
  exact down (ref.trans h)

end Sys2Proof.Machine
end

section
/-! PROOFS of the family of chapter 1: supply, reset and start-up (O56). -/

namespace Sys2Proof
open Machine

/-- Settles O56: each event of the supply, of RESET_L and of start-up by its own lemma, the loss of the volatile state by
`Dev.cold_spec`, step 9 by what each of its functions keeps (`Dev.Keeps`), and the scan of a ring by its equations. -/
theorem startUp : Obligations.StartUp := by
  unfold Obligations.StartUp
  refine ⟨fun d => ⟨fun p hp e he hs => d.survives_block2000 hp he hs, fun n hn => d.survives_lastOpnum hn⟩,
    fun q d o => ⟨porRearm_answers q d o, (vinRise_answers q d o).1, (vinRise_answers q d o).2, resetLAssert_held q d o,
      resetLAssert_resets q d o, resetLRelease_held q d o, resetLRelease_starts q d o⟩,
    fun q d o => porRelease_answers q d o,
    fun q d o hs => xtal_answers q d o hs,
    fun q d o hs => ?_,
    fun q d o hs => groundskeeperBoot_answers q d o hs,
    fun q d o hs => ?_,
    fun q d o hs => memoryQuenchDone_answers q d o hs,
    fun q d o hs => hearthReplayScan_answers q d o hs,
    fun x free fuel pos hp => scan_step x free fuel hp,
    fun d r => scanRing_spec d r,
    fun d p l later opnum ep path status residual done source unitStatus cflags failedCmd auth a b => ?_⟩
  · obtain ⟨lock0, lock1⟩ := startupClocksLocked_answers q d o hs
    obtain ⟨ramp0, ramp1⟩ := startupRampDone_answers q d o hs
    obtain ⟨settle0, settle1⟩ := inDoubtSettle_answers q d o hs
    obtain ⟨present0, present1⟩ := replayPresent_answers q d o hs
    obtain ⟨ready0, ready1⟩ := ready_answers q d o hs
    exact ⟨lock0, lock1, ramp0, ramp1, settle0, settle1, present0, present1, ready0, ready1⟩
  · obtain ⟨other, load⟩ := microcodeLoad_answers q d o hs
    refine ⟨other, fun h => ?_⟩
    obtain ⟨t, answers, ends, staged, accepted, refused, tested⟩ := load h
    exact ⟨t, answers, ends, staged, accepted, refused, fun k hk => (tested k hk).core, fun k hk => (tested k hk).retired⟩
  · obtain ⟨started0, started1⟩ := replayedOp_started d p l later opnum ep path auth a b
    obtain ⟨done0, done1⟩ := replayedOp_done d p l later opnum ep path status residual done source unitStatus cflags failedCmd
    exact ⟨started0, started1, done0, done1⟩

end Sys2Proof
end

section
/-! PROOFS. The checks of an access (O15). -/

namespace Sys2Proof.Machine

/-- An exact sum outside the address space (R257). -/
theorem Dev.access_outside (d : Dev) (p : Nat) (cap : Cap) {ea : Int} (n : Nat) (perms : BitVec 8) (align : Nat) (h : ea < 0 ∨ 2 ^ 38 ≤ ea) :
    d.access p cap ea n perms align = .error { num := 0x03, fault := (ea % 2 ^ 38).toNat } := if_pos h

/-- An address that fails a check of R34. -/
theorem Dev.access_of_check_some (d : Dev) (p : Nat) {cap : Cap} {ea : Int} {n : Nat} {perms : BitVec 8} {align k : Nat}
    (h0 : 0 ≤ ea) (h1 : ea < 2 ^ 38) (hk : cap.check ea.toNat n perms align = some k) :
    d.access p cap ea n perms align = .error { num := k, fault := ea.toNat } := by
  have inside : ¬ (ea < 0 ∨ 2 ^ 38 ≤ ea) := by omega
  unfold Dev.access
  rw [if_neg inside]
  simp only [hk]

/-- An address that passes the checks of R34, with a byte that is not mapped (R423). -/
theorem Dev.access_of_unmapped {d : Dev} {p : Nat} {cap : Cap} {ea : Int} {n u : Nat} {perms : BitVec 8} {align : Nat} (h0 : 0 ≤ ea) (h1 : ea < 2 ^ 38)
    (hk : cap.check ea.toNat n perms align = none) (hu : d.firstUnmapped p ea.toNat n = some u) :
    d.access p cap ea n perms align = .error { num := 0x03, fault := u } := by
  have inside : ¬ (ea < 0 ∨ 2 ^ 38 ≤ ea) := by omega
  unfold Dev.access
  rw [if_neg inside]
  simp only [hk, hu]

/-- An address that passes the checks of R34, all of whose bytes are mapped. -/
theorem Dev.access_of_mapped {d : Dev} {p : Nat} {cap : Cap} {ea : Int} {n : Nat} {perms : BitVec 8} {align : Nat} (h0 : 0 ≤ ea) (h1 : ea < 2 ^ 38)
    (hk : cap.check ea.toNat n perms align = none) (hu : d.firstUnmapped p ea.toNat n = none) :
    d.access p cap ea n perms align = .ok ea.toNat := by
  have inside : ¬ (ea < 0 ∨ 2 ^ 38 ≤ ea) := by omega
  unfold Dev.access
  rw [if_neg inside]
  simp only [hk, hu]

/-- R34's check of a tagged capability for its seal. -/
theorem Cap.check_sealed {c : Cap} (ht : c.tag = true) (ho : c.otype ≠ 0) (a n : Nat) (perms : BitVec 8) (align : Nat) :
    c.check a n perms align = some 0x05 := by
  unfold Cap.check
  rw [if_neg (by simp [ht]), if_pos ho]

theorem Cap.covers_iff (c : Cap) (a n : Nat) : c.covers a n = true ↔ c.base.toNat ≤ a ∧ a + n ≤ c.base.toNat + c.len.toNat := by
  simp [Cap.covers]

/-- R34's checks of a tagged, unsealed capability, in their order. -/
theorem Cap.check_open {c : Cap} (ht : c.tag = true) (ho : c.otype = 0) (a n : Nat) (perms : BitVec 8) (align : Nat) :
    c.check a n perms align = if c.perms &&& perms ≠ perms then some 0x04
      else if ¬ (c.base.toNat ≤ a ∧ a + n ≤ c.base.toNat + c.len.toNat) then some 0x03
      else if a % align ≠ 0 then some 0x06 else none := by
  simp [Cap.check, Cap.has, ht, ho, ← Cap.covers_iff]

end Sys2Proof.Machine
end

section
namespace Sys2Proof
open Machine

/-- Settles O15: the order of `Cap.check`, between the exact sum and the map. -/
theorem accessChecks : Obligations.AccessChecks := by
  unfold Obligations.AccessChecks
  intro d p cap ea n perms align r a trap
  refine ⟨fun h => d.access_outside p cap n perms align h, fun h0 h1 => ?_⟩
  have fails : ∀ k, cap.check a n perms align = some k → r = trap k a := fun k hk => d.access_of_check_some p h0 h1 hk
  refine ⟨fun ht => fails _ (by simp [Cap.check, ht]), fun ht ho => fails _ (Cap.check_sealed ht ho ..), fun ht ho => ?_⟩
  have check := Cap.check_open ht ho a n perms align
  refine ⟨fun hp => fails _ (by rw [check, if_pos hp]), fun hp => ?_⟩
  rw [if_neg (not_not.mpr hp)] at check
  have passes hi ha : cap.check a n perms align = none := check.trans (by rw [if_neg (not_not.mpr hi), if_neg (not_not.mpr ha)])
  exact ⟨fun hi => fails _ (by rw [check, if_pos hi]), fun hi ha => fails _ (by rw [check, if_neg (not_not.mpr hi), if_pos ha]),
    fun hi ha _ hu => Dev.access_of_unmapped h0 h1 (passes hi ha) hu, fun hi ha hu => Dev.access_of_mapped h0 h1 (passes hi ha) hu⟩

end Sys2Proof
end

section
/-! PROOFS. Capability instructions (O11). -/

namespace Sys2Proof.Machine

/-- Registers of their own kind put back as they were. -/
theorem Core.SameBesideRegs.special {x y : Core} (h : Core.SameBesideRegs x y) :
    Core.SameBesideRegs x { y with arch := { y.arch with
      arm := x.arch.arm, ttb := x.arch.ttb, shs := x.arch.shs, wbase := x.arch.wbase, wold := x.arch.wold, tcmp := x.arch.tcmp } } := by
  rw [← h.arm, ← h.ttb, ← h.shs, ← h.wbase, ← h.wold, ← h.tcmp]
  exact h

/-- A commit of an instruction that writes general registers, capability registers and core-local bits of its core, and goes on to the next
word. -/
theorem Dev.commits_of_writes (d : Dev) (c : Nat) (y : Core) (r : PReg → Option Word) (k : Nat → Option Cap) (b : Nat → Option Bool)
    (h : Core.SameBesideRegs (d.core c) y)
    (hreg : ∀ q, PReg.Plain q → y.settleOwed.get q = if q = .k 0 then 0 else (r q).getD ((d.core c).settleOwed.get q))
    (hcap : ∀ i, y.settleOwed.cr i = if i = 0 then {} else (k i).getD ((d.core c).settleOwed.cr i))
    (hbit : ∀ n, y.settleOwed.arch.bit n = (b n).getD ((d.core c).settleOwed.arch.bit n)) :
    d.Commits c { reg := r, cap := k, bit := b } (Dev.commit c { d := d.setCore c y }) :=
  Dev.commits_of_registers d c y _ none h.special ⟨h.arm, h.ttb, h.shs, h.wbase, h.wold, h.tcmp⟩ hreg hcap hbit rfl rfl rfl

theorem only_getD {α β : Type} [DecidableEq α] (k q : α) (v w : β) : (only k v q).getD w = if q = k then v else w := by
  unfold only
  split <;> rfl

theorem Core.get_of_k0 (x : Core) : x.get (.k 0) = 0 := by simp [Core.get]

theorem Core.cr_zero (x : Core) : x.cr 0 = {} := by simp [Core.cr, Arch.getCap]

/-- What a register reads, k0 apart. -/
theorem Core.get_eq_ite (x : Core) (q : PReg) : x.get q = if q = .k 0 then 0 else x.get q := by
  split
  · rename_i h
    rw [h, Core.get_of_k0]
  · rfl

/-- What a capability register reads, c0 apart. -/
theorem Core.cr_eq_ite (x : Core) (i : Nat) : x.cr i = if i = 0 then {} else x.cr i := by
  split
  · rename_i h
    rw [h, Core.cr_zero]
  · rfl

/-- An instruction that writes a general register commits. -/
theorem Dev.commits_wr (d : Dev) (c : Nat) {r : PReg} (hr : r.Plain) (v : Word) :
    d.Commits c { reg := only r v } (Dev.commit c { d := d.setCore c ((d.core c).wr r v) }) := by
  refine d.commits_of_writes c _ _ _ _ ((Core.SameBesideRegs.refl _).wr r v) (fun q hq => ?_) (fun i => ?_) fun n => ?_
  · rw [Core.settled_get_wr _ _ _ hr q hq, only_getD]
  · rw [Core.settled_cr_wr _ _ _ hr]
    exact Core.cr_eq_ite _ i
  · exact Core.settled_bit_wr _ _ _ hr n

/-- An instruction that writes a capability register commits. -/
theorem Dev.commits_wcr (d : Dev) (c j : Nat) (v : Cap) :
    d.Commits c { cap := only j v } (Dev.commit c { d := d.setCore c ((d.core c).wcr j v) }) := by
  refine d.commits_of_writes c _ _ _ _ ((Core.SameBesideRegs.refl _).wcr j v) (fun q hq => ?_) (fun i => ?_) fun n => ?_
  · rw [Core.settled_get_wcr _ _ _ q hq]
    exact Core.get_eq_ite _ q
  · rw [Core.settled_cr_wcr, only_getD]
  · exact Core.settled_bit_wcr _ _ _ n

/-- An instruction that writes a capability register and a core-local bit commits. -/
theorem Dev.commits_wcr_wbit (d : Dev) (c j : Nat) (v : Cap) (n : Nat) (hn : n < 4096) (b : Bool) :
    d.Commits c { cap := only j v, bit := only n b } (Dev.commit c { d := d.setCore c (((d.core c).wcr j v).wbit n b) }) := by
  refine d.commits_of_writes c _ _ _ _ (((Core.SameBesideRegs.refl _).wcr j v).wbit n b) (fun q hq => ?_) (fun i => ?_) fun k => ?_
  · rw [Core.settled_get_wbit _ _ _ q hq, Core.settled_get_wcr _ _ _ q hq]
    exact Core.get_eq_ite _ q
  · rw [Core.settled_cr_wbit, Core.settled_cr_wcr, only_getD]
  · rw [Core.settled_bit_wbit, Core.settled_bit_wcr, only_getD]
    by_cases h : k = n
    · simp [h, hn]
    · simp [h]

variable {i : Instr} {q : List Instr} {d d' : Dev} {p : Nat}

/-- A capability instruction that writes RD completes. -/
theorem completes_of_capBody {o : OpCap} (f : Core → Cap) (h : d.Issues o.core p d')
    (hx : exec i { pending := q, dev := d } = State.instr { pending := q, dev := d } o.core (capBody o false f)) :
    Completes i q d d' o.core { cap := only (o.rd.toNat % 16) (f (d'.core o.core)) } :=
  completes_of_body _ h hx rfl (d'.commits_wcr _ _ _)

/-- A capability instruction that writes RD and tells in Z whether its result is tagged completes. -/
theorem completes_of_capBody_z {o : OpCap} (f : Core → Cap) (h : d.Issues o.core p d')
    (hx : exec i { pending := q, dev := d } = State.instr { pending := q, dev := d } o.core (capBody o true f)) :
    Completes i q d d' o.core { cap := only (o.rd.toNat % 16) (f (d'.core o.core)), bit := only 0x000 (f (d'.core o.core)).tag } :=
  completes_of_body _ h hx rfl (d'.commits_wcr_wbit _ _ _ _ (by decide) _)

/-- A capability instruction that reads a field into RD completes. -/
theorem completes_of_capRead {o : OpCap} (f : Cap → Nat) (h : d.Issues o.core p d')
    (hx : exec i { pending := q, dev := d } = State.instr { pending := q, dev := d } o.core (capRead o f)) :
    Completes i q d d' o.core
      { reg := only ((d'.core o.core).arch.gpr o.rd) (BitVec.ofNat 64 (f ((d'.core o.core).cr (o.ra.toNat % 16)))) } :=
  completes_of_body _ h hx rfl (d'.commits_wr _ (Arch.gpr_plain _ _) _)

/-! ## The results of Table 9.13 -/

theorem Cap.has_permSEAL (c : Cap) : c.has permSEAL = c.perms.getLsbD 0 := by
  unfold Cap.has permSEAL
  generalize c.perms = b
  revert b
  decide

theorem Cap.has_permEX (c : Cap) : c.has permEX = c.perms.getLsbD 5 := by
  unfold Cap.has permEX
  generalize c.perms = b
  revert b
  decide

theorem Cap.isKey_eq (k : Cap) : k.isKey = (k.tag && decide (k.otype = 0) && k.perms.getLsbD 0) := by
  rw [Cap.isKey, Cap.has_permSEAL]

theorem Cap.narrow_eq (k : Cap) (len mask : Word) : k.narrow len mask = {
    tag := k.tag && decide (k.otype = 0) && decide (len.toNat < 2 ^ 38) && decide (k.base.toNat ≤ k.cursor.toNat) &&
      decide (k.cursor.toNat + len.toNat ≤ k.base.toNat + k.len.toNat)
    perms := k.perms &&& mask.setWidth 8, otype := 0, base := k.cursor, len := BitVec.ofNat 38 len.toNat, cursor := k.cursor } := by
  rw [Cap.narrow, Cap.covers, ← Bool.and_assoc]
  rfl

theorem Cap.sealAs_eq (c k : Cap) : c.sealAs k = { c with
    otype := k.cursor.setWidth 6
    tag := c.tag && decide (c.otype = 0) && (k.tag && decide (k.otype = 0) && k.perms.getLsbD 0) &&
      decide (2 ≤ k.cursor.toNat ∧ k.cursor.toNat ≤ 63) &&
      decide (k.base.toNat ≤ k.cursor.toNat ∧ k.cursor.toNat + 1 ≤ k.base.toNat + k.len.toNat) } := by
  simp only [Cap.sealAs, Cap.covers, Cap.isKey_eq, Bool.decide_and, Bool.and_assoc]

theorem Cap.unseal_eq (c k : Cap) : c.unseal k = { c with
    otype := 0
    tag := c.tag && decide (2 ≤ c.otype.toNat) && (k.tag && decide (k.otype = 0) && k.perms.getLsbD 0) &&
      decide (k.cursor.toNat = c.otype.toNat) } := by
  rw [Cap.unseal, Cap.isKey_eq]

theorem Cap.entry_eq (c : Cap) : c.entry = { c with otype := 1, tag := c.tag && decide (c.otype = 0) && c.perms.getLsbD 5 } := by
  rw [Cap.entry, Cap.has_permEX]

end Sys2Proof.Machine
end

section
namespace Sys2Proof
open Machine

/-- Settles O11: each instruction writes one register, with the result of Table 9.13. -/
theorem capabilityInstructions : Obligations.CapabilityInstructions := by
  unfold Obligations.CapabilityInstructions
  refine fun q d d' p => ⟨fun o h => ?_, fun o h => ?_⟩
  · exact completes_of_body _ h rfl rfl (d'.commits_wcr _ _ _)
  · intro x s k b len writes tells reads open_ key
    have result : ∀ (i : Instr) (f : Core → Cap) (v : Cap),
        exec i { pending := q, dev := d } = State.instr { pending := q, dev := d } o.core (capBody o false f) → f x = v → writes i v := by
      rintro i f v hx rfl
      exact completes_of_capBody f h hx
    have tagged : ∀ (i : Instr) (f : Core → Cap) (v : Cap),
        exec i { pending := q, dev := d } = State.instr { pending := q, dev := d } o.core (capBody o true f) → f x = v → tells i v := by
      rintro i f v hx rfl
      exact completes_of_capBody_z f h hx
    exact ⟨result _ _ _ rfl rfl, result _ _ _ rfl rfl, result _ _ _ rfl rfl, result _ _ _ rfl rfl, result _ _ _ rfl rfl,
      result _ _ _ rfl rfl,
      tagged _ _ _ rfl (Cap.narrow_eq ..), tagged _ _ _ rfl (Cap.sealAs_eq ..), tagged _ _ _ rfl (Cap.unseal_eq ..),
      tagged _ _ _ rfl (Cap.entry_eq ..),
      completes_of_capRead (if ·.tag then 1 else 0) h rfl, completes_of_capRead (·.perms.toNat) h rfl,
      completes_of_capRead (·.otype.toNat) h rfl, completes_of_capRead (·.base.toNat) h rfl, completes_of_capRead (·.len.toNat) h rfl,
      completes_of_capRead (·.cursor.toNat) h rfl⟩

end Sys2Proof
end

section
/-! PROOFS. Memory instructions of a core that runs alone, and stores (O13). -/

namespace Sys2Proof.Machine

/-! ## Memory instructions of a core that runs alone -/

/-- Without a twin an instruction is performed at once. -/
theorem State.exchange_alone (s : State) (c : Fin 256) (i : Instr) (body : Body) (h : (s.dev.core c).twin = none) :
    s.exchange c i body = s.instr c body := by
  simp [State.exchange, State.instr, Dev.runExchange, h]

variable {i : Instr} {q : List Instr} {d d' t : Dev} {c : Fin 256} {p : Nat}

/-- A memory instruction whose body traps takes that trap, on the device as the body leaves it. -/
theorem traps_alone {s : Stop} (body : Body) (h : d.Issues c p d') (alone : (d.core c).twin = none)
    (hx : exec i { pending := q, dev := d } = State.exchange { pending := q, dev := d } c i body) (hs : body c p d' = .error s) :
    Traps i q d (s.left.getD d') c p s.toTrap :=
  traps_of_body body h (hx.trans (State.exchange_alone _ _ _ _ alone)) hs

/-- A memory instruction whose access fails takes the trap of that check, with nothing done before it. -/
theorem traps_checked {t : Trap} (body : Body) (h : d.Issues c p d') (alone : (d.core c).twin = none)
    (hx : exec i { pending := q, dev := d } = State.exchange { pending := q, dev := d } c i body) (hs : body c p d' = .error t.stop) :
    Traps i q d d' c p t := traps_alone (s := t.stop) body h alone hx hs

/-- An instruction that writes no register commits. -/
theorem Dev.commits_nothing (d : Dev) (c : Nat) : d.Commits c {} (Dev.commit c { d := d }) := by
  -- the registers are as they were, so writing the core back changes nothing that is read
  have same : ∀ k, (Dev.commit c { d := d }).core k = (Dev.commit c { d := d.setCore c (d.core c) }).core k := fun k => by
    by_cases hk : k = c
    · subst hk
      simp [Dev.commit]
    · simp only [Dev.commit, Dev.core_onCore_ne _ _ hk, Dev.core_setCore_ne _ _ hk]
  obtain ⟨core, others, rest⟩ := d.commits_of_writes c (d.core c) (fun _ => none) (fun _ => none) (fun _ => none) (Core.SameBesideRegs.refl _)
    (fun q _ => Core.get_eq_ite _ q) (fun i => Core.cr_eq_ite _ i) fun _ => rfl
  exact ⟨same c ▸ core, fun k hk => (same k).trans (others k hk), by simp [Dev.commit, Dev.onCore, Dev.setCore]⟩

/-- A memory instruction that owes nothing completes on the device that its body leaves. -/
theorem completes_alone (body : Body) (h : d.Issues c p d') (alone : (d.core c).twin = none)
    (hx : exec i { pending := q, dev := d } = State.exchange { pending := q, dev := d } c i body) (hr : body c p d' = .ok { d := t }) :
    Completes i q d t c {} := by
  refine ⟨_, ?_, t.commits_nothing c⟩
  rw [Answers, hx, State.exchange_alone _ _ _ _ alone, State.instr]
  simp only [Dev.runInstr_of_issues body h, Dev.perform1, hr]

/-! ## Stores -/

theorem storeData_ok {d : Dev} {cap : Cap} {ea : Int} {n a : Nat} (h : d.access p cap ea n permST n = .ok a) (v : Word) (rel : Bool) (c : Nat) :
    storeData cap ea n v rel c p d = .ok { d := (if rel then d.release c p else d).storePiece c p a (leBytes n v.toNat) false } := by
  simp [storeData, h]

theorem storeData_error {d : Dev} {cap : Cap} {ea : Int} {n : Nat} {s : Stop} (h : d.access p cap ea n permST n = .error s) (v : Word)
    (rel : Bool) (c : Nat) : storeData cap ea n v rel c p d = .error s := by
  simp [storeData, h]

theorem storeCapReg_ok {d : Dev} {cap : Cap} {ea : Int} {a : Nat} {v : Cap}
    (h : d.access p cap ea 16 (if v.tag then permST ||| permSTC else permST) 16 = .ok a) (rel : Bool) (c : Nat) :
    storeCapReg cap ea v rel c p d = .ok { d := (if rel then d.release c p else d).storePiece c p a v.bytes v.tag } := by
  simp [storeCapReg, h, Dev.storeCap]

theorem storeCapReg_error {d : Dev} {cap : Cap} {ea : Int} {v : Cap} {s : Stop}
    (h : d.access p cap ea 16 (if v.tag then permST ||| permSTC else permST) 16 = .error s) (rel : Bool) (c : Nat) :
    storeCapReg cap ea v rel c p d = .error s := by
  simp [storeCapReg, h]

/-! ## Loads -/

/-- The error of what either stops or succeeds. -/
theorem error_of_ite {ε α : Type} {k : Prop} [Decidable k] {e s : ε} {x : α} (h : (if k then Except.error e else .ok x) = .error s) : e = s := by
  split at h
  · exact Except.error.inj h
  · exact nomatch h

/-- What stops a load that passed its checks is poison: machine check class 0x01 at its address (Table 11.7). -/
theorem Dev.loadPiece_error {d : Dev} {c p a n back : Nat} {hint : Bool} {s : Stop} (h : d.loadPiece c p a n hint back = .error s) :
    s.num = 0x1F ∧ s.cls = 1 ∧ s.fault = a ∧ s.unit = mcUnit a := by
  obtain rfl := error_of_ite h
  exact ⟨rfl, rfl, rfl, rfl⟩

theorem Dev.loadHow_error {d : Dev} {c p a n : Nat} {how : LoadHow} {s : Stop} (h : d.loadHow c p a n how = .error s) :
    s.num = 0x1F ∧ s.cls = 1 ∧ s.fault = a ∧ s.unit = mcUnit a := by
  unfold Dev.loadHow at h
  split at h
  · rename_i hp
    cases h
    exact Dev.loadPiece_error hp
  · exact nomatch h

theorem loadData_error {d : Dev} {cap : Cap} {ea : Int} {n : Nat} {s : Stop} (h : d.access p cap ea n permLD n = .error s) (how : LoadHow)
    (owe : Nat → Owed) (c : Nat) : loadData cap ea n how owe c p d = .error s := by
  simp [loadData, h]

theorem loadData_poisoned {d : Dev} {cap : Cap} {ea : Int} {n a c : Nat} {how : LoadHow} {s : Stop} (h : d.access p cap ea n permLD n = .ok a)
    (hs : d.loadHow c p a n how = .error s) (owe : Nat → Owed) : loadData cap ea n how owe c p d = .error s := by
  simp [loadData, h, hs]

theorem loadCapReg_error {d : Dev} {cap : Cap} {ea : Int} {s : Stop} (h : d.access p cap ea 16 permLD 16 = .error s) (how : LoadHow)
    (rd : BitVec 5) (c : Nat) : loadCapReg cap ea how rd c p d = .error s := by
  simp [loadCapReg, h]

theorem loadCapReg_poisoned {d : Dev} {cap : Cap} {ea : Int} {a c : Nat} {how : LoadHow} {s : Stop} (h : d.access p cap ea 16 permLD 16 = .ok a)
    (hs : d.loadHow c p a 16 how = .error s) (rd : BitVec 5) : loadCapReg cap ea how rd c p d = .error s := by
  simp [loadCapReg, h, hs]

/-! ## Loads and stores by their operands -/

theorem loadGr_error {d : Dev} {o : OpLd} {n c : Nat} {s : Stop}
    (h : d.access p ((d.core c).cr o.cs.toNat) ((d.core c).eaM o.toOpM) n permLD n = .error s) (signed : Bool) :
    loadGr o n signed c p d = .error s := by
  unfold loadGr
  exact loadData_error h _ _ _

theorem loadGr_poisoned {d : Dev} {o : OpLd} {n a c : Nat} {s : Stop}
    (h : d.access p ((d.core c).cr o.cs.toNat) ((d.core c).eaM o.toOpM) n permLD n = .ok a) (hs : d.loadHow c p a n (howPlain o) = .error s)
    (signed : Bool) : loadGr o n signed c p d = .error s := by
  unfold loadGr
  exact loadData_poisoned h hs _

theorem loadFr_error {d : Dev} {o : OpLd} {n c : Nat} {s : Stop}
    (h : d.access p ((d.core c).cr o.cs.toNat) ((d.core c).eaM o.toOpM) n permLD n = .error s) : loadFr o n c p d = .error s := by
  unfold loadFr
  exact loadData_error h _ _ _

theorem loadFr_poisoned {d : Dev} {o : OpLd} {n a c : Nat} {s : Stop}
    (h : d.access p ((d.core c).cr o.cs.toNat) ((d.core c).eaM o.toOpM) n permLD n = .ok a) (hs : d.loadHow c p a n (howPlain o) = .error s) :
    loadFr o n c p d = .error s := by
  unfold loadFr
  exact loadData_poisoned h hs _

theorem loadAcq_error {d : Dev} {o : OpMxLd} {n c : Nat} {s : Stop}
    (h : d.access p ((d.core c).cr o.cs.toNat) ((d.core c).eaMx o.toOpMx) n permLD n = .error s) : loadAcq o n c p d = .error s := by
  unfold loadAcq
  exact loadData_error h _ _ _

theorem loadAcq_poisoned {d : Dev} {o : OpMxLd} {n a c : Nat} {s : Stop}
    (h : d.access p ((d.core c).cr o.cs.toNat) ((d.core c).eaMx o.toOpMx) n permLD n = .ok a) (hs : d.loadHow c p a n (howMarked o) = .error s) :
    loadAcq o n c p d = .error s := by
  unfold loadAcq
  exact loadData_poisoned h hs _

/-! ## Window moves and atomics whose access fails -/

theorem wspill_error {d : Dev} {o : OpM} {c : Nat} {s : Stop}
    (h : d.access p ((d.core c).cr o.cs.toNat) ((d.core c).eaM o) 128 permST 16 = .error s) : wspill o c p d = .error s := by
  simp [wspill, h]

theorem wfill_error {d : Dev} {o : OpLd} {c : Nat} {s : Stop}
    (h : d.access p ((d.core c).cr o.cs.toNat) ((d.core c).eaM o.toOpM) 128 permLD 16 = .error s) : wfill o c p d = .error s := by
  simp [wfill, h]

theorem Core.eaAtom_eq (x : Core) (o : OpAtom) : x.eaAtom o = (x.cr o.cs.toNat).cursor.toNat + (x.gr o.rb).toInt :=
  Int.add_zero _

theorem atomBody_error {d : Dev} {o : OpAtom} {c : Nat} {s : Stop} (k : AtomKind)
    (h : d.access p ((d.core c).cr o.cs.toNat) (((d.core c).cr o.cs.toNat).cursor.toNat + ((d.core c).gr o.rb).toInt) (if o.sz then 4 else 8) 0xC0
      (if o.sz then 4 else 8) = .error s) : atomBody o k c p d = .error s := by
  simp only [atomBody, Core.eaAtom_eq, show permLD ||| permST = 0xC0 from rfl, h]

theorem atomCapBody_error {d : Dev} {o : OpAtom} {c : Nat} {s : Stop} (cas : Bool)
    (h : d.access p ((d.core c).cr o.cs.toNat) (((d.core c).cr o.cs.toNat).cursor.toNat + ((d.core c).gr o.rb).toInt) 16
      (if ((d.core c).cr (o.rs.toNat % 16)).tag then 0xC8 else 0xC0) 16 = .error s) : atomCapBody o cas c p d = .error s := by
  have perms : permLD ||| permST ||| (if ((d.core c).cr (capOf o.rs)).tag then permSTC else 0) =
      if ((d.core c).cr (o.rs.toNat % 16)).tag then 0xC8 else 0xC0 := by
    unfold capOf
    split <;> rfl
  simp only [atomCapBody, Core.eaAtom_eq, perms, h]

end Sys2Proof.Machine
end

section
namespace Sys2Proof
open Machine

/-- Settles O13: a store whose access passes leaves its bytes to `Dev.storePiece` and writes no register. -/
theorem stores : Obligations.Stores := by
  unfold Obligations.Stores
  refine fun q d d' p => ⟨fun o h alone => ?_, fun o h alone => ?_⟩
  · intro x cap ea v g
    exact ⟨fun a ha => completes_alone _ h alone rfl (storeData_ok ha _ _ _), fun a ha => completes_alone _ h alone rfl (storeData_ok ha _ _ _),
      fun a ha => completes_alone _ h alone rfl (storeData_ok ha _ _ _), fun a ha => completes_alone _ h alone rfl (storeData_ok ha _ _ _),
      fun a ha => completes_alone _ h alone rfl (storeData_ok ha _ _ _), fun a ha => completes_alone _ h alone rfl (storeData_ok ha _ _ _),
      fun a ha => completes_alone _ h alone rfl (storeCapReg_ok ha _ _)⟩
  · intro x cap ea v g
    exact ⟨fun a ha => completes_alone _ h alone rfl (storeData_ok ha _ _ _), fun a ha => completes_alone _ h alone rfl (storeData_ok ha _ _ _),
      fun a ha => completes_alone _ h alone rfl (storeData_ok ha _ _ _), fun a ha => completes_alone _ h alone rfl (storeData_ok ha _ _ _),
      fun a ha => completes_alone _ h alone rfl (storeCapReg_ok ha _ _)⟩

end Sys2Proof
end

section
/-! PROOFS. Memory instructions that trap (O16). -/

namespace Sys2Proof
open Machine

/-- Settles O16: a failing access ends each body before it does anything, and a load that its checks let pass is stopped by poison alone. -/
theorem accessTraps : Obligations.AccessTraps := by
  unfold Obligations.AccessTraps
  refine fun q d d' p t => ⟨fun o h alone => ?_, fun o h alone => ?_, fun o h alone => ?_, fun o h alone => ?_, fun o h alone => ?_⟩
  · intro x cap ea traps checks
    have gr (i : Instr) (n : Nat) (signed : Bool)
        (hx : exec i { pending := q, dev := d } = State.exchange { pending := q, dev := d } o.core i (loadGr o n signed)) : traps i n n 0x80 :=
      fun ha => traps_checked _ h alone hx (loadGr_error ha signed)
    have fr (i : Instr) (n : Nat)
        (hx : exec i { pending := q, dev := d } = State.exchange { pending := q, dev := d } o.core i (loadFr o n)) : traps i n n 0x80 :=
      fun ha => traps_checked _ h alone hx (loadFr_error ha)
    have stopped (n : Nat) (l : List Instr) (bodies : ∀ i ∈ l, ∃ body,
        exec i { pending := q, dev := d } = State.exchange { pending := q, dev := d } o.core i body ∧
        ∀ a s, d'.access p cap ea n permLD n = .ok a → d'.loadHow o.core p a n (howPlain o) = .error s → body o.core p d' = .error s) :
        checks n l := fun a s ha hs => by
      obtain ⟨num, cls, fault, unit⟩ := Dev.loadHow_error hs
      refine ⟨num, cls, fault, unit, fun i hi => ?_⟩
      obtain ⟨body, hx, error⟩ := bodies i hi
      exact traps_alone body h alone hx (error a s ha hs)
    refine ⟨gr _ 1 true rfl, gr _ 1 false rfl, gr _ 2 true rfl, gr _ 2 false rfl, gr _ 4 true rfl, gr _ 4 false rfl, gr _ 8 false rfl,
      fun ha => traps_checked (ldcBody o) h alone rfl (loadCapReg_error ha _ _ _), fr _ 4 rfl, fr _ 8 rfl,
      fun ha => traps_checked (wfill o) h alone rfl (wfill_error ha), stopped 1 _ ?_, stopped 2 _ ?_, stopped 4 _ ?_, stopped 8 _ ?_, stopped 16 _ ?_⟩
    all_goals simp only [List.forall_mem_cons, List.not_mem_nil, false_implies, implies_true, and_true]
    · exact ⟨⟨loadGr o 1 true, rfl, fun _ _ ha hs => loadGr_poisoned ha hs _⟩, ⟨loadGr o 1 false, rfl, fun _ _ ha hs => loadGr_poisoned ha hs _⟩⟩
    · exact ⟨⟨loadGr o 2 true, rfl, fun _ _ ha hs => loadGr_poisoned ha hs _⟩, ⟨loadGr o 2 false, rfl, fun _ _ ha hs => loadGr_poisoned ha hs _⟩⟩
    · exact ⟨⟨loadGr o 4 true, rfl, fun _ _ ha hs => loadGr_poisoned ha hs _⟩, ⟨loadGr o 4 false, rfl, fun _ _ ha hs => loadGr_poisoned ha hs _⟩,
        ⟨loadFr o 4, rfl, fun _ _ ha hs => loadFr_poisoned ha hs⟩⟩
    · exact ⟨⟨loadGr o 8 false, rfl, fun _ _ ha hs => loadGr_poisoned ha hs _⟩, ⟨loadFr o 8, rfl, fun _ _ ha hs => loadFr_poisoned ha hs⟩⟩
    · exact ⟨ldcBody o, rfl, fun _ _ ha hs => loadCapReg_poisoned ha hs _⟩
  · intro x cap ea traps
    have gr (i : Instr) (n : Nat) (hx : exec i { pending := q, dev := d } = State.exchange { pending := q, dev := d } o.core i (storeGr o n)) :
        traps i n n 0x40 := fun ha => traps_checked _ h alone hx (storeData_error ha (x.gr o.rd) false _)
    have fr (i : Instr) (n : Nat) (hx : exec i { pending := q, dev := d } = State.exchange { pending := q, dev := d } o.core i (storeFr o n)) :
        traps i n n 0x40 := fun ha => traps_checked _ h alone hx (storeData_error ha (x.fr o.rd) false _)
    exact ⟨gr _ 1 rfl, gr _ 2 rfl, gr _ 4 rfl, gr _ 8 rfl, fr _ 4 rfl, fr _ 8 rfl,
      fun ha => traps_checked (stcBody o) h alone rfl (storeCapReg_error ha false _), fun ha => traps_checked (wspill o) h alone rfl (wspill_error ha)⟩
  · intro x cap ea both
    have gr (i : Instr) (n : Nat) (hx : exec i { pending := q, dev := d } = State.exchange { pending := q, dev := d } o.core i (loadAcq o n)) :
        both i n := ⟨fun ha => traps_checked _ h alone hx (loadAcq_error ha), fun a s ha hs => by
      obtain ⟨num, cls, fault, unit⟩ := Dev.loadHow_error hs
      exact ⟨num, cls, fault, unit, traps_alone _ h alone hx (loadAcq_poisoned ha hs)⟩⟩
    refine ⟨gr _ 1 rfl, gr _ 2 rfl, gr _ 4 rfl, gr _ 8 rfl, fun ha => traps_checked (ldcABody o) h alone rfl (loadCapReg_error ha _ _ _),
      fun a s ha hs => ?_⟩
    obtain ⟨num, cls, fault, unit⟩ := Dev.loadHow_error hs
    exact ⟨num, cls, fault, unit, traps_alone (ldcABody o) h alone rfl (loadCapReg_poisoned ha hs _)⟩
  · intro x cap ea traps
    have gr (i : Instr) (n : Nat) (hx : exec i { pending := q, dev := d } = State.exchange { pending := q, dev := d } o.core i (storeRel o n)) :
        traps i n 0x40 := fun ha => traps_checked _ h alone hx (storeData_error ha (x.gr o.rd) true _)
    exact ⟨gr _ 1 rfl, gr _ 2 rfl, gr _ 4 rfl, gr _ 8 rfl, fun ha => traps_checked (stcRBody o) h alone rfl (storeCapReg_error ha true _)⟩
  · intro x cap ea traps n stc
    have word (i : Instr) (k : AtomKind) (hx : exec i { pending := q, dev := d } = State.exchange { pending := q, dev := d } o.core i (atomBody o k)) :
        traps i n 0xC0 := fun ha => traps_checked _ h alone hx (atomBody_error k ha)
    exact ⟨word _ .swap rfl, word _ .cas rfl, word _ .add rfl, word _ .and rfl, word _ .or rfl, word _ .xor rfl, word _ .max rfl, word _ .min rfl,
      word _ .maxu rfl, word _ .minu rfl, fun ha => traps_checked _ h alone rfl (atomCapBody_error false ha),
      fun ha => traps_checked _ h alone rfl (atomCapBody_error true ha)⟩

end Sys2Proof
end

section
/-! PROOFS. What the traffic of the memory system leaves as it was: of the values, of the memory and of the cores. -/

namespace Sys2Proof.Machine

/-! ## Values -/

/-- The keys of the values that no traffic writes: those of the estate's blocks above the power block's and of the pavilion table, and
WINDOW_SIZE. -/
def Lasting (k : Nat) : Prop := 0x1200 * 2 ^ 14 ≤ k ∧ k < 0x3000 * 2 ^ 14 ∨ k = R.hearth_WINDOW_SIZE.key 0 0

/-- An entry of a block above the pavilion table, of another subindex than WINDOW_SIZE's. -/
abbrev Entry.Fleeting (e : Entry) : Prop := 0x3000 ≤ e.base ∧ e.sub < 256 ∧ e.sub ≠ 0x10 ∧ e.own ≠ .caller

theorem Entry.Fleeting.not_lasting {e : Entry} (h : e.Fleeting) (i p : Nat) : ¬ Lasting (e.key i p) := by
  obtain ⟨base, sub, window, own⟩ := h
  have key : e.key i p = ((e.base + i) * 256 + e.sub) * 64 := by rw [Entry.key, if_neg own, Nat.add_zero]
  have size : R.hearth_WINDOW_SIZE.key 0 0 = (0x7000 * 256 + 0x10) * 64 := rfl
  rw [Lasting, key, size]
  omega

/-! ## Traffic -/

/-- The parts of the memory that traffic does not write. -/
structure Mem.Kept (t m : Mem) : Prop where
  bits : t.bits = m.bits
  banks : t.banks = m.banks
  jobs : t.moverJobs = m.moverJobs

theorem Mem.kept_spad (m : Mem) (s : Ram) : ({ m with spad := s } : Mem).Kept m := ⟨rfl, rfl, rfl⟩
theorem Mem.kept_win (m : Mem) (w : Ram) (l : List WinStore) : ({ m with win := w, winPend := l } : Mem).Kept m := ⟨rfl, rfl, rfl⟩

/-- The parts of a core that the drain of its stores does not write. -/
structure Core.Kept (y x : Core) : Prop where
  run : y.run = x.run
  arch : y.arch = x.arch
  twin : y.twin = x.twin
  spare : y.inSpareSlot = x.inSpareSlot

/-- From `d` to `t` caches, directories and messages, and the stores of the cores that satisfy `who` as they drain, have changed the device:
counts rise, a bank's clear may end, and any core may lose lines of its L1 caches. -/
inductive Dev.Traffic (who : Nat → Prop) (d : Dev) : Dev → Prop
  | refl : Traffic who d d
  | onMem {t : Dev} (h : Traffic who d t) (f : Mem → Mem) (kept : (f t.mem).Kept t.mem := by exact ⟨rfl, rfl, rfl⟩) : Traffic who d (t.onMem f)
  | bump {t : Dev} (h : Traffic who d t) {e : Entry} (he : e.Fleeting) (i p n : Nat) : Traffic who d (t.bump e i p n)
  | clear {t : Dev} (h : Traffic who d t) {b p : Nat} (hb : t.bank b = .clearing p) : Traffic who d (t.setBank b (.held p))
  | drop {t : Dev} (h : Traffic who d t) (c line : Nat) : Traffic who d (t.onCore c (·.dropL1 line))
  | own {t : Dev} (h : Traffic who d t) {c : Nat} (hc : who c) {f : Core → Core} (hf : (f (t.core c)).Kept (t.core c)) : Traffic who d (t.onCore c f)

namespace Dev.Traffic

variable {who : Nat → Prop} {d0 d : Dev}

theorem ite (c : Prop) [Decidable c] {a b : Dev} (ha : Traffic who d0 a) (hb : Traffic who d0 b) : Traffic who d0 (if c then a else b) := by
  split
  · exact ha
  · exact hb

theorem foldl {β : Type} {f : Dev → β → Dev} (h : Traffic who d0 d) (hf : ∀ d b, Traffic who d0 d → Traffic who d0 (f d b)) (l : List β) :
    Traffic who d0 (l.foldl f d) := foldl_keeps (P := Traffic who d0) f hf l h

/-! ### Caches, directories and messages -/

theorem send (h : Traffic who d0 d) (m : CohMsg) : Traffic who d0 (d.send m) := h.onMem _
theorem putMemLine (h : Traffic who d0 d) (a : Nat) (l : Line) : Traffic who d0 (d.putMemLine a l) := h.onMem fun x => { x with main := x.main.putLine a l }
theorem setDir (h : Traffic who d0 d) (k : Nat) (e : DirEntry) : Traffic who d0 (d.setDir k e) := h.onMem _
theorem setL2 (h : Traffic who d0 d) (k : Nat) (l : L2Line) : Traffic who d0 (d.setL2 k l) := h.onMem _
theorem takeWback (h : Traffic who d0 d) (a i : Nat) : Traffic who d0 (d.takeWback a i) := h.onMem _
theorem openTxn (h : Traffic who d0 d) (m : CohMsg) (w : List Nat) (f : Option Nat) : Traffic who d0 (d.openTxn m w f) := h.onMem _
theorem mapOut (h : Traffic who d0 d) (a p l : Nat) (f : Outstanding → Outstanding) : Traffic who d0 (d.mapOut a p l f) := h.onMem _
theorem forgetPast (h : Traffic who d0 d) (p a b : Nat) : Traffic who d0 (d.forgetPast p a b) := h.onMem _

theorem note (h : Traffic who d0 d) (p l : Nat) (a b : Line) : Traffic who d0 (d.note p l a b) := h.ite _ (h.onMem _)

theorem dropL1 (h : Traffic who d0 d) (c l : Nat) (s : BitVec 17) (k : Nat) : Traffic who d0 (d.dropL1 c l s k) :=
  h.foldl (fun _ _ h => ite _ (h.drop _ _) h) _

theorem setHeld (h : Traffic who d0 d) (a : Nat) (l : L2Line) : Traffic who d0 (d.setHeld a l) := by
  refine ite _ ?_ (h.onMem _)
  split
  · exact (ite _ (h.dropL1 _ _ _ _) h).setL2 _ _
  · exact h

theorem l2Victim (n : Nat) (h : Traffic who d0 d) (b : Nat) (w : List Nat) : Traffic who d0 (l2Victim n d b w).2 := by
  fun_induction Machine.l2Victim n d b w with
  | case1 => exact h
  | case2 => exact h
  | case3 _ _ _ ih => exact ih (h.foldl (fun _ _ h => h.setL2 _ _) _)

theorem homeWb (h : Traffic who d0 d) (m : CohMsg) : Traffic who d0 (d.homeWb m) := by
  have discard := fun id => ((h.bump (e := R.coh_CROSSED_WB) (by decide) 0 0 1).onMem fun x =>
    { x with servedWb := x.servedWb.filter (· ≠ id) }).send
      { kind := .wback, agent := m.agent, pav := m.pav, line := m.line, wbId := some id }
  unfold Dev.homeWb
  dsimp only
  split
  · exact discard _
  · split
    · exact discard _
    · exact ite _ (((h.putMemLine _ _).setDir _ _).send _) (discard _)

theorem sendWb (h : Traffic who d0 d) (a : Nat) (l : L2Line) : Traffic who d0 (d.sendWb a l) :=
  (ite _ ((h.onMem _).bump (by decide) _ _ _) (h.onMem _)).send _

theorem wbRoom (h : Traffic who d0 d) (a : Nat) : Traffic who d0 (d.wbRoom a) := by
  refine ite _ h ?_
  split
  · exact h
  · exact (((h.onMem _).homeWb _).onMem _).takeWback _ _

theorem evict (h : Traffic who d0 d) (c k : Nat) : Traffic who d0 (d.evict c k) :=
  have h := (h.dropL1 c (d.l2At k).line (d.l2At k).slots 0xFFFF).setL2 k {}
  ite _ ((h.wbRoom c).sendWb c _) h

theorem install (h : Traffic who d0 d) (a p l : Nat) (st : LState) (x : Line) (s : Bool) : Traffic who d0 (d.install a p l st x s) := by
  refine ite _ ?_ (h.setHeld _ _)
  split
  · exact h.setL2 _ _
  · have victim := l2Victim 4 h (l2SetKey a l) (d.l2Ways a p l)
    dsimp only
    split
    · rename_i he
      rw [he] at victim
      exact victim
    · rename_i w d he
      rw [he] at victim
      have evicted := ite ((d.l2At (l2SetKey a l + w)).st = .i) victim (evict victim a (l2SetKey a l + w))
      exact (ite _ (evicted.bump (by decide) _ _ _) evicted).setL2 _ _

theorem dirWay (h : Traffic who d0 d) {p a k : Nat} {t : Dev} (ht : d.dirWay p a = some (k, t)) : Traffic who d0 t := by
  unfold Dev.dirWay at ht
  dsimp only at ht
  split at ht
  · cases ht; exact h
  · split at ht
    · cases ht; exact h
    · obtain ⟨k, -, hk⟩ := Option.map_eq_some_iff.mp ht
      cases hk
      exact h.foldl (fun _ _ h => ite _ h (h.setDir _ _)) _

theorem turnAway (h : Traffic who d0 d) (m : CohMsg) : Traffic who d0 (d.turnAway m) :=
  have waits := (h.bump (e := R.coh_PIN_WAITS) (by decide) 0 0 1).onMem fun x => { x with turned := x.turned ++ [_] }
  ite _ ((waits.bump (by decide) _ _ _).onMem _) waits

theorem finishTxn (h : Traffic who d0 d) (t : Txn) : Traffic who d0 (d.finishTxn t) := by
  unfold Dev.finishTxn
  refine ite _ ?_ (ite _ (h.send _) ?_)
  · have counted := fun f hf => (h.onMem f hf).bump (e := R.coh_DIR_EVICTIONS) (by decide) 0 0 1
    refine onMem ?_ _
    split
    · exact (counted _ (by exact ⟨rfl, rfl, rfl⟩)).setDir _ _
    · exact counted _ (by exact ⟨rfl, rfl, rfl⟩)
  · split
    · exact h.onMem _
    · dsimp only
      split
      · exact h.onMem _
      · exact ite _ (ite _ (((h.onMem _).setDir _ _).send _) ((h.onMem _).setDir _ _))
          (((((h.onMem _).setDir _ _).note _ _ _ _).putMemLine _ _).send _)

theorem dirEvict (h : Traffic who d0 d) (k : Nat) (m : CohMsg) : Traffic who d0 (d.dirEvict k m) := by
  unfold Dev.dirEvict
  dsimp only
  split
  · exact ((h.bump (by decide) _ _ _).setDir _ _).onMem _
  · exact ite _ (((h.setDir _ _).onMem _).finishTxn _) (((h.setDir _ _).onMem _).foldl (fun _ _ h => h.send _) _)

end Dev.Traffic

namespace Dev.Traffic

variable {who : Nat → Prop} {d0 d : Dev}

/-! ### The home, snoops and answers -/

theorem snoops {f : Nat → CohMsg} (h : Traffic who d0 d) (l : List Nat) : Traffic who d0 (l.foldl (fun d n => d.send (f n)) d) :=
  h.foldl (fun _ _ h => h.send _) l

theorem homeServe (h : Traffic who d0 d) (m : CohMsg) : Traffic who d0 (d.homeServe m) := by
  unfold Dev.homeServe
  dsimp only
  split
  · exact h
  · refine ite _ (h.homeWb m) (ite _ (h.turnAway m) ?_)
    have opened := h.onMem fun x => { x with bellows := x.bellows.filter fun b => b ≠ (m.agent, m.pav, m.line) }
    split
    · exact opened.turnAway m
    · rename_i k t hslot
      have h : Traffic who d0 t := by
        split at hslot
        · cases hslot; exact opened
        · split at hslot
          · exact opened.dirWay hslot
          · cases hslot; exact opened
      have pinned := fun e w f => (h.setDir k e).openTxn m w f
      refine ite _ (h.dirEvict k m) ?_
      split
      case h_1 =>
        split
        · exact ((pinned _ _ _).send _).finishTxn _
        · exact ((pinned _ _ _).send _).finishTxn _
        · exact (pinned _ _ _).send _
        · exact (pinned _ _ _).send _
      case h_2 | h_3 =>
        split
        · exact ((pinned _ _ _).send _).finishTxn _
        · have asked := fun e w f (x : CohMsg) g (l : List Nat) => snoops (f := g) ((pinned e w f).send x) l
          exact ite _ ((asked _ _ _ _ _ _).finishTxn _) (asked _ _ _ _ _ _)
        · have asked := fun e w f c [Decidable c] (x : CohMsg) g (l : List Nat) => snoops (f := g) (ite c ((pinned e w f).send x) (pinned e w f)) l
          exact ite _ ((asked _ _ _ _ _ _ _).finishTxn _) (asked _ _ _ _ _ _ _)
        · exact (pinned _ _ _).send _
      case h_4 =>
        split
        · exact (pinned _ _ _).send _
        · exact h.send _
      case h_5 | h_6 =>
        exact ite _ ((((ite _ h (h.setDir _ _)).note _ _ _ _).putMemLine _ _).send _) (snoops (pinned _ _ _) _)
      case h_7 => exact h.homeWb m
      case h_8 => exact h

theorem answerSnoop (h : Traffic who d0 d) (m : CohMsg) : Traffic who d0 (d.answerSnoop m) := by
  unfold Dev.answerSnoop
  dsimp only
  split
  · split
    · exact ((h.setHeld _ _).send _).send _
    · exact ((h.setHeld _ _).send _).send _
    · exact h.send _
  · split
    · exact (h.send _).send _
    · exact h.send _
  · split
    · exact ite _ (((h.setHeld _ _).send _).send _) ((h.setHeld _ _).send _)
    · exact ite _ (((h.setHeld _ _).send _).send _) ((h.setHeld _ _).send _)
    · exact ite _ (((h.setHeld _ _).send _).send _) ((h.setHeld _ _).send _)
    · exact (h.setHeld _ _).send _
  · exact h.setHeld _ _
  · exact h
  · split
    · exact ite _ (h.send _) ((h.send _).send _)
    · exact h.send _
  · exact h

theorem closed {c : Prop} [Decidable c] (h : Traffic who d0 d) {f : Mem → Mem} (hf : (f d.mem).Kept d.mem) (t : Txn) :
    Traffic who d0 (if c then (d.onMem f).finishTxn t else d.onMem f) := ite c ((h.onMem f hf).finishTxn t) (h.onMem f hf)

theorem serveWb (h : Traffic who d0 d) (id : Nat) : Traffic who d0 (d.onMem fun x => { x with servedWb := x.servedWb ++ [id] }) := h.onMem _

theorem answerTxn (h : Traffic who d0 d) (m : CohMsg) (t : Txn) : Traffic who d0 (d.answerTxn m t) := by
  unfold Dev.answerTxn
  split
  · exact h
  · dsimp only
    generalize m.payload = p
    generalize m.wbId = w
    rcases p with _ | l <;> rcases w with _ | i
    all_goals
      refine closed (ite _ ?_ ?_) ⟨rfl, rfl, rfl⟩ _
      · split
        · refine ite _ (setDir ?_ _ _) ?_
          all_goals apply_rules [serveWb, putMemLine]
        · apply_rules [serveWb, putMemLine]
      · split
        · apply_rules [serveWb, putMemLine]
        · refine ite _ (ite _ (send (setDir ?_ _ _) _) (ite _ (send (setDir ?_ _ _) _) (send (setDir ?_ _ _) _))) (send ?_ _)
          all_goals apply_rules [serveWb, putMemLine]

theorem takeAnswer (h : Traffic who d0 d) (m : CohMsg) : Traffic who d0 (d.takeAnswer m) := by
  have counted := ite (m.kind = .np) (h.bump (e := R.coh_STALE_SNOOPS) (by decide) 0 0 1) h
  refine ite _ ((h.bump (by decide) _ _ _).onMem _) ?_
  dsimp only
  split
  · exact counted
  · exact counted.answerTxn _ _

theorem tryDone (h : Traffic who d0 d) (a p l : Nat) : Traffic who d0 (d.tryDone a p l) := by
  unfold Dev.tryDone
  split
  · exact ite _ ((h.onMem _).send _) h
  · exact h

theorem takeData (h : Traffic who d0 d) (m : CohMsg) : Traffic who d0 (d.takeData m) := by
  refine ite _ (h.onMem _) (tryDone (mapOut ?_ _ _ _ _) _ _ _)
  split
  · exact h.install _ _ _ _ _ _
  · split
    · exact h.setHeld _ _
    · exact h

theorem deliver (h : Traffic who d0 d) (m : CohMsg) : Traffic who d0 (d.deliver m) := by
  unfold Dev.deliver
  split
  case h_17 =>
    split
    · exact h
    · dsimp only
      split
      · exact (h.onMem _).setDir _ _
      · exact h.onMem _
  all_goals apply_rules [homeServe, answerSnoop, takeData, takeAnswer, mapOut, tryDone, takeWback]

theorem take (h : Traffic who d0 d) (m : CohMsg) : Traffic who d0 (d.take m) := (h.onMem _).deliver m

/-! ### A line settled -/

theorem settleLine (n : Nat) (h : Traffic who d0 d) (p l : Nat) : Traffic who d0 (settleLine n d p l) := by
  induction n generalizing d with
  | zero => exact h
  | succ n ih =>
    unfold Machine.settleLine
    split
    · exact ih (h.take _)
    · split
      · exact h
      · split
        · exact ih (h.take _)
        · exact ih ((h.onMem _).deliver _)

theorem settle (h : Traffic who d0 d) (p l : Nat) : Traffic who d0 (d.settle p l) := settleLine _ h p l

theorem settleData (n : Nat) (h : Traffic who d0 d) (a p l : Nat) : Traffic who d0 (settleData n d a p l) := by
  induction n generalizing d with
  | zero => exact h
  | succ n ih =>
    unfold Machine.settleData
    refine ite _ h ?_
    split
    · exact ih (h.take _)
    · exact h.settle p l

theorem requestOwned (h : Traffic who d0 d) (m : CohMsg) : Traffic who d0 (d.requestOwned m) :=
  have sent := settleData settleFuel (((h.settle m.pav m.line).onMem fun x => { x with
    outstanding := x.outstanding ++ [{ agent := m.agent, pav := m.pav, line := m.line }] }).send m) m.agent m.pav m.line
  ite _ sent (sent.settle _ _)

theorem request (h : Traffic who d0 d) (m : CohMsg) : Traffic who d0 (d.request m) :=
  have h := h.settle m.pav m.line
  ((ite _ (h.onMem _) h).send m).settle _ _

theorem obtainOwned (h : Traffic who d0 d) (a p l : Nat) (s : Bool) : Traffic who d0 (d.obtainOwned a p l s) := by
  have h := h.settle p l
  unfold Dev.obtainOwned
  dsimp only
  split
  · exact h
  · exact h
  · exact h.requestOwned _
  · exact h.requestOwned _

theorem flushLine (h : Traffic who d0 d) (p l : Nat) (x : Bool) : Traffic who d0 (d.flushLine p l x) := by
  have h := h.settle p l
  unfold Dev.flushLine
  dsimp only
  split
  · exact h
  · have flushed : ∀ a, Traffic who d0 _ := fun a => h.foldl (f := fun d n => match d.held n p l with
      | some l => Dev.setHeld (if decide (l.st = .d) && !x then d.putMemLine a l.data else d) n { l with st := .i }
      | none => d) (fun d n h => by
        split
        · exact (ite _ (h.putMemLine _ _) h).setHeld _ _
        · exact h) (List.range 18)
    split
    · exact (flushed _).setDir _ _
    · exact flushed _

theorem flushDirWay (h : Traffic who d0 d) (w : Nat) : Traffic who d0 (d.flushDirWay w) :=
  h.foldl (fun d k h => by
    refine ite _ h ?_
    split
    · exact h.flushLine _ _ _
    · exact h.setDir _ _) _

theorem reserveDirWays (h : Traffic who d0 d) (p n : Nat) : Traffic who d0 (d.reserveDirWays p n) :=
  (h.onMem _).foldl (fun _ w h => h.flushDirWay w) _

theorem fitDirWays (h : Traffic who d0 d) : Traffic who d0 d.fitDirWays :=
  (h.foldl (fun _ _ h => ite _ (h.reserveDirWays _ _) h) _).foldl (fun _ _ h => ite _ (h.reserveDirWays _ _) h) _

/-! ### Stores performed -/

theorem zeroBank (h : Traffic who d0 d) (b : Nat) : Traffic who d0 (d.zeroBank b) := by
  unfold Dev.zeroBank
  exact h.onMem _

theorem bankCleared (h : Traffic who d0 d) (b : Nat) : Traffic who d0 (d.bankCleared b) := by
  unfold Dev.bankCleared
  split
  · rename_i p hp
    exact ((h.zeroBank b).clear hp).bump (by decide) _ _ _
  · exact h

theorem awaitBanks (h : Traffic who d0 d) (l : Nat) : Traffic who d0 (d.awaitBanks l) :=
  h.foldl (fun d i h => by
    split
    · exact h.bankCleared _
    · exact h) _

theorem spadWrite (h : Traffic who d0 d) (p l : Nat) (m : BitVec 64) (x : BitVec 512) (t : BitVec 4) :
    Traffic who d0 (d.spadWrite p l m x t) := by
  unfold Dev.spadWrite
  exact ((h.awaitBanks l).note _ _ _ _).onMem _ (Mem.kept_spad _ _)

theorem winWrite (h : Traffic who d0 d) (w p l : Nat) (m : BitVec 64) (x : BitVec 512) : Traffic who d0 (d.winWrite w p l m x) := by
  unfold Dev.winWrite
  exact (h.note _ _ _ _).onMem _ (Mem.kept_win _ _ _)

theorem writeL2 (h : Traffic who d0 d) (c k : Nat) (x : Bool) (f : Line → Line) : Traffic who d0 (d.writeL2 c k x f) :=
  ((h.dropL1 _ _ _ _).note _ _ _ _).setL2 _ _

section
variable {c : Nat} (hc : who c)
include hc

theorem observe (h : Traffic who d0 d) (p l : Nat) : Traffic who d0 (d.observe c p l) := ite _ (h.own hc ⟨rfl, rfl, rfl, rfl⟩) h

theorem l2Own (h : Traffic who d0 d) (p l : Nat) (x : Bool) : Traffic who d0 (d.l2Own c p l x).2.2 := by
  unfold Dev.l2Own
  dsimp only
  split
  · exact h
  · exact observe hc ((ite _ (h.bump (by decide) _ _ _) (h.bump (by decide) _ _ _)).obtainOwned _ _ _ _) _ _

theorem perform (h : Traffic who d0 d) (p : Nat) (e : MergeEntry) : Traffic who d0 (d.perform c p e) := by
  unfold Dev.perform
  split
  · have own := l2Own hc h p e.line e.hint
    split
    · rename_i k x d he
      rw [he] at own
      exact own.writeL2 _ _ _ _
    · rename_i x d he
      rw [he] at own
      exact own.request _
  · exact h.spadWrite _ _ _ _ _
  · exact h.winWrite _ _ _ _ _

theorem drainAt (h : Traffic who d0 d) (p i : Nat) : Traffic who d0 (d.drainAt c p i) := by
  unfold Dev.drainAt
  split
  · exact h
  · exact (perform hc (h.own hc ⟨rfl, rfl, rfl, rfl⟩) _ _).own hc ⟨rfl, rfl, rfl, rfl⟩

theorem drainLoop (n : Nat) (h : Traffic who d0 d) (p : Nat) : Traffic who d0 (drainLoop n d c p) := by
  induction n generalizing d with
  | zero => exact h
  | succ n ih => exact ite _ h (ih (drainAt hc h _ _))

theorem drainAll (h : Traffic who d0 d) (p : Nat) : Traffic who d0 (d.drainAll c p) := drainLoop hc 16 h p

theorem drainLine (h : Traffic who d0 d) (p l : Nat) : Traffic who d0 (d.drainLine c p l) := by
  unfold Dev.drainLine
  split
  · exact drainAt hc h _ _
  · exact h

end

theorem flushWay (h : Traffic who d0 d) (c w : Nat) (f : Nat → Bool) : Traffic who d0 (d.flushWay c w f) :=
  h.foldl (fun _ _ h => ite _ (h.settle _ _) (((h.settle _ _).evict _ _).settle _ _)) _

/-- The cores that store for a pavilion drain what meets a resource. -/
theorem drainTo {p : Nat} (hp : ∀ c ∈ d.storingCores p, who c) (h : Traffic who d0 d) (x : Res) : Traffic who d0 (d.drainTo p x) := by
  unfold Dev.drainTo
  generalize d.storingCores p = l at hp
  induction l generalizing d with
  | nil => exact h
  | cons c l ih =>
    obtain ⟨hc, hl⟩ := List.forall_mem_cons.mp hp
    exact ih (h.foldl (fun _ _ h => drainLine hc h p _) _) hl

/-- A bank emptied: the stores of its pavilion's cores to it come first. -/
theorem emptyBank (d : Dev) (b : Nat) : Traffic (fun _ => True) d (d.emptyBank b) := by
  unfold Dev.emptyBank
  split
  · exact ((drainTo (fun _ _ => trivial) .refl _).forgetPast _ _ _).zeroBank b
  · exact refl.zeroBank b

end Dev.Traffic

end Sys2Proof.Machine
end

section
/-! PROOFS. What follows of a device that only traffic has changed. -/

namespace Sys2Proof.Machine

/-- What a table holds of other keys than the one written, whatever stands for a missing value. -/
theorem Table.get_set_other {α : Type} [DecidableEq α] (x y : α) (t : Table α) {j k : Nat} (v : α) (h : j ≠ k) :
    Table.get x (Table.set y t k v) j = Table.get x t j := by
  unfold Table.set
  split
  · exact Table.get_erase_ne x _ h
  · rw [Table.get_insert_ne x _ v h, Table.get_erase_ne x _ h]

/-- The values that last are the same in two devices. -/
def Dev.SameLasting (t d : Dev) : Prop := ∀ k, Lasting k → ∀ x, Table.get x t.dict k = Table.get x d.dict k

theorem Dev.SameLasting.wr {t d : Dev} (h : t.SameLasting d) {e : Entry} {i p : Nat} (hk : ¬ Lasting (e.key i p)) (v : Nat) :
    (t.wr e v i p).SameLasting d :=
  fun k hl x => (Table.get_set_other x _ _ v (by rintro rfl; exact hk hl)).trans (h k hl x)

theorem Dev.SameLasting.rd {t d : Dev} (h : t.SameLasting d) {e : Entry} {i p : Nat} (hk : Lasting (e.key i p)) : t.rd e i p = d.rd e i p :=
  h _ hk _

theorem Core.Kept.trans {z y x : Core} (h : z.Kept y) (g : y.Kept x) : z.Kept x :=
  ⟨h.run.trans g.run, h.arch.trans g.arch, h.twin.trans g.twin, h.spare.trans g.spare⟩

/-- A change of one core that keeps its parts. -/
theorem Dev.core_onCore_kept (d : Dev) {c : Nat} {f : Core → Core} (h : (f (d.core c)).Kept (d.core c)) (k : Nat) :
    ((d.onCore c f).core k).Kept (d.core k) := by
  by_cases hk : k = c
  · subst hk
    rw [Dev.core_onCore_self]
    exact h
  · rw [Dev.core_onCore_ne _ _ hk]
    exact ⟨rfl, rfl, rfl, rfl⟩

/-- A core without lines in its L1 caches loses none. -/
theorem Core.dropL1_of_nil {x : Core} (h : x.l1d = [] ∧ x.victim = []) (line : Nat) : x.dropL1 line = x := by
  obtain ⟨l1d, victim⟩ := h
  unfold Core.dropL1
  rw [l1d, victim]
  conv_rhs => rw [show x = { x with l1d := [], victim := [] } by rw [← l1d, ← victim]]
  rfl

namespace Dev.Traffic

variable {who : Nat → Prop} {d t : Dev}

theorem rest (h : Traffic who d t) : { t with mem := d.mem, cores := d.cores, dict := d.dict } = d := by
  induction h with
  | refl => rfl
  | onMem _ _ _ ih | bump _ _ _ _ _ ih | clear _ _ ih | drop _ _ _ ih | own _ _ _ ih => exact ih

theorem value (h : Traffic who d t) : t.SameLasting d := by
  induction h with
  | refl => exact fun _ _ _ => rfl
  | bump _ he i p _ ih => exact ih.wr (he.not_lasting i p) _
  | onMem _ _ _ ih | clear _ _ ih | drop _ _ _ ih | own _ _ _ ih => exact ih

theorem core (h : Traffic who d t) (c : Nat) : (t.core c).Kept (d.core c) := by
  induction h with
  | refl => exact ⟨rfl, rfl, rfl, rfl⟩
  | drop _ _ _ ih => exact (Dev.core_onCore_kept _ (by exact ⟨rfl, rfl, rfl, rfl⟩) c).trans ih
  | own _ _ hf ih => exact (Dev.core_onCore_kept _ hf c).trans ih
  | onMem _ _ _ ih | bump _ _ _ _ _ ih | clear _ _ ih => exact ih

/-- A core that drains no store and holds no line in its L1 caches is as it was. -/
theorem idle (h : Traffic who d t) {c : Nat} (hc : ¬ who c) (empty : (d.core c).l1d = [] ∧ (d.core c).victim = []) : t.core c = d.core c := by
  induction h with
  | refl => rfl
  | @drop u _ k line ih =>
    by_cases hk : c = k
    · subst hk
      rw [Dev.core_onCore_self, ih]
      exact Core.dropL1_of_nil empty line
    · rw [Dev.core_onCore_ne _ _ hk]
      exact ih
  | @own u _ k hk f hf ih =>
    have other : c ≠ k := fun h => hc (h ▸ hk)
    rw [Dev.core_onCore_ne _ _ other]
    exact ih
  | onMem _ _ _ ih | bump _ _ _ _ _ ih | clear _ _ ih => exact ih

theorem bits (h : Traffic who d t) : t.mem.bits = d.mem.bits := by
  induction h with
  | refl => rfl
  | onMem _ _ kept ih => exact kept.bits.trans ih
  | bump _ _ _ _ _ ih | clear _ _ ih | drop _ _ _ ih | own _ _ _ ih => exact ih

theorem moverJobs (h : Traffic who d t) : t.mem.moverJobs = d.mem.moverJobs := by
  induction h with
  | refl => rfl
  | onMem _ _ kept ih => exact kept.jobs.trans ih
  | bump _ _ _ _ _ ih | clear _ _ ih | drop _ _ _ ih | own _ _ _ ih => exact ih

/-- A bank stays with the pavilion that it serves. -/
theorem bank_pav (h : Traffic who d t) (b : Nat) : (t.bank b).pav = (d.bank b).pav := by
  induction h with
  | refl => rfl
  | @onMem u _ f kept ih =>
    have same : (u.onMem f).bank b = u.bank b := congrArg (Table.get BankSt.free · b) kept.banks
    rw [same]
    exact ih
  | @clear u _ k p hb ih =>
    refine Eq.trans ?_ ih
    by_cases hk : b = k
    · subst hk
      rw [Dev.bank_setBank_self, hb]
      rfl
    · rw [Dev.bank, Dev.setBank, Table.get_set_ne _ _ _ hk]
      rfl
  | bump _ _ _ _ _ ih | drop _ _ _ ih | own _ _ _ ih => exact ih

theorem staged (h : Traffic who d t) : t.staged = d.staged := (congrArg Dev.staged h.rest :)
theorem eng (h : Traffic who d t) : t.eng = d.eng := (congrArg Dev.eng h.rest :)
theorem chan (h : Traffic who d t) : t.chan = d.chan := (congrArg Dev.chan h.rest :)
theorem hearth (h : Traffic who d t) : t.hearth = d.hearth := (congrArg Dev.hearth h.rest :)
theorem net (h : Traffic who d t) : t.net = d.net := (congrArg Dev.net h.rest :)
theorem pavs (h : Traffic who d t) : t.pavs = d.pavs := (congrArg Dev.pavs h.rest :)
theorem removing (h : Traffic who d t) : t.removing = d.removing := (congrArg Dev.removing h.rest :)

end Dev.Traffic

end Sys2Proof.Machine
end

section
/-! PROOFS. What the rings of the hearth, the sessions and their messages leave as it was. -/

namespace Sys2Proof.Machine

/-! ## Rings of the hearth -/

/-- From `d` to `t` only rings of the hearth and values that do not last have changed. -/
inductive Dev.Rings (d : Dev) : Dev → Prop
  | refl : Rings d d
  | setRing {t : Dev} (h : Rings d t) (r : Nat) (x : Ring) : Rings d (t.setRing r x)
  | bump {t : Dev} (h : Rings d t) {e : Entry} (he : e.Fleeting) (i p n : Nat) : Rings d (t.bump e i p n)

namespace Dev.Rings

variable {d0 d t : Dev}

theorem append (h : Rings d0 d) (r : Nat) (b : RecBody) (x y : Bool) : Rings d0 (d.append r b x y) := by
  unfold Dev.append
  exact (h.setRing _ _).bump (by decide) _ _ _

theorem placeWaiting (r : Nat) (l : List RecBody) (h : Rings d0 d) : Rings d0 (placeWaiting r l d) := by
  induction l generalizing d with
  | nil => exact h.setRing _ _
  | cons b l ih =>
    unfold Machine.placeWaiting
    split
    · exact ih (h.append _ _ _ _)
    · exact h.setRing _ _

theorem advanceTail (h : Rings d0 d) (r : Nat) : Rings d0 (d.advanceTail r) := placeWaiting _ _ (h.setRing _ _)

theorem appendMark (h : Rings d0 d) (r : Nat) (b : RecBody) : Rings d0 (d.appendMark r b) := by
  unfold Dev.appendMark
  dsimp only
  split
  · exact ((h.advanceTail r).append _ _ _ _).advanceTail _
  · exact ((h.advanceTail r).setRing _ _).bump (by decide) _ _ _

theorem fitRing (h : Rings d0 d) (r : Nat) : Rings d0 (d.fitRing r) := by
  unfold Dev.fitRing
  dsimp only
  split
  · exact h
  · exact (h.setRing _ _).advanceTail _

theorem recordDict (h : Rings d0 d) {e : Entry} {i p v : Nat} (ht : d.recordDict e i p v = some t) : Rings d0 t := by
  unfold Dev.recordDict at ht
  dsimp only at ht
  split at ht
  · cases ht
    exact ((h.advanceTail _).append _ _ _ _).setRing _ _
  · exact nomatch ht

/-! ### What follows -/

theorem rest (h : Rings d t) : { t with dict := d.dict, hearth := { t.hearth with rings := d.hearth.rings } } = d := by
  induction h with
  | refl => rfl
  | setRing _ _ _ ih | bump _ _ _ _ _ ih => exact ih

theorem value (h : Rings d t) : t.SameLasting d := by
  induction h with
  | refl => exact fun _ _ _ => rfl
  | setRing _ _ _ ih => exact ih
  | bump _ he i p _ ih => exact ih.wr (he.not_lasting i p) _

theorem cores (h : Rings d t) : t.cores = d.cores := (congrArg Dev.cores h.rest :)
theorem mem (h : Rings d t) : t.mem = d.mem := (congrArg Dev.mem h.rest :)
theorem staged (h : Rings d t) : t.staged = d.staged := (congrArg Dev.staged h.rest :)
theorem eng (h : Rings d t) : t.eng = d.eng := (congrArg Dev.eng h.rest :)
theorem chan (h : Rings d t) : t.chan = d.chan := (congrArg Dev.chan h.rest :)
theorem net (h : Rings d t) : t.net = d.net := (congrArg Dev.net h.rest :)
theorem pavs (h : Rings d t) : t.pavs = d.pavs := (congrArg Dev.pavs h.rest :)
theorem removing (h : Rings d t) : t.removing = d.removing := (congrArg Dev.removing h.rest :)
theorem fresh (h : Rings d t) : t.fresh = d.fresh := (congrArg Dev.fresh h.rest :)
theorem pck (h : Rings d t) : t.hearth.pck = d.hearth.pck := (congrArg (·.hearth.pck) h.rest :)
theorem ownerKeys (h : Rings d t) : t.hearth.ownerKeys = d.hearth.ownerKeys := (congrArg (·.hearth.ownerKeys) h.rest :)

end Dev.Rings

/-! ## Sessions -/

/-- A session later: the same one, without requests if it had none. -/
structure Session.Follows (y s : Session) : Prop where
  id : y.id = s.id
  pav : y.pav = s.pav
  reqs : s.reqs = [] → y.reqs = []

theorem Session.Follows.refl (s : Session) : s.Follows s := ⟨rfl, rfl, fun h => h⟩

theorem Session.Follows.trans {z y s : Session} (h : z.Follows y) (g : y.Follows s) : z.Follows s :=
  ⟨h.id.trans g.id, h.pav.trans g.pav, fun e => h.reqs (g.reqs e)⟩

/-- Sessions later: some of the same ones. -/
structure Sessions.Follow (l' l : List Session) : Prop where
  each : ∀ y ∈ l', ∃ s ∈ l, y.Follows s
  ids : (l'.map (·.id)).Sublist (l.map (·.id))

namespace Sessions.Follow

theorem refl (l : List Session) : Follow l l := ⟨fun y hy => ⟨y, hy, .refl y⟩, List.Sublist.refl _⟩

theorem trans {l'' l' l : List Session} (h : Follow l'' l') (g : Follow l' l) : Follow l'' l := by
  refine ⟨fun z hz => ?_, h.ids.trans g.ids⟩
  obtain ⟨y, hy, zy⟩ := h.each z hz
  obtain ⟨s, hs, ys⟩ := g.each y hy
  exact ⟨s, hs, zy.trans ys⟩

theorem filter (f : Session → Bool) (l : List Session) : Follow (l.filter f) l :=
  ⟨fun y hy => ⟨y, (List.mem_filter.mp hy).1, .refl y⟩, List.filter_sublist.map _⟩

theorem map {f : Session → Session} (hf : ∀ s, (f s).Follows s) (l : List Session) : Follow (l.map f) l := by
  refine ⟨fun y hy => ?_, ?_⟩
  · obtain ⟨s, hs, rfl⟩ := List.mem_map.mp hy
    exact ⟨s, hs, hf s⟩
  · rw [List.map_map]
    exact (List.map_congr_left (g := (·.id)) fun s _ => (hf s).id) ▸ List.Sublist.refl _

end Sessions.Follow

/-! ## Messages -/

/-- From `d` to `t` sessions and what they send, and the rules of the pace, have changed the device: records, doorbells, alerts and
values that do not last. -/
inductive Dev.Signals (d : Dev) : Dev → Prop
  | refl : Signals d d
  | wr {t : Dev} (h : Signals d t) {e : Entry} {i p : Nat} (hk : ¬ Lasting (e.key i p)) (v : Nat) : Signals d (t.wr e v i p)
  | plat {t : Dev} (h : Signals d t) (f : Plat → Plat) : Signals d (t.onPlat f)
  | alert {t : Dev} (h : Signals d t) (x y p n : Nat) : Signals d (t.alert x y p n)
  | ring {t : Dev} (h : Signals d t) (p a : Nat) : Signals d (t.ring p a)
  | records {t u : Dev} (h : Signals d t) (g : Dev.Rings t u) : Signals d u
  | closed {t : Dev} (h : Signals d t) (id : Nat) :
      Signals d { t with hearth := { t.hearth with sessOpen := Table.erase t.hearth.sessOpen id } }
  | net {t : Dev} (h : Signals d t) {f : HostNet → HostNet} (hf : Sessions.Follow (f t.net).sessions t.net.sessions) : Signals d (t.onNet f)

/-- The value of an entry of a block up to the power block's does not last. -/
theorem Entry.not_lasting_of_base_lt {e : Entry} (h : e.base < 0x1200 ∧ e.sub < 256) : ¬ Lasting (e.key 0 0) := by
  have low := e.key_lt 0 h.2 (p := 0) (by decide)
  have size : R.hearth_WINDOW_SIZE.key 0 0 = (0x7000 * 256 + 0x10) * 64 := rfl
  rw [Lasting, size]
  omega

namespace Dev.Signals

variable {d0 d t : Dev}

theorem ite (c : Prop) [Decidable c] {a b : Dev} (ha : Signals d0 a) (hb : Signals d0 b) : Signals d0 (if c then a else b) := by
  split
  · exact ha
  · exact hb

theorem foldl {β : Type} {f : Dev → β → Dev} (h : Signals d0 d) (hf : ∀ d b, Signals d0 d → Signals d0 (f d b)) (l : List β) :
    Signals d0 (l.foldl f d) := foldl_keeps (P := Signals d0) f hf l h

theorem low (h : Signals d0 d) {e : Entry} (he : e.base < 0x1200 ∧ e.sub < 256) (v : Nat) : Signals d0 (d.wr e v) :=
  h.wr (Entry.not_lasting_of_base_lt he) v

theorem count (h : Signals d0 d) {e : Entry} (he : e.base < 0x1200 ∧ e.sub < 256) (n : Nat) : Signals d0 (d.bump e 0 0 n) := h.low he _

theorem sessions (h : Signals d0 d) {f : Session → Session} (hf : ∀ s, (f s).Follows s) :
    Signals d0 (d.onNet fun n => { n with sessions := n.sessions.map f }) := h.net (.map hf _)

theorem onSess (h : Signals d0 d) (id : Nat) {f : Session → Session} (hf : ∀ s, (f s).Follows s) : Signals d0 (d.onSess id f) := by
  refine h.sessions fun s => ?_
  split
  · exact hf s
  · exact .refl s

theorem withSess (h : Signals d0 d) (id : Nat) {f : Session → Dev} (hf : ∀ s, Signals d0 (f s)) : Signals d0 (d.withSess id f) := by
  unfold Dev.withSess
  split
  · exact hf _
  · exact h

/-! ### The rules of the pace -/

theorem ringPace (h : Signals d0 d) (f : Nat → Bool) : Signals d0 (d.ringPace f) := h.foldl (fun _ _ h => ite _ (h.ring _ _) h) _

theorem markOpen (h : Signals d0 d) (f : HostReq → HostReq) : Signals d0 (d.markOpen f) :=
  h.sessions fun _ => ⟨rfl, rfl, fun e => by rw [e]; rfl⟩

theorem raiseDeficit (h : Signals d0 d) : Signals d0 d.raiseDeficit := (((h.plat _).count (by decide) _).markOpen _).alert _ _ _ _

theorem deficitRules (h : Signals d0 d) : Signals d0 d.deficitRules := by
  have ruled := fun c c' c'' [Decidable c] [Decidable c'] [Decidable c''] => ite c (ite c' h h.raiseDeficit)
    (ite c'' (h.plat fun x => { x with deficit := false }) h)
  unfold Dev.deficitRules
  exact ((ruled _ _ _).ringPace _).plat _

/-! ### What a session sends -/

theorem emit (h : Signals d0 d) (x : Out) : Signals d0 (d.emit x) := ite _ (h.net (.refl _)) h

theorem launchAt (h : Signals d0 d) (s : Session) (x : HeldTx) (iv : Nat) : Signals d0 (d.launchAt s x iv) := by
  unfold Dev.launchAt
  split
  · exact h
  · exact ite _ ((h.emit _).onSess _ fun _ => ⟨rfl, rfl, id⟩) (h.emit _)

theorem endSession (h : Signals d0 d) (s : Session) : Signals d0 (d.endSession s) := by
  have marked := ite (s.recorded = true) (h.records (Dev.Rings.refl.appendMark s.pav (.markClosed s.id))) h
  unfold Dev.endSession
  exact ((ite _ marked (marked.closed _)).net (.filter _ _)).deficitRules

theorem suspend (h : Signals d0 d) (id : Nat) : Signals d0 (d.suspend id) :=
  (h.onSess id (by exact fun _ => ⟨rfl, rfl, fun e => by rw [e]; rfl⟩)).net (by exact .refl _)

theorem endOrSuspend (h : Signals d0 d) (id : Nat) : Signals d0 (d.endOrSuspend id) :=
  h.withSess id fun s => ite _ (h.endSession s) (h.suspend id)

theorem spend (h : Signals d0 d) (id : Nat) : Signals d0 (d.spend id) :=
  h.withSess id fun s => ite _ h (((h.onSess id (by exact fun _ => ⟨rfl, rfl, fun e => e⟩)).foldl (fun _ _ h => h.launchAt s _ _) _).endOrSuspend id)

theorem countLate (h : Signals d0 d) (p : Nat) (r : HostReq) : Signals d0 (d.countLate p r) :=
  have late := fun v => (h.count (e := R.pow_LATE_COUNT) (by decide) 1).low (e := R.pow_LATE_BY_PAVILION) (by decide) v
  ite _ ((late _).count (by decide) _) (late _)

theorem firstDeliver (h : Signals d0 d) (s : Session) (r : HostReq) : Signals d0 (d.firstDeliver s r) :=
  (ite _ (h.countLate _ _) h).onSess _ fun _ => ⟨rfl, rfl, fun e => by rw [e]; rfl⟩

theorem launch (h : Signals d0 d) (x : HeldTx) : Signals d0 (d.launch x) := by
  refine h.withSess _ fun s => ite _ h (ite _ (h.spend _) ?_)
  have first : ∀ r : Option HostReq, Signals d0 (match r with
      | some r => if r.sent.isNone then d.firstDeliver s r else d
      | none => d) := fun r => by
    split
    · exact ite _ (h.firstDeliver _ _) h
    · exact h
  exact (first _).withSess _ fun s => ite _ (first _) (((first _).onSess _ (by exact fun _ => ⟨rfl, rfl, id⟩)).launchAt _ _ _)

theorem sendMsg (h : Signals d0 d) (id type seq flags : Nat) (b : Bytes) : Signals d0 (d.sendMsg id type seq flags b) :=
  h.withSess id fun _ => ite _ h (ite _ (h.spend _) (h.foldl (fun _ _ h => ite _ (h.net (.refl _)) (h.launch _)) _))

theorem answer (h : Signals d0 d) (id seq type flags : Nat) (b : Bytes) : Signals d0 (d.answer id seq type flags b) := by
  have stored := fun (f : Session → Session) (hf : ∀ s, (f s).Follows s) => h.onSess id hf
  exact withSess (stored _ (by exact fun _ => ⟨rfl, rfl, fun e => e⟩)) id fun s =>
    ite _ (stored _ (by exact fun _ => ⟨rfl, rfl, fun e => e⟩)) ((stored _ (by exact fun _ => ⟨rfl, rfl, fun e => e⟩)).sendMsg _ _ _ _ _)

theorem deviceClose (h : Signals d0 d) (id reason : Nat) : Signals d0 (d.deviceClose id reason) :=
  h.withSess id fun _ => ite _ (ite _ (h.endSession _) h) ((h.sendMsg _ _ _ _ _).endOrSuspend id)

/-! ### What follows -/

theorem value (h : Signals d t) : t.SameLasting d := by
  induction h with
  | refl => exact fun _ _ _ => rfl
  | wr _ hk _ ih => exact ih.wr hk _
  | records _ g ih => exact fun k hk x => (g.value k hk x).trans (ih k hk x)
  | plat _ _ ih | alert _ _ _ _ _ ih | ring _ _ _ ih | closed _ _ ih | net _ _ ih => exact ih

theorem follow (h : Signals d t) : Sessions.Follow t.net.sessions d.net.sessions := by
  induction h with
  | refl => exact .refl _
  | records _ g ih => exact g.net ▸ ih
  | net _ hf ih => exact hf.trans ih
  | wr _ _ _ ih | plat _ _ ih | alert _ _ _ _ _ ih | ring _ _ _ ih | closed _ _ ih => exact ih

/-- The parts of the device that the sessions leave as they are. -/
theorem rest (h : Signals d t) : t.cores = d.cores ∧ t.staged = d.staged ∧ t.eng = d.eng ∧ t.chan = d.chan ∧ t.pavs = d.pavs ∧
    t.removing = d.removing ∧ t.fresh = d.fresh ∧ t.hearth.pck = d.hearth.pck ∧ t.hearth.ownerKeys = d.hearth.ownerKeys ∧
    t.mem.banks = d.mem.banks := by
  induction h with
  | refl => exact ⟨rfl, rfl, rfl, rfl, rfl, rfl, rfl, rfl, rfl, rfl⟩
  | @records _ u _ g ih =>
    rw [g.cores, g.staged, g.eng, g.chan, g.pavs, g.removing, g.fresh, g.pck, g.ownerKeys, g.mem]
    exact ih
  | wr _ _ _ ih | plat _ _ ih | alert _ _ _ _ _ ih | ring _ _ _ ih | closed _ _ ih | net _ _ ih => exact ih

end Dev.Signals

end Sys2Proof.Machine
end

section
/-! PROOFS. Writes of the dictionary answered, and a store of a core that the spec does not have, which a RECLAIM performs (O47). -/

namespace Sys2Proof.Machine

/-! ## The answer of a write -/

/-- A write that passes checks 1 to 7 is answered with the verdict of its entry's chapter. -/
theorem replies_of_writes {i : Instr} {q : List Instr} {d d1 : Dev} {o : Rx} {s : Session} {w : WriteOp} {row : DictRow} (apply : Dev → WriteOp → Verdict)
    (h : d.Writes o row d1 s w) (hx : exec i { pending := q, dev := d } = State.act { pending := q, dev := d } fun d => d.writeRx o row apply) :
    Replies i q d o s w (apply d1 w).dev (apply d1 w).reason (apply d1 w).off := by
  refine answers_of_act _ hx h.runs ((Dev.writeRx_of_writes apply (fun d _ => d) h).trans ?_)
  exact ite_self _

/-- The reply to a write that took effect leaves the cores as they are. -/
theorem Dev.dictAnswer_cores (d : Dev) (s : Session) (seq : Nat) (q : DictReq) (type offset total : Nat) (data : Bytes) (off : Option (Nat × Nat))
    (more : Bool) : (d.dictAnswer s seq q 0 type offset total data off more).cores = d.cores :=
  (Dev.Signals.refl.answer _ _ _ _ _).rest.1

/-! ## A RECLAIM on a device with a store left over -/

/-- The estate's session. -/
def reclaimSession : Session := { id := 5, pav := 0, st := .open, authKey := 0xFFFF }

/-- Its WRITE of 1 to RECLAIM of cluster 0. -/
def reclaimWrite : Rx where
  port := 0
  pcp := 7
  src := { ip := 0xFFFF0A000002, udp := 9000 }
  pav := 0
  addrSlot := 0
  t := 0
  msg :=
    { version := 1, type := 0x0B, flags := 8, session := 5, seq := 1, ack := 0, cls := 0, res0 := 0, iv := 1, crc := 0, tag := 0
      payload := leBytes 1 2 ++ leBytes 1 R.spad_RECLAIM.sub ++ leBytes 2 R.spad_RECLAIM.base ++ zeros 2 ++ leBytes 1 R.spad_RECLAIM.ty.code ++
        zeros 5 ++ leBytes 4 4 ++ leBytes 2 4 ++ zeros 6 ++ leBytes 4 1 }

/-- A device with bank 0 released by pavilion 1, which gives up core 300: a number that names no core (R3), and to which the statement's
hypothesis on the merging buffers does not reach. A store to bank 0 waits in its merging buffer. -/
def strayStore : Dev where
  cores := [(300, { merge := [{ line := 0x3DC0000000 / 64, data := 1, mask := 1, tags := 0 }] })]
  mem := { banks := [(0, .released 1 0)] }
  net := { sessions := [reclaimSession], rx := [reclaimWrite] }
  removing := [(1, .core 300)]

/-- The device with the message taken. -/
def strayTaken : Dev := ((strayStore.netAt 0).onNet fun n => { n with rx := n.rx.erase reclaimWrite }).pfcRules 0

/-- The device with the session's host proved. -/
def strayHeard : Dev := strayTaken.proveHost reclaimWrite 5

/-- The session after its message. -/
def reclaimSession1 : Session := { reclaimSession with place0 := some (reclaimWrite.src, 0), deadDue := strayTaken.deadEnd }

/-- The write as the rules of RECLAIM meet it. -/
def reclaimOp : WriteOp := { entry := R.spad_RECLAIM, i := 0, p := 0, raw := [1, 0, 0, 0], v := 1 }

/-- The device as they meet it. -/
def strayWrite : Dev := strayHeard.onSess 5 fun x => { x with assembly := none }

theorem strayStore_hears : strayStore.HearsNew reclaimWrite 0x0B strayHeard reclaimSession1 :=
  ⟨⟨strayTaken, reclaimSession, ⟨by decide, by decide +kernel, rfl⟩, by decide +kernel, by decide, rfl, by decide +kernel⟩, by decide +kernel,
    by decide +kernel⟩

theorem strayStore_writes : strayStore.Writes reclaimWrite .reclaim strayWrite reclaimSession1 reclaimOp :=
  ⟨by decide, by decide +kernel, by decide +kernel, by decide +kernel, by decide +kernel, by decide +kernel, by decide +kernel,
    ⟨strayHeard, strayStore_hears, by decide +kernel, rfl⟩, by decide +kernel, by decide +kernel⟩

/-- Banks named in a write of RECLAIM quenched and freed, where they are released. -/
def Dev.reclaimed (d : Dev) (w : WriteOp) : Dev :=
  (bitList 32 w.v).foldl (fun d k =>
    match d.bank (32 * w.i + k) with
    | .released .. => d.quenchBank (32 * w.i + k)
    | _ => d) d

theorem reclaim_replies {q : List Instr} {d d1 : Dev} {o : Rx} {s : Session} {w : WriteOp} (h : d.Writes o .reclaim d1 s w) :
    Replies (.reclaim o) q d o s w (d1.reclaimed w) 0 := replies_of_writes (fun d w => taken (d.reclaimed w)) h rfl

/-- A command has one answer. -/
theorem Answers.unique {i : Instr} {q : List Instr} {d t u : Dev} (h : Answers i q d t) (g : Answers i q d u) : t = u := by
  injection Eq.trans (Eq.symm h) g with state
  injection state

/-- The store of core 300 is performed, and leaves its merging buffer. -/
theorem strayWrite_reclaimed : (strayWrite.reclaimed reclaimOp).cores ≠ strayWrite.cores := by decide +kernel

end Sys2Proof.Machine
end

section
namespace Sys2Proof
open Machine

/-- Refutes O47 in its last clause: a RECLAIM performs the stores that the cores given up by the bank's pavilion still hold for it, and the
clause's hypothesis is about cores 0 to 255 alone, where the model's removals may name others (`strayStore`). -/
theorem not_memoryResources : ¬ Obligations.MemoryResources := by
  unfold Obligations.MemoryResources
  intro h
  obtain ⟨-, -, -, -, -, reclaim⟩ := h
  have buffers : ∀ c < 256, (strayWrite.core c).merge = [] := by decide +kernel
  obtain ⟨t, replies, cores, -⟩ := reclaim [] _ _ _ _ _ strayStore_writes buffers
  have same := congrArg Dev.cores (Answers.unique replies (reclaim_replies strayStore_writes))
  rw [Dev.dictAnswer_cores, Dev.dictAnswer_cores] at same
  exact strayWrite_reclaimed (same.symm.trans cores)

end Sys2Proof
end

section
/-! PROOFS. The entries of a pavilion, and the steps after which its values, its staged values and what waits for removal are the same. -/

namespace Sys2Proof.Machine

/-! ## Entries of the pavilion table and of the estate -/

/-- An entry of the pavilion table. -/
abbrev Entry.OfPav (e : Entry) : Prop := e.base = 0x2000 ∧ e.sub < 256 ∧ e.own ≠ .caller

theorem Entry.OfPav.key {e : Entry} (h : e.OfPav) (p : Nat) : e.key p 0 = ((0x2000 + p) * 256 + e.sub) * 64 := by
  obtain ⟨base, -, own⟩ := h
  rw [Entry.key, if_neg own, base, Nat.add_zero]

theorem Entry.OfPav.key_ne {e e' : Entry} (h : e.OfPav) (h' : e'.OfPav) (hs : e.sub ≠ e'.sub) (p : Nat) : e.key p 0 ≠ e'.key p 0 := by
  rw [h.key, h'.key]
  omega

theorem Entry.OfPav.lasting {e : Entry} (h : e.OfPav) {p : Nat} (hp : p < 0x1000) : Lasting (e.key p 0) := by
  have key := h.key p
  obtain ⟨-, sub, -⟩ := h
  rw [Lasting, key]
  omega

/-- An entry of the estate. -/
abbrev Entry.OfEstate (e : Entry) : Prop := e.base = 0x1200 ∧ e.sub < 256 ∧ e.own ≠ .caller

theorem Entry.OfEstate.key {e : Entry} (h : e.OfEstate) : e.key 0 0 = (0x1200 * 256 + e.sub) * 64 := by
  obtain ⟨base, -, own⟩ := h
  rw [Entry.key, if_neg own, base, Nat.add_zero, Nat.add_zero]

theorem Entry.OfEstate.lasting {e : Entry} (h : e.OfEstate) : Lasting (e.key 0 0) := by
  have key := h.key
  obtain ⟨-, sub, -⟩ := h
  rw [Lasting, key]
  omega

theorem Entry.OfEstate.key_ne {e e' : Entry} (h : e.OfEstate) (h' : e'.OfPav) (p : Nat) : e.key 0 0 ≠ e'.key p 0 := by
  have key := h.key
  obtain ⟨-, sub, -⟩ := h
  rw [key, h'.key]
  omega

theorem windowSize_lasting : Lasting (R.hearth_WINDOW_SIZE.key 0 0) := .inr rfl

theorem windowSize_key : R.hearth_WINDOW_SIZE.key 0 0 = (0x7000 * 256 + 0x10) * 64 := rfl

theorem Entry.OfPav.key_ne_window {e : Entry} (h : e.OfPav) {p : Nat} (hp : p < 0x1000) : e.key p 0 ≠ R.hearth_WINDOW_SIZE.key 0 0 := by
  have key := h.key p
  obtain ⟨-, sub, -⟩ := h
  rw [key, windowSize_key]
  omega

/-- A value of another entry of the pavilion. -/
theorem Dev.rd_wr_pav (d : Dev) {e e' : Entry} (v p : Nat) (he : e.OfPav) (he' : e'.OfPav) (hs : e'.sub ≠ e.sub) :
    (d.wr e v p).rd e' p = d.rd e' p := Dev.rd_wr_ne _ _ (he'.key_ne he hs p)

theorem pavStaged_ofPav : ∀ e ∈ pavStaged, e.OfPav := by decide

theorem block2000_ofPav : ∀ e ∈ R.block2000, e.OfPav := by decide

/-! ## Steps that keep a pavilion's values -/

/-- From `d` to `t` the values that last, the staged values, what waits for removal and what each core runs are the same, and so are what is
kept of the pavilions and their keys. -/
structure Dev.Steady (d t : Dev) : Prop where
  value : t.SameLasting d
  staged : t.staged = d.staged
  removing : t.removing = d.removing
  run : ∀ c, (t.core c).run = (d.core c).run
  pavs : t.pavs = d.pavs
  pck : t.hearth.pck = d.hearth.pck
  ownerKeys : t.hearth.ownerKeys = d.hearth.ownerKeys

namespace Dev.Steady

variable {d t u : Dev}

theorem refl (d : Dev) : Steady d d := ⟨fun _ _ _ => rfl, rfl, rfl, fun _ => rfl, rfl, rfl, rfl⟩

theorem trans (h : Steady d t) (g : Steady t u) : Steady d u where
  value k hk x := (g.value k hk x).trans (h.value k hk x)
  staged := g.staged.trans h.staged
  removing := g.removing.trans h.removing
  run c := (g.run c).trans (h.run c)
  pavs := g.pavs.trans h.pavs
  pck := g.pck.trans h.pck
  ownerKeys := g.ownerKeys.trans h.ownerKeys

theorem of_traffic {who : Nat → Prop} (h : Dev.Traffic who d t) : Steady d t where
  value := h.value
  staged := h.staged
  removing := h.removing
  run c := (h.core c).run
  pavs := h.pavs
  pck := congrArg (·.pck) h.hearth
  ownerKeys := congrArg (·.ownerKeys) h.hearth

theorem of_rings (h : Dev.Rings d t) : Steady d t where
  value := h.value
  staged := h.staged
  removing := h.removing
  run c := by rw [Dev.core, h.cores]; rfl
  pavs := h.pavs
  pck := h.pck
  ownerKeys := h.ownerKeys

theorem of_signals (h : Dev.Signals d t) : Steady d t := by
  obtain ⟨cores, staged, -, -, pavs, removing, -, pck, ownerKeys, -⟩ := h.rest
  exact ⟨h.value, staged, removing, fun c => by rw [Dev.core, cores]; rfl, pavs, pck, ownerKeys⟩

theorem foldl {β : Type} {f : Dev → β → Dev} (h : Steady d t) (l : List β) (hf : ∀ t b, Steady t (f t b)) : Steady d (l.foldl f t) :=
  foldl_keeps (P := Steady d) f (fun t b h => h.trans (hf t b)) l h

/-- A change of the memory or of the channels alone. -/
theorem setBank (d : Dev) (b : Nat) (x : BankSt) : Steady d (d.setBank b x) := ⟨fun _ _ _ => rfl, rfl, rfl, fun _ => rfl, rfl, rfl, rfl⟩
theorem onChan (d : Dev) (f : Chan → Chan) : Steady d (d.onChan f) := ⟨fun _ _ _ => rfl, rfl, rfl, fun _ => rfl, rfl, rfl, rfl⟩
theorem ring (d : Dev) (p a : Nat) : Steady d (d.ring p a) := ⟨fun _ _ _ => rfl, rfl, rfl, fun _ => rfl, rfl, rfl, rfl⟩

/-- A value that does not last. -/
theorem wr (d : Dev) {e : Entry} {i p : Nat} (hk : ¬ Lasting (e.key i p)) (v : Nat) : Steady d (d.wr e v i p) :=
  ⟨Dev.SameLasting.wr (fun _ _ _ => rfl) hk v, rfl, rfl, fun _ => rfl, rfl, rfl, rfl⟩

/-! ### What a pavilion reads afterwards -/

theorem rd (h : Steady d t) {e : Entry} (he : e.OfPav) {p : Nat} (hp : p < 0x1000) : t.rd e p = d.rd e p := h.value.rd (he.lasting hp)

theorem rdStaged (h : Steady d t) (e : Entry) (p : Nat) : t.rdStaged e p = d.rdStaged e p := congrArg (Table.get none · _) h.staged

theorem windowSize (h : Steady d t) : t.rd R.hearth_WINDOW_SIZE = d.rd R.hearth_WINDOW_SIZE := h.value.rd windowSize_lasting

/-! ### Quenching and assigning -/

theorem emptyBank (d : Dev) (b : Nat) : Steady d (d.emptyBank b) := .of_traffic (.emptyBank d b)

theorem quenchBank (d : Dev) (b : Nat) : Steady d (d.quenchBank b) := (emptyBank d b).trans (setBank _ _ _)

theorem assignBank (d : Dev) (p gen b : Nat) : Steady d (d.assignBank p gen b) := by
  unfold Dev.assignBank
  split
  · split
    · exact setBank _ _ _
    · exact (quenchBank d b).trans (setBank _ _ _)
  · exact setBank _ _ _
  · exact refl d

theorem assignEndpoint (d : Dev) (p gen e : Nat) : Steady d (d.assignEndpoint p gen e) := by
  unfold Dev.assignEndpoint
  split
  · exact refl d
  · exact (wr d (Entry.Fleeting.not_lasting (by decide) e 0) 0).trans (onChan _ _)

theorem assignWayGroup (d : Dev) (p n : Nat) : Steady d (d.assignWayGroup p n) := by
  unfold Dev.assignWayGroup
  split
  · exact .of_traffic (who := fun _ => False) ((Dev.Traffic.refl.flushWay _ _ _).flushWay _ _ _)
  · exact refl d

theorem placeGranules (d : Dev) (p : Nat) (l : List Nat) : Steady d (d.placeGranules p l) :=
  (refl d).foldl l fun t g => by
    split
    · exact .of_traffic (who := fun _ => False) (Dev.Traffic.refl.onMem _)
    · exact refl t

end Dev.Steady

/-- The units of a bitmap that one device gives a pavilion and another does not. -/
theorem Dev.mem_droppedUnits {d n : Dev} {p k width : Nat} {e : Entry} :
    k ∈ d.droppedUnits n p e width ↔ k < width ∧ bitOf (d.rd e p) k = true ∧ bitOf (n.rd e p) k = false := by
  simp only [Dev.droppedUnits, bitList, bitOf, List.mem_filter, List.mem_range, Bool.not_eq_true', and_assoc]

/-! ## Cores assigned (R45) -/

/-- Free cores that are assigned stop; the others run on as they did. -/
theorem Dev.run_assignCores (l : List Nat) (d : Dev) (c : Nat) :
    ((l.foldl (fun d c => d.assignCore c) d).core c).run = if c ∈ l ∧ (d.core c).run = .free then .stopped else (d.core c).run := by
  induction l generalizing d with
  | nil => simp
  | cons k l ih =>
    rw [List.foldl_cons, ih]
    by_cases hk : c = k
    · subst hk
      by_cases hf : (d.core c).run = .free <;> simp [Dev.assignCore, Dev.core_onCore_self, hf]
    · rw [Dev.assignCore, Dev.core_onCore_ne _ _ hk]
      simp [hk]

/-- The assignment of cores changes nothing else. -/
theorem Dev.rest_assignCores (l : List Nat) (d : Dev) : { l.foldl (fun d c => d.assignCore c) d with cores := d.cores } = d := by
  induction l generalizing d with
  | nil => rfl
  | cons k l ih => exact congrArg (fun t : Dev => { t with cores := d.cores }) (ih (d.assignCore k))

/-- What a pavilion newly holds assigned: free cores among it stop. -/
theorem Dev.assignNew_spec (d old : Dev) (p : Nat) : let t := d.assignNew old p
    t.SameLasting d ∧ t.staged = d.staged ∧ t.removing = d.removing ∧ t.pavs = d.pavs ∧ t.hearth.pck = d.hearth.pck ∧
      t.hearth.ownerKeys = d.hearth.ownerKeys ∧
      ∀ c < 256, bitOf (d.rd R.pav_CORES p) c = true → bitOf (old.rd R.pav_CORES p) c = false → (d.core c).run = .free →
        (t.core c).run = .stopped := by
  intro t
  have steady := ((((Dev.Steady.placeGranules d p (d.droppedUnits old p R.pav_GRANULES 288)).foldl (d.droppedUnits old p R.pav_BANKS 512)
    fun t b => .assignBank t p (d.rd R.pav_GENERATION p) b).foldl (d.droppedUnits old p R.pav_ENDPOINTS 4096)
    fun t e => .assignEndpoint t p (d.rd R.pav_GENERATION p) e).foldl (d.droppedUnits old p R.pav_WAY_GROUPS 128)
    fun t n => .assignWayGroup t p n)
  have ht : t = (d.droppedUnits old p R.pav_CORES 256).foldl (fun d c => d.assignCore c) _ := rfl
  rw [ht]
  generalize (d.droppedUnits old p R.pav_WAY_GROUPS 128).foldl _ _ = u at steady
  have rest := Dev.rest_assignCores (d.droppedUnits old p R.pav_CORES 256) u
  have run := Dev.run_assignCores (d.droppedUnits old p R.pav_CORES 256) u
  generalize (d.droppedUnits old p R.pav_CORES 256).foldl (fun d c => d.assignCore c) u = v at rest run
  have part {α : Type} (f : Dev → α) : f { v with cores := u.cores } = f u := congrArg f rest
  refine ⟨fun k hk x => (congrArg (Table.get x · k) (part Dev.dict)).trans (steady.value k hk x), (part Dev.staged).trans steady.staged,
    (part Dev.removing).trans steady.removing, (part Dev.pavs).trans steady.pavs, (part (·.hearth.pck)).trans steady.pck,
    (part (·.hearth.ownerKeys)).trans steady.ownerKeys, fun c hc new before free => ?_⟩
  have gained : c ∈ d.droppedUnits old p R.pav_CORES 256 :=
    Dev.mem_droppedUnits.mpr ⟨hc, new, before⟩
  rw [run, if_pos ⟨gained, (steady.run c).trans free⟩]

end Sys2Proof.Machine
end

section
/-! PROOFS. Staged values put in force, the window taken, and the creation of a pavilion. -/

namespace Sys2Proof.Machine

/-! ## Staged values in force -/

/-- Values of some entries of a pavilion put in force, `g` giving them: these entries read them, staged no more, and nothing else changes. -/
theorem Dev.inForce_spec (p : Nat) (g : Entry → Option Nat) (l : List Entry) (d : Dev) (hl : ∀ e ∈ l, e.OfPav) (distinct : (l.map (·.sub)).Nodup) :
    let t := d.inForce (l.filterMap fun e => (g e).map fun v => (e, p, v))
    { t with dict := d.dict, staged := d.staged } = d ∧
      (∀ k, (∀ e ∈ l, k ≠ e.key p 0) → (∀ x, Table.get x t.dict k = Table.get x d.dict k) ∧ Table.get none t.staged k = Table.get none d.staged k) ∧
      ∀ e ∈ l, t.rd e p = (g e).getD (d.rd e p) ∧ t.rdStaged e p = if (g e).isSome then none else d.rdStaged e p := by
  induction l generalizing d with
  | nil => exact ⟨rfl, fun _ _ => ⟨fun _ => rfl, rfl⟩, by simp⟩
  | cons e l ih =>
    obtain ⟨he, hl⟩ := List.forall_mem_cons.mp hl
    obtain ⟨fresh, distinct⟩ := List.nodup_cons.mp distinct
    have other : ∀ e' ∈ l, e.key p 0 ≠ e'.key p 0 := fun e' he' =>
      he.key_ne (hl e' he') (fun hs => fresh (List.mem_map.mpr ⟨e', he', hs.symm⟩)) p
    cases hg : g e with
    | none =>
      rw [List.filterMap_cons_none (by rw [hg]; rfl)]
      obtain ⟨rest, same, read⟩ := ih d hl distinct
      have first := same _ other
      refine ⟨rest, fun k hk => same k fun e' he' => hk e' (List.mem_cons_of_mem _ he'), List.forall_mem_cons.mpr ⟨?_, read⟩⟩
      rw [hg]
      exact ⟨first.1 _, first.2⟩
    | some v =>
      rw [List.filterMap_cons_some (by rw [hg]; rfl)]
      obtain ⟨rest, same, read⟩ := ih ((d.wr e v p).wrStaged e none p) hl distinct
      have first := same _ other
      have later : ∀ k, k ≠ e.key p 0 → (∀ x, Table.get x ((d.wr e v p).wrStaged e none p).dict k = Table.get x d.dict k) ∧
          Table.get none ((d.wr e v p).wrStaged e none p).staged k = Table.get none d.staged k :=
        fun k hk => ⟨fun x => Table.get_set_other x _ _ v hk, Table.get_set_other none none d.staged none hk⟩
      refine ⟨?_, fun k hk => ?_, List.forall_mem_cons.mpr ⟨?_, fun e' he' => ?_⟩⟩
      · exact congrArg (fun t : Dev => { t with dict := d.dict, staged := d.staged }) rest
      · obtain ⟨hke, hkl⟩ := List.forall_mem_cons.mp hk
        obtain ⟨dict, staged⟩ := same k hkl
        obtain ⟨dict', staged'⟩ := later k hke
        exact ⟨fun x => (dict x).trans (dict' x), staged.trans staged'⟩
      · rw [hg]
        exact ⟨(first.1 _).trans (Dev.rd_wr_self d e v p 0), first.2.trans (Table.get_set_self none d.staged _ none)⟩
      · obtain ⟨dict, staged⟩ := read e' he'
        obtain ⟨dict', staged'⟩ := later _ (other e' he').symm
        exact ⟨dict.trans (congrArg (g e').getD (dict' _)), staged.trans (congrArg (fun x => if (g e').isSome then none else x) staged')⟩

/-- The entries of a pavilion with what `COMMIT` puts in force. -/
structure Dev.Forced (d t : Dev) (p : Nat) : Prop where
  rest : { t with dict := d.dict, staged := d.staged } = d
  value : ∀ k, (∀ e ∈ pavStaged, k ≠ e.key p 0) → ∀ x, Table.get x t.dict k = Table.get x d.dict k
  read : ∀ e ∈ pavStaged, t.rd e p = (d.rdStaged e p).getD (d.rd e p) ∧ t.rdStaged e p = none

theorem Dev.inForce_forced (d : Dev) (p : Nat) : d.Forced (d.inForce (d.stagedOf pavStaged p)) p := by
  obtain ⟨rest, same, read⟩ := Dev.inForce_spec p (fun e => d.rdStaged e p) pavStaged d pavStaged_ofPav (by decide)
  refine ⟨rest, fun k hk => (same k hk).1, fun e he => ?_⟩
  obtain ⟨dict, staged⟩ := read e he
  refine ⟨dict, staged.trans ?_⟩
  cases d.rdStaged e p <;> rfl

namespace Dev.Forced
variable {d t : Dev} {p : Nat}

/-- An entry of the pavilion that is not staged. -/
theorem rd_other (h : d.Forced t p) {e : Entry} (he : e.OfPav) (hs : ∀ x ∈ pavStaged, e.sub ≠ x.sub) : t.rd e p = d.rd e p :=
  h.value _ (fun x hx => he.key_ne (pavStaged_ofPav x hx) (hs x hx) p) _

theorem estate (h : d.Forced t p) {e : Entry} (he : e.OfEstate) : t.rd e = d.rd e :=
  h.value _ (fun x hx => he.key_ne (pavStaged_ofPav x hx) p) _

theorem windowSize (h : d.Forced t p) (hp : p < 0x1000) : t.rd R.hearth_WINDOW_SIZE = d.rd R.hearth_WINDOW_SIZE :=
  h.value _ (fun x hx => ((pavStaged_ofPav x hx).key_ne_window hp).symm) _

end Dev.Forced

/-! ## The window taken (R158) -/

/-- The staged window in force: what lasts of the other values, and the parts named, are as they were. -/
structure Dev.Windowed (d t : Dev) (p : Nat) : Prop where
  value : ∀ k, Lasting k → k ≠ R.hearth_WINDOW_SIZE.key 0 0 → ∀ x, Table.get x t.dict k = Table.get x d.dict k
  staged : t.staged = d.staged
  cores : t.cores = d.cores
  pavs : t.pavs = d.pavs
  ownerKeys : t.hearth.ownerKeys = d.hearth.ownerKeys
  removing : ∀ x ∈ d.removing, x ∈ t.removing
  shrunk : d.pavExists p = true → elem 4 (t.rd R.hearth_WINDOW_SIZE) p < elem 4 (d.rd R.hearth_WINDOW_SIZE) p →
    (p, .window (elem 4 (d.rd R.hearth_WINDOW_SIZE) p)) ∈ t.removing

namespace Dev.Windowed
variable {d t : Dev} {p : Nat}

theorem rd (h : d.Windowed t p) {e : Entry} (he : e.OfPav) (hp : p < 0x1000) : t.rd e p = d.rd e p :=
  h.value _ (he.lasting hp) (he.key_ne_window hp) _

theorem estate (h : d.Windowed t p) {e : Entry} (he : e.OfEstate) : t.rd e = d.rd e := by
  refine h.value _ he.lasting ?_ _
  have key := he.key
  obtain ⟨-, sub, -⟩ := he
  rw [key, windowSize_key]
  omega

theorem rdStaged (h : d.Windowed t p) (e : Entry) : t.rdStaged e p = d.rdStaged e p := congrArg (Table.get none · _) h.staged

end Dev.Windowed

theorem Dev.takeWindow_windowed {d t : Dev} {p : Nat} (h : d.takeWindow p = some t) (hp : p < 0x1000) : d.Windowed t p := by
  unfold Dev.takeWindow at h
  dsimp only at h
  split at h
  · cases h
    exact ⟨fun _ _ _ _ => rfl, rfl, rfl, rfl, rfl, fun _ hx => hx, fun _ lt => absurd lt (Nat.lt_irrefl _)⟩
  · split at h
    · rename_i u hu
      have rings : Dev.Rings d u := Dev.Rings.refl.recordDict hu
      have value : ∀ k, Lasting k → k ≠ R.hearth_WINDOW_SIZE.key 0 0 → ∀ v x,
          Table.get x (u.wr R.hearth_WINDOW_SIZE v).dict k = Table.get x d.dict k :=
        fun k hk hw v x => (Table.get_set_other x _ _ v hw).trans (rings.value k hk x)
      have bounded : d.stagedWindow p % 256 ^ 4 = d.stagedWindow p := Nat.mod_mod _ _
      have exists_ : ∀ v, (u.wr R.hearth_WINDOW_SIZE v).pavExists p = d.pavExists p := fun v => by
        have state : (u.wr R.hearth_WINDOW_SIZE v).rd R.pav_STATE p = d.rd R.pav_STATE p :=
          value _ (Entry.OfPav.lasting (by decide) hp) (Entry.OfPav.key_ne_window (by decide) hp) v _
        unfold Dev.pavExists Dev.pavState
        rw [state]
      split at h
      · cases h
        refine ⟨fun k hk hw => value k hk hw _, rings.staged, rings.cores, rings.pavs, rings.ownerKeys, fun x hx => ?_, fun _ _ => ?_⟩
        · exact List.mem_append_left _ (rings.removing ▸ hx)
        · exact List.mem_append_right _ (List.mem_singleton_self _)
      · rename_i stays
        cases h
        refine ⟨fun k hk hw => value k hk hw _, rings.staged, rings.cores, rings.pavs, rings.ownerKeys, fun x hx => ?_, fun ex lt => ?_⟩
        · exact (Eq.symm rings.removing : d.removing = _) ▸ hx
        · rw [Dev.rd_wr_self, elem_withElem_self, bounded] at lt
          exact absurd ⟨lt, (exists_ _).trans ex⟩ stays
    · exact nomatch h

/-! ## Creation (R43, R610) -/

theorem Dev.rd_emptied_cores (d : Dev) (p : Nat) : (d.emptied p).rd R.pav_CORES p = 0 := by
  have others (l : List Entry) (hl : ∀ e ∈ l, e.OfPav ∧ R.pav_CORES.sub ≠ e.sub) (t : Dev) :
      (l.foldl (fun d e => d.wr e 0 p) t).rd R.pav_CORES p = t.rd R.pav_CORES p := by
    induction l generalizing t with
    | nil => rfl
    | cons e l ih =>
      obtain ⟨⟨he, hs⟩, hl⟩ := List.forall_mem_cons.mp hl
      exact (ih hl _).trans (Dev.rd_wr_pav _ _ _ he (by decide) hs)
  exact (others pavStaged.tail (by decide) (d.wr R.pav_CORES 0 p)).trans (Dev.rd_wr_self ..)

end Sys2Proof.Machine
end

section
/-! PROOFS. Creating a pavilion and changing its resources (R43, R48 to R50, R158). -/

namespace Sys2Proof.Machine

/-! ## Creation: steps 4 to 6 of Table 2.5 -/

/-- The pavilion's receipt, state and keys in place. -/
def Dev.founded (d : Dev) (p receipt : Nat) (owner pck : Bytes) : Dev :=
  let d := ((d.wr R.pav_RECEIPT receipt p).wr R.pav_STATE 2 p).wr R.pav_ENABLE 1 p
  { d with
    hearth := { d.hearth with ownerKeys := d.hearth.ownerKeys ++ [owner], pck := Table.set [] d.hearth.pck p pck }
    pavs := Table.set {} d.pavs p {}
    net := { d.net with standingSt := Table.set 0 d.net.standingSt p 0 } }

theorem Dev.fitDirWays_steady (d : Dev) : Dev.Steady d d.fitDirWays := .of_traffic (who := fun _ => False) Dev.Traffic.refl.fitDirWays

theorem Dev.deficitRules_steady (d : Dev) : Dev.Steady d d.deficitRules := .of_signals Dev.Signals.refl.deficitRules

/-- What a pavilion reads once it is founded and the reserved ways and the pace follow. -/
theorem Dev.founded_spec (d : Dev) {p : Nat} (hp : p < 0x1000) (receipt : Nat) (owner pck : Bytes) :
    let t := (d.founded p receipt owner pck).fitDirWays.deficitRules.bump R.est_CREATIONS
    t.rd R.pav_STATE p = 2 ∧ t.rd R.pav_ENABLE p = 1 ∧ t.rd R.pav_RECEIPT p = receipt ∧
      (∀ e : Entry, e.OfPav → e.sub ≠ R.pav_RECEIPT.sub → e.sub ≠ R.pav_STATE.sub → e.sub ≠ R.pav_ENABLE.sub → t.rd e p = d.rd e p) ∧
      (∀ e, t.rdStaged e p = d.rdStaged e p) ∧ t.rd R.est_CREATIONS = min (d.rd R.est_CREATIONS + 1) (256 ^ R.est_CREATIONS.size - 1) ∧
      Table.get [] t.hearth.pck p = pck ∧ owner ∈ t.hearth.ownerKeys ∧ Table.get {} t.pavs p = {} ∧ ∀ c, (t.core c).run = (d.core c).run := by
  intro t
  have steady := (Dev.fitDirWays_steady (d.founded p receipt owner pck)).trans (Dev.deficitRules_steady _)
  have ht : t = (d.founded p receipt owner pck).fitDirWays.deficitRules.bump R.est_CREATIONS := rfl
  rw [ht]
  generalize (d.founded p receipt owner pck).fitDirWays.deficitRules = u at steady
  have read : ∀ e : Entry, e.OfPav → (u.bump R.est_CREATIONS).rd e p =
      (((d.wr R.pav_RECEIPT receipt p).wr R.pav_STATE 2 p).wr R.pav_ENABLE 1 p).rd e p := fun e he =>
    (Dev.rd_bump_ne _ (Entry.OfEstate.key_ne (by decide) he p).symm).trans (steady.rd he hp)
  refine ⟨?_, ?_, ?_, fun e he h1 h2 h3 => ?_, fun e => steady.rdStaged e p, ?_, ?_, ?_, ?_, steady.run⟩
  · rw [read _ (by decide), Dev.rd_wr_pav _ _ _ (by decide) (by decide) (by decide), Dev.rd_wr_self]
  · rw [read _ (by decide), Dev.rd_wr_self]
  · rw [read _ (by decide), Dev.rd_wr_pav _ _ _ (by decide) (by decide) (by decide), Dev.rd_wr_pav _ _ _ (by decide) (by decide) (by decide),
      Dev.rd_wr_self]
  · rw [read e he, Dev.rd_wr_pav _ _ _ (by decide) he h3, Dev.rd_wr_pav _ _ _ (by decide) he h2, Dev.rd_wr_pav _ _ _ (by decide) he h1]
  · have estate : (d.founded p receipt owner pck).rd R.est_CREATIONS = d.rd R.est_CREATIONS := by
      refine ((Dev.rd_wr_ne _ _ ?_).trans (Dev.rd_wr_ne _ _ ?_)).trans (Dev.rd_wr_ne _ _ ?_)
      all_goals exact Entry.OfEstate.key_ne (by decide) (by decide) p
    rw [Dev.rd_bump_self, steady.value.rd (Entry.OfEstate.lasting (by decide)), estate]
  · exact (congrArg (Table.get [] · p) steady.pck).trans (Table.get_set_self _ _ _ _)
  · exact steady.ownerKeys ▸ List.mem_append_right _ (List.mem_singleton_self _)
  · exact (congrArg (Table.get ({} : Pav) · p) steady.pavs).trans (Table.get_set_self ({} : Pav) d.pavs p {})

/-- The device after step 3 of Table 2.5: the staged values in force, the generation raised, and what the pavilion holds assigned. -/
def Dev.equipped (d : Dev) (p : Nat) : Dev :=
  let d := (d.inForce (d.stagedOf pavStaged p)).bump R.pav_GENERATION p
  d.assignNew (d.emptied p) p

theorem Dev.createPav_eq (d : Dev) (p : Nat) (priv nonce : Bytes) :
    let owner := leBytes 32 (d.rd R.pav_OWNER_KEY p)
    let v := d.equipped p
    let body := v.receiptBody p (x25519Public priv) nonce
    d.createPav p priv nonce = (v.founded p (leNat (body ++ edSign Config.identitySeed body)) owner
      (pckOf (x25519 priv owner) nonce p (v.rd R.pav_GENERATION p))).fitDirWays.deficitRules.bump R.est_CREATIONS := rfl

theorem Dev.receiptBody_magic (d : Dev) (p : Nat) (pub nonce : Bytes) : (d.receiptBody p pub nonce).take 4 = ascii "PVRC" := by
  have start : ascii "PVRC" <+: d.receiptBody p pub nonce := by
    unfold Dev.receiptBody
    repeat refine List.IsPrefix.trans ?_ (List.prefix_append _ _)
    exact List.prefix_rfl
  exact (List.prefix_iff_eq_take.mp start).symm

/-- What step 3 gives the pavilion. -/
theorem Dev.equipped_spec (d : Dev) {p : Nat} (hp : p < 0x1000) :
    let t := d.equipped p
    (∀ e ∈ pavStaged, t.rd e p = (d.rdStaged e p).getD (d.rd e p) ∧ t.rdStaged e p = none) ∧
      t.rd R.pav_GENERATION p = min (d.rd R.pav_GENERATION p + 1) (256 ^ R.pav_GENERATION.size - 1) ∧
      t.rd R.est_CREATIONS = d.rd R.est_CREATIONS ∧
      ∀ c < 256, bitOf (t.rd R.pav_CORES p) c = true → (d.core c).run = .free → (t.core c).run = .stopped := by
  intro t
  have forced := d.inForce_forced p
  have ht : t = Dev.assignNew _ _ p := rfl
  rw [ht]
  generalize d.inForce (d.stagedOf pavStaged p) = u at forced
  obtain ⟨value, staged, -, -, -, -, cores⟩ := (u.bump R.pav_GENERATION p).assignNew_spec ((u.bump R.pav_GENERATION p).emptied p) p
  generalize (u.bump R.pav_GENERATION p).assignNew ((u.bump R.pav_GENERATION p).emptied p) p = v at value staged cores
  have others : ∀ e ∈ pavStaged, e.sub ≠ R.pav_GENERATION.sub := by decide
  have keep : ∀ e ∈ pavStaged, v.rd e p = u.rd e p := fun e he =>
    (value.rd ((pavStaged_ofPav e he).lasting hp)).trans (Dev.rd_wr_pav _ _ _ (by decide) (pavStaged_ofPav e he) (others e he))
  refine ⟨fun e he => ?_, ?_, ?_, fun c hc held free => ?_⟩
  · obtain ⟨read, dropped⟩ := forced.read e he
    exact ⟨(keep e he).trans read, (congrArg (Table.get none · _) staged).trans dropped⟩
  · rw [value.rd (Entry.OfPav.lasting (by decide) hp), Dev.rd_bump_self, forced.rd_other (by decide) (by decide)]
  · rw [value.rd (Entry.OfEstate.lasting (by decide)), Dev.rd_bump_ne _ (Entry.OfEstate.key_ne (by decide) (by decide) p), forced.estate (by decide)]
  · have run : ((u.bump R.pav_GENERATION p).core c).run = .free := (congrArg (fun t : Dev => (t.core c).run) forced.rest).trans free
    refine cores c hc ?_ ?_ run
    · rw [keep _ (by decide)] at held
      rw [Dev.rd_bump_ne _ (Entry.OfPav.key_ne (by decide) (by decide) (by decide) p)]
      exact held
    · rw [Dev.rd_emptied_cores]
      exact Nat.zero_testBit c

/-- A pavilion created: its staged values are in force, its generation is one more, it runs with its receipt and its key, and its free cores
stop. -/
structure Dev.Created (d t : Dev) (p : Nat) (owner body : Bytes) (key : Nat → Bytes) : Prop where
  state : t.rd R.pav_STATE p = 2 ∧ t.rd R.pav_ENABLE p = 1
  forced : ∀ e ∈ pavStaged, t.rd e p = (d.rdStaged e p).getD (d.rd e p) ∧ t.rdStaged e p = none
  generation : t.rd R.pav_GENERATION p = min (d.rd R.pav_GENERATION p + 1) (256 ^ R.pav_GENERATION.size - 1)
  creations : t.rd R.est_CREATIONS = min (d.rd R.est_CREATIONS + 1) (256 ^ R.est_CREATIONS.size - 1)
  pck : Table.get [] t.hearth.pck p = key (t.rd R.pav_GENERATION p)
  receipt : t.rd R.pav_RECEIPT p = leNat (body ++ edSign Config.identitySeed body)
  owned : owner ∈ t.hearth.ownerKeys
  pav : Table.get {} t.pavs p = {}
  cores : ∀ c < 256, bitOf (t.rd R.pav_CORES p) c = true → (d.core c).run = .free → (t.core c).run = .stopped

theorem Dev.founded_created (d : Dev) {p : Nat} (hp : p < 0x1000) (owner body : Bytes) (key : Nat → Bytes) :
    d.Created (((d.equipped p).founded p (leNat (body ++ edSign Config.identitySeed body)) owner
      (key ((d.equipped p).rd R.pav_GENERATION p))).fitDirWays.deficitRules.bump R.est_CREATIONS) p owner body key := by
  obtain ⟨forced, generation, creations, cores⟩ := d.equipped_spec hp
  generalize d.equipped p = v at forced generation creations cores
  obtain ⟨state, enable, receipt, other, staged, count, pck, owned, pav, run⟩ := v.founded_spec hp
    (leNat (body ++ edSign Config.identitySeed body)) owner (key (v.rd R.pav_GENERATION p))
  have apart : ∀ e ∈ pavStaged, e.sub ≠ R.pav_RECEIPT.sub ∧ e.sub ≠ R.pav_STATE.sub ∧ e.sub ≠ R.pav_ENABLE.sub := by decide
  have same : ∀ e ∈ pavStaged, Dev.rd _ e p = v.rd e p := fun e he => by
    obtain ⟨h1, h2, h3⟩ := apart e he
    exact other e (pavStaged_ofPav e he) h1 h2 h3
  have generation' := other R.pav_GENERATION (by decide) (by decide) (by decide) (by decide)
  refine ⟨⟨state, enable⟩, fun e he => ?_, generation'.trans generation, count.trans (by rw [creations]), pck.trans (congrArg key generation'.symm),
    receipt, owned, pav, fun c hc held free => (run c).trans (cores c hc ?_ free)⟩
  · obtain ⟨value, dropped⟩ := forced e he
    exact ⟨(same e he).trans value, (staged e).trans dropped⟩
  · rw [← same R.pav_CORES (by decide)]
    exact held

theorem Dev.createPav_created (d : Dev) {p : Nat} (hp : p < 0x1000) (priv nonce : Bytes) :
    d.Created (d.createPav p priv nonce) p (leBytes 32 (d.rd R.pav_OWNER_KEY p)) ((d.equipped p).receiptBody p (x25519Public priv) nonce)
      (pckOf (x25519 priv (leBytes 32 (d.rd R.pav_OWNER_KEY p))) nonce p) := by
  rw [Dev.createPav_eq]
  exact d.founded_created hp _ _ (pckOf (x25519 priv (leBytes 32 (d.rd R.pav_OWNER_KEY p))) nonce p)

end Sys2Proof.Machine
end

section
/-! PROOFS. Changing a pavilion's resources (R48 to R50, R158). -/

namespace Sys2Proof.Machine

/-- The device with a commit's values in force and the resources that they take away listed. -/
def Dev.takenAway (d : Dev) (p : Nat) : Dev :=
  let n := d.inForce (d.stagedOf pavStaged p)
  { n with removing := n.removing ++ (n.removedFrom d p).map fun x => (p, x) }

/-- A commit put in force: what it gives is assigned, and ring, directory ways and pace follow. -/
def Dev.committed (d : Dev) (p : Nat) : Dev := ((((d.takenAway p).assignNew d p).fitRing p).fitDirWays).deficitRules

/-- Whether a commit changes a value. -/
def Dev.moves (d : Dev) (p : Nat) : Bool := (d.stagedOf pavStaged p).any fun x => decide (d.rd x.1 p ≠ x.2.2)

theorem Dev.commitPav_of_not_running (d : Dev) (p : Nat) (h : d.pavState p ≠ 2) : d.commitPav p = taken d := if_pos h

theorem Dev.commitPav_of_bad (d : Dev) (p : Nat) (h : d.pavState p = 2) (hc : (d.pavCheck p none).1 ≠ 0) :
    d.commitPav p = { reason := (d.pavCheck p none).1, off := (d.pavCheck p none).2, dev := d } := by
  unfold Dev.commitPav
  rw [if_neg (not_not.mpr h)]
  exact if_pos hc

theorem Dev.commitPav_of_no_room (d : Dev) (p : Nat) (h : d.pavState p = 2) (hc : (d.pavCheck p none).1 = 0) (hw : d.takeWindow p = none) :
    d.commitPav p = turnedDown d 0x0305 := by
  unfold Dev.commitPav
  rw [if_neg (not_not.mpr h), hw]
  exact if_neg (not_not.mpr hc)

theorem Dev.commitPav_of_taken (d u : Dev) (p : Nat) (h : d.pavState p = 2) (hc : (d.pavCheck p none).1 = 0) (hw : d.takeWindow p = some u) :
    d.commitPav p = taken (if u.moves p then (u.committed p).ring p 0x1FFE else u.committed p) := by
  unfold Dev.commitPav
  rw [if_neg (not_not.mpr h), hw]
  exact if_neg (not_not.mpr hc)

/-! ## What a commit does -/

/-- A pavilion's resources changed: its staged values are in force, what it loses waits for removal, and the free cores that it gains stop. -/
structure Dev.Commit (d t : Dev) (p : Nat) : Prop where
  forced : ∀ e ∈ pavStaged, t.rd e p = (d.rdStaged e p).getD (d.rd e p) ∧ t.rdStaged e p = none
  removing : ∀ x ∈ d.removing, x ∈ t.removing
  lost : ∀ x ∈ t.removedFrom d p, (p, x) ∈ t.removing
  cores : ∀ c < 256, bitOf (t.rd R.pav_CORES p) c = true → bitOf (d.rd R.pav_CORES p) c = false → (d.core c).run = .free → (t.core c).run = .stopped

/-- The resources that a commit takes away depend on the pavilion's values alone. -/
theorem Dev.removedFrom_congr {t t' d d' : Dev} {p : Nat} (ht : ∀ e ∈ pavStaged, t.rd e p = t'.rd e p) (hd : ∀ e ∈ pavStaged, d.rd e p = d'.rd e p) :
    t.removedFrom d p = t'.removedFrom d' p := by
  have units : ∀ e ∈ pavStaged, d.droppedUnits t p e = d'.droppedUnits t' p e := fun e he => by
    unfold Dev.droppedUnits
    rw [ht e he, hd e he]
  unfold Dev.removedFrom
  rw [ht R.pav_KEY_SLOTS (by decide), hd R.pav_KEY_SLOTS (by decide), units R.pav_CORES (by decide), units R.pav_BANKS (by decide),
    units R.pav_WAY_GROUPS (by decide), units R.pav_ENDPOINTS (by decide), units R.pav_GRANULES (by decide)]

theorem Dev.committed_commit (d : Dev) {p : Nat} (hp : p < 0x1000) :
    d.Commit (d.committed p) p ∧ (d.committed p).rd R.hearth_WINDOW_SIZE = d.rd R.hearth_WINDOW_SIZE := by
  have forced := d.inForce_forced p
  obtain ⟨value, staged, removing, -, -, -, cores⟩ := (d.takenAway p).assignNew_spec d p
  have steady := ((Dev.Steady.of_rings (Dev.Rings.refl.fitRing (d := (d.takenAway p).assignNew d p) p)).trans (Dev.fitDirWays_steady _)).trans
    (Dev.deficitRules_steady _)
  have ht : d.committed p = ((((d.takenAway p).assignNew d p).fitRing p).fitDirWays).deficitRules := rfl
  rw [ht]
  generalize ((((d.takenAway p).assignNew d p).fitRing p).fitDirWays).deficitRules = t at steady
  generalize (d.takenAway p).assignNew d p = u at value staged removing cores steady
  have same : ∀ e ∈ pavStaged, t.rd e p = (d.takenAway p).rd e p := fun e he =>
    (steady.rd (pavStaged_ofPav e he) hp).trans (value.rd ((pavStaged_ofPav e he).lasting hp))
  have listed : t.removing = d.removing ++ ((d.takenAway p).removedFrom d p).map fun x => (p, x) :=
    (steady.removing.trans removing).trans (congrArg (· ++ _) (congrArg Dev.removing forced.rest :))
  refine ⟨⟨fun e he => ?_, fun x hx => ?_, fun x hx => ?_, fun c hc new old free => ?_⟩,
    (steady.windowSize.trans (value.rd windowSize_lasting)).trans (forced.windowSize hp)⟩
  · obtain ⟨read, dropped⟩ := forced.read e he
    exact ⟨(same e he).trans read, (steady.rdStaged e p).trans ((congrArg (Table.get none · _) staged).trans dropped)⟩
  · rw [listed]
    exact List.mem_append_left _ hx
  · rw [listed]
    rw [Dev.removedFrom_congr same fun _ _ => rfl] at hx
    exact List.mem_append_right _ (List.mem_map_of_mem hx)
  · have run : ((d.takenAway p).core c).run = .free := (congrArg (fun t : Dev => (t.core c).run) forced.rest).trans free
    rw [same _ (by decide)] at new
    exact (steady.run c).trans (cores c hc new old run)

namespace Dev.Commit
variable {d t : Dev} {p : Nat}

theorem steady {u : Dev} (h : d.Commit t p) (s : Dev.Steady t u) (hp : p < 0x1000) : d.Commit u p := by
  have same : ∀ e ∈ pavStaged, u.rd e p = t.rd e p := fun e he => s.rd (pavStaged_ofPav e he) hp
  refine ⟨fun e he => ?_, fun x hx => s.removing ▸ h.removing x hx, fun x hx => ?_, fun c hc new old free => ?_⟩
  · obtain ⟨value, dropped⟩ := h.forced e he
    exact ⟨(same e he).trans value, (s.rdStaged e p).trans dropped⟩
  · rw [Dev.removedFrom_congr same fun _ _ => rfl] at hx
    exact s.removing ▸ h.lost x hx
  · rw [same _ (by decide)] at new
    exact (s.run c).trans (h.cores c hc new old free)

/-- A commit that has taken the staged window first. -/
theorem of_windowed {u : Dev} (w : d.Windowed u p) (h : u.Commit t p) (hp : p < 0x1000) : d.Commit t p := by
  have same : ∀ e ∈ pavStaged, d.rd e p = u.rd e p := fun e he => (w.rd (pavStaged_ofPav e he) hp).symm
  refine ⟨fun e he => ?_, fun x hx => h.removing x (w.removing x hx), fun x hx => ?_, fun c hc new old free => ?_⟩
  · rw [same e he, ← w.rdStaged e]
    exact h.forced e he
  · rw [Dev.removedFrom_congr (fun _ _ => rfl) same] at hx
    exact h.lost x hx
  · rw [same _ (by decide)] at old
    refine h.cores c hc new old ?_
    rw [Dev.core, w.cores]
    exact free

/-- A unit of a bitmap that the pavilion loses. -/
theorem lost_unit (h : d.Commit t p) {e : Entry} {k width : Nat} (x : Nat → Res)
    (sub : ∀ n ∈ (d.droppedUnits t p e width).map x, n ∈ t.removedFrom d p) (hk : k < width) (old : bitOf (d.rd e p) k = true)
    (new : bitOf (t.rd e p) k = false) : (p, x k) ∈ t.removing :=
  h.lost _ (sub _ (List.mem_map_of_mem (Dev.mem_droppedUnits.mpr ⟨hk, old, new⟩)))

/-- A key slot that the pavilion loses. -/
theorem lost_slot (h : d.Commit t p) {k : Nat} (old : k < d.rd R.pav_KEY_SLOTS p) (new : t.rd R.pav_KEY_SLOTS p ≤ k) : (p, .keySlot k) ∈ t.removing := by
  refine h.lost _ ?_
  simp [Dev.removedFrom, old, new]

/-- A value that changes was staged with another one. -/
theorem moves_of_ne (h : d.Commit t p) {e : Entry} (he : e ∈ pavStaged) (ne : t.rd e p ≠ d.rd e p) : d.moves p = true := by
  obtain ⟨value, -⟩ := h.forced e he
  cases hs : d.rdStaged e p with
  | none => exact absurd (by rw [value, hs]; rfl) ne
  | some v =>
    rw [value, hs] at ne
    refine List.any_eq_true.mpr ⟨(e, p, v), List.mem_filterMap.mpr ⟨e, he, by rw [hs]; rfl⟩, ?_⟩
    exact decide_eq_true (Ne.symm ne)

end Dev.Commit

end Sys2Proof.Machine
end

section
/-! PROOFS. The write of a pavilion's entry, and the start of cores (R45, R275, R472). -/

namespace Sys2Proof.Machine

/-! ## The pavilion of a write -/

/-- Outside the pavilion table no write is a CREATE or a START. -/
theorem writeRow_of_base_ne {index sub v i : Nat} {e : Entry} (h : findEntry index sub = some (e, i)) (hb : e.base ≠ 0x2000) :
    writeRow index sub v ≠ .create ∧ writeRow index sub v ≠ .start := by
  unfold writeRow
  rw [h]
  dsimp only
  rw [if_neg hb]
  repeat' split
  all_goals exact ⟨by decide, by decide⟩

/-- What succeeds where it is either that or an error. -/
theorem ok_of_ite {ε α : Type} {k : Prop} [Decidable k] {e : ε} {x y : α} (h : (if k then Except.ok x else .error e) = .ok y) : x = y := by
  split at h
  · injection h
  · exact nomatch h

namespace Dev.Writes
variable {d d1 : Dev} {o : Rx} {row : DictRow} {s : Session} {w : WriteOp}

/-- The entry of a write is the one its message names. -/
theorem findEntry_eq (h : d.Writes o row d1 s w) : findEntry (DictReq.ofMsg o.msg).index (DictReq.ofMsg o.msg).sub = some (w.entry, w.i) := by
  obtain ⟨d3, -, check, -⟩ := h.heard
  unfold Dev.entryCheck at check
  split at check
  · exact nomatch check
  · split at check
    · exact nomatch check
    · rename_i e i found
      rw [found, ok_of_ite check]

/-- A write of the pavilion table names one of its blocks. -/
theorem pav_lt (h : d.Writes o row d1 s w) (hb : w.entry.base = 0x2000) : w.i < 0x1000 := by
  obtain ⟨place, index, -⟩ := findEntry_some h.findEntry_eq
  omega

/-- A CREATE or a START writes the pavilion table. -/
theorem base_eq (h : d.Writes o row d1 s w) (hr : row = .create ∨ row = .start) : w.entry.base = 0x2000 := by
  by_contra hb
  have rows : (DictReq.ofMsg o.msg).row ≠ .create ∧ (DictReq.ofMsg o.msg).row ≠ .start := by
    unfold DictReq.row
    split
    case h_3 => exact writeRow_of_base_ne h.findEntry_eq hb
    all_goals exact ⟨by decide, by decide⟩
  rw [h.row] at rows
  exact hr.elim rows.1 rows.2

end Dev.Writes

/-! ## A core reset -/

/-- A core reset while its stores drain: it holds nothing but its place, and no other core changes but for lines of its L1 caches. -/
structure Dev.Resets (d t : Dev) (c : Nat) (run : CoreRun) : Prop where
  core : ∃ n, t.core c = { run := if (d.core c).run = .lost then .lost else run, inSpareSlot := (d.core c).inSpareSlot, asOf := n }
  others : ∀ k, k ≠ c → (t.core k).Kept (d.core k)
  idle : ∀ k, k ≠ c → (d.core k).l1d = [] ∧ (d.core k).victim = [] → t.core k = d.core k
  value : t.SameLasting d

theorem Dev.resetCore_resets (d : Dev) (p c : Nat) (run : CoreRun) : d.Resets (d.resetCore p c run) c run := by
  have traffic : Dev.Traffic (· = c) d (d.drainAll c p) := Dev.Traffic.drainAll (who := (· = c)) rfl .refl p
  unfold Dev.resetCore
  dsimp only
  generalize d.drainAll c p = u at traffic
  have kept := traffic.core c
  refine ⟨⟨u.mem.clock, ?_⟩, fun k hk => ?_, fun k hk empty => ?_, traffic.value⟩
  · rw [Dev.core_setCore_self, kept.run, kept.spare]
  · rw [Dev.core_setCore_ne _ _ hk]
    exact traffic.core k
  · rw [Dev.core_setCore_ne _ _ hk]
    exact traffic.idle hk empty

/-! ## A core begun -/

/-- A core begun at ENTRY (Table 8.10). -/
def begun (entry : Nat) (twin : Option Nat) (spare : Bool) : Core :=
  { run := .running, arch := startArch entry, checkpoint := startArch entry, exArch := startArch entry, twin := twin, inSpareSlot := spare }

/-- A core with the twin of its START. -/
def Core.alone (x : Core) : Core := { x with twin := none, exchange := none }

/-- A core and its twin are twins no more; the others are as they were. -/
theorem Dev.core_untwin (d : Dev) (c k : Nat) :
    (d.untwin c).core k = if (d.core c).twin = some k ∨ k = c ∧ (d.core c).twin ≠ none then (d.core k).alone else d.core k := by
  unfold Dev.untwin
  split
  · rename_i q hq
    rw [hq]
    by_cases hc : k = c
    · subst hc
      rw [Dev.core_onCore_self, if_pos (.inr ⟨rfl, nofun⟩)]
      by_cases hk : k = q
      · subst hk
        rw [Dev.core_onCore_self]
        rfl
      · rw [Dev.core_onCore_ne _ _ hk]
        rfl
    · rw [Dev.core_onCore_ne _ _ hc]
      by_cases hk : k = q
      · subst hk
        rw [Dev.core_onCore_self, if_pos (.inl rfl)]
        rfl
      · rw [Dev.core_onCore_ne _ _ hk, if_neg]
        rintro (h | ⟨h, -⟩)
        · injection h with h
          exact hk h.symm
        · exact hc h
  · rename_i hq
    rw [hq, if_neg]
    rintro (h | ⟨-, h⟩)
    · exact nomatch h
    · exact h rfl

theorem Dev.untwin_rest (d : Dev) (c : Nat) : { d.untwin c with cores := d.cores } = d := by
  unfold Dev.untwin
  split <;> rfl

theorem Dev.beginCore_eq (d : Dev) (p c : Nat) (twin : Option Nat) :
    d.beginCore p c twin = ((d.untwin c).resetCore p c .running).onCore c fun x =>
      let a := startArch (d.rd R.pav_ENTRY p)
      { x with arch := a, checkpoint := a, exArch := a, twin := twin } := rfl

/-- What beginning core `c` leaves: the core itself begun, of another core its run, and the rest of it where it holds no line in its L1 caches and
is not the core's twin. -/
structure Dev.Begins (d t : Dev) (p c : Nat) (twin : Option Nat) : Prop where
  core : { t.core c with asOf := 0 } = begun (d.rd R.pav_ENTRY p) twin (d.core c).inSpareSlot
  run : ∀ k, k ≠ c → (t.core k).run = (d.core k).run
  spare : ∀ k, k ≠ c → (t.core k).inSpareSlot = (d.core k).inSpareSlot
  twin_core : ∀ k, k ≠ c → (t.core k).twin = if (d.core c).twin = some k then none else (d.core k).twin
  idle : ∀ k, k ≠ c → (d.core c).twin ≠ some k → (d.core k).l1d = [] ∧ (d.core k).victim = [] → t.core k = d.core k
  value : t.SameLasting d

theorem Dev.beginCore_begins (d : Dev) (p c : Nat) (twin : Option Nat) (running : (d.core c).run ≠ .lost) :
    d.Begins (d.beginCore p c twin) p c twin := by
  rw [Dev.beginCore_eq]
  obtain ⟨⟨n, core⟩, others, idle, value⟩ := (d.untwin c).resetCore_resets p c .running
  generalize (d.untwin c).resetCore p c .running = u at core others idle value
  have self := d.core_untwin c
  have alone (x : Core) (q : Prop) [Decidable q] : (if q then x.alone else x).run = x.run ∧ (if q then x.alone else x).inSpareSlot = x.inSpareSlot := by
    split <;> exact ⟨rfl, rfl⟩
  have other : ∀ k f, k ≠ c → (u.onCore c f).core k = u.core k := fun k f hk => Dev.core_onCore_ne _ _ hk
  refine ⟨?_, fun k hk => ?_, fun k hk => ?_, fun k hk => ?_, fun k hk nt empty => ?_, fun k hk x => ?_⟩
  · rw [Dev.core_onCore_self, core, self c, (alone _ _).1, (alone _ _).2, if_neg running]
    rfl
  · rw [other k _ hk, (others k hk).run, self k, (alone _ _).1]
  · rw [other k _ hk, (others k hk).spare, self k, (alone _ _).2]
  · rw [other k _ hk, (others k hk).twin, self k]
    by_cases h : (d.core c).twin = some k
    · rw [if_pos (.inl h), if_pos h]
      rfl
    · rw [if_neg h, if_neg]
      exact fun g => g.elim h fun g => hk g.1
  · have same : (d.untwin c).core k = d.core k := by
      rw [self k, if_neg]
      exact fun g => g.elim nt fun g => hk g.1
    rw [other k _ hk, idle k hk (same ▸ empty), same]
  · have untwinned : (d.untwin c).dict = d.dict := (congrArg Dev.dict (d.untwin_rest c) :)
    rw [Dev.onCore_dict, value k hk x, untwinned]

/-- A core and its partner begun, one after the other: each is the other's twin (R472). -/
theorem Dev.begin_pair (d : Dev) {p c k : Nat} (hp : p < 0x1000) (hk : k ≠ c) (rc : (d.core c).run ≠ .lost) (rk : (d.core k).run ≠ .lost)
    (apart : (d.core k).twin ≠ some c ∨ (d.core c).twin = some k) :
    let t := (d.beginCore p c (some k)).beginCore p k (some c)
    { t.core c with asOf := 0 } = begun (d.rd R.pav_ENTRY p) (some k) (d.core c).inSpareSlot ∧
      { t.core k with asOf := 0 } = begun (d.rd R.pav_ENTRY p) (some c) (d.core k).inSpareSlot := by
  intro t
  have first := d.beginCore_begins p c (some k) rc
  have ht : t = (d.beginCore p c (some k)).beginCore p k (some c) := rfl
  rw [ht]
  generalize d.beginCore p c (some k) = u at first
  have second := u.beginCore_begins p k (some c) (by rw [first.run k hk]; exact rk)
  have entry : u.rd R.pav_ENTRY p = d.rd R.pav_ENTRY p := first.value.rd (Entry.OfPav.lasting (by decide) hp)
  refine ⟨?_, second.core.trans (by rw [entry, first.spare k hk])⟩
  have twin : (u.core k).twin ≠ some c := by
    rw [first.twin_core k hk]
    split
    · exact nofun
    · rename_i h
      exact apart.resolve_right h
  have empty : (u.core c).l1d = [] ∧ (u.core c).victim = [] :=
    ⟨(congrArg Core.l1d first.core :), (congrArg Core.victim first.core :)⟩
  rw [second.idle c hk.symm twin empty]
  exact first.core

end Sys2Proof.Machine
end

section
/-! PROOFS. The destruction of a pavilion: its work discarded, and its keys, bits, cores, memory, endpoints and ring quenched (R51 to R54). -/

namespace Sys2Proof.Machine

/-! ## Resources freed -/

/-- A core reset, one that is lost staying so (R468). -/
structure Core.Cleared (y x : Core) : Prop where
  arch : y.arch = {}
  run : y.run = if x.run = .lost then .lost else .free

/-- A core that runs on as it did, or has been reset. -/
def Core.Spent (y x : Core) : Prop := y.run = x.run ∧ y.arch = x.arch ∨ y.Cleared x

theorem Core.Cleared.of_spent {z y x : Core} (h : z.Spent y) (g : y.Cleared x) : z.Cleared x := by
  rcases h with ⟨run, arch⟩ | h
  · exact ⟨arch.trans g.arch, run.trans g.run⟩
  · refine ⟨h.arch, ?_⟩
    rw [h.run, g.run]
    by_cases hx : x.run = .lost <;> simp [hx]

theorem Core.Cleared.trans_spent {z y x : Core} (h : z.Cleared y) (g : y.Spent x) : z.Cleared x := by
  rcases g with ⟨run, -⟩ | g
  · exact ⟨h.arch, by rw [h.run, run]⟩
  · exact .of_spent (.inr h) g

theorem Core.Spent.trans {z y x : Core} (h : z.Spent y) (g : y.Spent x) : z.Spent x := by
  rcases h with ⟨run, arch⟩ | h
  · exact g.imp (fun g => ⟨run.trans g.1, arch.trans g.2⟩) fun g => .of_spent (.inl ⟨run, arch⟩) g
  · exact .inr (h.trans_spent g)

/-- From `d` to `t` resources of pavilion `p` have been freed: no work and no key has come back. -/
structure Dev.Frees (p : Nat) (d t : Dev) : Prop where
  value : t.SameLasting d
  net : t.net = d.net
  pck : t.hearth.pck = d.hearth.pck
  bits : t.mem.bits = d.mem.bits
  ops : ∀ y ∈ t.chan.ops, y ∈ d.chan.ops
  cipherJobs : t.eng.cipherJobs = d.eng.cipherJobs
  compJobs : t.eng.compJobs = d.eng.compJobs
  moverJobs : t.mem.moverJobs = d.mem.moverJobs
  keys : ∀ n, d.keySlot p n = {} → t.keySlot p n = {}
  removing : ∀ y ∈ t.removing, y ∈ d.removing
  cores : ∀ c, (t.core c).Spent (d.core c)

namespace Dev.Frees

variable {p : Nat} {d t u : Dev}

theorem refl (p : Nat) (d : Dev) : Frees p d d :=
  ⟨fun _ _ _ => rfl, rfl, rfl, rfl, fun _ h => h, rfl, rfl, rfl, fun _ h => h, fun _ h => h, fun _ => .inl ⟨rfl, rfl⟩⟩

theorem trans (h : Frees p d t) (g : Frees p t u) : Frees p d u where
  value k hk x := (g.value k hk x).trans (h.value k hk x)
  net := g.net.trans h.net
  pck := g.pck.trans h.pck
  bits := g.bits.trans h.bits
  ops y hy := h.ops y (g.ops y hy)
  cipherJobs := g.cipherJobs.trans h.cipherJobs
  compJobs := g.compJobs.trans h.compJobs
  moverJobs := g.moverJobs.trans h.moverJobs
  keys n e := g.keys n (h.keys n e)
  removing y hy := h.removing y (g.removing y hy)
  cores c := (g.cores c).trans (h.cores c)

theorem foldl {β : Type} {f : Dev → β → Dev} (l : List β) (hf : ∀ t b, Frees p t (f t b)) (d : Dev) : Frees p d (l.foldl f d) :=
  foldl_keeps (P := Frees p d) f (fun t b h => h.trans (hf t b)) l (refl p d)

theorem of_traffic {who : Nat → Prop} (p : Nat) (h : Dev.Traffic who d t) : Frees p d t where
  value := h.value
  net := h.net
  pck := congrArg (·.pck) h.hearth
  bits := h.bits
  ops _ hy := h.chan ▸ hy
  cipherJobs := congrArg (·.cipherJobs) h.eng
  compJobs := congrArg (·.compJobs) h.eng
  moverJobs := h.moverJobs
  keys n e := (congrArg (fun x : Eng => Table.get ({} : KeySlot) x.keys (slotKey p n)) h.eng).trans e
  removing _ hy := h.removing ▸ hy
  cores c := .inl ⟨(h.core c).run, (h.core c).arch⟩

theorem of_rings (p : Nat) (h : Dev.Rings d t) : Frees p d t where
  value := h.value
  net := h.net
  pck := h.pck
  bits := congrArg (·.bits) h.mem
  ops _ hy := h.chan ▸ hy
  cipherJobs := congrArg (·.cipherJobs) h.eng
  compJobs := congrArg (·.compJobs) h.eng
  moverJobs := congrArg (·.moverJobs) h.mem
  keys n e := (congrArg (fun x : Eng => Table.get ({} : KeySlot) x.keys (slotKey p n)) h.eng).trans e
  removing _ hy := h.removing ▸ hy
  cores c := .inl (by rw [Dev.core, h.cores]; exact ⟨rfl, rfl⟩)

theorem wr (p : Nat) (d : Dev) {e : Entry} {i q : Nat} (hk : ¬ Lasting (e.key i q)) (v : Nat) : Frees p d (d.wr e v i q) :=
  { refl p d with value := Dev.SameLasting.wr (fun _ _ _ => rfl) hk v }

theorem setBank (p : Nat) (d : Dev) (b : Nat) (x : BankSt) : Frees p d (d.setBank b x) := { refl p d with }

theorem onChan (p : Nat) (d : Dev) {f : Chan → Chan} (hf : ∀ y ∈ (f d.chan).ops, y ∈ d.chan.ops) : Frees p d (d.onChan f) :=
  { refl p d with ops := hf }

/-! ### Each resource -/

theorem dissolvePair (p : Nat) (d : Dev) (c : Nat) : Frees p d (d.dissolvePair c) := by
  have pairs := fun (d : Dev) k v => wr p d (Entry.Fleeting.not_lasting (e := R.clu_TWIN_PARTNER) (by decide) k 0) v
  unfold Dev.dissolvePair
  dsimp only
  split
  · exact refl p d
  · exact (pairs _ _ _).trans (pairs _ _ _)

theorem resetCore (p : Nat) (d : Dev) (c : Nat) : Frees p d (d.resetCore p c .free) := by
  have traffic : Dev.Traffic (fun _ => True) d (d.drainAll c p) := Dev.Traffic.drainAll trivial .refl p
  obtain ⟨⟨n, core⟩, others, -, -⟩ := d.resetCore_resets p c .free
  have cores : ∀ k, ((d.resetCore p c .free).core k).Spent (d.core k) := fun k => by
    by_cases hk : k = c
    · subst hk
      rw [core]
      exact .inr ⟨rfl, rfl⟩
    · exact .inl ⟨(others k hk).run, (others k hk).arch⟩
  exact { of_traffic p traffic with cores := cores }

theorem quenchGranule (p : Nat) (d : Dev) (g : Nat) : Frees p d (d.quenchGranule p g) := by
  have drained : Dev.Traffic (fun _ => True) d (d.drainTo p (.granule g)) := .drainTo (fun _ _ => trivial) .refl _
  have flushed := fun (l : List Nat) => (drained.foldl (f := fun d s => d.forgetPast p (s * 2 ^ 24) ((s + 1) * 2 ^ 24))
    (fun _ _ h => h.forgetPast _ _ _) l).foldl (f := fun d s => (d.heldLines p (s * 2 ^ 24) ((s + 1) * 2 ^ 24)).foldl (fun d l => d.flushLine p l true) d)
    (fun _ _ h => h.foldl (fun _ _ h => h.flushLine _ _ _) _) l
  exact of_traffic p (((flushed _).onMem _ (by exact ⟨rfl, rfl, rfl⟩)).bump (by decide) _ _ _)

theorem emptyBank (p : Nat) (d : Dev) (b : Nat) : Frees p d (d.emptyBank b) := of_traffic p (.emptyBank d b)

theorem releaseEndpoint (p : Nat) (d : Dev) (e : Nat) : Frees p d (d.releaseEndpoint e) := by
  have base := wr p d (Entry.Fleeting.not_lasting (e := R.ep_CQ_BASE) (by decide) e 0) (R.ep_CQ_BASE.default e)
  have entries := base.trans (wr p _ (Entry.Fleeting.not_lasting (e := R.ep_CQ_ENTRIES) (by decide) e 0) (R.ep_CQ_ENTRIES.default e))
  have released := entries.trans (wr p _ (Entry.Fleeting.not_lasting (e := R.ep_DOORBELL) (by decide) e 0) (R.ep_DOORBELL.default e))
  unfold Dev.releaseEndpoint
  exact released.trans (onChan p _ (by exact fun y hy => (List.mem_filter.mp hy).1))

theorem quenchWayGroup (p : Nat) (d : Dev) (n : Nat) : Frees p d (d.quenchWayGroup n) :=
  (of_traffic (who := fun _ => False) p ((Dev.Traffic.refl.flushWay _ _ _).flushWay _ _ _)).trans
    (wr p _ (Entry.Fleeting.not_lasting (by decide) _ _) _)

theorem clearKey (p : Nat) (d : Dev) (k : Nat) : Frees p d (d.clearKey p k) := by
  refine { refl p d with keys := fun n e => ?_ }
  refine (Table.get_set ({} : KeySlot) d.eng.keys (slotKey p n) (slotKey p k) {}).trans ?_
  split
  · rfl
  · exact e

end Dev.Frees

/-- The window cut is traffic of the cores that store for the pavilion. -/
theorem Dev.Traffic.cutWindow (d : Dev) (p n : Nat) : Dev.Traffic (fun _ => True) d (d.cutWindow p n) :=
  (((Dev.Traffic.drainTo (fun _ _ => trivial) .refl _).forgetPast _ _ _).onMem _).foldl
    (fun _ _ h => h.own trivial ⟨rfl, rfl, rfl, rfl⟩) _

theorem Dev.Frees.freeRes (p : Nat) (d : Dev) (x : Res) : Dev.Frees p d (d.freeRes p x) := by
  cases x with
  | core c => exact (dissolvePair p d c).trans (resetCore p _ c)
  | granule g => exact quenchGranule p d g
  | bank b => exact (emptyBank p d b).trans (setBank p _ b .free)
  | endpoint e => exact releaseEndpoint p d e
  | wayGroup n => exact quenchWayGroup p d n
  | keySlot k => exact clearKey p d k
  | window n =>
    have cut := of_traffic p (Dev.Traffic.cutWindow d p (d.winSize p))
    unfold Dev.freeRes
    dsimp only
    generalize d.cutWindow p (d.winSize p) = u at cut
    have listed : Dev.Frees p u { u with removing := u.removing.filter fun e => !(decide (e.1 = p) && decide (e.2 = Res.window n)) } :=
      { refl p u with removing := fun y hy => (List.mem_filter.mp hy).1 }
    exact (cut.trans listed).trans (of_rings p (Dev.Rings.refl.fitRing p))

end Sys2Proof.Machine
end

section
/-! PROOFS. A destruction proceeds (R53, R54): its sessions close, its work is discarded and what it held is quenched. -/

namespace Sys2Proof.Machine

/-! ## Sessions closed (R89) -/

theorem Dev.sess_eq_some {d : Dev} {id : Nat} {s : Session} (h : d.sess id = some s) : s ∈ d.net.sessions ∧ s.id = id :=
  ⟨List.mem_of_find?_eq_some h, by simpa using List.find?_some h⟩

theorem Dev.sess_eq_none {d : Dev} {id : Nat} (h : d.sess id = none) : ∀ y ∈ d.net.sessions, y.id ≠ id := fun y hy => by
  simpa using List.find?_eq_none.mp h y hy

/-- A session that ends is gone. -/
theorem Dev.endSession_gone (d : Dev) (s : Session) : ∀ y ∈ (d.endSession s).net.sessions, y.id ≠ s.id := by
  intro y hy
  unfold Dev.endSession at hy
  obtain ⟨y', hy', follows⟩ := (Dev.Signals.refl.deficitRules).follow.each y hy
  rw [follows.id]
  simpa using (List.mem_filter.mp hy').2

/-- Two sessions of a list without repeated numbers. -/
theorem Session.eq_of_id {l : List Session} (distinct : (l.map (·.id)).Nodup) {a b : Session} (ha : a ∈ l) (hb : b ∈ l) (h : a.id = b.id) : a = b :=
  List.inj_on_of_nodup_map distinct ha hb h

/-- The device ends a session without requests. -/
theorem Dev.endOrSuspend_gone {d : Dev} {id : Nat} (idle : ∀ s, d.sess id = some s → s.reqs = []) :
    ∀ y ∈ (d.endOrSuspend id).net.sessions, y.id ≠ id := by
  unfold Dev.endOrSuspend Dev.withSess
  split
  · rename_i s hs
    dsimp only
    rw [idle s hs, if_pos List.isEmpty_nil]
    exact (Dev.sess_eq_some hs).2 ▸ d.endSession_gone s
  · rename_i hs
    exact Dev.sess_eq_none hs

/-- A close of one of a pavilion's sessions, none of which has a request, ends it. -/
theorem Dev.deviceClose_gone {d : Dev} {p : Nat} (distinct : (d.net.sessions.map (·.id)).Nodup)
    (idle : ∀ y ∈ d.net.sessions, y.pav = p → y.reqs = []) (id reason : Nat) :
    ∀ y ∈ (d.deviceClose id reason).net.sessions, y.pav = p → y.id ≠ id := by
  intro y hy hp hid
  obtain ⟨s0, hs0, follows⟩ := (Dev.Signals.refl.deviceClose id reason).follow.each y hy
  have s0_id : s0.id = id := follows.id.symm.trans hid
  have s0_idle : s0.reqs = [] := idle s0 hs0 (follows.pav.symm.trans hp)
  unfold Dev.deviceClose Dev.withSess at hy
  split at hy
  · rename_i s hs
    obtain ⟨mem, sid⟩ := Dev.sess_eq_some hs
    obtain rfl := Session.eq_of_id distinct hs0 mem (s0_id.trans sid.symm)
    dsimp only at hy
    split at hy
    · rw [s0_idle, if_pos List.isEmpty_nil] at hy
      exact d.endSession_gone s0 y hy (hid.trans s0_id.symm)
    · refine Dev.endOrSuspend_gone (fun s' hs' => ?_) y hy hid
      obtain ⟨mem', s'_id⟩ := Dev.sess_eq_some hs'
      obtain ⟨z, hz, zfollows⟩ := (Dev.Signals.refl.sendMsg id 0x0D 0 0 (closePayload reason)).follow.each s' mem'
      obtain rfl := Session.eq_of_id distinct hz hs0 (zfollows.id.symm.trans (s'_id.trans s0_id.symm))
      exact zfollows.reqs s0_idle
  · rename_i hs
    exact Dev.sess_eq_none hs y hy hid

/-- Closes of a pavilion's sessions, one after the other. -/
theorem Dev.closes_signals {d0 d : Dev} (h : Dev.Signals d0 d) (l : List Nat) (reason : Nat) :
    Dev.Signals d0 (l.foldl (fun d id => d.deviceClose id reason) d) := h.foldl (fun _ _ h => h.deviceClose _ _) l

theorem Dev.closes_gone (l : List Nat) {d : Dev} {p : Nat} (distinct : (d.net.sessions.map (·.id)).Nodup)
    (idle : ∀ y ∈ d.net.sessions, y.pav = p → y.reqs = []) (reason : Nat) :
    ∀ y ∈ (l.foldl (fun d id => d.deviceClose id reason) d).net.sessions, y.pav = p → y.id ∉ l := by
  induction l generalizing d with
  | nil => simp
  | cons id l ih =>
    have first := Dev.deviceClose_gone distinct idle id reason
    have follow := (Dev.Signals.refl.deviceClose (d := d) id reason).follow
    rw [List.foldl_cons]
    generalize d.deviceClose id reason = u at first follow
    have idle' : ∀ y ∈ u.net.sessions, y.pav = p → y.reqs = [] := fun y hy hp => by
      obtain ⟨s, hs, follows⟩ := follow.each y hy
      exact follows.reqs (idle s hs (follows.pav.symm.trans hp))
    intro y hy hp
    obtain ⟨s, hs, follows⟩ := (Dev.closes_signals (Dev.Signals.refl (d := u)) l reason).follow.each y hy
    have other : y.id ≠ id := follows.id ▸ first s hs (follows.pav.symm.trans hp)
    simp only [List.mem_cons, not_or]
    exact ⟨other, ih (distinct.sublist follow.ids) idle' y hy hp⟩

/-! ## The work discarded (R53) -/

/-- A device whose channels' links alone have changed. -/
def Dev.Relinked (d t : Dev) : Prop := ∃ links, t = { d with chan := { d.chan with links := links } }

theorem Dev.unqueue_relinked (d : Dev) (o : ChanOp) (f : OpMsg → Bool) : d.Relinked (d.unqueue o f) := by
  refine foldl_keeps (P := d.Relinked) _ (fun t e h => ?_) _ ⟨d.chan.links, rfl⟩
  obtain ⟨links, rfl⟩ := h
  exact ⟨_, rfl⟩

theorem Dev.unqueues_relinked (d : Dev) (l : List ChanOp) : d.Relinked (l.foldl (fun d o => d.unqueue o fun _ => true) d) := by
  refine foldl_keeps (P := d.Relinked) _ (fun t o h => ?_) l ⟨d.chan.links, rfl⟩
  obtain ⟨links, rfl⟩ := h
  obtain ⟨links', h⟩ := Dev.unqueue_relinked { d with chan := { d.chan with links := links } } o fun _ => true
  exact ⟨links', h⟩

/-- The requests and operations that a destruction discards. -/
def Dev.workOf (d : Dev) (p : Nat) : Nat := ((d.pavSessions p).map fun s => s.reqs.length).sum + (d.openOps p).length

/-- A session of pavilion `p` without its requests. -/
def Session.discarded (p : Nat) (s : Session) : Session := if s.pav = p then { s with reqs := [] } else s

/-- The work that a destruction discards counted. -/
def Dev.countWork (d : Dev) (p : Nat) : Dev := if d.workOf p = 0 then d else d.bump R.est_DISCARDED_AT_DESTROY (n := d.workOf p)

/-- The operations of pavilion `p` and the requests of its sessions dropped. -/
def Dev.dropWork (d : Dev) (p : Nat) : Dev :=
  (((d.chan.ops.filter fun o => decide (o.pav = p)).foldl (fun d o => d.unqueue o fun _ => true) d).onChan fun c =>
    { c with ops := c.ops.filter fun o => decide (o.pav ≠ p) }).onNet fun x => { x with
      sessions := x.sessions.map (Session.discarded p)
      inQ := x.inQ.filter fun q => decide (q.pav ≠ p)
      inRing := x.inRing.filter fun q => decide (q.pav ≠ p) }

theorem Dev.discardWork_eq (d : Dev) (p : Nat) : d.discardWork p = (d.countWork p).dropWork p := rfl

/-- Work dropped: no operation of the pavilion and no request of its sessions is left. -/
theorem Dev.dropWork_spec (d : Dev) (p : Nat) : let t := d.dropWork p
    { t with chan := d.chan, net := d.net } = d ∧ (∀ y ∈ t.chan.ops, y.pav ≠ p) ∧ t.net.sessions = d.net.sessions.map (Session.discarded p) := by
  unfold Dev.dropWork
  obtain ⟨links, h⟩ := d.unqueues_relinked (d.chan.ops.filter fun o => decide (o.pav = p))
  rw [h]
  exact ⟨rfl, fun y hy => by simpa using (List.mem_filter.mp hy).2, rfl⟩

theorem Dev.countWork_rest (d : Dev) (p : Nat) : { d.countWork p with dict := d.dict } = d := by
  unfold Dev.countWork
  split <;> rfl

/-- The discarded work of a pavilion is counted, and no other value changes. -/
theorem Dev.countWork_value (d : Dev) (p : Nat) :
    (∀ e : Entry, e.OfPav → ∀ i, (d.countWork p).rd e i = d.rd e i) ∧ (d.workOf p ≠ 0 → (d.countWork p).rd R.est_DISCARDED_AT_DESTROY =
      min (d.rd R.est_DISCARDED_AT_DESTROY + d.workOf p) (256 ^ R.est_DISCARDED_AT_DESTROY.size - 1)) := by
  unfold Dev.countWork
  split
  · exact ⟨fun _ _ _ => rfl, fun h => absurd ‹_› h⟩
  · exact ⟨fun e he i => Dev.rd_bump_ne _ (Entry.OfEstate.key_ne (by decide) he i).symm, fun _ => Dev.rd_bump_self ..⟩

/-! ## What the pavilion held, quenched (R54) -/

/-- Keys, bits and jobs of pavilion `p` are gone. -/
structure Dev.Keyless (t : Dev) (p : Nat) : Prop where
  keys : ∀ n < 1024, t.keySlot p n = {}
  pck : Table.get [] t.hearth.pck p = []
  bits : ∀ a < 2 ^ 18, t.pbit p a = false
  cipherJobs : ∀ y ∈ t.eng.cipherJobs, y.pav ≠ p
  compJobs : ∀ y ∈ t.eng.compJobs, y.pav ≠ p
  moverJobs : ∀ y ∈ t.mem.moverJobs, y.pav ≠ p

theorem Dev.quenchKeys_keyless (d : Dev) (p : Nat) : (d.quenchKeys p).Keyless p where
  keys n hn := by
    have mine : slotKey p n / 1024 = p := by
      unfold slotKey
      omega
    exact (Table.get_filter_key _ d.eng.keys (fun k => decide (k / 1024 ≠ p)) _).trans (if_neg (by simp [mine]))
  pck := Table.get_set_self ([] : Bytes) d.hearth.pck p []
  bits a ha := by
    have mine : bitKey p a / 2 ^ 18 = p := by
      unfold bitKey
      omega
    exact (Table.get_filter_key _ d.mem.bits (fun k => decide (k / 2 ^ 18 ≠ p)) _).trans
      (if_neg (by rw [mine]; simp))
  cipherJobs y hy := by simpa using (List.mem_filter.mp hy).2
  compJobs y hy := by simpa using (List.mem_filter.mp hy).2
  moverJobs y hy := by simpa using (List.mem_filter.mp hy).2

theorem Dev.quenchKeys_rest (d : Dev) (p : Nat) : (d.quenchKeys p).dict = d.dict ∧ (d.quenchKeys p).cores = d.cores ∧
    (d.quenchKeys p).chan = d.chan ∧ (d.quenchKeys p).net.sessions = d.net.sessions := ⟨rfl, rfl, rfl, rfl⟩

/-- They do not come back while resources are freed. -/
theorem Dev.Keyless.frees {d t : Dev} {p : Nat} (h : d.Keyless p) (f : Dev.Frees p d t) : t.Keyless p where
  keys n hn := f.keys n (h.keys n hn)
  pck := f.pck ▸ h.pck
  bits a ha := (congrArg (Table.get false · (bitKey p a)) f.bits).trans (h.bits a ha)
  cipherJobs := f.cipherJobs ▸ h.cipherJobs
  compJobs := f.compJobs ▸ h.compJobs
  moverJobs := f.moverJobs ▸ h.moverJobs

/-- A core that is freed is reset. -/
theorem Dev.freeRes_cleared (d : Dev) (p c : Nat) : ((d.freeRes p (.core c)).core c).Cleared (d.core c) := by
  obtain ⟨⟨n, core⟩, -, -, -⟩ := (d.dissolvePair c).resetCore_resets p c .free
  have pair : (d.dissolvePair c).core c = d.core c := by
    unfold Dev.dissolvePair
    dsimp only
    split <;> rfl
  have freed : (d.freeRes p (.core c)).core c = _ := core
  rw [freed, pair]
  exact ⟨rfl, rfl⟩

/-- Cores freed one after the other are reset. -/
theorem Dev.freeCores_cleared (l : List Nat) (d : Dev) (p : Nat) :
    ∀ c ∈ l, ((l.foldl (fun d c => d.freeRes p (.core c)) d).core c).Cleared (d.core c) := by
  induction l generalizing d with
  | nil => simp
  | cons k l ih =>
    have later := Dev.Frees.foldl l (fun t c => Dev.Frees.freeRes p t (.core c)) (d.freeRes p (.core k))
    intro c hc
    by_cases hl : c ∈ l
    · exact (ih (d.freeRes p (.core k)) c hl).trans_spent ((Dev.Frees.freeRes p d (.core k)).cores c)
    · obtain rfl : c = k := (List.mem_cons.mp hc).resolve_right hl
      exact .of_spent (later.cores c) (d.freeRes_cleared p c)

/-- A window cut to nothing is empty. -/
theorem Dev.cutWindow_empty (d : Dev) (p a : Nat) (ha : a / 2 ^ 33 = p) :
    Table.get 0 (d.cutWindow p 0).mem.win.bytes a = 0 ∧ Table.get 0 (d.cutWindow p 0).mem.winDurable a = 0 := by
  have cores (l : List Nat) (f : Nat → Core → Core) (t : Dev) : (l.foldl (fun d c => d.onCore c (f c)) t).mem = t.mem :=
    foldl_keeps (P := fun u : Dev => u.mem = t.mem) (fun d c => d.onCore c (f c)) (fun _ _ h => h) l rfl
  have mine : ¬ (!(decide (a / 2 ^ 33 = p) && decide (0 ≤ a % 2 ^ 33))) = true := by
    rw [ha]
    simp
  unfold Dev.cutWindow
  dsimp only
  rw [cores _ fun c => _]
  exact ⟨(Table.get_filter_key 0 _ (fun a => !(decide (a / 2 ^ 33 = p) && decide (0 ≤ a % 2 ^ 33))) a).trans (if_neg mine),
    (Table.get_filter_key 0 _ (fun a => !(decide (a / 2 ^ 33 = p) && decide (0 ≤ a % 2 ^ 33))) a).trans (if_neg mine)⟩

end Sys2Proof.Machine
end

section
/-! PROOFS. A destruction proceeds (R53, R54): the chain from the work discarded to the window cut. -/

namespace Sys2Proof.Machine

/-! ## Steps 2 to 4 of R54 -/

/-- A pavilion's cores, memory, ring and window quenched. -/
structure Dev.Quenched (d t : Dev) (p : Nat) : Prop where
  frees : Dev.Frees p d t
  removing : ∀ y ∈ t.removing, y.1 ≠ p
  cores : ∀ c ∈ d.pavCores p, (t.core c).Cleared (d.core c)
  ring : t.hring p = {}
  window : ∀ a, a / 2 ^ 33 = p → Table.get 0 t.mem.win.bytes a = 0 ∧ Table.get 0 t.mem.winDurable a = 0

/-- What waits for removal from pavilion `p` freed. -/
def Dev.quenchRemoving (d : Dev) (p : Nat) : Dev :=
  let d := ((d.removing.filter fun e => decide (e.1 = p)).map (·.2)).foldl (fun d x => d.freeRes p x) d
  { d with removing := d.removing.filter fun e => decide (e.1 ≠ p) }

/-- The memory and the endpoints of pavilion `p` quenched. -/
def Dev.quenchUnits (d : Dev) (p : Nat) : Dev :=
  let d := (d.banksOf p).foldl (fun d b => d.emptyBank b) d
  let d := (bitList 128 (d.rd R.pav_WAY_GROUPS p)).foldl (fun d g => d.quenchWayGroup g) d
  let d := (bitList 288 (d.rd R.pav_GRANULES p)).foldl (fun d g => d.quenchGranule p g) d
  (bitList 4096 (d.rd R.pav_ENDPOINTS p)).foldl (fun d e => d.releaseEndpoint e) d

theorem Dev.quenchRest_eq (d : Dev) (p : Nat) : d.quenchRest p =
    ((((((d.quenchRemoving p).pavCores p).foldl (fun d c => d.freeRes p (.core c)) (d.quenchRemoving p)).quenchUnits p).setRing p {}).cutWindow p 0) := rfl

theorem Dev.quenchRemoving_spec (d : Dev) (p : Nat) : Dev.Frees p d (d.quenchRemoving p) ∧ ∀ y ∈ (d.quenchRemoving p).removing, y.1 ≠ p := by
  have freed := Dev.Frees.foldl (p := p) ((d.removing.filter fun e => decide (e.1 = p)).map (·.2)) (fun t x => Dev.Frees.freeRes p t x) d
  refine ⟨freed.trans ({ Dev.Frees.refl p _ with removing := fun y hy => (List.mem_filter.mp hy).1 }), fun y hy => ?_⟩
  simpa using (List.mem_filter.mp hy).2

theorem Dev.quenchUnits_frees (d : Dev) (p : Nat) : Dev.Frees p d (d.quenchUnits p) := by
  unfold Dev.quenchUnits
  refine (((Dev.Frees.foldl _ (fun t b => ?_) _).trans (.foldl _ (fun t g => ?_) _)).trans (.foldl _ (fun t g => ?_) _)).trans (.foldl _ (fun t e => ?_) _)
  · exact .emptyBank p t b
  · exact .quenchWayGroup p t g
  · exact .quenchGranule p t g
  · exact .releaseEndpoint p t e

theorem Dev.quenchRest_quenched (d : Dev) {p : Nat} (hp : p < 0x1000) : d.Quenched (d.quenchRest p) p := by
  rw [Dev.quenchRest_eq]
  obtain ⟨listed, gone⟩ := d.quenchRemoving_spec p
  have same : (d.quenchRemoving p).pavCores p = d.pavCores p :=
    congrArg (bitList 256) (listed.value.rd (Entry.OfPav.lasting (by decide) hp))
  generalize d.quenchRemoving p = u at listed gone same
  have freed := Dev.Frees.foldl (u.pavCores p) (fun t c => Dev.Frees.freeRes p t (.core c)) u
  have cleared := Dev.freeCores_cleared (u.pavCores p) u p
  generalize (u.pavCores p).foldl (fun d c => d.freeRes p (.core c)) u = v at freed cleared
  have units := v.quenchUnits_frees p
  generalize v.quenchUnits p = w at units
  have rings : Dev.Rings w (w.setRing p {}) := Dev.Rings.refl.setRing p {}
  have cut := Dev.Traffic.cutWindow (w.setRing p {}) p 0
  have later : Dev.Frees p v ((w.setRing p {}).cutWindow p 0) := (units.trans (.of_rings p rings)).trans (.of_traffic p cut)
  refine ⟨(listed.trans freed).trans later, fun y hy => gone y (freed.removing y (later.removing y hy)), fun c hc => ?_, ?_,
    Dev.cutWindow_empty _ p⟩
  · exact .of_spent (later.cores c) ((cleared c (same ▸ hc)).trans_spent (listed.cores c))
  · exact (congrArg (fun x : Hearth => Table.get ({} : Ring) x.rings p) cut.hearth).trans (Table.get_set_self ({} : Ring) w.hearth.rings p {})

/-! ## The destruction proceeds -/

/-- The sessions of pavilion `p` closed by the device. -/
def Dev.closeAll (d : Dev) (p : Nat) : Dev := ((d.pavSessions p).map (·.id)).foldl (fun d id => d.deviceClose id 0x0204) d

/-- What a destruction does once it may proceed. -/
def Dev.proceed (d : Dev) (p : Nat) : Dev :=
  ((((d.discardWork p).closeAll p).quenchKeys p).quenchRest p).onPav p fun x => { x with proceeding := true }

/-- The wait of R51 or R53 is over, as the statement has it. -/
theorem Dev.mayProceed_iff (d : Dev) (p : Nat) : d.mayProceed p = true ↔
    d.rd R.pav_STATE p = 5 ∧ (Table.get {} d.pavs p).proceeding = false ∧ d.coresBusy p = false ∧
      (if (Table.get {} d.pavs p).forced then d.openOps p = [] ∨ (Table.get {} d.pavs p).due ≤ d.time
        else d.openOps p = [] ∧ ∀ s ∈ d.pavSessions p, s.reqs = []) := by
  unfold Dev.mayProceed Dev.pavState
  dsimp only
  cases (Table.get ({} : Pav) d.pavs p).forced <;> simp [and_assoc]

/-- A destruction that proceeds: the pavilion's work, keys, bits, sessions, ring and window are gone, and its cores free. -/
structure Dev.Proceeded (d t : Dev) (p : Nat) : Prop where
  quenching : t.quenching p = true
  keyless : t.Keyless p
  ops : ∀ y ∈ t.chan.ops, y.pav ≠ p
  removing : ∀ y ∈ t.removing, y.1 ≠ p
  ring : t.hring p = {}
  window : ∀ a, a / 2 ^ 33 = p → Table.get 0 t.mem.win.bytes a = 0 ∧ Table.get 0 t.mem.winDurable a = 0
  cores : ∀ c ∈ d.pavCores p, (t.core c).Cleared (d.core c)
  sessions : (d.net.sessions.map (·.id)).Nodup → ∀ y ∈ t.net.sessions, y.pav ≠ p
  discarded : d.workOf p ≠ 0 → t.rd R.est_DISCARDED_AT_DESTROY =
    min (d.rd R.est_DISCARDED_AT_DESTROY + d.workOf p) (256 ^ R.est_DISCARDED_AT_DESTROY.size - 1)

theorem Session.discarded_id (p : Nat) (s : Session) : (s.discarded p).id = s.id := by
  unfold Session.discarded
  split <;> rfl

theorem Session.discarded_idle (p : Nat) (s : Session) (h : (s.discarded p).pav = p) : (s.discarded p).reqs = [] := by
  unfold Session.discarded at h ⊢
  split
  · rfl
  · rename_i ne
    rw [if_neg ne] at h
    exact absurd h ne

/-- The sessions whose work is discarded close, where no number is used twice. -/
theorem Dev.closeAll_sessions {d : Dev} {p : Nat} {l : List Session} (hl : d.net.sessions = l.map (Session.discarded p))
    (distinct : (l.map (·.id)).Nodup) : ∀ y ∈ (d.closeAll p).net.sessions, y.pav ≠ p := by
  intro y hy hp
  have ids : (d.net.sessions.map (·.id)) = l.map (·.id) := by
    rw [hl, List.map_map]
    exact List.map_congr_left fun s _ => s.discarded_id p
  have idle : ∀ z ∈ d.net.sessions, z.pav = p → z.reqs = [] := by
    intro z hz hzp
    rw [hl] at hz
    obtain ⟨s, -, rfl⟩ := List.mem_map.mp hz
    exact s.discarded_idle p hzp
  obtain ⟨s, hs, follows⟩ := (Dev.closes_signals .refl _ _).follow.each y hy
  refine Dev.closes_gone _ (ids ▸ distinct) idle 0x0204 y hy hp (List.mem_map.mpr ⟨s, List.mem_filter.mpr ⟨hs, ?_⟩, follows.id.symm⟩)
  exact decide_eq_true (follows.pav.symm.trans hp)

theorem Dev.proceed_proceeded (d : Dev) {p : Nat} (hp : p < 0x1000) : d.Proceeded (d.proceed p) p := by
  unfold Dev.proceed
  rw [Dev.discardWork_eq]
  have counted := d.countWork_rest p
  obtain ⟨value, count⟩ := d.countWork_value p
  generalize d.countWork p = a at counted value count
  obtain ⟨rest, ops, sessions⟩ := a.dropWork_spec p
  generalize a.dropWork p = b at rest ops sessions
  have same : a.net.sessions = d.net.sessions := (congrArg (·.net.sessions) counted :)
  have closed (distinct : (d.net.sessions.map (·.id)).Nodup) : ∀ y ∈ (b.closeAll p).net.sessions, y.pav ≠ p :=
    Dev.closeAll_sessions sessions (same ▸ distinct)
  have signals : Dev.Signals b (b.closeAll p) := Dev.closes_signals .refl _ _
  generalize b.closeAll p = c at closed signals
  obtain ⟨cores, -, -, chan, -, -, -⟩ := signals.rest
  have keyless := c.quenchKeys_keyless p
  obtain ⟨qdict, qcores, qchan, qsessions⟩ := c.quenchKeys_rest p
  generalize c.quenchKeys p = k at keyless qdict qcores qchan qsessions
  have quenched := k.quenchRest_quenched hp
  generalize k.quenchRest p = t at quenched
  have bdict : b.dict = a.dict := (congrArg Dev.dict rest :)
  have lasting : t.SameLasting a := fun x hx v => by
    rw [quenched.frees.value x hx, qdict, signals.value x hx, bdict]
  have sameCores : k.cores = d.cores := by
    rw [qcores, cores]
    exact (congrArg Dev.cores rest :).trans (congrArg Dev.cores counted :)
  have held : k.pavCores p = d.pavCores p := by
    refine congrArg (bitList 256) (Eq.trans ?_ (value R.pav_CORES (by decide) p))
    unfold Dev.rd
    rw [qdict, signals.value _ (Entry.OfPav.lasting (by decide) hp), bdict]
  refine ⟨congrArg Pav.proceeding (Table.get_set_self ({} : Pav) t.pavs p _), ?_, fun y hy => ?_, quenched.removing, quenched.ring, quenched.window,
    fun n hn => ?_, fun distinct y hy => ?_, fun work => ?_⟩
  · obtain ⟨keys, pck, bits, cipherJobs, compJobs, moverJobs⟩ := keyless.frees quenched.frees
    exact ⟨keys, pck, bits, cipherJobs, compJobs, moverJobs⟩
  · exact ops y (chan ▸ qchan ▸ quenched.frees.ops y hy)
  · have before : k.core n = d.core n := congrArg (Table.get ({} : Core) · n) sameCores
    exact before ▸ quenched.cores n (held ▸ hn)
  · exact closed distinct y (qsessions ▸ quenched.frees.net ▸ hy)
  · exact (lasting.rd (Entry.OfEstate.lasting (by decide))).trans (count work)

end Sys2Proof.Machine
end

section
/-! PROOFS. A destruction completes (R54): the pavilion's banks are free and its entries at their defaults. -/

namespace Sys2Proof.Machine

/-! ## Banks -/

/-- Banks quenched: each of them is free, and the others stay with the pavilion that they serve. -/
theorem Dev.quenchBanks_pav (l : List Nat) (d : Dev) (b : Nat) :
    ((l.foldl (fun d b => d.quenchBank b) d).bank b).pav = if b ∈ l then none else (d.bank b).pav := by
  induction l generalizing d with
  | nil => rw [if_neg List.not_mem_nil, List.foldl_nil]
  | cons k l ih =>
    rw [List.foldl_cons, ih]
    by_cases hk : b = k
    · subst hk
      have free : (d.quenchBank b).bank b = .free := Dev.bank_setBank_self _ _ _
      rw [free, if_pos List.mem_cons_self]
      exact ite_self _
    · have other : (d.quenchBank k).bank b = (d.emptyBank k).bank b := Table.get_set_ne BankSt.free _ BankSt.free hk
      rw [other, (Dev.Traffic.emptyBank d k).bank_pav b]
      simp only [List.mem_cons, hk, false_or]

theorem Dev.mem_banksOf {d : Dev} {p b : Nat} : b ∈ d.banksOf p ↔ b < 512 ∧ (d.bank b).pav = some p := by
  simp only [Dev.banksOf, List.mem_filter, List.mem_range]
  cases d.bank b <;> simp [BankSt.pav]

/-- A bank that does not serve pavilion `p` is in none of its states. -/
theorem BankSt.ne_of_pav {b : BankSt} {p : Nat} (h : b.pav ≠ some p) (g : Nat) :
    b ≠ .held p ∧ b ≠ .clearing p ∧ b ≠ .releasing p g ∧ b ≠ .released p g := by
  refine ⟨?_, ?_, ?_, ?_⟩
  all_goals
    rintro rfl
    exact h rfl

/-- The banks of pavilion `p` quenched. -/
def Dev.giveUpBanks (d : Dev) (p : Nat) : Dev := (d.banksOf p).foldl (fun d b => d.quenchBank b) d

theorem Dev.giveUpBanks_pav (d : Dev) (p : Nat) : ∀ b < 512, ((d.giveUpBanks p).bank b).pav ≠ some p := by
  intro b hb
  rw [Dev.giveUpBanks, Dev.quenchBanks_pav]
  split
  · exact nofun
  · rename_i other
    exact fun held => other (Dev.mem_banksOf.mpr ⟨hb, held⟩)

theorem Dev.giveUpBanks_steady (d : Dev) (p : Nat) : Dev.Steady d (d.giveUpBanks p) := (Dev.Steady.refl d).foldl _ fun t b => .quenchBank t b

/-! ## Entries -/

/-- An entry of the pavilion at its default, and staged no more; GENERATION stays. -/
def Dev.forgetEntry (d : Dev) (p : Nat) (e : Entry) : Dev := if e.sub = 0x11 then d else (d.wr e (e.default p) p).wrStaged e none p

/-- What stays when an entry is forgotten. -/
theorem Dev.forgetEntry_other (d : Dev) (p : Nat) (e : Entry) {k : Nat} (hk : e.sub ≠ 0x11 → k ≠ e.key p 0) :
    (∀ x, Table.get x (d.forgetEntry p e).dict k = Table.get x d.dict k) ∧
      Table.get none (d.forgetEntry p e).staged k = Table.get none d.staged k := by
  unfold Dev.forgetEntry
  split
  · exact ⟨fun _ => rfl, rfl⟩
  · rename_i hs
    exact ⟨fun x => Table.get_set_other x _ _ _ (hk hs), Table.get_set_other none none d.staged none (hk hs)⟩

/-- Entries forgotten one after the other. -/
theorem Dev.forgetEntries_spec (p : Nat) (l : List Entry) (d : Dev) (hl : ∀ e ∈ l, e.OfPav) (distinct : (l.map (·.sub)).Nodup) :
    let t := l.foldl (fun d e => d.forgetEntry p e) d
    { t with dict := d.dict, staged := d.staged } = d ∧ (∀ k, (∀ e ∈ l, e.sub ≠ 0x11 → k ≠ e.key p 0) → ∀ x, Table.get x t.dict k = Table.get x d.dict k) ∧
      (∀ k, (∀ e ∈ l, e.sub ≠ 0x11 → k ≠ e.key p 0) → Table.get none t.staged k = Table.get none d.staged k) ∧
      ∀ e ∈ l, e.sub ≠ 0x11 → t.rd e p = e.default p ∧ t.rdStaged e p = none := by
  induction l generalizing d with
  | nil => exact ⟨rfl, fun _ _ _ => rfl, fun _ _ => rfl, by simp⟩
  | cons e l ih =>
    obtain ⟨he, hl⟩ := List.forall_mem_cons.mp hl
    obtain ⟨fresh, distinct⟩ := List.nodup_cons.mp distinct
    obtain ⟨rest, dict, staged, read⟩ := ih (d.forgetEntry p e) hl distinct
    have first : ∀ k, (∀ e' ∈ e :: l, e'.sub ≠ 0x11 → k ≠ e'.key p 0) → _ := fun k hk => d.forgetEntry_other p e (hk e List.mem_cons_self)
    have later : ∀ k, (∀ e' ∈ e :: l, e'.sub ≠ 0x11 → k ≠ e'.key p 0) → ∀ e' ∈ l, e'.sub ≠ 0x11 → k ≠ e'.key p 0 :=
      fun k hk e' he' => hk e' (List.mem_cons_of_mem _ he')
    refine ⟨?_, fun k hk x => (dict k (later k hk) x).trans ((first k hk).1 x), fun k hk => (staged k (later k hk)).trans (first k hk).2,
      List.forall_mem_cons.mpr ⟨fun hs => ?_, read⟩⟩
    · refine (congrArg (fun t : Dev => { t with dict := d.dict, staged := d.staged }) rest).trans ?_
      unfold Dev.forgetEntry
      split <;> rfl
    · have other : ∀ e' ∈ l, e'.sub ≠ 0x11 → e.key p 0 ≠ e'.key p 0 := fun e' he' _ =>
        he.key_ne (hl e' he') (fun same => fresh (List.mem_map.mpr ⟨e', he', same.symm⟩)) p
      have forgotten : d.forgetEntry p e = (d.wr e (e.default p) p).wrStaged e none p := if_neg hs
      refine ⟨(dict _ other _).trans ?_, (staged _ other).trans ?_⟩
      · rw [forgotten]
        exact Dev.rd_wr_self d e (e.default p) p 0
      · rw [forgotten]
        exact Table.get_set_self none d.staged _ none

theorem Dev.forgetPav_eq (d : Dev) (p : Nat) : d.forgetPav p =
    { R.block2000.foldl (fun d e => d.forgetEntry p e) d with
      dict := (R.block2000.foldl (fun d e => d.forgetEntry p e) d).dict.filter fun e => !decide (e.1 % 64 = p)
      staged := (R.block2000.foldl (fun d e => d.forgetEntry p e) d).staged.filter fun e => !decide (e.1 % 64 = p) } := rfl

/-- What the filter of a pavilion's own values leaves: those of no pavilion. -/
theorem Table.get_filter_own {α : Type} (x : α) (t : Table α) {p k : Nat} (hp : p ≠ 0) (hk : 64 ∣ k) :
    Table.get x (t.filter fun e => !decide (e.1 % 64 = p)) k = Table.get x t k := by
  refine (Table.get_filter_key x t (fun k => !decide (k % 64 = p)) k).trans (if_pos ?_)
  rw [Nat.mod_eq_zero_of_dvd hk, decide_eq_false hp.symm]
  rfl

theorem Entry.OfPav.dvd_key {e : Entry} (h : e.OfPav) (p : Nat) : 64 ∣ e.key p 0 := h.key p ▸ Dvd.intro_left _ rfl
theorem Entry.OfEstate.dvd_key {e : Entry} (h : e.OfEstate) : 64 ∣ e.key 0 0 := h.key ▸ Dvd.intro_left _ rfl

/-- The values of pavilion `p` forgotten. -/
structure Dev.Forgotten (d t : Dev) (p : Nat) : Prop where
  rest : { t with dict := d.dict, staged := d.staged } = d
  entries : ∀ e ∈ R.block2000, e.sub ≠ 0x11 → t.rd e p = e.default p ∧ t.rdStaged e p = none
  generation : t.rd R.pav_GENERATION p = d.rd R.pav_GENERATION p
  destructions : t.rd R.est_DESTRUCTIONS = d.rd R.est_DESTRUCTIONS

theorem Dev.forgetPav_forgotten (d : Dev) {p : Nat} (hp : p ≠ 0) : d.Forgotten (d.forgetPav p) p := by
  rw [Dev.forgetPav_eq]
  obtain ⟨rest, dict, -, read⟩ := Dev.forgetEntries_spec p R.block2000 d block2000_ofPav (by decide)
  generalize R.block2000.foldl (fun d e => d.forgetEntry p e) d = t at rest dict read
  refine ⟨rest, fun e he hs => ?_, ?_, ?_⟩
  · obtain ⟨value, staged⟩ := read e he hs
    have dvd := (block2000_ofPav e he).dvd_key p
    exact ⟨(Table.get_filter_own _ _ hp dvd).trans value, (Table.get_filter_own _ _ hp dvd).trans staged⟩
  · refine (Table.get_filter_own _ _ hp (Entry.OfPav.dvd_key (by decide) p)).trans (dict _ (fun e he hs => ?_) _)
    exact Entry.OfPav.key_ne (by decide) (block2000_ofPav e he) hs.symm p
  · refine (Table.get_filter_own _ _ hp (Entry.OfEstate.dvd_key (by decide))).trans (dict _ (fun e he _ => ?_) _)
    exact Entry.OfEstate.key_ne (by decide) (block2000_ofPav e he) p

/-! ## The destruction completes -/

/-- What a destruction leaves once it completes. -/
def Dev.complete (d : Dev) (p : Nat) : Dev :=
  let d := (d.giveUpBanks p).forgetPav p
  let d := { d with
    pavs := Table.set {} d.pavs p {}
    net := { d.net with standingSt := Table.set 0 d.net.standingSt p 0 } }
  d.fitDirWays.deficitRules.bump R.est_DESTRUCTIONS

/-- A destruction that completes: entries at their defaults but for GENERATION, no bank of the pavilion, nothing kept of it. -/
structure Dev.Completed (d t : Dev) (p : Nat) : Prop where
  entries : ∀ e ∈ R.block2000, e.sub ≠ 0x11 → t.rd e p = e.default p ∧ t.rdStaged e p = none
  generation : t.rd R.pav_GENERATION p = d.rd R.pav_GENERATION p
  banks : ∀ b < 512, (t.bank b).pav ≠ some p
  pav : Table.get {} t.pavs p = {}
  destructions : t.rd R.est_DESTRUCTIONS = min (d.rd R.est_DESTRUCTIONS + 1) (256 ^ R.est_DESTRUCTIONS.size - 1)

theorem Dev.deficitRules_bank (d : Dev) (b : Nat) : d.deficitRules.bank b = d.bank b := by
  obtain ⟨-, -, -, -, -, -, -, -, -, banks⟩ := (Dev.Signals.refl (d := d)).deficitRules.rest
  exact congrArg (Table.get BankSt.free · b) banks

theorem Dev.complete_completed (d : Dev) {p : Nat} (hp : p ≠ 0) (lt : p < 0x1000) : d.Completed (d.complete p) p := by
  have freed := d.giveUpBanks_steady p
  have banks := d.giveUpBanks_pav p
  unfold Dev.complete
  generalize d.giveUpBanks p = a at freed banks
  have forgotten := a.forgetPav_forgotten hp
  dsimp only
  generalize a.forgetPav p = b at forgotten
  generalize hc : ({ b with pavs := Table.set {} b.pavs p {}, net := { b.net with standingSt := Table.set 0 b.net.standingSt p 0 } } : Dev) = c
  have rd : c.dict = b.dict := by rw [← hc]
  have fitted : Dev.Traffic (fun _ => False) c c.fitDirWays := Dev.Traffic.refl.fitDirWays
  have steady := (Dev.fitDirWays_steady c).trans (Dev.deficitRules_steady _)
  have bank : ∀ n, (c.fitDirWays.deficitRules.bank n).pav = (c.bank n).pav := fun n => by
    rw [Dev.deficitRules_bank, fitted.bank_pav]
  generalize c.fitDirWays.deficitRules = t at steady bank
  have value : ∀ e : Entry, e.OfPav → (t.bump R.est_DESTRUCTIONS).rd e p = b.rd e p := fun e he => by
    rw [Dev.rd_bump_ne _ (Entry.OfEstate.key_ne (by decide) he p).symm, steady.rd he lt, Dev.rd, rd]
    rfl
  refine ⟨fun e he hs => ?_, ?_, fun n hn => ?_, ?_, ?_⟩
  · obtain ⟨read, staged⟩ := forgotten.entries e he hs
    refine ⟨(value e (block2000_ofPav e he)).trans read, (steady.rdStaged e p).trans ?_⟩
    rw [← hc]
    exact staged
  · rw [value _ (by decide), forgotten.generation, freed.rd (by decide) lt]
  · have same : c.bank n = a.bank n := by
      rw [← hc]
      exact (congrArg (fun x : Dev => x.bank n) forgotten.rest :)
    exact (bank n).trans (congrArg BankSt.pav same) ▸ banks n hn
  · refine (congrArg (Table.get ({} : Pav) · p) steady.pavs).trans ?_
    rw [← hc]
    exact Table.get_set_self ({} : Pav) b.pavs p {}
  · have before : c.rd R.est_DESTRUCTIONS = d.rd R.est_DESTRUCTIONS := by
      rw [Dev.rd, rd]
      exact forgotten.destructions.trans (freed.value.rd (Entry.OfEstate.lasting (by decide)))
    rw [Dev.rd_bump_self, steady.value.rd (Entry.OfEstate.lasting (by decide)), before]

end Sys2Proof.Machine
end

section
/-! PROOFS. A destruction becomes forced (R52, R53): what the HALTs of the open operations leave as it was. -/

namespace Sys2Proof.Machine

/-- From `d` to `t` the channels have changed, and QUERYs have been counted. -/
inductive Dev.Halts (d : Dev) : Dev → Prop
  | refl : Halts d d
  | onChan {t : Dev} (h : Halts d t) (f : Chan → Chan) : Halts d (t.onChan f)
  | query {t : Dev} (h : Halts d t) (e : Nat) : Halts d (t.bump R.ep_QUERIES e)

namespace Dev.Halts

variable {d0 d t : Dev}

theorem foldl {β : Type} {f : Dev → β → Dev} (h : Halts d0 d) (hf : ∀ d b, Halts d0 d → Halts d0 (f d b)) (l : List β) :
    Halts d0 (l.foldl f d) := foldl_keeps (P := Halts d0) f hf l h

theorem onLink (h : Halts d0 d) (n : Nat) (f : Link → Link) : Halts d0 (d.onLink n f) :=
  h.onChan fun c => { c with links := Table.set {} c.links n (f (d.link n)) }
theorem setOp (h : Halts d0 d) (o : ChanOp) : Halts d0 (d.setOp o) := h.onChan _
theorem unqueue (h : Halts d0 d) (o : ChanOp) (f : OpMsg → Bool) : Halts d0 (d.unqueue o f) := h.foldl (fun _ _ h => h.onLink _ _) _
theorem queueData (h : Halts d0 d) (o : ChanOp) (l : List OpMsg) : Halts d0 (d.queueData o l) := h.foldl (fun _ _ h => h.onLink _ _) _

theorem sendFirst (h : Halts d0 d) (o : ChanOp) (i : Nat) (m : OpMsg) : Halts d0 (d.sendFirst o i m) := ((h.onChan _).setOp _).queueData _ _

theorem tryQuery (h : Halts d0 d) (o : ChanOp) : Halts d0 (d.tryQuery o) := by
  unfold Dev.tryQuery
  split
  · exact (h.query _).sendFirst _ _ _
  · exact h.setOp _

theorem sendCtl (h : Halts d0 d) (o : ChanOp) : Halts d0 (d.sendCtl o) := by
  refine Dev.Halts.setOp ?_ _
  exact foldl_keeps (P := fun x : Dev × List OpCtl => Halts d0 x.1) _ (fun _ _ h => h.foldl (fun _ _ h => h.onLink _ _) _) o.ctl h

theorem enterHalting (h : Halts d0 d) (o : ChanOp) (scope : Nat) (own : Bool) : Halts d0 (d.enterHalting o scope own) := by
  unfold Dev.enterHalting Dev.startHalting
  dsimp only
  split
  · exact ((h.unqueue _ _).setOp _).sendCtl _
  · exact ((h.unqueue _ _).setOp _).tryQuery _

theorem haltAll (h : Halts d0 d) (p : Nat) : Halts d0 (d.haltAll p) :=
  h.foldl (fun d o h => by
    dsimp only
    split
    · exact h.setOp _
    · exact h.enterHalting _ _ _
    · exact h.enterHalting _ _ _
    · exact h.sendCtl _
    · exact h.sendCtl _
    · exact h) _

theorem pavs (h : Halts d t) : t.pavs = d.pavs := by
  induction h with
  | refl => rfl
  | onChan _ _ ih | query _ _ ih => exact ih

/-- A pavilion's entry is not among the counts of QUERYs, whatever number stands for the pavilion. -/
theorem rd (h : Halts d t) {e : Entry} (he : e.OfPav) (hs : e.sub ≠ R.ep_QUERIES.sub) (p : Nat) : t.rd e p = d.rd e p := by
  induction h with
  | refl => rfl
  | onChan _ _ ih => exact ih
  | query _ n ih =>
    refine (Dev.rd_bump_ne _ ?_).trans ih
    have key : R.ep_QUERIES.key n 0 = ((R.ep_QUERIES.base + n) * 256 + R.ep_QUERIES.sub) * 64 := rfl
    have sub : R.ep_QUERIES.sub < 256 := by decide
    rw [he.key, key]
    obtain ⟨-, lt, -⟩ := he
    omega

end Dev.Halts

theorem Dev.pav_onPav (d : Dev) (p : Nat) (f : Pav → Pav) : Table.get {} (d.onPav p f).pavs p = f (Table.get {} d.pavs p) :=
  Table.get_set_self ({} : Pav) d.pavs p _

theorem Dev.force_halts (d : Dev) (p : Nat) :
    Dev.Halts (d.onPav p fun x => { x with forced := true, due := d.time + d.haltWait p }) (d.force p) := Dev.Halts.refl.haltAll p

/-- A destruction that becomes forced keeps the pavilion's STATE and CORES, and has the time at which it need wait no more. -/
theorem Dev.force_spec (d : Dev) (p : Nat) : let t := d.force p
    (Table.get {} t.pavs p).forced = true ∧ (Table.get {} t.pavs p).due = d.time + d.haltWait p ∧
      t.rd R.pav_STATE p = d.rd R.pav_STATE p ∧ t.rd R.pav_CORES p = d.rd R.pav_CORES p := by
  intro t
  have halts := d.force_halts p
  have kept : Table.get {} t.pavs p = { Table.get {} d.pavs p with forced := true, due := d.time + d.haltWait p } :=
    (congrArg (Table.get ({} : Pav) · p) halts.pavs).trans (d.pav_onPav p _)
  rw [kept]
  exact ⟨rfl, rfl, halts.rd (by decide) (by decide) p, halts.rd (by decide) (by decide) p⟩

end Sys2Proof.Machine
end

section
/-! PROOFS. The writes of a pavilion's block: CREATE, COMMIT, DESTROY, DESTROY_MODE, LOAD and START (R43, R48, R51, R45, R275). -/

namespace Sys2Proof.Machine

/-- A write is answered with the verdict of its entry's chapter. -/
theorem replies_of_verdict {i : Instr} {q : List Instr} {d d1 : Dev} {o : Rx} {s : Session} {w : WriteOp} {row : DictRow}
    {apply : Dev → WriteOp → Verdict} {t : Dev} {r : Nat} {off : Option (Nat × Nat)} (h : d.Writes o row d1 s w)
    (hx : exec i { pending := q, dev := d } = State.act { pending := q, dev := d } fun d => d.writeRx o row apply)
    (hv : apply d1 w = ⟨r, off, t⟩) : Replies i q d o s w t r off := by
  have replies := replies_of_writes apply h hx
  rw [hv] at replies
  exact replies

/-! ## CREATE -/

/-- The device after the two draws of a creation, and what they give. -/
def Dev.drawn (d : Dev) : Dev := d.draw.2.draw.2
def Dev.drawnKey (d : Dev) : Bytes := padTo 32 (Config.random d.draw.1 32)
def Dev.drawnNonce (d : Dev) : Bytes := padTo 32 (Config.random d.draw.2.draw.1 32)

/-- The verdict of a CREATE. -/
def Dev.create (d : Dev) (p : Nat) : Verdict :=
  if d.pavState p = 2 then taken d
  else if (d.drawn.pavCheck p (some d.drawnKey)).1 ≠ 0 then
    { reason := (d.drawn.pavCheck p (some d.drawnKey)).1, off := (d.drawn.pavCheck p (some d.drawnKey)).2
      dev := (d.drawn.wr R.pav_STATE 3 p).wr R.pav_ENABLE 0 p }
  else
    match d.drawn.takeWindow p with
    | none => turnedDown d.drawn 0x0305
    | some t => taken (t.createPav p d.drawnKey d.drawnNonce)

theorem Dev.create_of_running {d : Dev} {p : Nat} (h : d.rd R.pav_STATE p = 2) : d.create p = taken d := if_pos h

theorem Dev.create_of_bad {d : Dev} {p : Nat} (h : d.rd R.pav_STATE p ≠ 2) (bad : (d.drawn.pavCheck p (some d.drawnKey)).1 ≠ 0) :
    d.create p = { reason := (d.drawn.pavCheck p (some d.drawnKey)).1, off := (d.drawn.pavCheck p (some d.drawnKey)).2
                   dev := (d.drawn.wr R.pav_STATE 3 p).wr R.pav_ENABLE 0 p } := by
  unfold Dev.create
  rw [if_neg (show ¬ d.pavState p = 2 from h), if_pos bad]

theorem Dev.create_of_no_room {d : Dev} {p : Nat} (h : d.rd R.pav_STATE p ≠ 2) (passed : (d.drawn.pavCheck p (some d.drawnKey)).1 = 0)
    (full : d.drawn.takeWindow p = none) : d.create p = turnedDown d.drawn 0x0305 := by
  unfold Dev.create
  rw [if_neg (show ¬ d.pavState p = 2 from h), if_neg (not_not.mpr passed), full]

/-- A creation that the check passes and whose window is taken. -/
theorem Dev.create_created {d : Dev} {p : Nat} (hp : p < 0x1000) (stopped : d.rd R.pav_STATE p ≠ 2)
    (passed : (d.drawn.pavCheck p (some d.drawnKey)).1 = 0) (room : d.drawn.takeWindow p ≠ none) :
    ∃ t body, body.take 4 = ascii "PVRC" ∧ d.create p = taken t ∧ d.Created t p (leBytes 32 (d.rd R.pav_OWNER_KEY p)) body
      (pckOf (x25519 d.drawnKey (leBytes 32 (d.rd R.pav_OWNER_KEY p))) d.drawnNonce p) := by
  obtain ⟨u, hu⟩ := Option.ne_none_iff_exists'.mp room
  have windowed := Dev.takeWindow_windowed hu hp
  have owner : u.rd R.pav_OWNER_KEY p = d.rd R.pav_OWNER_KEY p := windowed.rd (by decide) hp
  have verdict : d.create p = taken (u.createPav p d.drawnKey d.drawnNonce) := by
    unfold Dev.create
    rw [if_neg (show ¬ d.pavState p = 2 from stopped), if_neg (not_not.mpr passed), hu]
  have created := u.createPav_created hp d.drawnKey d.drawnNonce
  rw [owner] at created
  obtain ⟨state, forced, generation, creations, pck, receipt, owned, pav, cores⟩ := created
  refine ⟨_, _, Dev.receiptBody_magic _ _ _ _, verdict, state, fun e he => ?_, ?_, ?_, pck, receipt, owned, pav, fun c hc held free => cores c hc held ?_⟩
  · obtain ⟨value, dropped⟩ := forced e he
    exact ⟨value.trans (by rw [windowed.rdStaged, windowed.rd (pavStaged_ofPav e he) hp]; rfl), dropped⟩
  · exact generation.trans (by rw [windowed.rd (by decide) hp]; rfl)
  · exact creations.trans (by rw [windowed.estate (by decide)]; rfl)
  · rw [Dev.core, windowed.cores]
    exact free

/-! ## COMMIT -/

/-- A pavilion's resources changed by a commit, its window among them. -/
structure Dev.Changed (d t : Dev) (p : Nat) : Prop where
  commit : d.Commit t p
  window : elem 4 (t.rd R.hearth_WINDOW_SIZE) p < elem 4 (d.rd R.hearth_WINDOW_SIZE) p → (p, .window (elem 4 (d.rd R.hearth_WINDOW_SIZE) p)) ∈ t.removing
  bell : (∃ e ∈ pavStaged, t.rd e p ≠ d.rd e p) → t.pbit p 0x1FFE = true

theorem Dev.commitPav_changed {d : Dev} {p : Nat} (hp : p < 0x1000) (running : d.rd R.pav_STATE p = 2) (passed : (d.pavCheck p none).1 = 0)
    (room : d.takeWindow p ≠ none) : ∃ t, d.commitPav p = taken t ∧ d.Changed t p := by
  obtain ⟨u, hu⟩ := Option.ne_none_iff_exists'.mp room
  have windowed := Dev.takeWindow_windowed hu hp
  obtain ⟨commit, size⟩ := u.committed_commit hp
  refine ⟨_, Dev.commitPav_of_taken d u p running passed hu, ?_⟩
  have rung : Dev.Steady (u.committed p) (if u.moves p then (u.committed p).ring p 0x1FFE else u.committed p) := by
    split
    · exact .ring _ _ _
    · exact .refl _
  have bell : u.moves p = true → (if u.moves p then (u.committed p).ring p 0x1FFE else u.committed p).pbit p 0x1FFE = true := fun moves => by
    rw [if_pos moves]
    exact Dev.pbit_ring_self _ _ _
  generalize (if u.moves p then (u.committed p).ring p 0x1FFE else u.committed p) = t at rung bell
  have later := commit.steady rung hp
  refine ⟨.of_windowed windowed later hp, fun smaller => ?_, fun ⟨e, he, ne⟩ => bell (later.moves_of_ne he ?_)⟩
  · rw [rung.windowSize, size] at smaller
    exact later.removing _ (windowed.shrunk (by simp [Dev.pavExists, Dev.pavState, running]) smaller)
  · rw [windowed.rd (pavStaged_ofPav e he) hp]
    exact ne

/-! ## DESTROY -/

/-- A pavilion whose destruction begins. -/
def Dev.stopping (d : Dev) (p : Nat) : Dev := { (d.wr R.pav_STATE 5 p).wr R.pav_ENABLE 0 p with pavs := Table.set {} d.pavs p {} }

/-- The verdict of a DESTROY. -/
def Dev.destroy (d : Dev) (p : Nat) : Verdict :=
  if p = 0 then turnedDown d 0x0102
  else match d.pavState p with
    | 2 => taken (if (d.stopping p).rd R.pav_DESTROY_MODE p = 1 then (d.stopping p).force p else d.stopping p)
    | 3 => taken ((d.wr R.pav_STATE 0 p).wr R.pav_ENABLE 0 p)
    | _ => taken d

theorem Dev.rd_stopping (d : Dev) (p : Nat) : (d.stopping p).rd R.pav_DESTROY_MODE p = d.rd R.pav_DESTROY_MODE p :=
  (Dev.rd_wr_pav _ _ _ (by decide) (by decide) (by decide)).trans (Dev.rd_wr_pav _ _ _ (by decide) (by decide) (by decide))

theorem Dev.destroy_of_zero (d : Dev) {p : Nat} (hp : p = 0) : d.destroy p = turnedDown d 0x0102 := if_pos hp

theorem Dev.destroy_of_running {d : Dev} {p : Nat} (hp : p ≠ 0) (h : d.rd R.pav_STATE p = 2) :
    d.destroy p = taken (if d.rd R.pav_DESTROY_MODE p = 1 then (d.stopping p).force p else d.stopping p) := by
  rw [← d.rd_stopping p, Dev.destroy, if_neg hp, Dev.pavState, h]
  rfl

theorem Dev.destroy_of_failed {d : Dev} {p : Nat} (hp : p ≠ 0) (h : d.rd R.pav_STATE p = 3) :
    d.destroy p = taken ((d.wr R.pav_STATE 0 p).wr R.pav_ENABLE 0 p) := by
  rw [Dev.destroy, if_neg hp, Dev.pavState, h]
  rfl

theorem Dev.destroy_of_other {d : Dev} {p : Nat} (hp : p ≠ 0) (h2 : d.rd R.pav_STATE p ≠ 2) (h3 : d.rd R.pav_STATE p ≠ 3) :
    d.destroy p = taken d := by
  rw [Dev.destroy, if_neg hp, Dev.pavState]
  split
  · contradiction
  · contradiction
  · rfl

/-! ## DESTROY_MODE -/

/-- A value put in force has no entry at fault. -/
theorem Dev.putNow_eq (d : Dev) (w : WriteOp) : d.putNow w = { reason := (d.putNow w).reason, dev := (d.putNow w).dev } := by
  unfold Dev.putNow
  split
  · split <;> rfl
  · rfl

/-- The verdict of a write of DESTROY_MODE. -/
def Dev.setDestroyMode (d : Dev) (w : WriteOp) : Verdict :=
  if (d.putNow w).reason = 0 ∧ w.v = 1 ∧ d.pavState w.i = 5 ∧ !d.forced w.i ∧ !d.quenching w.i then taken ((d.putNow w).dev.force w.i) else d.putNow w

theorem Dev.setDestroyMode_of_force {d : Dev} {w : WriteOp} (h : (d.putNow w).reason = 0 ∧ w.v = 1 ∧ d.rd R.pav_STATE w.i = 5 ∧
    d.forced w.i = false ∧ d.quenching w.i = false) : d.setDestroyMode w = taken ((d.putNow w).dev.force w.i) := by
  refine if_pos ?_
  simp only [Bool.not_eq_true']
  exact h

theorem Dev.setDestroyMode_of_not_force {d : Dev} {w : WriteOp} (h : ¬ ((d.putNow w).reason = 0 ∧ w.v = 1 ∧ d.rd R.pav_STATE w.i = 5 ∧
    d.forced w.i = false ∧ d.quenching w.i = false)) : d.setDestroyMode w = { reason := (d.putNow w).reason, dev := (d.putNow w).dev } := by
  refine (if_neg ?_).trans (d.putNow_eq w)
  simp only [Bool.not_eq_true']
  exact h

/-! ## LOAD and START -/

/-- The verdict of a LOAD. -/
def Dev.loadImage (d : Dev) (w : WriteOp) : Verdict :=
  if (d.firstUnmapped w.i (fieldLE w.raw 0 8) (w.raw.drop 8).length).isSome then turnedDown d 0x0108
  else taken (d.devWrite w.i (fieldLE w.raw 0 8) (w.raw.drop 8))

theorem Dev.loadImage_of_unmapped {d : Dev} {w : WriteOp} (h : d.firstUnmapped w.i (fieldLE w.raw 0 8) (w.raw.drop 8).length ≠ none) :
    d.loadImage w = turnedDown d 0x0108 := if_pos (Option.isSome_iff_ne_none.mpr h)

theorem Dev.loadImage_of_mapped {d : Dev} {w : WriteOp} (h : d.firstUnmapped w.i (fieldLE w.raw 0 8) (w.raw.drop 8).length = none) :
    d.loadImage w = taken (d.devWrite w.i (fieldLE w.raw 0 8) (w.raw.drop 8)) := if_neg fun some => Option.isSome_iff_ne_none.mp some h

/-- The verdict of a START. -/
def Dev.start (d : Dev) (p v : Nat) : Verdict :=
  match (d.pavCores p)[v]? with
  | none => turnedDown d 0x0101
  | some c =>
    if (d.core c).run = .lost then turnedDown d 0x0211
    else if d.forced p then turnedDown d 0x0204
    else if ¬ (d.pavState p = 2 ∨ d.pavState p = 5) then turnedDown d 0x0201
    else taken (d.startCore p c)

theorem Dev.start_of_none {d : Dev} {p v : Nat} (h : (d.pavCores p)[v]? = none) : d.start p v = turnedDown d 0x0101 := by
  rw [Dev.start, h]

section
variable {d : Dev} {p v c : Nat} (hc : (d.pavCores p)[v]? = some c)
include hc

theorem Dev.start_of_lost (lost : (d.core c).run = .lost) : d.start p v = turnedDown d 0x0211 := by
  rw [Dev.start, hc]
  exact if_pos lost

theorem Dev.start_of_forced (found : (d.core c).run ≠ .lost) (forced : d.forced p = true) : d.start p v = turnedDown d 0x0204 := by
  rw [Dev.start, hc]
  exact (if_neg found).trans (if_pos forced)

theorem Dev.start_of_off (found : (d.core c).run ≠ .lost) (free : d.forced p = false) (h2 : d.rd R.pav_STATE p ≠ 2) (h5 : d.rd R.pav_STATE p ≠ 5) :
    d.start p v = turnedDown d 0x0201 := by
  rw [Dev.start, hc]
  exact ((if_neg found).trans (if_neg (ne_true_of_eq_false free))).trans (if_pos (not_or.mpr ⟨h2, h5⟩))

theorem Dev.start_of_on (found : (d.core c).run ≠ .lost) (free : d.forced p = false) (on : d.rd R.pav_STATE p = 2 ∨ d.rd R.pav_STATE p = 5) :
    d.start p v = taken (d.startCore p c) := by
  rw [Dev.start, hc]
  exact ((if_neg found).trans (if_neg (ne_true_of_eq_false free))).trans (if_neg (not_not.mpr on))

end

/-- A core in a retry, in its self-test or in a sparing. -/
def Dev.CoreBusy (d : Dev) (c : Nat) : Prop := (d.core c).run = .retrying ∨ (d.core c).run = .selfTest ∨ (d.core c).run = .handingOver

theorem Dev.targeted_core {d : Dev} {p c : Nat} : d.targeted p (.core c) = true ↔ d.CoreBusy c := by
  dsimp only [Dev.targeted, Dev.CoreBusy]
  cases (d.core c).run <;> simp

/-- A core in a retry, self-test or sparing remembers its START (R469). -/
theorem Dev.startCore_of_busy {d : Dev} {p c : Nat} (busy : d.CoreBusy c) :
    d.startCore p c = d.onCore c fun x => { x with startOwed := true } := by
  unfold Dev.startCore
  split <;> exact if_pos (Dev.targeted_core.mpr busy)

theorem Dev.startCore_alone {d : Dev} {p c : Nat} (busy : ¬ d.CoreBusy c) (alone : d.partnerIn p c = none) :
    d.startCore p c = d.beginCore p c none := by
  unfold Dev.startCore
  rw [alone]
  exact if_neg (Dev.targeted_core.not.mpr busy)

theorem Dev.startCore_pair {d : Dev} {p c k : Nat} (busy : ¬ d.CoreBusy c) (busy' : ¬ d.CoreBusy k)
    (pair : d.partnerIn p c = some k) : d.startCore p c = (d.beginCore p c (some k)).beginCore p k (some c) := by
  unfold Dev.startCore
  rw [pair]
  exact (if_neg (Dev.targeted_core.not.mpr busy)).trans (if_neg (Dev.targeted_core.not.mpr busy'))

/-- A partner is not lost. -/
theorem Dev.partnerIn_run {d : Dev} {p c k : Nat} (h : d.partnerIn p c = some k) : (d.core k).run ≠ .lost := by
  unfold Dev.partnerIn at h
  dsimp only at h
  split at h
  · rename_i fit
    obtain ⟨-, -, run⟩ := fit
    cases h
    exact run
  · exact nomatch h

end Sys2Proof.Machine
end

section
/-! PROOFS. The life of a pavilion (O53). -/

namespace Sys2Proof.Machine

variable {q : List Instr} {d d1 : Dev} {o : Rx} {s : Session} {w : WriteOp} {t : Dev} {r : Nat} {off : Option (Nat × Nat)}

/-! ## The answers, by the verdicts -/

theorem create_replies (h : d.Writes o .create d1 s w) (hv : d1.create w.i = ⟨r, off, t⟩) :
    Replies (.pavilionCreate o) q d o s w t r off := replies_of_verdict (apply := fun d w => d.create w.i) h rfl hv

theorem commit_replies (h : d.Writes o .commit d1 s w) (hb : w.entry.base = 0x2000) (hv : d1.commitPav w.i = ⟨r, off, t⟩) :
    Replies (.commit o) q d o s w t r off :=
  replies_of_verdict (apply := fun d w => if w.entry.base = 0x2000 then d.commitPav w.i else d.commitBlock w) h rfl ((if_pos hb).trans hv)

theorem destroy_replies (h : d.Writes o .destroy d1 s w) (hv : d1.destroy w.i = ⟨r, off, t⟩) :
    Replies (.pavilionDestroy o) q d o s w t r off := replies_of_verdict (apply := fun d w => d.destroy w.i) h rfl hv

theorem destroyMode_replies (h : d.Writes o .destroyMode d1 s w) (hv : d1.setDestroyMode w = ⟨r, off, t⟩) :
    Replies (.destroyMode o) q d o s w t r off := replies_of_verdict (apply := fun d w => d.setDestroyMode w) h rfl hv

theorem start_replies (h : d.Writes o .start d1 s w) (hv : d1.start w.i w.v = ⟨r, off, t⟩) :
    Replies (.start o) q d o s w t r off := replies_of_verdict (apply := fun d w => d.start w.i w.v) h rfl hv

theorem load_replies (h : d.Writes o .load d1 s w) (hv : d1.loadImage w = ⟨r, off, t⟩) :
    Replies (.loadImage o) q d o s w t r off := replies_of_verdict (apply := fun d w => d.loadImage w) h rfl hv

/-! ## The answers to a device's own commands -/

section
variable {c : OpPavT} (h : d.thermalStop = false)
include h

/-- A destruction that may not proceed waits. -/
theorem proceed_answers_of_wait (wait : ¬ (d.netAt c.t).mayProceed c.pav.val = true) : Answers (.destructionProceed c) q d (d.netAt c.t) :=
  answers_of_act (fun d => if !(d.netAt c.t).mayProceed c.pav.val then d.netAt c.t else (d.netAt c.t).proceed c.pav.val) rfl h
    (if_pos (by rw [eq_false_of_ne_true wait]; rfl))

theorem proceed_answers_of_ready (ready : (d.netAt c.t).mayProceed c.pav.val = true) :
    Answers (.destructionProceed c) q d ((d.netAt c.t).proceed c.pav.val) :=
  answers_of_act (fun d => if !(d.netAt c.t).mayProceed c.pav.val then d.netAt c.t else (d.netAt c.t).proceed c.pav.val) rfl h
    (if_neg (by rw [ready]; exact Bool.false_ne_true))

omit h in
theorem execDestructionComplete_eq (s : State) : execDestructionComplete c s =
    s.act fun d => if (d.at c.t).pavState c.pav.val = 5 ∧ (d.at c.t).quenching c.pav.val then (d.at c.t).complete c.pav.val else d.at c.t := by
  unfold execDestructionComplete Dev.complete Dev.giveUpBanks
  rfl

/-- A destruction that has not proceeded waits. -/
theorem complete_answers_of_wait (wait : ¬ ((d.at c.t).pavState c.pav.val = 5 ∧ (d.at c.t).quenching c.pav.val = true)) :
    Answers (.destructionComplete c) q d (d.at c.t) := answers_of_act _ (execDestructionComplete_eq _) h (if_neg wait)

theorem complete_answers_of_ready (stopping : (d.at c.t).pavState c.pav.val = 5) (quenching : (d.at c.t).quenching c.pav.val = true) :
    Answers (.destructionComplete c) q d ((d.at c.t).complete c.pav.val) :=
  answers_of_act _ (execDestructionComplete_eq _) h (if_pos ⟨stopping, quenching⟩)

end

end Sys2Proof.Machine
end

section
namespace Sys2Proof
open Machine

/-- Settles O53. Each write is answered with the verdict of its entry's chapter; what a creation, a commit and a destruction leave is followed
through the steps of the model, by what each of them keeps (`Dev.Steady`, `Dev.Frees`). -/
theorem pavilions : Obligations.Pavilions := by
  unfold Obligations.Pavilions
  intro more
  refine ⟨?writes, Dev.force_spec, ?life⟩
  case writes =>
    intro q d d1 o s w p state forced
    refine ⟨fun h => ?create, fun h hb => ?commit, fun h => ?destroy, fun h => ?mode, fun h => ?load, fun h => ?start⟩
    case create =>
      have lt : p < 0x1000 := h.pav_lt (h.base_eq (.inl rfl))
      refine ⟨fun run => create_replies h (Dev.create_of_running run), fun run => ⟨d1.drawnKey, d1.drawnNonce, d1.drawn, rfl,
        fun failed => ?_, fun passed full => ?_, fun passed room => ?_⟩⟩
      · exact create_replies h (Dev.create_of_bad run failed)
      · exact create_replies h (Dev.create_of_no_room run passed full)
      · obtain ⟨t, body, magic, verdict, ⟨runs, enable⟩, staged, generation, creations, pck, receipt, owned, pav, cores⟩ :=
          Dev.create_created lt run passed room
        exact ⟨t, body, create_replies h verdict, runs, enable, staged, generation, creations, pck, receipt, magic, owned, pav, cores⟩
    case commit =>
      have lt : p < 0x1000 := h.pav_lt hb
      refine ⟨fun stopped => commit_replies h hb (Dev.commitPav_of_not_running _ _ stopped), fun run failed => ?_, fun run passed full => ?_,
        fun run passed room => ?_⟩
      · exact commit_replies h hb (Dev.commitPav_of_bad _ _ run failed)
      · exact commit_replies h hb (Dev.commitPav_of_no_room _ _ run passed full)
      · obtain ⟨t, verdict, commit, window, bell⟩ := Dev.commitPav_changed lt run passed room
        refine ⟨t, commit_replies h hb verdict, commit.forced, commit.removing, fun k => ⟨fun hk lost => ?_, fun hk lost => ?_, fun hk lost => ?_,
          fun hk lost => ?_, fun hk lost => ?_, fun new old => commit.lost_slot old new, fun hk => commit.cores k hk⟩, window, bell⟩
        · exact commit.lost_unit .core (e := R.pav_CORES) (by simp +contextual [Dev.removedFrom]) hk lost.1 lost.2
        · exact commit.lost_unit .granule (e := R.pav_GRANULES) (by simp +contextual [Dev.removedFrom]) hk lost.1 lost.2
        · exact commit.lost_unit .bank (e := R.pav_BANKS) (by simp +contextual [Dev.removedFrom]) hk lost.1 lost.2
        · exact commit.lost_unit .endpoint (e := R.pav_ENDPOINTS) (by simp +contextual [Dev.removedFrom]) hk lost.1 lost.2
        · exact commit.lost_unit .wayGroup (e := R.pav_WAY_GROUPS) (by simp +contextual [Dev.removedFrom]) hk lost.1 lost.2
    case destroy =>
      refine ⟨fun zero => destroy_replies h (Dev.destroy_of_zero _ zero), fun hp run => ⟨fun mode => ?_, fun mode => ?_⟩,
        fun hp failed => destroy_replies h (Dev.destroy_of_failed hp failed),
        fun hp run failed => destroy_replies h (Dev.destroy_of_other hp run failed)⟩
      · exact destroy_replies h ((Dev.destroy_of_running hp run).trans (congrArg taken (if_neg mode)))
      · exact destroy_replies h ((Dev.destroy_of_running hp run).trans (congrArg taken (if_pos mode)))
    case mode =>
      refine ⟨fun force => destroyMode_replies h (Dev.setDestroyMode_of_force force), fun stay => ?_⟩
      exact destroyMode_replies h (Dev.setDestroyMode_of_not_force stay)
    case load =>
      exact ⟨fun bad => load_replies h (Dev.loadImage_of_unmapped bad), fun good => load_replies h (Dev.loadImage_of_mapped good)⟩
    case start =>
      intro replies arch busy begun
      have lt : p < 0x1000 := h.pav_lt (h.base_eq (.inr rfl))
      refine ⟨fun none => start_replies h (Dev.start_of_none none), fun c hc => ⟨fun lost => ?_, fun found forced => ?_,
        fun found free off off' => ?_, fun found free on => ?_⟩⟩
      · exact start_replies h (Dev.start_of_lost hc lost)
      · exact start_replies h (Dev.start_of_forced hc found forced)
      · exact start_replies h (Dev.start_of_off hc found free off off')
      · have verdict := Dev.start_of_on hc found free on
        refine ⟨fun b => ⟨_, start_replies h (verdict.trans (congrArg taken (Dev.startCore_of_busy b))), Dev.core_onCore_self .., rfl⟩,
          fun b alone => ⟨_, start_replies h (verdict.trans (congrArg taken (Dev.startCore_alone b alone))), ?_⟩,
          fun k b b' pair ne apart => ⟨_, start_replies h (verdict.trans (congrArg taken (Dev.startCore_pair b b' pair))), ?_⟩⟩
        · exact (d1.beginCore_begins w.i c none found).core
        · exact d1.begin_pair lt ne found (Dev.partnerIn_run pair) apart
  case life =>
    intro q d o running d1 d2 p work x opsDone may
    have lt : p < 0x1000 := Nat.lt_trans o.pav.isLt (by decide)
    refine ⟨fun wait => proceed_answers_of_wait running fun ready => wait ((d1.mayProceed_iff p).mp ready),
      fun ready => ⟨_, proceed_answers_of_ready running ((d1.mayProceed_iff p).mpr ready), ?_⟩,
      fun wait => complete_answers_of_wait running wait,
      fun stopping quenching estate => ⟨_, complete_answers_of_ready running stopping quenching, ?_⟩⟩
    · obtain ⟨quenching, ⟨keys, pck, bits, cipherJobs, compJobs, moverJobs⟩, ops, removing, ring, window, cores, sessions, discarded⟩ :=
        d1.proceed_proceeded lt
      exact ⟨quenching, keys, pck, bits, ops, cipherJobs, compJobs, moverJobs, ring, removing, window, fun c hc => ⟨(cores c hc).arch, (cores c hc).run⟩,
        sessions, discarded⟩
    · obtain ⟨entries, generation, banks, pav, destructions⟩ := d2.complete_completed estate lt
      exact ⟨entries, generation, fun b hb g => BankSt.ne_of_pav (banks b hb) g, pav, destructions⟩

end Sys2Proof
end

section
/-! PROOFS. An OPEN whose class raises a pace deficit: the requests open then are marked (R133, R138), so the sessions do not stay as they were. -/

namespace Sys2Proof.Machine

/-! ## The pace deficit and the sessions -/

/-- Doorbells leave the sessions as they are. -/
theorem Dev.ringPace_net (d : Dev) (f : Nat → Bool) : (d.ringPace f).net = d.net :=
  foldl_keeps (P := fun t : Dev => t.net = d.net) _ (fun t p h => by
    split
    · exact h
    · exact h) _ rfl

/-- A deficit that a change of the deadline clusters raises marks every open request (R133, R138). -/
theorem Dev.deficitRules_raised {d : Dev} (low : d.lowClusters ≠ 0) (calm : d.plat.deficit = false) :
    d.deficitRules.net.sessions = d.net.sessions.map fun s => { s with reqs := s.reqs.map (·.starved) } := by
  unfold Dev.deficitRules
  simp only [if_pos low, calm, Bool.false_eq_true, if_false, Dev.onPlat_net, Dev.ringPace_net]
  rfl

/-! ## An OPEN admitted -/

/-- A frame that leaves changes only what has left. -/
theorem Dev.emit_sessions (d : Dev) (x : Out) : (d.emit x).net.sessions = d.net.sessions := by
  unfold Dev.emit
  split
  · rfl
  · rfl

/-- The reply to an OPEN leaves the sessions as they are. -/
theorem Dev.replyOpen_sessions (d : Dev) (o : Rx) (m : OpenMsg) (id ack : Nat) (b : Bytes) (waits : Bool) :
    (d.replyOpen o m id ack b waits).net.sessions = d.net.sessions := by
  cases waits
  case false => exact Dev.emit_sessions _ _
  case true => rfl

theorem exec_openNew (o : Rx) (s : State) : exec (.openNew o) s = execOpenNew o s := rfl

/-- The session of an admitted OPEN, as `execOpenNew` adds it. -/
def Dev.opened (d : Dev) (o : Rx) (m : OpenMsg) : Session :=
  let (priv, nonce, e) := d.drawKeys
  let place := some (o.src, o.addrSlot.val)
  let base : Session := {
    id := e.freeSession, pav := m.pav, protect := m.protect, twin := m.twin, authKey := m.authKey, desc := m.desc
    handle := e.freeSession % 65536 % 65535 + 1, ipv6 := d.rxV6 o, ceiling := e.payloadCeiling (d.rxV6 o)
    place0 := if o.port.val = 0 then place else none, place1 := if o.port.val = 1 then place else none
    port := o.port.val, limit := if cdData m.desc then cdWindow m.desc else 0
    limitAt := e.time, deadDue := e.deadEnd, kaDue := e.kaEnd }
  base.rekey ((e.authKey m.pav m.authKey).getD []) (x25519 priv m.eph) m.nonce nonce (e.rd R.amn_INVOCATION_LIMIT)

/-- The device with that session. -/
def Dev.admitted (d : Dev) (o : Rx) (m : OpenMsg) : Dev :=
  let id := d.drawKeys.2.2.freeSession
  d.drawKeys.2.2.onNet fun n => { n with
    sessions := n.sessions ++ [d.opened o m]
    gens := Table.set 0 n.gens (id % 65536) ((id / 65536 + 1) % 65536) }

theorem Dev.admitted_sessions (d : Dev) (o : Rx) (m : OpenMsg) : (d.admitted o m).net.sessions = d.net.sessions ++ [d.opened o m] := rfl

/-- That device once the rules of the deficit have met the new class, with the reply on its way. -/
def Dev.admittedReply (d : Dev) (o : Rx) (m : OpenMsg) : Dev :=
  let (priv, nonce, e) := d.drawKeys
  let t := (d.admitted o m).deficitRules
  t.replyOpen o m e.freeSession 0 (openReply 0 (if cdData m.desc then (d.opened o m).handle else 0) e.freeSession 0 (d.opened o m).limit
    (x25519Public priv) nonce t.time) (!t.demandMet m.pav)

/-- An OPEN of a new session that is admitted with a deadline class. -/
theorem openNew_admitted {q : List Instr} {d d2 : Dev} {o : Rx} {m : OpenMsg} (hm : OpenMsg.ofBytes o.msg.payload = m) (running : d.thermalStop = false)
    (takes : d.Takes o 0x01 d2) (new : m.resume = 0) (owned : m.pav = o.pav.val) (first : d2.net.opens = [])
    (passes : d2.openNewStatus m (d2.rxV6 o) = 0) (timed : cdTimed m.desc = true) : Answers (.openNew o) q d (d2.admittedReply o m) := by
  refine answers_of_act _ (exec_openNew o _) running ?_
  unfold Dev.openRx
  simp only [hm, new, ne_eq, not_true_eq_false, decide_false, if_false, Dev.takeRx_of_takes _ takes, owned, first, List.find?_nil, passes, timed,
    if_true, Bool.true_and]
  rw [← owned]
  rfl

end Sys2Proof.Machine
end

section
/-! PROOFS. The clause of O37 on an admitted OPEN, on a device whose pace in the new class's cluster is under the floor. -/

namespace Sys2Proof.Machine

/-! ## A device with a request open and a slow cluster -/

/-- A deadline class of 1 ms that counts one core. -/
def slowClass : Bytes := leBytes 4 1000000 ++ zeros 12 ++ leBytes 2 1 ++ zeros 18 ++ leBytes 2 1 ++ zeros 10

/-- An OPEN of pavilion 1 for that class, under PCK. -/
def slowOpen : Rx where
  port := 0
  pcp := 7
  src := { ip := 0xFFFF0A000002, udp := 9000 }
  pav := 1
  addrSlot := 0
  t := 0
  msg :=
    { version := 1, type := 0x01, flags := 8, session := 0, seq := 0, ack := 0, cls := 0, res0 := 0, iv := 0, crc := 0, tag := 0
      payload := leBytes 1 1 ++ zeros 3 ++ leBytes 2 0xFFFF ++ zeros 58 ++ slowClass }

/-- A session of pavilion 2 with a request accepted and not delivered. -/
def openRequest : Session :=
  { id := 5, pav := 2, st := .open, reqs := [{ seq := 1, arrival := 0, due := 0, rxflags := 0, payload := [], accepted := true }] }

/-- Pavilion 1 holds core 0 and an inbound ring; four samples of cluster 0, which no deadline class has used so far, lie below the floor. -/
def slowDevice : Dev where
  dict := [(R.pow_FLOOR_POWER.key 0 0, 1), (R.pav_STATE.key 1 0, 2), (R.pav_CORES.key 1 0, 1),
    (R.pav_HEARTH_QUOTA.key 1 0, 1024), (R.port_LINK_STATUS.key 0 0, 2), (R.amn_INBOUND_ENTRIES.key 0 1, 16)]
  plat := { low := [(0, 4)] }
  net := { sessions := [openRequest], rx := [slowOpen] }

/-- The device with the OPEN taken. -/
def slowTaken : Dev := ((slowDevice.netAt 0).onNet fun n => { n with rx := n.rx.erase slowOpen }).pfcRules 0

/-- The fields of the OPEN. -/
def slowFields : OpenMsg := OpenMsg.ofBytes slowOpen.msg.payload

theorem slowDevice_takes : slowDevice.Takes slowOpen 0x01 slowTaken := ⟨by decide, by decide +kernel, rfl⟩

/-- The checks of Table 4.2 pass at the input power of either ordering code. -/
theorem slow_admitReason : slowTaken.admitReason slowFields.pav slowFields.desc = 0 := by
  unfold Dev.admitReason Dev.pAdmit
  generalize Config.is288 = b
  cases b
  · decide +kernel
  · decide +kernel

theorem slow_passes : slowTaken.openNewStatus slowFields (slowTaken.rxV6 slowOpen) = 0 := by
  unfold Dev.openNewStatus
  dsimp only
  rw [slow_admitReason]
  decide +kernel

/-- The new class makes cluster 0 a deadline cluster in deficit, and marks the request that is open (R133, R138). -/
theorem slow_sessions : (slowTaken.admittedReply slowOpen slowFields).net.sessions ≠
    openRequest :: (slowTaken.admittedReply slowOpen slowFields).net.sessions.tail := by
  have low : (slowTaken.admitted slowOpen slowFields).lowClusters ≠ 0 := by decide +kernel
  have calm : (slowTaken.admitted slowOpen slowFields).plat.deficit = false := by decide +kernel
  have before : slowTaken.net.sessions = [openRequest] := by decide +kernel
  have after : (slowTaken.admittedReply slowOpen slowFields).net.sessions =
      (openRequest :: [slowTaken.opened slowOpen slowFields]).map fun s => { s with reqs := s.reqs.map (·.starved) } := by
    rw [Dev.admittedReply, Dev.replyOpen_sessions, Dev.deficitRules_raised low calm, Dev.admitted_sessions, before]
    rfl
  have marked : ({ openRequest with reqs := openRequest.reqs.map (·.starved) } : Session) ≠ openRequest := by decide
  rw [after]
  exact fun same => marked (List.head_eq_of_cons_eq same)

end Sys2Proof.Machine
end

section
namespace Sys2Proof
open Machine

/-- Refutes O37 in its clause on an admitted OPEN: where the class makes a cluster below its floor a deadline cluster, the OPEN raises a pace
deficit, which marks the requests open then (R133, R138), so the sessions before it do not stay as they were (`slowDevice`). -/
theorem not_sessions : ¬ Obligations.Sessions := by
  unfold Obligations.Sessions
  intro h
  obtain ⟨opens, -⟩ := h
  have up : slowTaken.portUp slowOpen.port.val = true := by decide +kernel
  have first : slowTaken.net.opens = [] := by decide +kernel
  obtain ⟨-, owned⟩ := opens [] slowDevice slowTaken slowOpen rfl slowDevice_takes
  obtain ⟨-, admits⟩ := (owned (by decide) up (by simp [first])).1 (by decide)
  obtain ⟨t, x, answers, -, -, s, sessions, -⟩ := admits slow_passes
  have reply : Answers (.openNew slowOpen) [] slowDevice (slowTaken.admittedReply slowOpen slowFields) :=
    openNew_admitted rfl rfl slowDevice_takes (by decide) (by decide) first slow_passes (by decide)
  have kept : (slowTaken.admittedReply slowOpen slowFields).net.sessions = slowTaken.net.sessions ++ [s] := by
    rw [← Answers.unique answers reply]
    exact sessions
  have before : slowTaken.net.sessions = [openRequest] := by decide +kernel
  rw [before] at kept
  refine slow_sessions ?_
  rw [kept]
  rfl

end Sys2Proof
end

section
/-! PROOFS. The receive path of a host port: frames, packets and UDP payloads (R62, R63, R67, R73, R81). -/

namespace Sys2Proof.Machine

theorem exec_frameReceive (o : OpFrame) (s : State) : exec (.frameReceive o) s = execFrameReceive o s := rfl

/-- A port whose link is not up receives nothing. -/
theorem frameReceive_down {q : List Instr} {d : Dev} {o : OpFrame} (running : d.thermalStop = false)
    (down : (d.netAt o.t).rd R.port_LINK_STATUS o.port.val ≠ 2) : Answers (.frameReceive o) q d (d.netAt o.t) := by
  refine answers_of_act _ (exec_frameReceive o _) running ?_
  simp [Dev.portUp, down]

/-- A port whose link is up takes the frame with the PCS's counts. -/
theorem frameReceive_up {q : List Instr} {d : Dev} {o : OpFrame} (running : d.thermalStop = false)
    (up : (d.netAt o.t).rd R.port_LINK_STATUS o.port.val = 2) :
    Answers (.frameReceive o) q d ((((d.netAt o.t).bump R.port_FEC_CORRECTED o.port.val (n := o.fecGood)).bump R.port_FEC_UNCORRECTED o.port.val
      (n := o.fecBad)).acceptFrame o.port.val o.bytes) := by
  refine answers_of_act _ (exec_frameReceive o _) running ?_
  simp [Dev.portUp, up]

/-! ## Frames -/

theorem Dev.acceptFrame_of_long (d : Dev) (n : Nat) {b : Bytes} (long : 9212 < b.length) : d.acceptFrame n b = d.bump R.port_RX_DROPPED n := by
  unfold Dev.acceptFrame
  simp only [if_pos long]
  rfl

/-- A frame of priority 7 that finds the control buffer full is counted and not looked at. -/
theorem Dev.acceptFrame_of_full (d : Dev) (n : Nat) {b : Bytes} (fits : b.length ≤ 9212) (tagged : fieldBE b 12 2 = 0x8100)
    (control : fieldBE b 14 2 / 2 ^ 13 = 7) (full : 65536 < d.occupancy n 7 + b.length) : d.acceptFrame n b = d.bump R.port_CTL_DROPPED n := by
  unfold Dev.acceptFrame
  simp only [tagged, if_true, if_neg (Nat.not_lt.mpr fits)]
  rw [if_pos ⟨control, full⟩]

theorem Dev.acceptFrame_of_unknown (d : Dev) (n : Nat) {b : Bytes} (fits : b.length ≤ 9212)
    (unknown : fieldBE b 12 2 ∉ [0x8100, 0x0806, 0x8808, 0x0800, 0x86DD]) : d.acceptFrame n b = d.bump R.port_RX_DROPPED n := by
  simp only [List.mem_cons, List.not_mem_nil, or_false, not_or] at unknown
  obtain ⟨untagged, arp, pfc, v4, v6⟩ := unknown
  unfold Dev.acceptFrame
  simp only [if_neg untagged, if_neg (Nat.not_lt.mpr fits), if_neg arp, pfc, if_neg v4, if_neg v6, false_and, if_false, Nat.zero_ne_add_one]
  rfl

/-- An untagged IPv4 frame is taken as its packet. -/
theorem Dev.acceptFrame_of_ipv4 (d : Dev) (n : Nat) {b : Bytes} (fits : b.length ≤ 9212) (v4 : fieldBE b 12 2 = 0x0800) :
    d.acceptFrame n b = d.acceptIp n 0 none false (decide (fieldLE b 0 6 = d.rd R.port_MAC_ADDR n)) (b.drop 14) := by
  unfold Dev.acceptFrame
  simp [v4, Nat.not_lt.mpr fits]

/-! ## Packets -/

/-- An IPv4 packet that is one whole UDP datagram. -/
theorem ipParse_of_udp {b : Bytes} (whole : fieldBE b 2 2 ≤ b.length) (ihl : fieldBE b 0 1 = 0x45) (unsplit : fieldBE b 6 2 % 2 ^ 14 = 0)
    (udp : fieldBE b 9 1 = 17) (long : 28 ≤ fieldBE b 2 2) :
    ipParse false b = some (0xFFFF * 2 ^ 32 + fieldBE b 12 4, 0xFFFF * 2 ^ 32 + fieldBE b 16 4, slice b 20 (fieldBE b 2 2 - 20), true) := by
  have short : ¬ (b.length < fieldBE b 2 2 ∨ fieldBE b 2 2 < 20 ∨ fieldBE b 0 1 / 16 ≠ 4) := by omega
  unfold ipParse
  simp only [Bool.false_eq_true, if_false, if_neg short]
  simp only [ihl, unsplit, udp, decide_true, Bool.and_true]

/-- A UDP datagram to the device's port at an owned address, with no checksum, is taken as its payload. -/
theorem Dev.acceptIp_of_udp {d : Dev} {n src dst p slot : Nat} {b u : Bytes} (parsed : ipParse false b = some (src, dst, u, true))
    (long : 8 ≤ fieldBE u 4 2) (fits : fieldBE u 4 2 ≤ u.length) (noPtp : fieldBE u 2 2 ∉ [319, 320])
    (port : fieldBE u 2 2 = d.rd R.amn_UDP_PORT) (noSum : fieldBE u 6 2 = 0) (owned : d.addrOwner n dst false none = some (p, slot)) :
    d.acceptIp n 0 none false true b = d.acceptUdp n p slot 0 false { ip := BitVec.ofNat 128 src, udp := BitVec.ofNat 16 (fieldBE u 0 2) }
      (slice u 8 (fieldBE u 4 2 - 8)) := by
  have unsummed : fieldBE (u.take (fieldBE u 4 2)) 6 2 = 0 := by
    have cut : ((u.take (fieldBE u 4 2)).drop 6).take 2 = (u.drop 6).take 2 := by
      rw [List.drop_take, List.take_take, Nat.min_eq_left (by omega)]
    rw [fieldBE, cut]
    exact noSum
  have ok : udpSumOk false src dst (u.take (fieldBE u 4 2)) = true := by
    unfold udpSumOk
    simp only [unsummed, if_true, Bool.not_false]
  simp only [List.mem_cons, List.not_mem_nil, or_false, port] at noPtp
  unfold Dev.acceptIp
  simp only [parsed, port, noPtp, and_false, if_false, Bool.false_eq_true, false_and, owned, ok, Bool.not_true, Bool.or_false,
    ne_eq, not_true_eq_false, decide_false, decide_eq_false (Nat.not_lt.mpr long), decide_eq_false (Nat.not_lt.mpr fits),
    decide_eq_false (Nat.not_lt.mpr (long.trans fits))]

end Sys2Proof.Machine
end

section
/-! PROOFS. A UDP payload addressed to a pavilion (R73, R81, R583). -/

namespace Sys2Proof.Machine

/-! ## Frames that leave -/

/-- Of the device, a change of the ports and sessions changes nothing else. -/
theorem Dev.onNet_apart (d : Dev) (f : HostNet → HostNet) (n : HostNet) : { d.onNet f with net := n } = { d with net := n } := rfl

theorem Dev.emit_apart (d : Dev) (x : Out) (n : HostNet) : { d.emit x with net := n } = { d with net := n } := by
  unfold Dev.emit
  split
  · rfl
  · rfl

theorem Dev.emit_rx (d : Dev) (x : Out) : (d.emit x).net.rx = d.net.rx := by
  unfold Dev.emit
  split
  · rfl
  · rfl

/-- `t` is `d` with the same messages waiting for the transport, and nothing else than its ports and sessions has changed. -/
structure Dev.SameRx (d t : Dev) : Prop where
  rx : t.net.rx = d.net.rx
  apart : { t with net := d.net } = d

/-- A change of the ports and sessions that keeps the messages waiting, and a frame that then may leave. -/
theorem Dev.SameRx.emits {d t : Dev} (h : d.SameRx t) (f : HostNet → HostNet) (x : Out) (keeps : (f t.net).rx = t.net.rx) :
    d.SameRx ((t.onNet f).emit x) :=
  ⟨by rw [Dev.emit_rx]; exact keeps.trans h.rx, by rw [Dev.emit_apart, Dev.onNet_apart]; exact h.apart⟩

/-- PFC frames change only the ports: what waits for the transport stays. -/
theorem Dev.pfcRules_sameRx (d : Dev) (n : Nat) : d.SameRx (d.pfcRules n) := by
  unfold Dev.pfcRules
  refine foldl_keeps (P := d.SameRx) _ (fun t i h => ?_) _ ⟨rfl, rfl⟩
  dsimp only
  split
  · exact h.emits _ _ rfl
  · split
    · exact h.emits _ _ rfl
    · exact h

/-- What is apart from the ports and sessions stays through two changes. -/
theorem Dev.apart_trans {d e t : Dev} (h : { e with net := d.net } = d) (h' : { t with net := e.net } = e) : { t with net := d.net } = d :=
  (congrArg (fun x : Dev => { x with net := d.net }) h').trans h

theorem Dev.enqueue_rx (d : Dev) (x : Rx) : (d.enqueue x).net.rx = d.net.rx ++ [x] := by
  unfold Dev.enqueue
  rw [(Dev.pfcRules_sameRx _ _).rx]
  rfl

theorem Dev.enqueue_apart (d : Dev) (x : Rx) : { d.enqueue x with net := d.net } = d := by
  unfold Dev.enqueue
  exact Dev.apart_trans (e := d.onNet fun n => { n with rx := n.rx ++ [x] }) rfl (Dev.pfcRules_sameRx _ _).apart

/-! ## The checks of a message -/

/-- The header of a message passes rules 1 to 3 of R73. -/
def HeaderOk (b : Bytes) : Prop :=
  60 ≤ b.length ∧ fieldLE b 0 1 = 1 ∧
    fieldLE b 1 1 ∈ [0x01, 0x02, 0x03, 0x04, 0x05, 0x06, 0x07, 0x08, 0x09, 0x0A, 0x0B, 0x0C, 0x0D] ∧
    fieldLE b 26 2 ≤ 8192 ∧ fieldLE b 26 2 + 60 = b.length ∧ fieldLE b 2 2 < 256 ∧ fieldLE b 28 4 = 0

theorem knownType_iff (t : Nat) : (ctlType t || dataType t || decide (t = 0x07) || decide (t = 0x08)) = true ↔
    t ∈ [0x01, 0x02, 0x03, 0x04, 0x05, 0x06, 0x07, 0x08, 0x09, 0x0A, 0x0B, 0x0C, 0x0D] := by
  simp only [ctlType, dataType, Bool.or_eq_true, List.contains_iff_mem, decide_eq_true_eq, List.mem_cons, List.not_mem_nil, or_false]
  omega

theorem headerOk3_iff (b : Bytes) : headerOk3 b = true ↔ HeaderOk b := by
  unfold headerOk3 HeaderOk
  simp only [Bool.and_eq_true, decide_eq_true_eq, ← knownType_iff, Bool.or_eq_true, and_assoc]

/-- A payload that R73, R81 or the start-up turns away is dropped. -/
theorem Dev.acceptUdp_of_bad (d : Dev) (n p slot pcp : Nat) (v6 : Bool) (src : HostSrc) {b : Bytes}
    (bad : d.plat.step < 12 ∨ ¬ HeaderOk b ∨ streamOk (msgOfBytes b) = false ∨ (msgOfBytes b).flags.getLsbD 3 ≠ decide (pcp = 7)) :
    d.acceptUdp n p slot pcp v6 src b = d.bump R.port_RX_DROPPED n := by
  rw [← headerOk3_iff, Bool.not_eq_true] at bad
  unfold Dev.acceptUdp
  simp only [Bool.not_eq_true', msgCtl]
  rw [if_pos bad]
  rfl

/-- The message as the port notes it. -/
def rxOf (d : Dev) (n p slot pcp : Nat) (src : HostSrc) (b : Bytes) : Rx :=
  { port := Fin.ofNat 2 n, pcp := BitVec.ofNat 3 pcp, src := src, pav := Fin.ofNat 64 p, addrSlot := Fin.ofNat 4 slot, msg := msgOfBytes b
    t := d.time }

/-- One that passes them and is no OPEN goes on to its session. -/
theorem Dev.acceptUdp_of_good {d : Dev} {n p slot pcp : Nat} {v6 : Bool} {src : HostSrc} {b : Bytes} (serving : 12 ≤ d.plat.step)
    (header : HeaderOk b) (stream : streamOk (msgOfBytes b) = true) (prio : (msgOfBytes b).flags.getLsbD 3 = decide (pcp = 7))
    (noOpen : (msgOfBytes b).type ≠ 0x01) : d.acceptUdp n p slot pcp v6 src b = d.acceptMsg (rxOf d n p slot pcp src b) b v6 := by
  have started : ¬ d.plat.step < 12 := Nat.not_lt.mpr serving
  unfold Dev.acceptUdp
  simp only [(headerOk3_iff b).mpr header, stream, msgCtl, prio, started, Bool.not_true, Bool.false_eq_true, ne_eq, not_true_eq_false, or_false,
    if_false, if_neg noOpen]
  rfl

theorem Dev.acceptMsg_of_unknown {d : Dev} {x : Rx} {raw : Bytes} {v6 : Bool} (none : d.sess x.msg.session.toNat = none) :
    d.acceptMsg x raw v6 = d.bump R.port_RX_DROPPED x.port.val := by
  unfold Dev.acceptMsg
  simp only [none]
  rfl

theorem Dev.acceptMsg_of_apart {d : Dev} {x : Rx} {raw : Bytes} {v6 : Bool} {s : Session} (found : d.sess x.msg.session.toNat = some s)
    (apart : s.pav ≠ x.pav.val ∨ s.st = .suspended ∨ s.ipv6 ≠ v6) : d.acceptMsg x raw v6 = d.bump R.port_RX_DROPPED x.port.val := by
  unfold Dev.acceptMsg
  simp only [found, if_pos apart]
  rfl

/-- The tag and the CRC of a message in clear fit. -/
def Session.Proves (s : Session) (m : Msg) (b : Bytes) : Prop :=
  gcmTag s.kHD (s.fixHD ++ leBytes 8 m.iv) (b.take (44 + m.payload.length)) [] = b.drop (44 + m.payload.length) ∧
    crc32c (b.take 32 ++ m.payload) = m.crc.toNat

theorem leNat_lt (b : Bytes) : leNat b < 256 ^ b.length := by
  induction b with
  | nil => exact Nat.one_pos
  | cons x b ih =>
    have byte := x.isLt
    rw [leNat, List.length_cons, Nat.pow_succ]
    omega

theorem fieldLE_lt (b : Bytes) (o n : Nat) : fieldLE b o n < 256 ^ n :=
  (leNat_lt _).trans_le (Nat.pow_le_pow_right (by decide) (List.length_take_le _ _))

/-- Bytes that are there need no zeros. -/
theorem slice_of_le {b : Bytes} {o n : Nat} (h : o + n ≤ b.length) : slice b o n = (b.drop o).take n := by
  unfold slice
  rw [List.length_drop, show n - (b.length - o) = 0 by omega, List.replicate_zero, List.append_nil]

/-- The bytes after the header of a message in clear are its payload and its CRC. -/
theorem msgOfBytes_text {b : Bytes} (header : HeaderOk b) :
    (slice b 40 ((msgOfBytes b).payload.length + 4)).take (msgOfBytes b).payload.length = (msgOfBytes b).payload ∧
    fieldLE (slice b 40 ((msgOfBytes b).payload.length + 4)) (msgOfBytes b).payload.length 4 = (msgOfBytes b).crc.toNat := by
  obtain ⟨-, -, -, -, whole, -, -⟩ := header
  have payload : (msgOfBytes b).payload = (b.drop 40).take (fieldLE b 26 2) := slice_of_le (by omega)
  have length : (msgOfBytes b).payload.length = fieldLE b 26 2 := by
    rw [payload, List.length_take, List.length_drop]
    omega
  have crc : (msgOfBytes b).crc.toNat = fieldLE b (40 + fieldLE b 26 2) 4 := Nat.mod_eq_of_lt (fieldLE_lt b _ 4)
  rw [length, payload, crc, slice_of_le (by omega)]
  constructor
  · rw [List.take_take, Nat.min_eq_left (by omega)]
  · unfold fieldLE
    rw [List.drop_take, List.drop_drop, List.take_take, Nat.min_eq_left (by omega)]

/-- A message in clear of a session in service, of which none comes to be the ninth DICT. -/
theorem Dev.acceptMsg_of_proved {d : Dev} {n p slot pcp : Nat} {v6 : Bool} {src : HostSrc} {b : Bytes} {s : Session} (header : HeaderOk b)
    (found : d.sess (msgOfBytes b).session.toNat = some s) (serves : ¬ (s.pav ≠ (Fin.ofNat 64 p).val ∨ s.st = .suspended ∨ s.ipv6 ≠ v6))
    (clear : (msgOfBytes b).flags.getLsbD 0 = false) (proved : s.Proves (msgOfBytes b) b) (noDict : (msgOfBytes b).type ≠ 0x0B)
    (counter : (msgOfBytes b).iv < s.limitIv) :
    d.acceptMsg (rxOf d n p slot pcp src b) b v6 =
      if shapeOk (msgOfBytes b).type.toNat (msgOfBytes b).seq (msgOfBytes b).payload then d.enqueue (rxOf d n p slot pcp src b)
      else d.bump R.port_RX_DROPPED (Fin.ofNat 2 n).val := by
  obtain ⟨text, crc⟩ := msgOfBytes_text header
  obtain ⟨tag, sum⟩ := proved
  have m : (rxOf d n p slot pcp src b).msg = msgOfBytes b := rfl
  have serves' : ¬ (s.pav ≠ (rxOf d n p slot pcp src b).pav.val ∨ s.st = .suspended ∨ s.ipv6 ≠ v6) := serves
  unfold Dev.acceptMsg
  simp only [m, found, if_neg serves', msgEnc, clear, Bool.false_eq_true, if_false, text, crc, tag, sum, ne_eq, not_true_eq_false, or_self,
    Bool.not_eq_true', if_neg (Nat.not_le.mpr counter), noDict, false_and, BitVec.ofNat_toNat, BitVec.setWidth_eq]
  cases shapeOk (msgOfBytes b).type.toNat (msgOfBytes b).seq (msgOfBytes b).payload
  case false => rfl
  case true => rfl

/-- A damaged one whose sequence a session with one copy has not answered gets a NAK. -/
theorem Dev.acceptMsg_of_damaged {d : Dev} {n p slot pcp : Nat} {v6 : Bool} {src : HostSrc} {b : Bytes} {s : Session} (header : HeaderOk b)
    (found : d.sess (msgOfBytes b).session.toNat = some s) (serves : ¬ (s.pav ≠ (Fin.ofNat 64 p).val ∨ s.st = .suspended ∨ s.ipv6 ≠ v6))
    (clear : (msgOfBytes b).flags.getLsbD 0 = false) (bad : ¬ s.Proves (msgOfBytes b) b) (single : s.twin = false) (live : s.st.live = true)
    (named : (msgOfBytes b).seq ≠ 0) (fresh : s.answeredSeq ((msgOfBytes b).flags.getLsbD 3) (msgOfBytes b).seq = false) :
    d.acceptMsg (rxOf d n p slot pcp src b) b v6 =
      (d.bump R.port_RX_DROPPED (Fin.ofNat 2 n).val).sendNak s.id (msgOfBytes b).seq 1 ((msgOfBytes b).flags.getLsbD 3) := by
  obtain ⟨text, crc⟩ := msgOfBytes_text header
  have m : (rxOf d n p slot pcp src b).msg = msgOfBytes b := rfl
  have serves' : ¬ (s.pav ≠ (rxOf d n p slot pcp src b).pav.val ∨ s.st = .suspended ∨ s.ipv6 ≠ v6) := serves
  have damaged : gcmTag s.kHD (s.fixHD ++ leBytes 8 (msgOfBytes b).iv) (b.take (44 + (msgOfBytes b).payload.length)) [] ≠
      b.drop (44 + (msgOfBytes b).payload.length) ∨ crc32c (b.take 32 ++ (msgOfBytes b).payload) ≠ (msgOfBytes b).crc.toNat :=
    not_and_or.mp bad
  unfold Dev.acceptMsg
  simp only [m, found, if_neg serves', msgEnc, clear, Bool.false_eq_true, if_false, text, crc, if_pos damaged]
  unfold Dev.damaged
  simp only [msgCtl, named, live, fresh, single, Bool.not_true, Bool.false_eq_true, or_self, if_false]
  rfl

end Sys2Proof.Machine
end

section
/-! PROOFS. What sending leaves as it was: the pauses and the ports' links; requests that are held stay in their order (R63, R94, R107, R146). -/

namespace Sys2Proof.Machine

/-! ## Requests of a session -/

/-- What happens to a request while it is open leaves its sequence and takes no mark from it. -/
def HostReq.Goes (g : HostReq → HostReq) : Prop :=
  ∀ r, (g r).seq = r.seq ∧ (r.accepted = true → (g r).accepted = true) ∧ (r.unverified = true → (g r).unverified = true) ∧
    (r.inDeficit = true → (g r).inDeficit = true)

theorem HostReq.goes_id : HostReq.Goes id := fun _ => ⟨rfl, id, id, id⟩

theorem HostReq.Goes.comp {f g : HostReq → HostReq} (hf : Goes f) (hg : Goes g) : Goes (f ∘ g) := fun r =>
  have ⟨seq, accepted, unverified, inDeficit⟩ := hg r
  have ⟨seq', accepted', unverified', inDeficit'⟩ := hf (g r)
  ⟨seq'.trans seq, accepted' ∘ accepted, unverified' ∘ unverified, inDeficit' ∘ inDeficit⟩

/-- A change of some requests that leaves the sequence and the marks of each. -/
theorem HostReq.goes_ite (c : HostReq → Prop) [DecidablePred c] {g : HostReq → HostReq} (hg : Goes g) : Goes fun r => if c r then g r else r := by
  intro r
  dsimp only
  split
  · exact hg r
  · exact goes_id r

theorem HostReq.goes_hold : HostReq.Goes HostReq.hold := by
  refine HostReq.goes_ite _ (g := fun r => { r with heldPost := true }) ?_
  exact fun _ => ⟨rfl, id, id, id⟩

theorem HostReq.goes_starved : HostReq.Goes HostReq.starved := by
  refine HostReq.goes_ite _ (g := fun r => { r with inDeficit := true }) ?_
  exact fun _ => ⟨rfl, id, id, fun _ => rfl⟩

/-- A session later: its requests one by one, and no answer taken back. -/
structure Session.Goes (y s : Session) : Prop where
  id : y.id = s.id
  reqs : ∃ g, HostReq.Goes g ∧ y.reqs = s.reqs.map g
  answered : s.answered ≤ y.answered

namespace Session.Goes

theorem of_eq {y s : Session} (id : y.id = s.id) (reqs : y.reqs = s.reqs) (answered : y.answered = s.answered) : y.Goes s :=
  ⟨id, ⟨_, HostReq.goes_id, by rw [List.map_id, reqs]⟩, answered.ge⟩

theorem refl (s : Session) : s.Goes s := of_eq rfl rfl rfl

theorem of_map {y s : Session} {g : HostReq → HostReq} (id : y.id = s.id) (hg : HostReq.Goes g) (reqs : y.reqs = s.reqs.map g)
    (answered : y.answered = s.answered) : y.Goes s := ⟨id, ⟨g, hg, reqs⟩, answered.ge⟩

theorem trans {z y s : Session} (h : z.Goes y) (k : y.Goes s) : z.Goes s := by
  obtain ⟨id, ⟨g, hg, reqs⟩, answered⟩ := h
  obtain ⟨id', ⟨g', hg', reqs'⟩, answered'⟩ := k
  exact ⟨id.trans id', ⟨_, hg.comp hg', by rw [reqs, reqs', List.map_map]⟩, answered'.trans answered⟩

theorem nonempty {y s : Session} (h : y.Goes s) (held : s.reqs ≠ []) : y.reqs ≠ [] := by
  obtain ⟨-, ⟨g, -, reqs⟩, -⟩ := h
  rw [reqs]
  exact fun none => held (List.map_eq_nil_iff.mp none)

end Session.Goes

/-- Sessions that hold requests are there later. -/
def Dev.KeepsReqs (d t : Dev) : Prop := ∀ id s, d.sess id = some s → s.reqs ≠ [] → ∃ y, t.sess id = some y ∧ y.Goes s

namespace Dev.KeepsReqs

theorem of_sessions {d t : Dev} (same : t.net.sessions = d.net.sessions) : d.KeepsReqs t := fun id s found _ =>
  ⟨s, by rw [Dev.sess, same]; exact found, .refl s⟩

theorem trans {d t u : Dev} (h : d.KeepsReqs t) (k : t.KeepsReqs u) : d.KeepsReqs u := fun id s found held => by
  obtain ⟨y, found', goes⟩ := h id s found held
  obtain ⟨z, found'', goes'⟩ := k id y found' (goes.nonempty held)
  exact ⟨z, found'', goes'.trans goes⟩

end Dev.KeepsReqs

/-- Sessions changed each for itself are found by the same numbers. -/
theorem Dev.sess_of_map {d t : Dev} {f : Session → Session} (ids : ∀ s, (f s).id = s.id) (sessions : t.net.sessions = d.net.sessions.map f)
    (id : Nat) : t.sess id = (d.sess id).map f := by
  rw [Dev.sess, Dev.sess, sessions, List.find?_map]
  congr 2
  exact funext fun s => by rw [Function.comp_apply, ids]

theorem Dev.KeepsReqs.of_map {d t : Dev} {f : Session → Session} (goes : ∀ s, (f s).Goes s) (sessions : t.net.sessions = d.net.sessions.map f) :
    d.KeepsReqs t := fun id s found _ =>
  ⟨f s, by rw [Dev.sess_of_map (fun s => (goes s).id) sessions, found]; rfl, goes s⟩

/-- A session without requests ends. -/
theorem Dev.KeepsReqs.of_end {d t : Dev} {s : Session} (found : d.sess s.id = some s) (empty : s.reqs = [])
    (sessions : t.net.sessions = d.net.sessions.filter (·.id ≠ s.id)) : d.KeepsReqs t := fun id x found' held => by
  have apart : id ≠ s.id := fun same => by
    subst same
    rw [found, Option.some.injEq] at found'
    exact held (found' ▸ empty)
  refine ⟨x, ?_, .refl x⟩
  rw [Dev.sess, sessions, List.find?_filter, ← found', Dev.sess]
  congr 1
  funext y
  by_cases same : y.id = id
  · simp [same, apart]
  · simp [same]

/-! ## What sending leaves -/

/-- From `d` to `t` sessions have sent, and what cannot be sent is held: the pauses and the values below the hearth's stay, copies wait for a
priority only on ports that were up, and sessions with requests hold them still. -/
structure Dev.Sent (d t : Dev) : Prop where
  keeps : Dev.Keeps 0x7000 d t
  paused : t.net.paused = d.net.paused
  held : ∀ h ∈ t.net.pausedTx, h ∈ d.net.pausedTx ∨ (h.port < 2 → d.portUp h.port = true)
  reqs : d.KeepsReqs t

namespace Dev.Sent

theorem refl (d : Dev) : Dev.Sent d d := ⟨.refl le_rfl d, rfl, fun _ => .inl, .of_sessions rfl⟩

variable {d0 d t : Dev}

theorem ite (c : Prop) [Decidable c] {a b : Dev} (ha : Sent d0 a) (hb : Sent d0 b) : Sent d0 (if c then a else b) := by
  split
  · exact ha
  · exact hb

theorem foldl {β : Type} {f : Dev → β → Dev} (h : Sent d0 d) (hf : ∀ d b, Sent d0 d → Sent d0 (f d b)) (l : List β) : Sent d0 (l.foldl f d) :=
  foldl_keeps (P := Sent d0) f hf l h

/-- A change that keeps the values and leaves the ports and sessions. -/
theorem aside (h : Sent d0 d) (keeps : Dev.Keeps 0x7000 d0 t) (net : t.net = d.net) : Sent d0 t where
  keeps := keeps
  paused := net ▸ h.paused
  held := net ▸ h.held
  reqs := h.reqs.trans (.of_sessions (by rw [net]))

/-- A port is up as before. -/
theorem portUp (h : Sent d0 d) {n : Nat} (hn : n < 2) : d.portUp n = d0.portUp n := by
  have sub : R.port_LINK_STATUS.sub < 256 := by decide
  have value := h.keeps.value (R.port_LINK_STATUS.key n 0) (by rw [linkStatus_key]; omega) (by rw [linkStatus_key]; omega)
    R.port_LINK_STATUS.dflt
  exact congrArg (fun v => decide (v = 2)) value

/-- A change of the ports and sessions. -/
theorem onNet (h : Sent d0 d) {f : HostNet → HostNet} (rest : (∀ s ∈ d.net.sessions, s.Resting) → ∀ s ∈ (f d.net).sessions, s.Resting)
    (paused : (f d.net).paused = d.net.paused) (held : ∀ x ∈ (f d.net).pausedTx, x ∈ d.net.pausedTx ∨ (x.port < 2 → d.portUp x.port = true))
    (reqs : d.KeepsReqs (d.onNet f)) : Sent d0 (d.onNet f) where
  keeps := h.keeps.onNet rest
  paused := paused.trans h.paused
  held x hx := (held x hx).elim (h.held x) fun up => .inr fun low => h.portUp low ▸ up low
  reqs := h.reqs.trans reqs

/-- Copies that wait no longer, and lists beside the sessions. -/
theorem fewer (h : Sent d0 d) {f : HostNet → HostNet} (sessions : (f d.net).sessions = d.net.sessions) (paused : (f d.net).paused = d.net.paused)
    (held : ∀ x ∈ (f d.net).pausedTx, x ∈ d.net.pausedTx) : Sent d0 (d.onNet f) :=
  h.onNet (fun r => sessions ▸ r) paused (fun x hx => .inl (held x hx)) (.of_sessions sessions)

/-- Each session changed for itself. -/
theorem eachSess (h : Sent d0 d) {f : Session → Session} (rests : ∀ s, s.Resting → (f s).Resting) (goes : ∀ s, (f s).Goes s) :
    Sent d0 (d.onNet fun n => { n with sessions := n.sessions.map f }) := by
  refine h.onNet (fun r s hs => ?_) rfl (fun x hx => .inl hx) (.of_map goes rfl)
  obtain ⟨s', hs', rfl⟩ := List.mem_map.mp hs
  exact rests s' (r s' hs')

theorem onSess (h : Sent d0 d) (id : Nat) {f : Session → Session} (rests : ∀ s, s.Resting → (f s).Resting) (goes : ∀ s, (f s).Goes s) :
    Sent d0 (d.onSess id f) := by
  refine h.eachSess (fun s hs => ?_) fun s => ?_
  · split
    · exact rests s hs
    · exact hs
  · split
    · exact goes s
    · exact .refl s

theorem withSess (h : Sent d0 d) (id : Nat) {f : Session → Dev} (hf : ∀ s, d.sess id = some s → Sent d0 (f s)) : Sent d0 (d.withSess id f) := by
  unfold Dev.withSess
  split
  · exact hf _ ‹_›
  · exact h

theorem onPlat (h : Sent d0 d) {f : Plat → Plat} (hf : ∀ x, (f x).step = x.step ∧ (f x).refA = x.refA ∧ (f x).refB = x.refB) :
    Sent d0 (d.onPlat f) := h.aside (h.keeps.onPlat hf) rfl

theorem wrBelow (h : Sent d0 d) {e : Entry} (he : e.base < 0x2000 ∧ e.sub < 256) (v : Nat) : Sent d0 (d.wr e v) :=
  h.aside (h.keeps.wrBelow he v) rfl

theorem bumpBelow (h : Sent d0 d) {e : Entry} (he : e.base < 0x2000 ∧ e.sub < 256) (n : Nat) : Sent d0 (d.bump e 0 0 n) := h.wrBelow he _

theorem alert (h : Sent d0 d) (x y p n : Nat) : Sent d0 (d.alert x y p n) := h.aside (h.keeps.alert x y p n) rfl

/-! ### The rules of the pace -/

theorem ringPace (h : Sent d0 d) (f : Nat → Bool) : Sent d0 (d.ringPace f) := h.aside (h.keeps.ringPace f) (d.ringPace_net f)

theorem markOpen (h : Sent d0 d) {f : HostReq → HostReq} (hf : HostReq.Goes f) : Sent d0 (d.markOpen f) :=
  h.eachSess (f := fun s => { s with reqs := s.reqs.map f }) (fun _ r => r) fun _ => .of_map rfl hf rfl rfl

theorem raiseDeficit (h : Sent d0 d) : Sent d0 d.raiseDeficit :=
  (((h.onPlat (by exact fun _ => ⟨rfl, rfl, rfl⟩)).bumpBelow (by decide) _).markOpen HostReq.goes_starved).alert _ _ _ _

theorem deficitRules (h : Sent d0 d) : Sent d0 d.deficitRules := by
  have ruled := fun c c' c'' [Decidable c] [Decidable c'] [Decidable c''] => ite c (ite c' h h.raiseDeficit)
    (ite c'' (h.onPlat (f := fun x => { x with deficit := false }) (by exact fun _ => ⟨rfl, rfl, rfl⟩)) h)
  unfold Dev.deficitRules
  exact ((ruled _ _ _).ringPace _).onPlat (by exact fun _ => ⟨rfl, rfl, rfl⟩)

/-! ### What a session sends -/

theorem emit (h : Sent d0 d) (x : Out) : Sent d0 (d.emit x) := ite _ (h.fewer rfl rfl (by exact fun _ hx => hx)) h

theorem launchAt (h : Sent d0 d) (s : Session) (x : HeldTx) (iv : Nat) : Sent d0 (d.launchAt s x iv) := by
  unfold Dev.launchAt
  split
  · exact h
  · exact ite _ ((h.emit _).onSess _ (by exact fun _ r => r) (by exact fun _ => .of_eq rfl rfl rfl)) (h.emit _)

theorem endSession (h : Sent d0 d) {s : Session} (found : d.sess s.id = some s) (empty : s.reqs = []) : Sent d0 (d.endSession s) := by
  have same : (if s.recorded = true then d.appendMark s.pav (.markClosed s.id) else d).net = d.net := by
    split
    · exact (Dev.Rings.refl.appendMark _ _).net
    · rfl
  have keeps := Dev.Keeps.ite (s.recorded = true) (h.keeps.appendMark s.pav (.markClosed s.id)) h.keeps
  have marked := h.aside keeps same
  unfold Dev.endSession
  dsimp only
  generalize (if s.recorded = true then d.appendMark s.pav (.markClosed s.id) else d) = u at same marked
  have owed : Sent d0 (if (u.hring s.pav).waiting.contains (.markClosed s.id) = true then u
      else { u with hearth := { u.hearth with sessOpen := Table.erase u.hearth.sessOpen s.id } }) := by
    refine ite _ marked (marked.aside ?_ rfl)
    exact ⟨marked.keeps.bound, marked.keeps.value, marked.keeps.time, marked.keeps.step, marked.keeps.ref, marked.keeps.saved, marked.keeps.port,
      marked.keeps.rest⟩
  have same' : (if (u.hring s.pav).waiting.contains (.markClosed s.id) = true then u
      else { u with hearth := { u.hearth with sessOpen := Table.erase u.hearth.sessOpen s.id } }).net = d.net := by
    split
    · exact same
    · exact same
  refine (owed.onNet (fun r s hs => r s (List.mem_filter.mp hs).1) rfl (fun x hx => .inl (List.mem_filter.mp hx).1) ?_).deficitRules
  exact .of_end (s := s) (by rw [Dev.sess, same']; exact found) empty rfl

theorem suspend (h : Sent d0 d) (id : Nat) : Sent d0 (d.suspend id) :=
  (h.onSess id (by exact fun _ hs => ⟨rfl, hs.2⟩) (by exact fun _ => .of_map rfl HostReq.goes_hold rfl rfl)).fewer (by rfl) (by rfl)
    (by exact fun _ hx => (List.mem_filter.mp hx).1)

theorem endOrSuspend (h : Sent d0 d) (id : Nat) : Sent d0 (d.endOrSuspend id) :=
  h.withSess id fun s found => by
    split
    · next empty => exact h.endSession (by rw [(Dev.sess_eq_some found).2]; exact found) (List.isEmpty_iff.mp empty)
    · exact h.suspend id

theorem spend (h : Sent d0 d) (id : Nat) : Sent d0 (d.spend id) :=
  h.withSess id fun s _ => ite _ h (((h.onSess id (by exact fun _ hs => hs) (by exact fun _ => .of_eq rfl rfl rfl)).foldl
    (fun _ e h => h.launchAt s _ _) _).endOrSuspend id)

theorem countLate (h : Sent d0 d) (p : Nat) (r : HostReq) : Sent d0 (d.countLate p r) :=
  have h := fun v => (h.bumpBelow (e := R.pow_LATE_COUNT) (by decide) 1).wrBelow (e := R.pow_LATE_BY_PAVILION) (by decide) v
  ite _ ((h _).bumpBelow (by decide) _) (h _)

theorem firstDeliver (h : Sent d0 d) (s : Session) (r : HostReq) : Sent d0 (d.firstDeliver s r) := by
  refine (ite (r.late d.time = true) (h.countLate _ _) h).onSess _ (by exact fun _ hs => hs) fun s => .of_map rfl ?_ rfl rfl
  exact HostReq.goes_ite _ (g := fun q => { q with sent := _, dflags := _, lastSent := _, interval := _ }) fun _ => ⟨rfl, id, id, id⟩

theorem launch (h : Sent d0 d) (x : HeldTx) : Sent d0 (d.launch x) := by
  refine h.withSess _ fun s _ => ite _ h (ite _ (h.spend _) ?_)
  have first : ∀ r : Option HostReq, Sent d0 (match r with
      | some r => if r.sent.isNone then d.firstDeliver s r else d
      | none => d) := fun r => by
    split
    · exact ite _ (h.firstDeliver _ _) h
    · exact h
  exact (first _).withSess _ fun s _ => ite _ (first _) (((first _).onSess _ (by exact fun _ hs => hs)
    (by exact fun _ => .of_eq rfl rfl rfl)).launchAt _ _ _)

/-- A session sends on ports that are up. -/
theorem up_of_mem_sendPorts {s : Session} {n : Nat} (hn : n ∈ d.sendPorts s) : d.portUp n = true :=
  (Bool.and_eq_true_iff.mp (List.mem_filter.mp hn).2).1

/-- A copy waits for the end of a pause on a port that is up. -/
theorem hold (h : Sent d0 d) {x : HeldTx} (up : x.port < 2 → d.portUp x.port = true) :
    Sent d0 (d.onNet fun n => { n with pausedTx := n.pausedTx ++ [x] }) := by
  refine h.onNet (fun r => r) rfl (fun y hy => ?_) (.of_sessions rfl)
  rcases List.mem_append.mp hy with old | new
  · exact .inl old
  · exact .inr (List.mem_singleton.mp new ▸ up)

theorem sendMsg (h : Sent d0 d) (id type seq flags : Nat) (b : Bytes) : Sent d0 (d.sendMsg id type seq flags b) := by
  refine h.withSess id fun s _ => ite _ h (ite _ (h.spend _) ?_)
  refine List.foldlRecOn (motive := fun t => Sent d0 t) _ _ h fun t ht n hn => ite _ (ht.hold fun low => ?_) (ht.launch _)
  rw [ht.portUp low, ← h.portUp low]
  exact up_of_mem_sendPorts hn

theorem sendDeliver (h : Sent d0 d) (id seq : Nat) : Sent d0 (d.sendDeliver id seq) := by
  refine h.withSess id fun s _ => ite _ h ?_
  split
  · exact h
  · split
    · exact h
    · exact ite _ (h.sendMsg _ _ _ _ _) h

theorem sendHeld (h : Sent d0 d) (id : Nat) : Sent d0 (d.sendHeld id) :=
  h.withSess id fun _ _ => h.foldl (fun _ _ h => h.sendDeliver _ _) _

theorem releasePaused (h : Sent d0 d) : Sent d0 d.releasePaused :=
  (h.fewer rfl rfl (by exact fun _ hx => (List.mem_filter.mp hx).1)).foldl (fun _ _ h => h.launch _) _

end Dev.Sent

end Sys2Proof.Machine
end

section
/-! PROOFS. PFC frames, address resolution, the link of a port and the NAK of a twin copy (R61, R63, R66, R106, R107). -/

namespace Sys2Proof.Machine

/-! ## PFC frames -/

theorem exec_pfcFrame (o : OpPfc) (s : State) : exec (.pfcFrame o) s = execPfcFrame o s := rfl

/-- The end of the pause that a frame gives priority `i`. -/
def pauseEnd (o : OpPfc) (now i : Nat) : Nat :=
  if (o.times.getD i 0).toNat = 0 then 0 else now + ceilDiv ((o.times.getD i 0).toNat * 128) 100

/-- The pause of priority `i`, where the frame and PFC_ENABLE name it. -/
def Dev.pause (o : OpPfc) (d : Dev) (i : Nat) : Dev :=
  if bitOf (d.rd R.port_PFC_ENABLE o.port.val) i && o.enable.getLsbD i then
    d.onNet fun n => { n with paused := Table.set 0 n.paused (o.port.val * 8 + i) (pauseEnd o d.time i) }
  else d

theorem Dev.pause_apart (o : OpPfc) (d : Dev) (i : Nat) : { d.pause o i with net := d.net } = d := by
  unfold Dev.pause
  split
  · rfl
  · rfl

theorem Dev.pauses_apart (o : OpPfc) (d : Dev) (l : List Nat) : { l.foldl (Dev.pause o) d with net := d.net } = d :=
  foldl_keeps (P := fun t : Dev => { t with net := d.net } = d) _ (fun t i h => Dev.apart_trans h (Dev.pause_apart o t i)) l rfl

/-- The pauses after the first `n` priorities of a frame. -/
theorem Dev.pauses_get (o : OpPfc) (d : Dev) (k : Nat) {n : Nat} (hn : n ≤ 7) :
    Table.get 0 ((List.range n).foldl (Dev.pause o) d).net.paused k =
      if k / 8 = o.port.val ∧ k % 8 < n ∧ bitOf (d.rd R.port_PFC_ENABLE o.port.val) (k % 8) = true ∧ o.enable.getLsbD (k % 8) = true then
        pauseEnd o d.time (k % 8)
      else Table.get 0 d.net.paused k := by
  induction n with
  | zero => simp
  | succ n ih =>
    have apart := Dev.pauses_apart o d (List.range n)
    have rd := congrArg (fun t : Dev => t.rd R.port_PFC_ENABLE o.port.val) apart
    have time := congrArg Dev.time apart
    have ih := ih (Nat.le_of_succ_le hn)
    rw [List.range_succ, List.foldl_append, List.foldl_cons, List.foldl_nil]
    generalize (List.range n).foldl (Dev.pause o) d = t at apart rd time ih
    replace rd : t.rd R.port_PFC_ENABLE o.port.val = d.rd R.port_PFC_ENABLE o.port.val := rd
    replace time : t.time = d.time := time
    unfold Dev.pause
    rw [rd, time]
    by_cases named : (bitOf (d.rd R.port_PFC_ENABLE o.port.val) n && o.enable.getLsbD n) = true
    · rw [if_pos named]
      obtain ⟨enabled, given⟩ := Bool.and_eq_true_iff.mp named
      by_cases here : k = o.port.val * 8 + n
      · have place : k / 8 = o.port.val ∧ k % 8 = n := by omega
        rw [place.1, place.2, if_pos ⟨rfl, Nat.lt_succ_self n, enabled, given⟩, here]
        exact Table.get_set_self 0 _ _ _
      · have other : (k / 8 = o.port.val ∧ k % 8 < n + 1 ↔ k / 8 = o.port.val ∧ k % 8 < n) := by omega
        exact (Table.get_set_ne 0 _ _ here).trans (ih.trans (if_congr (by rw [← and_assoc, ← other, and_assoc]) rfl rfl))
    · rw [if_neg named, ih]
      refine if_congr ⟨fun ⟨port, low, bits⟩ => ⟨port, low.trans (Nat.lt_succ_self n), bits⟩,
        fun ⟨port, low, bits⟩ => ⟨port, ?_, bits⟩⟩ rfl rfl
      refine (Nat.lt_succ_iff_lt_or_eq.mp low).resolve_right fun same => named ?_
      rw [← same]
      exact Bool.and_eq_true_iff.mpr bits

/-- A PFC frame at a port that is up pauses the priorities it names; what waits may leave. -/
theorem pfcFrame_answers {q : List Instr} {d : Dev} {o : OpPfc} (running : d.thermalStop = false) (up : d.rd R.port_LINK_STATUS o.port.val = 2) :
    Answers (.pfcFrame o) q d ((List.range 7).foldl (Dev.pause o) d).releasePaused := by
  refine answers_of_act _ (exec_pfcFrame o _) running ?_
  simp only [Dev.portUp, up, decide_true, Bool.not_true, Bool.false_eq_true, if_false]
  rfl

/-! ## Address resolution -/

theorem exec_arpRequest (o : OpResolve) (s : State) : exec (.arpRequest o) s = execArpRequest o s := rfl
theorem exec_neighbourSolicitation (o : OpResolve) (s : State) : exec (.neighbourSolicitation o) s = execNeighbourSolicitation o s := rfl

/-- A frame enters a port that is up. -/
theorem Dev.emit_of_up {d : Dev} {x : Out} (up : d.rd R.port_LINK_STATUS x.port = 2) :
    d.emit x = { d with net := { d.net with out := x :: d.net.out } } := by
  unfold Dev.emit Dev.portUp
  simp only [up, decide_true, if_true]
  rfl

theorem Dev.resolve_of_owned {d : Dev} {o : OpResolve} {v6 : Bool} {f : Tag → Out} {p k : Nat} (up : d.rd R.port_LINK_STATUS o.port.val = 2)
    (started : 9 ≤ d.plat.step) (port : ∀ tag, (f tag).port = o.port.val)
    (owned : d.addrOwner o.port.val o.target.toNat v6 (o.vid.map (·.toNat)) = some (p, k)) :
    d.resolve o v6 f = { d with net := { d.net with
      out := f { pcp := Config.framePcp, vid := (d.hostAddr p o.port.val k).vid } :: d.net.out } } := by
  have open_ : ¬ ((!d.portUp o.port.val) = true ∨ d.plat.step < 9) := by
    simp [Dev.portUp, up, started]
  unfold Dev.resolve
  simp only [if_neg open_, owned]
  exact Dev.emit_of_up (by rw [port]; exact up)

theorem Dev.resolve_of_unowned {d : Dev} {o : OpResolve} {v6 : Bool} {f : Tag → Out}
    (unowned : d.addrOwner o.port.val o.target.toNat v6 (o.vid.map (·.toNat)) = none) : d.resolve o v6 f = d := by
  unfold Dev.resolve
  simp only [unowned, ite_self]

/-! ## The link of a port -/

theorem exec_portLinkUp (o : OpPortT) (s : State) : exec (.portLinkUp o) s = execPortLinkUp o s := rfl
theorem exec_portLinkDown (o : OpPortT) (s : State) : exec (.portLinkDown o) s = execPortLinkDown o s := rfl

/-- A port whose link goes up: sessions send what they held. -/
def Dev.portRises (d : Dev) (n : Nat) : Dev := d.net.sessions.foldl (fun d s => d.sendHeld s.id) (d.wr R.port_LINK_STATUS 2 n)

theorem Dev.portRises_status (d : Dev) {n : Nat} (hn : n < 2) : (d.portRises n).rd R.port_LINK_STATUS n = 2 := by
  have sent := (Dev.Sent.refl (d.wr R.port_LINK_STATUS 2 n)).foldl (fun t (s : Session) h => h.sendHeld s.id) d.net.sessions
  have sub : R.port_LINK_STATUS.sub < 256 := by decide
  refine (sent.keeps.value (R.port_LINK_STATUS.key n 0) (by rw [linkStatus_key]; omega) (by rw [linkStatus_key]; omega) _).trans ?_
  exact Dev.rd_wr_self ..

/-- A training port's link goes up. -/
theorem portLinkUp_answers {q : List Instr} {d : Dev} {o : OpPortT} (running : d.thermalStop = false)
    (enabled : (d.netAt o.t).rd R.port_STATE o.port.val = 2) (training : (d.netAt o.t).rd R.port_LINK_STATUS o.port.val = 1) :
    Answers (.portLinkUp o) q d ((d.netAt o.t).portRises o.port.val) := by
  refine answers_of_act _ (exec_portLinkUp o _) running ?_
  simp only [enabled, training, ne_eq, not_true_eq_false, or_self, if_false]
  rfl

theorem portLinkUp_stays {q : List Instr} {d : Dev} {o : OpPortT} (running : d.thermalStop = false)
    (other : (d.netAt o.t).rd R.port_STATE o.port.val ≠ 2 ∨ (d.netAt o.t).rd R.port_LINK_STATUS o.port.val ≠ 1) :
    Answers (.portLinkUp o) q d (d.netAt o.t) :=
  answers_of_act _ (exec_portLinkUp o _) running (if_pos other)

/-- A link that goes down leaves no copy waiting for a pause of its port. -/
theorem Dev.portDown_held (d : Dev) {n v : Nat} (down : v ≠ 2) (hn : n < 2) : ∀ h ∈ (d.portDown n v).net.pausedTx, h.port ≠ n := by
  unfold Dev.portDown
  extract_lets d1 d2
  have sent := (Dev.Sent.refl d2).foldl (fun t (s : Session) h => h.sendHeld s.id) d2.net.sessions
  intro h hh same
  rcases sent.held h hh with old | up
  · have kept := (List.mem_filter.mp old).2
    exact of_decide_eq_true kept same
  · have status : d2.rd R.port_LINK_STATUS n = v := Dev.rd_wr_self ..
    have link := of_decide_eq_true (up (by omega))
    rw [same, status] at link
    exact down link

theorem portLinkDown_answers {q : List Instr} {d : Dev} {o : OpPortT} (running : d.thermalStop = false)
    (up : (d.netAt o.t).rd R.port_LINK_STATUS o.port.val = 2) :
    Answers (.portLinkDown o) q d ((d.netAt o.t).portDown o.port.val 1) := by
  refine answers_of_act _ (exec_portLinkDown o _) running ?_
  simp only [Dev.portUp, up, decide_true, if_true]

theorem portLinkDown_stays {q : List Instr} {d : Dev} {o : OpPortT} (running : d.thermalStop = false)
    (down : (d.netAt o.t).rd R.port_LINK_STATUS o.port.val ≠ 2) : Answers (.portLinkDown o) q d (d.netAt o.t) := by
  refine answers_of_act _ (exec_portLinkDown o _) running ?_
  simp only [Dev.portUp, down, decide_false, Bool.false_eq_true, if_false]

/-! ## The NAK of a twin copy -/

theorem exec_twinNakTimer (o : OpNakT) (s : State) : exec (.twinNakTimer o) s = execTwinNakTimer o s := rfl

/-- The timer of a damaged copy. -/
abbrev nakTimes (o : OpNakT) (e : Nat × Bool × Nat × Nat) : Bool :=
  decide (e.1 = o.session.toNat) && (e.2.1 == o.control) && decide (e.2.2.1 = o.seq)

section
variable {q : List Instr} {d : Dev} {o : OpNakT} {e : Nat × Bool × Nat × Nat}

theorem twinNakTimer_early (running : d.thermalStop = false) (runs : (d.netAt o.t).net.nakTimers.find? (nakTimes o) = some e)
    (early : (d.netAt o.t).time < e.2.2.2 + 2000) : Answers (.twinNakTimer o) q d (d.netAt o.t) := by
  refine answers_of_act _ (exec_twinNakTimer o _) running ?_
  simp only [runs, if_pos early]

theorem twinNakTimer_due {s : Session} (running : d.thermalStop = false) (runs : (d.netAt o.t).net.nakTimers.find? (nakTimes o) = some e)
    (due : e.2.2.2 + 2000 ≤ (d.netAt o.t).time)
    (found : ((d.netAt o.t).onNet fun n => { n with nakTimers := n.nakTimers.erase e }).sess o.session.toNat = some s) :
    Answers (.twinNakTimer o) q d (if ((d.netAt o.t).onNet fun n => { n with nakTimers := n.nakTimers.erase e }).arrived s o.control o.seq
      then (d.netAt o.t).onNet fun n => { n with nakTimers := n.nakTimers.erase e }
      else ((d.netAt o.t).onNet fun n => { n with nakTimers := n.nakTimers.erase e }).sendNak o.session.toNat o.seq 1 o.control) := by
  refine answers_of_act _ (exec_twinNakTimer o _) running ?_
  simp only [runs, if_neg (Nat.not_lt.mpr due)]
  exact Dev.withSess_of_sess _ found
end

end Sys2Proof.Machine
end

section
/-! PROOFS. A message leaves on the port of its session, under the next counter (R69, R72, R76, R104). -/

namespace Sys2Proof.Machine

/-! ## The port of a session with one copy -/

section
variable {d : Dev} {s : Session}

theorem Dev.sendPorts_of_served {dst : HostSrc} {slot : Nat} (single : s.twin = false) (up : d.rd R.port_LINK_STATUS s.port = 2)
    (place : s.place s.port = some (dst, slot)) (serves : (d.hostAddr s.pav s.port slot).serves s.ipv6 = true) : d.sendPorts s = [s.port] := by
  simp [Dev.sendPorts, single, Dev.portUp, up, place, serves]

theorem Dev.sendPorts_of_unserved {dst : HostSrc} {slot : Nat} (single : s.twin = false) (place : s.place s.port = some (dst, slot))
    (unserved : (d.hostAddr s.pav s.port slot).serves s.ipv6 = false) : d.sendPorts s = [] := by
  simp [Dev.sendPorts, single, place, unserved]

theorem Dev.sendPorts_of_down (single : s.twin = false) (down : d.rd R.port_LINK_STATUS s.port ≠ 2 ∨ s.place s.port = none) :
    d.sendPorts s = [] := by
  rcases down with down | unknown
  · simp [Dev.sendPorts, single, Dev.portUp, down]
  · simp [Dev.sendPorts, single, unknown]

/-! ## One copy -/

/-- A session with counters left that sends on no port sends nothing. -/
theorem Dev.sendMsg_of_no_port {type seq flags : Nat} {b : Bytes} (found : d.sess s.id = some s) (counters : s.HasCounters)
    (no : d.sendPorts s = []) : d.sendMsg s.id type seq flags b = d := by
  obtain ⟨fresh, left⟩ := counters
  have enough : ¬ s.limitIv - 2 < s.txIv + 0 - 1 := by omega
  unfold Dev.sendMsg
  rw [Dev.withSess_of_sess _ found]
  simp only [no, List.length_nil, if_neg enough, List.foldl_nil, ite_self]

/-- One that sends on one port, of which no pause holds a priority, launches its copy. -/
theorem Dev.sendMsg_of_port {n type seq flags : Nat} {b : Bytes} (found : d.sess s.id = some s) (counters : s.HasCounters)
    (awake : s.st ≠ .suspended) (port : d.sendPorts s = [n]) (unpaused : ∀ k, Table.get 0 d.net.paused k ≤ d.time) :
    d.sendMsg s.id type seq flags b = d.launch { session := s.id, port := n, type := type, flags := flags, seq := seq, payload := b } := by
  obtain ⟨fresh, left⟩ := counters
  have enough : ¬ s.limitIv - 2 < s.txIv + 1 - 1 := by omega
  have runs : ∀ pcp, d.isPaused n pcp = false := fun pcp => decide_eq_false (Nat.not_lt.mpr (unpaused _))
  unfold Dev.sendMsg
  rw [Dev.withSess_of_sess _ found]
  simp only [fresh, awake, Bool.false_eq_true, or_self, if_false, port, List.length_singleton, if_neg enough, List.foldl_cons, List.foldl_nil, runs]

/-- A copy of a message that is no DELIVER takes the next counter. -/
theorem Dev.launch_of_counters {h : HeldTx} (found : d.sess h.session = some s) (counters : s.HasCounters) (other : h.type ≠ 0x06) :
    d.launch h = (d.onSess s.id fun s => { s with txIv := s.txIv + 1 }).launchAt s h s.txIv := by
  obtain ⟨fresh, left⟩ := counters
  have enough : ¬ s.limitIv - 2 < s.txIv := by omega
  have found' : d.sess s.id = some s := by rw [(Dev.sess_eq_some found).2]; exact found
  unfold Dev.launch
  rw [Dev.withSess_of_sess _ found]
  simp only [fresh, Bool.false_eq_true, if_false, if_neg enough, other, decide_false, Bool.false_and, Dev.withSess_of_sess _ found']

/-- The message is of the control stream. -/
def HeldTx.ctl (h : HeldTx) : Bool := ctlType h.type || bitOf h.flags 3

/-- The bytes of a copy of a session with one copy. -/
def Session.copy (s : Session) (h : HeldTx) : Bytes :=
  sealed s.protect s.kDH s.fixDH
    (msgHeader h.type (h.flags ||| (if h.ctl then 8 else 0) ||| (if s.protect then 1 else 0)) s.id h.seq (if h.ctl then s.ctlAck else s.answered)
      (if h.ctl then 0 else s.handle) h.payload.length) h.payload s.txIv

/-- The frame of that copy. -/
def Dev.copyTx (d : Dev) (s : Session) (h : HeldTx) (dst : HostSrc) (slot : Nat) : Tx :=
  d.txOf h.port s.pav slot dst (d.msgPcp h.ctl) (s.copy h)

/-- The session once the copy has left. -/
def Dev.afterCopy (d : Dev) (s : Session) (h : HeldTx) : Session :=
  { s with txIv := s.txIv + 1, kaDue := if h.ctl then d.time + d.rd R.amn_KEEPALIVE_TIME * 1000 else s.kaDue }

/-- A change of one session, found by its number. -/
theorem Dev.sess_onSess_self {f : Session → Session} (found : d.sess s.id = some s) (ids : ∀ x, (f x).id = x.id) :
    (d.onSess s.id f).sess s.id = some (f s) := by
  rw [Dev.sess_of_map (d := d) (f := fun x => if x.id = s.id then f x else x) (fun x => ?_) rfl, found]
  · exact congrArg some (if_pos rfl)
  · split
    · exact ids x
    · rfl

theorem Dev.emit_sess (d : Dev) (x : Out) (id : Nat) : (d.emit x).sess id = d.sess id := by
  rw [Dev.sess, Dev.emit_sessions, Dev.sess]

theorem Dev.launchAt_of_place {h : HeldTx} {dst : HostSrc} {slot : Nat} (single : s.twin = false) (place : s.place h.port = some (dst, slot)) :
    d.launchAt s h s.txIv = if h.ctl then (d.emit (.msg (d.copyTx s h dst slot))).onSess s.id
      fun x => { x with kaDue := (d.emit (.msg (d.copyTx s h dst slot))).kaEnd } else d.emit (.msg (d.copyTx s h dst slot)) := by
  unfold Dev.launchAt
  simp only [place, single, Bool.false_eq_true, if_false, Nat.or_zero]
  rfl

/-- A frame that leaves takes no time. -/
theorem Dev.emit_kaEnd (d : Dev) (x : Out) : (d.emit x).kaEnd = d.time + d.rd R.amn_KEEPALIVE_TIME * 1000 :=
  (congrArg Dev.kaEnd (Dev.emit_apart d x d.net) :)

/-- The session whose counter the copy takes. -/
def Dev.counted (d : Dev) (s : Session) : Dev := d.onSess s.id fun x => { x with txIv := x.txIv + 1 }

/-- The copy leaves through the entry of its session's host, and with one of the control stream KEEPALIVE_TIME begins. -/
theorem Dev.launchAt_spec {h : HeldTx} {dst : HostSrc} {slot : Nat} (found : d.sess s.id = some s) (single : s.twin = false)
    (up : d.rd R.port_LINK_STATUS h.port = 2) (place : s.place h.port = some (dst, slot)) :
    ((d.counted s).launchAt s h s.txIv).net.out = .msg (d.copyTx s h dst slot) :: d.net.out ∧
      ((d.counted s).launchAt s h s.txIv).sess s.id = some (d.afterCopy s h) ∧
      { (d.counted s).launchAt s h s.txIv with net := d.net } = d := by
  have counted : (d.counted s).sess s.id = some { s with txIv := s.txIv + 1 } := Dev.sess_onSess_self found fun _ => rfl
  have out : ((d.counted s).emit (.msg (d.copyTx s h dst slot))).net.out = .msg (d.copyTx s h dst slot) :: d.net.out := by
    rw [Dev.emit_of_up (by exact up)]
    rfl
  have apart : { (d.counted s).emit (.msg (d.copyTx s h dst slot)) with net := d.net } = d := Dev.emit_apart _ _ _
  have sess : ((d.counted s).emit (.msg (d.copyTx s h dst slot))).sess s.id = some { s with txIv := s.txIv + 1 } :=
    (Dev.emit_sess _ _ _).trans counted
  have kaEnd := Dev.emit_kaEnd (d.counted s) (.msg (d.copyTx s h dst slot))
  rw [Dev.launchAt_of_place single place, show (d.counted s).copyTx s h dst slot = d.copyTx s h dst slot from rfl, Dev.afterCopy]
  generalize (d.counted s).emit (.msg (d.copyTx s h dst slot)) = t at out apart sess kaEnd
  cases h.ctl
  case false => exact ⟨out, sess, apart⟩
  case true =>
    refine ⟨out, ?_, apart⟩
    rw [kaEnd]
    exact Dev.sess_onSess_self (s := { s with txIv := s.txIv + 1 }) sess fun _ => rfl

end

end Sys2Proof.Machine
end

section
/-! PROOFS. Packets carry valid checksums (R68). -/

namespace Sys2Proof.Machine

/-! ## Big-endian fields -/

theorem leNat_leBytes (n v : Nat) : leNat (leBytes n v) = v % 256 ^ n := by
  induction n generalizing v with
  | zero => exact (Nat.mod_one v).symm
  | succ n ih =>
    have byte : (BitVec.ofNat 8 v).toNat = v % 256 := BitVec.toNat_ofNat v 8
    rw [leBytes, leNat, ih, byte, Nat.pow_succ', Nat.mod_mul]

@[simp] theorem length_beBytes (n v : Nat) : (beBytes n v).length = n := by
  rw [beBytes, List.length_reverse, length_leBytes]

theorem beNat_beBytes (n v : Nat) : beNat (beBytes n v) = v % 256 ^ n := by
  rw [beNat, beBytes, List.reverse_reverse, leNat_leBytes]

theorem leBytes_mod (n v : Nat) : leBytes n (v % 256 ^ n) = leBytes n v := by
  induction n generalizing v with
  | zero => rfl
  | succ n ih =>
    have low : BitVec.ofNat 8 (v % 256 ^ (n + 1)) = BitVec.ofNat 8 v := by
      apply BitVec.eq_of_toNat_eq
      rw [BitVec.toNat_ofNat, BitVec.toNat_ofNat, Nat.pow_succ', Nat.mod_mul_right_mod]
    rw [leBytes, leBytes, low, Nat.pow_succ', Nat.mod_mul_right_div_self, ih]

theorem beBytes_mod (n v : Nat) : beBytes n (v % 256 ^ n) = beBytes n v := congrArg List.reverse (leBytes_mod n v)

/-- A field that stands behind `a`. -/
theorem fieldBE_append {a b : Bytes} {o n v : Nat} (ha : a.length = o) : fieldBE (a ++ (beBytes n v ++ b)) o n = v % 256 ^ n := by
  rw [fieldBE, List.drop_left' ha, List.take_left' (length_beBytes n v), beNat_beBytes]

/-- A field in front. -/
theorem fieldBE_prefix (b : Bytes) (n v : Nat) : fieldBE (beBytes n v ++ b) 0 n = v % 256 ^ n := fieldBE_append (a := []) rfl

/-! ## The checksum -/

theorem sum16_append {a : Bytes} (b : Bytes) (even : a.length % 2 = 0) : sum16 (a ++ b) = sum16 a + sum16 b := by
  induction a using sum16.induct with
  | case1 => exact (Nat.zero_add _).symm
  | case2 x => exact absurd even (Nat.one_ne_zero)
  | case3 x y a ih =>
    have rest : a.length % 2 = 0 := by
      rw [List.length_cons, List.length_cons] at even
      omega
    rw [List.cons_append, List.cons_append, sum16, sum16, ih rest, ← Nat.add_assoc]

theorem sum16_beBytes (v : Nat) : sum16 (beBytes 2 v) = v % 65536 := by
  have bytes : beBytes 2 v = [BitVec.ofNat 8 (v / 256), BitVec.ofNat 8 v] := rfl
  rw [bytes, sum16, sum16, BitVec.toNat_ofNat, BitVec.toNat_ofNat]
  omega

/-- The checksum field makes the sum all ones. -/
theorem ckField_spec (s : Nat) : ckField s ≤ 65535 ∧ 0 < s + ckField s ∧ (s + ckField s) % 65535 = 0 := by
  unfold ckField
  split
  · omega
  · omega

theorem sumOk_iff (b : Bytes) : sumOk b = true ↔ 0 < sum16 b ∧ sum16 b % 65535 = 0 := by
  simp only [sumOk, Bool.and_eq_true, decide_eq_true_eq]

/-- A field of two bytes adds its value to the sum. -/
theorem sum16_field {a : Bytes} (b : Bytes) (v : Nat) (even : a.length % 2 = 0) :
    sum16 (a ++ (beBytes 2 v ++ b)) = sum16 (a ++ ([0, 0] ++ b)) + v % 65536 := by
  rw [sum16_append _ even, sum16_append _ even, sum16_append _ (by rw [length_beBytes]), sum16_append _ (by rfl), sum16_beBytes]
  show _ = sum16 a + (0 + sum16 b) + _
  omega

/-! ## The packets of a message -/

/-- The pseudo-header of a datagram of `n` bytes. -/
def udpPseudo (v6 : Bool) (src dst n : Nat) : Bytes :=
  beBytes (if v6 then 16 else 4) src ++ beBytes (if v6 then 16 else 4) dst ++ beBytes 4 n ++ beBytes 4 17

theorem length_udpPseudo (v6 : Bool) (src dst n : Nat) : (udpPseudo v6 src dst n).length % 2 = 0 := by
  cases v6
  · simp [udpPseudo]
  · simp [udpPseudo]

/-- The ports and the length of a datagram. -/
def udpHead (sport dport n : Nat) : Bytes := beBytes 2 sport ++ beBytes 2 dport ++ beBytes 2 n

@[simp] theorem length_udpHead (sport dport n : Nat) : (udpHead sport dport n).length = 6 := by simp [udpHead]

/-- The sum of a datagram and its pseudo-header, its checksum left out. -/
def udpSum (v6 : Bool) (src dst sport dport : Nat) (payload : Bytes) : Nat :=
  sum16 (udpPseudo v6 src dst (payload.length + 8) ++ udpHead sport dport (payload.length + 8) ++ ([0, 0] ++ payload))

/-- The checksum that a datagram carries: zero goes as all ones. -/
def udpCk (v6 : Bool) (src dst sport dport : Nat) (payload : Bytes) : Nat :=
  if ckField (udpSum v6 src dst sport dport payload) = 0 then 65535 else ckField (udpSum v6 src dst sport dport payload)

theorem udpDatagram_eq (v6 : Bool) (src dst sport dport : Nat) (payload : Bytes) :
    udpDatagram v6 src dst sport dport payload =
      udpHead sport dport (payload.length + 8) ++ (beBytes 2 (udpCk v6 src dst sport dport payload) ++ payload) := by
  unfold udpDatagram
  simp only [beBytes_mod, udpCk, udpSum, udpPseudo, udpHead, List.append_assoc]

theorem udpCk_spec (v6 : Bool) (src dst sport dport : Nat) (payload : Bytes) :
    0 < udpCk v6 src dst sport dport payload ∧ udpCk v6 src dst sport dport payload ≤ 65535 ∧
      (udpSum v6 src dst sport dport payload + udpCk v6 src dst sport dport payload) % 65535 = 0 := by
  have field := ckField_spec (udpSum v6 src dst sport dport payload)
  unfold udpCk
  split
  · omega
  · omega

theorem length_udpDatagram (v6 : Bool) (src dst sport dport : Nat) (payload : Bytes) :
    (udpDatagram v6 src dst sport dport payload).length = payload.length + 8 := by
  rw [udpDatagram_eq, List.length_append, List.length_append, length_udpHead, length_beBytes]
  omega

/-- The checksum stands behind ports and length. -/
theorem udpDatagram_ck (v6 : Bool) (src dst sport dport : Nat) (payload : Bytes) :
    fieldBE (udpDatagram v6 src dst sport dport payload) 6 2 = udpCk v6 src dst sport dport payload := by
  have bound := (udpCk_spec v6 src dst sport dport payload).2.1
  rw [udpDatagram_eq, fieldBE_append (length_udpHead _ _ _)]
  exact Nat.mod_eq_of_lt (by omega)

theorem udpDatagram_sumOk (v6 : Bool) (src dst sport dport : Nat) (payload : Bytes) :
    udpSumOk v6 src dst (udpDatagram v6 src dst sport dport payload) = true := by
  obtain ⟨some, bound, whole⟩ := udpCk_spec v6 src dst sport dport payload
  have even : (udpPseudo v6 src dst (payload.length + 8) ++ udpHead sport dport (payload.length + 8)).length % 2 = 0 := by
    rw [List.length_append, length_udpHead]
    have := length_udpPseudo v6 src dst (payload.length + 8)
    omega
  have sum : sum16 (udpPseudo v6 src dst (payload.length + 8) ++ udpDatagram v6 src dst sport dport payload) =
      udpSum v6 src dst sport dport payload + udpCk v6 src dst sport dport payload := by
    rw [udpDatagram_eq, ← List.append_assoc, sum16_field _ _ even, udpSum, Nat.mod_eq_of_lt (by omega)]
  unfold udpSumOk
  simp only [udpDatagram_ck, if_neg some.ne', length_udpDatagram]
  refine (sumOk_iff _).mpr ?_
  show 0 < sum16 (udpPseudo v6 src dst (payload.length + 8) ++ _) ∧ sum16 (udpPseudo v6 src dst (payload.length + 8) ++ _) % 65535 = 0
  rw [sum]
  exact ⟨by omega, whole⟩

theorem udpDatagram_fields (v6 : Bool) (src dst sport dport : Nat) (payload : Bytes) :
    fieldBE (udpDatagram v6 src dst sport dport payload) 0 2 = sport % 65536 ∧
    fieldBE (udpDatagram v6 src dst sport dport payload) 2 2 = dport % 65536 ∧
    (udpDatagram v6 src dst sport dport payload).drop 8 = payload := by
  rw [udpDatagram_eq]
  refine ⟨?_, ?_, ?_⟩
  · simp only [udpHead, List.append_assoc]
    exact fieldBE_prefix _ _ _
  · simp only [udpHead, List.append_assoc]
    exact fieldBE_append (length_beBytes 2 sport)
  · rw [← List.append_assoc]
    exact List.drop_left' (by rw [List.length_append, length_udpHead, length_beBytes])

/-- The header of an IPv4 packet before its checksum: DF is set, DSCP and ECN are 0. -/
def ipHead (u : Bytes) : Bytes :=
  [0x45, 0] ++ beBytes 2 (20 + u.length) ++ beBytes 2 (Config.ipId u).toNat ++ [0x40, 0, Config.ttl, 17]

/-- The addresses of an IPv4 packet. -/
def ipEnds (src dst : Nat) : Bytes := beBytes 4 (src % 2 ^ 32) ++ beBytes 4 (dst % 2 ^ 32)

@[simp] theorem length_ipHead (u : Bytes) : (ipHead u).length = 10 := by simp [ipHead]
@[simp] theorem length_ipEnds (src dst : Nat) : (ipEnds src dst).length = 8 := by simp [ipEnds]

theorem ipPacket_v4 (src dst : Nat) (u : Bytes) :
    ipPacket false src dst u = (ipHead u ++ (beBytes 2 (ckField (sum16 (ipHead u ++ ipEnds src dst))) ++ ipEnds src dst)) ++ u := by
  simp only [ipPacket, Bool.false_eq_true, if_false, ipHead, ipEnds, List.append_assoc]

theorem ipPacket_v4_spec (src dst : Nat) (u : Bytes) :
    (ipPacket false src dst u).take 2 = [0x45, 0] ∧ ((ipPacket false src dst u).drop 6).take 2 = [0x40, 0] ∧
      sumOk ((ipPacket false src dst u).take 20) = true ∧ (ipPacket false src dst u).drop 20 = u := by
  have length : (ipHead u ++ (beBytes 2 (ckField (sum16 (ipHead u ++ ipEnds src dst))) ++ ipEnds src dst)).length = 20 := by simp
  refine ⟨?_, ?_, ?_, ?_⟩
  · simp [ipPacket_v4, ipHead]
  · rw [ipPacket_v4, List.append_assoc, ipHead, List.append_assoc]
    rw [List.drop_left' (by simp)]
    rfl
  · obtain ⟨bound, some, whole⟩ := ckField_spec (sum16 (ipHead u ++ ipEnds src dst))
    have zero : sum16 (ipHead u ++ ([0, 0] ++ ipEnds src dst)) = sum16 (ipHead u ++ ipEnds src dst) := by
      rw [sum16_append (a := ipHead u) _ (by simp), sum16_append (a := ipHead u) _ (by simp), sum16_append (a := [0, 0]) _ (by rfl)]
      exact congrArg _ (Nat.zero_add _)
    rw [ipPacket_v4, List.take_left' length, sumOk_iff, sum16_field _ _ (by simp), zero, Nat.mod_eq_of_lt (by omega)]
    exact ⟨some, whole⟩
  · rw [ipPacket_v4, List.drop_left' length]

theorem ipPacket_v6_spec (src dst : Nat) (u : Bytes) :
    fieldBE (ipPacket true src dst u) 0 4 / 2 ^ 20 = 0x600 ∧ (ipPacket true src dst u).drop 40 = u := by
  have label := Config.flowLabel.isLt
  constructor
  · simp only [ipPacket, if_true, List.append_assoc]
    rw [fieldBE_prefix]
    omega
  · simp only [ipPacket, if_true]
    exact List.drop_left' (by simp)

end Sys2Proof.Machine
end

section
namespace Sys2Proof
open Machine

/-- Settles O36: each command by the branches of its meaning; what sending leaves (`Dev.Sent`) gives the pauses, the links and the copies that
wait, and the sum of 16-bit words is additive over even parts. -/
theorem hostPorts : Obligations.HostPorts := by
  unfold Obligations.HostPorts
  refine ⟨?frames, ?payloads, ?pauses, ?addresses, ?links, ?naks, ?messages, ?packets⟩
  case frames =>
    intro q d o running n d1 et df
    refine ⟨fun down => frameReceive_down running down, fun up => ⟨fun long => ?_, fun fits tagged control full => ?_, fun fits unknown => ?_,
      fun fits v4 own => ?_⟩⟩
    · rw [← Dev.acceptFrame_of_long df n long]
      exact frameReceive_up running up
    · rw [← Dev.acceptFrame_of_full df n fits tagged control full]
      exact frameReceive_up running up
    · rw [← Dev.acceptFrame_of_unknown df n fits unknown]
      exact frameReceive_up running up
    · intro b len u m src p slot whole ihl unsplit udp long some all noPtp port noSum owned
      rw [← Dev.acceptIp_of_udp (ipParse_of_udp whole ihl unsplit udp long) some all noPtp port noSum owned, ← decide_eq_true own,
        ← Dev.acceptFrame_of_ipv4 df n fits v4]
      exact frameReceive_up running up
  case payloads =>
    intro d n p slot pcp v6 src b hn hp hslot hpcp t m drop known header
    have port : (Fin.ofNat 2 n).val = n := Nat.mod_eq_of_lt hn
    have pav : (Fin.ofNat 64 p).val = p := Nat.mod_eq_of_lt hp
    refine ⟨Dev.acceptUdp_of_bad d n p slot pcp v6 src, fun serving good stream prio noOpen => ?_⟩
    have accepted : t = d.acceptMsg (rxOf d n p slot pcp src b) b v6 := Dev.acceptUdp_of_good serving good stream prio noOpen
    rw [accepted]
    refine ⟨fun unknown => (Dev.acceptMsg_of_unknown unknown).trans (by rw [rxOf, port]), fun s found => ⟨fun apart => ?_, ?_⟩⟩
    · exact (Dev.acceptMsg_of_apart found (by rw [rxOf, pav]; exact apart)).trans (by rw [rxOf, port])
    · intro samePav awake version clear noDict counter k proves
      have serves : ¬ (s.pav ≠ (Fin.ofNat 64 p).val ∨ s.st = .suspended ∨ s.ipv6 ≠ v6) := by
        rw [pav]
        exact fun apart => apart.elim (· samePav) (·.elim awake (· version))
      refine ⟨fun proved badShape => ?_, fun proved shape => ?_, fun bad single live named fresh => ?_⟩
      · rw [Dev.acceptMsg_of_proved good found serves clear proved noDict counter, badShape, port]
        rfl
      · rw [Dev.acceptMsg_of_proved good found serves clear proved noDict counter, shape, if_pos rfl]
        exact ⟨_, Dev.enqueue_rx _ _, rfl, port, pav, Nat.mod_eq_of_lt hslot, Nat.mod_eq_of_lt hpcp, rfl, rfl, Dev.enqueue_apart _ _⟩
      · rw [Dev.acceptMsg_of_damaged good found serves clear bad single live named fresh, port]
  case pauses =>
    intro q d o running up
    refine ⟨_, pfcFrame_answers running up, fun k => ?_⟩
    rw [(Dev.Sent.refl _).releasePaused.paused]
    exact Dev.pauses_get o d k le_rfl
  case addresses =>
    intro q d o running up started n vid tag
    refine ⟨fun p k owned => answers_of_act _ (exec_arpRequest o _) running ?_, fun unowned => answers_of_act _ (exec_arpRequest o _) running ?_,
      fun p k owned => answers_of_act _ (exec_neighbourSolicitation o _) running ?_,
      fun unowned => answers_of_act _ (exec_neighbourSolicitation o _) running ?_⟩
    · exact Dev.resolve_of_owned up started (fun _ => rfl) owned
    · exact Dev.resolve_of_unowned unowned
    · exact Dev.resolve_of_owned up started (fun _ => rfl) owned
    · exact Dev.resolve_of_unowned unowned
  case links =>
    intro q d o running n d1
    refine ⟨fun enabled training => ⟨_, portLinkUp_answers running enabled training, Dev.portRises_status _ o.port.isLt⟩,
      fun other => portLinkUp_stays running other, fun up => ⟨_, portLinkDown_answers running up, ?_, Dev.portDown_held _ (by decide) o.port.isLt⟩,
      fun down => portLinkDown_stays running down⟩
    rw [Dev.rd_portDown _ (o.port.isLt.trans (by decide)), if_pos rfl]
  case naks =>
    intro q d o since running d1 e runs d2
    refine ⟨fun early => twinNakTimer_early running runs early, fun s due found => ⟨fun arrived => ?_, fun missing => ?_⟩⟩
    · have answers := twinNakTimer_due (q := q) running runs due found
      rw [if_pos arrived] at answers
      exact answers
    · have answers := twinNakTimer_due (q := q) running runs due found
      rw [if_neg (by rw [missing]; decide)] at answers
      exact answers
  case messages =>
    intro d s type seq flags payload found counters awake single other low unpaused t ctl a
    refine ⟨fun up dst slot place valid version => ?_, fun down => Dev.sendMsg_of_no_port found counters (Dev.sendPorts_of_down single down),
      fun dst slot place unserved => Dev.sendMsg_of_no_port found counters (Dev.sendPorts_of_unserved single place ?_)⟩
    · have serves : (d.hostAddr s.pav s.port slot).serves s.ipv6 = true := by
        rw [HostAddr.serves, Bool.and_eq_true, beq_iff_eq]
        exact ⟨valid, version⟩
      have sends : t = (d.counted s).launchAt s { session := s.id, port := s.port, type := type, flags := flags, seq := seq, payload := payload }
          s.txIv :=
        (Dev.sendMsg_of_port found counters awake (Dev.sendPorts_of_served single up place serves) unpaused).trans
          (Dev.launch_of_counters found counters other)
      rw [sends]
      obtain ⟨out, sess, apart⟩ := Dev.launchAt_spec
        (h := { session := s.id, port := s.port, type := type, flags := flags, seq := seq, payload := payload }) found single up place
      refine ⟨_, _, out, rfl, rfl, rfl, rfl, ?_, rfl, sess, rfl, apart⟩
      rw [← version]
      rfl
    · rw [HostAddr.serves, Bool.and_eq_false_iff, beq_eq_false_iff_ne]
      exact unserved
  case packets =>
    intro v6 src dst sport dport payload u
    refine ⟨⟨udpDatagram_sumOk .., ?_, udpDatagram_fields ..⟩, ipPacket_v4_spec .., ipPacket_v6_spec ..⟩
    rw [udpDatagram_ck]
    exact (udpCk_spec ..).1.ne'

end Sys2Proof
end

section
/-! PROOFS. What the accesses of device agents leave as it was: everything but the memory system, and of the values those of no tally. -/

namespace Sys2Proof.Machine

/-! ## Tallies -/

/-- An entry that an access may count in: its subindex is neither WAY_LOCK's nor one of the inbound ring's. -/
abbrev Entry.Tallies (e : Entry) : Prop := e.sub < 256 ∧ e.sub ≠ 0x03 ∧ e.sub ∉ [0x20, 0x21, 0x22, 0x23, 0x24, 0x25]

/-- An entry whose value no access changes. -/
abbrev Entry.Stays (e : Entry) : Prop := e.sub < 256 ∧ ¬ e.Tallies

theorem Entry.Stays.key_ne {e k : Entry} (he : e.Tallies) (hk : k.Stays) {i p j r : Nat} (hp : p < 64) (hr : r < 64) : k.key j r ≠ e.key i p := by
  intro same
  have sub : e.sub = k.sub := by
    have keys := congrArg (· / 64) same
    simp only [Entry.key_div _ _ hp, Entry.key_div _ _ hr] at keys
    obtain ⟨tally, -⟩ := he
    obtain ⟨kept, -⟩ := hk
    omega
  exact hk.2 ⟨hk.1, sub ▸ he.2⟩

/-! ## Accesses -/

/-- From `d` to `t` device agents have accessed memory for pavilion `pv`: caches, directories, banks and messages have changed, cores may have
lost lines, and tallies count on. `Dev.Traffic` is about fewer steps but names no tally. -/
inductive Dev.Accessed (pv : Nat) (d : Dev) : Dev → Prop
  | refl : Accessed pv d d
  | onMem {t : Dev} (h : Accessed pv d t) (f : Mem → Mem) : Accessed pv d (t.onMem f)
  | onCore {t : Dev} (h : Accessed pv d t) (c : Nat) (f : Core → Core) : Accessed pv d (t.onCore c f)
  | setBank {t : Dev} (h : Accessed pv d t) (b : Nat) (x : BankSt) : Accessed pv d (t.setBank b x)
  | draw {t : Dev} (h : Accessed pv d t) : Accessed pv d t.draw.2
  | bump {t : Dev} (h : Accessed pv d t) {e : Entry} (he : e.Tallies) (i : Nat) {p : Nat} (hp : p = 0 ∨ p = pv) (n : Nat) :
    Accessed pv d (t.bump e i p n)

namespace Dev.Accessed

variable {pv : Nat} {d0 d : Dev}

theorem count (h : Accessed pv d0 d) {e : Entry} (he : e.Tallies) (i n : Nat) : Accessed pv d0 (d.bump e i 0 n) := h.bump he i (.inl rfl) n

theorem ite (c : Prop) [Decidable c] {a b : Dev} (ha : Accessed pv d0 a) (hb : Accessed pv d0 b) : Accessed pv d0 (if c then a else b) := by
  split
  · exact ha
  · exact hb

theorem foldl {β : Type} {f : Dev → β → Dev} (h : Accessed pv d0 d) (hf : ∀ d b, Accessed pv d0 d → Accessed pv d0 (f d b)) (l : List β) :
    Accessed pv d0 (l.foldl f d) := foldl_keeps (P := Accessed pv d0) f hf l h

/-! ### Caches, directories and messages -/

theorem send (h : Accessed pv d0 d) (m : CohMsg) : Accessed pv d0 (d.send m) := h.onMem _
theorem putMemLine (h : Accessed pv d0 d) (a : Nat) (l : Line) : Accessed pv d0 (d.putMemLine a l) :=
  h.onMem fun x => { x with main := x.main.putLine a l }
theorem setDir (h : Accessed pv d0 d) (k : Nat) (e : DirEntry) : Accessed pv d0 (d.setDir k e) := h.onMem _
theorem setL2 (h : Accessed pv d0 d) (k : Nat) (l : L2Line) : Accessed pv d0 (d.setL2 k l) := h.onMem _
theorem takeWback (h : Accessed pv d0 d) (a i : Nat) : Accessed pv d0 (d.takeWback a i) := h.onMem _
theorem openTxn (h : Accessed pv d0 d) (m : CohMsg) (w : List Nat) (f : Option Nat) : Accessed pv d0 (d.openTxn m w f) := h.onMem _
theorem mapOut (h : Accessed pv d0 d) (a p l : Nat) (f : Outstanding → Outstanding) : Accessed pv d0 (d.mapOut a p l f) := h.onMem _
theorem forgetPast (h : Accessed pv d0 d) (p a b : Nat) : Accessed pv d0 (d.forgetPast p a b) := h.onMem _

theorem note (h : Accessed pv d0 d) (p l : Nat) (a b : Line) : Accessed pv d0 (d.note p l a b) := h.ite _ (h.onMem _)

theorem dropL1 (h : Accessed pv d0 d) (c l : Nat) (s : BitVec 17) (k : Nat) : Accessed pv d0 (d.dropL1 c l s k) :=
  h.foldl (fun _ _ h => ite _ (h.onCore _ _) h) _

theorem setHeld (h : Accessed pv d0 d) (a : Nat) (l : L2Line) : Accessed pv d0 (d.setHeld a l) := by
  refine ite _ ?_ (h.onMem _)
  split
  · exact (ite _ (h.dropL1 _ _ _ _) h).setL2 _ _
  · exact h

theorem l2Victim (n : Nat) (h : Accessed pv d0 d) (b : Nat) (w : List Nat) : Accessed pv d0 (l2Victim n d b w).2 := by
  fun_induction Machine.l2Victim n d b w with
  | case1 => exact h
  | case2 => exact h
  | case3 _ _ _ ih => exact ih (h.foldl (fun _ _ h => h.setL2 _ _) _)

theorem homeWb (h : Accessed pv d0 d) (m : CohMsg) : Accessed pv d0 (d.homeWb m) := by
  have discard := fun id => ((h.count (e := R.coh_CROSSED_WB) (by decide) 0 1).onMem fun x =>
    { x with servedWb := x.servedWb.filter (· ≠ id) }).send
      { kind := .wback, agent := m.agent, pav := m.pav, line := m.line, wbId := some id }
  unfold Dev.homeWb
  dsimp only
  split
  · exact discard _
  · split
    · exact discard _
    · exact ite _ (((h.putMemLine _ _).setDir _ _).send _) (discard _)

theorem sendWb (h : Accessed pv d0 d) (a : Nat) (l : L2Line) : Accessed pv d0 (d.sendWb a l) :=
  (ite _ ((h.onMem _).count (by decide) _ _) (h.onMem _)).send _

theorem wbRoom (h : Accessed pv d0 d) (a : Nat) : Accessed pv d0 (d.wbRoom a) := by
  refine ite _ h ?_
  split
  · exact h
  · exact (((h.onMem _).homeWb _).onMem _).takeWback _ _

theorem evict (h : Accessed pv d0 d) (c k : Nat) : Accessed pv d0 (d.evict c k) :=
  have h := (h.dropL1 c (d.l2At k).line (d.l2At k).slots 0xFFFF).setL2 k {}
  ite _ ((h.wbRoom c).sendWb c _) h

theorem install (h : Accessed pv d0 d) (a p l : Nat) (st : LState) (x : Line) (s : Bool) : Accessed pv d0 (d.install a p l st x s) := by
  refine ite _ ?_ (h.setHeld _ _)
  split
  · exact h.setL2 _ _
  · have victim := l2Victim 4 h (l2SetKey a l) (d.l2Ways a p l)
    dsimp only
    split
    · rename_i he
      rw [he] at victim
      exact victim
    · rename_i w d he
      rw [he] at victim
      have evicted := ite ((d.l2At (l2SetKey a l + w)).st = .i) victim (evict victim a (l2SetKey a l + w))
      exact (ite _ (evicted.count (by decide) _ _) evicted).setL2 _ _

theorem dirWay (h : Accessed pv d0 d) {p a k : Nat} {t : Dev} (ht : d.dirWay p a = some (k, t)) : Accessed pv d0 t := by
  unfold Dev.dirWay at ht
  dsimp only at ht
  split at ht
  · cases ht; exact h
  · split at ht
    · cases ht; exact h
    · obtain ⟨k, -, hk⟩ := Option.map_eq_some_iff.mp ht
      cases hk
      exact h.foldl (fun _ _ h => ite _ h (h.setDir _ _)) _

theorem turnAway (h : Accessed pv d0 d) (m : CohMsg) : Accessed pv d0 (d.turnAway m) :=
  have h := fun f => (h.count (e := R.coh_PIN_WAITS) (by decide) 0 1).onMem f
  ite _ (((h _).count (by decide) _ _).onMem _) (h _)

theorem finishTxn (h : Accessed pv d0 d) (t : Txn) : Accessed pv d0 (d.finishTxn t) := by
  unfold Dev.finishTxn
  refine ite _ ?_ (ite _ (h.send _) ?_)
  · have counted := fun f => (h.onMem f).count (e := R.coh_DIR_EVICTIONS) (by decide) 0 1
    refine onMem ?_ _
    split
    · exact (counted _).setDir _ _
    · exact counted _
  · split
    · exact h.onMem _
    · dsimp only
      split
      · exact h.onMem _
      · have closed := fun f => h.onMem f
        exact ite _ (ite _ (((closed _).setDir _ _).send _) ((closed _).setDir _ _))
          (((((closed _).setDir _ _).note _ _ _ _).putMemLine _ _).send _)

theorem dirEvict (h : Accessed pv d0 d) (k : Nat) (m : CohMsg) : Accessed pv d0 (d.dirEvict k m) := by
  unfold Dev.dirEvict
  dsimp only
  split
  · exact ((h.count (by decide) _ _).setDir _ _).onMem _
  · have opened := fun e f => (h.setDir k e).onMem f
    exact ite _ ((opened _ _).finishTxn _) ((opened _ _).foldl (fun _ _ h => h.send _) _)

/-! ### The home, snoops and answers -/

theorem snoops {f : Nat → CohMsg} (h : Accessed pv d0 d) (l : List Nat) : Accessed pv d0 (l.foldl (fun d n => d.send (f n)) d) :=
  h.foldl (fun _ _ h => h.send _) l

theorem homeServe (h : Accessed pv d0 d) (m : CohMsg) : Accessed pv d0 (d.homeServe m) := by
  unfold Dev.homeServe
  dsimp only
  split
  · exact h
  · refine ite _ (h.homeWb m) (ite _ (h.turnAway m) ?_)
    have opened := h.onMem fun x => { x with bellows := x.bellows.filter fun b => b ≠ (m.agent, m.pav, m.line) }
    split
    · exact opened.turnAway m
    · rename_i k t hslot
      have h : Accessed pv d0 t := by
        split at hslot
        · cases hslot; exact opened
        · split at hslot
          · exact opened.dirWay hslot
          · cases hslot; exact opened
      have pinned := fun e w f => (h.setDir k e).openTxn m w f
      refine ite _ (h.dirEvict k m) ?_
      split
      case h_1 =>
        split
        · exact ((pinned _ _ _).send _).finishTxn _
        · exact ((pinned _ _ _).send _).finishTxn _
        · exact (pinned _ _ _).send _
        · exact (pinned _ _ _).send _
      case h_2 | h_3 =>
        split
        · exact ((pinned _ _ _).send _).finishTxn _
        · have asked := fun e w f (x : CohMsg) g (l : List Nat) => snoops (f := g) ((pinned e w f).send x) l
          exact ite _ ((asked _ _ _ _ _ _).finishTxn _) (asked _ _ _ _ _ _)
        · have asked := fun e w f c [Decidable c] (x : CohMsg) g (l : List Nat) => snoops (f := g) (ite c ((pinned e w f).send x) (pinned e w f)) l
          exact ite _ ((asked _ _ _ _ _ _ _).finishTxn _) (asked _ _ _ _ _ _ _)
        · exact (pinned _ _ _).send _
      case h_4 =>
        split
        · exact (pinned _ _ _).send _
        · exact h.send _
      case h_5 | h_6 =>
        exact ite _ ((((ite _ h (h.setDir _ _)).note _ _ _ _).putMemLine _ _).send _) (snoops (pinned _ _ _) _)
      case h_7 => exact h.homeWb m
      case h_8 => exact h

theorem answerSnoop (h : Accessed pv d0 d) (m : CohMsg) : Accessed pv d0 (d.answerSnoop m) := by
  unfold Dev.answerSnoop
  dsimp only
  split
  · split
    · exact ((h.setHeld _ _).send _).send _
    · exact ((h.setHeld _ _).send _).send _
    · exact h.send _
  · split
    · exact (h.send _).send _
    · exact h.send _
  · split
    · exact ite _ (((h.setHeld _ _).send _).send _) ((h.setHeld _ _).send _)
    · exact ite _ (((h.setHeld _ _).send _).send _) ((h.setHeld _ _).send _)
    · exact ite _ (((h.setHeld _ _).send _).send _) ((h.setHeld _ _).send _)
    · exact (h.setHeld _ _).send _
  · exact h.setHeld _ _
  · exact h
  · split
    · exact ite _ (h.send _) ((h.send _).send _)
    · exact h.send _
  · exact h

theorem closed {c : Prop} [Decidable c] (h : Accessed pv d0 d) (f : Mem → Mem) (t : Txn) :
    Accessed pv d0 (if c then (d.onMem f).finishTxn t else d.onMem f) := ite c ((h.onMem f).finishTxn t) (h.onMem f)

theorem answerTxn (h : Accessed pv d0 d) (m : CohMsg) (t : Txn) : Accessed pv d0 (d.answerTxn m t) := by
  unfold Dev.answerTxn
  split
  · exact h
  · dsimp only
    generalize m.payload = p
    generalize m.wbId = w
    rcases p with _ | l <;> rcases w with _ | i
    all_goals
      refine closed (ite _ ?_ ?_) _ _
      · split
        · refine ite _ (setDir ?_ _ _) ?_
          all_goals apply_rules [onMem, putMemLine]
        · apply_rules [onMem, putMemLine]
      · split
        · apply_rules [onMem, putMemLine]
        · refine ite _ (ite _ (send (setDir ?_ _ _) _) (ite _ (send (setDir ?_ _ _) _) (send (setDir ?_ _ _) _))) (send ?_ _)
          all_goals apply_rules [onMem, putMemLine]

theorem takeAnswer (h : Accessed pv d0 d) (m : CohMsg) : Accessed pv d0 (d.takeAnswer m) := by
  have counted := ite (m.kind = .np) (h.count (e := R.coh_STALE_SNOOPS) (by decide) 0 1) h
  refine ite _ ((h.count (by decide) _ _).onMem _) ?_
  dsimp only
  split
  · exact counted
  · exact counted.answerTxn _ _

theorem tryDone (h : Accessed pv d0 d) (a p l : Nat) : Accessed pv d0 (d.tryDone a p l) := by
  unfold Dev.tryDone
  split
  · exact ite _ ((h.onMem _).send _) h
  · exact h

theorem takeData (h : Accessed pv d0 d) (m : CohMsg) : Accessed pv d0 (d.takeData m) := by
  refine ite _ (h.onMem _) (tryDone (mapOut ?_ _ _ _ _) _ _ _)
  split
  · exact h.install _ _ _ _ _ _
  · split
    · exact h.setHeld _ _
    · exact h

theorem deliver (h : Accessed pv d0 d) (m : CohMsg) : Accessed pv d0 (d.deliver m) := by
  unfold Dev.deliver
  split
  case h_17 =>
    split
    · exact h
    · dsimp only
      split
      · exact (h.onMem _).setDir _ _
      · exact h.onMem _
  all_goals apply_rules [homeServe, answerSnoop, takeData, takeAnswer, mapOut, tryDone, takeWback]

theorem take (h : Accessed pv d0 d) (m : CohMsg) : Accessed pv d0 (d.take m) := (h.onMem _).deliver m

/-! ### A line settled -/

theorem settleLine (n : Nat) (h : Accessed pv d0 d) (p l : Nat) : Accessed pv d0 (settleLine n d p l) := by
  induction n generalizing d with
  | zero => exact h
  | succ n ih =>
    unfold Machine.settleLine
    split
    · exact ih (h.take _)
    · split
      · exact h
      · split
        · exact ih (h.take _)
        · exact ih ((h.onMem _).deliver _)

theorem settle (h : Accessed pv d0 d) (p l : Nat) : Accessed pv d0 (d.settle p l) := settleLine _ h p l

theorem settleData (n : Nat) (h : Accessed pv d0 d) (a p l : Nat) : Accessed pv d0 (settleData n d a p l) := by
  induction n generalizing d with
  | zero => exact h
  | succ n ih =>
    unfold Machine.settleData
    refine ite _ h ?_
    split
    · exact ih (h.take _)
    · exact h.settle p l

theorem requestOwned (h : Accessed pv d0 d) (m : CohMsg) : Accessed pv d0 (d.requestOwned m) :=
  have h := fun f => settleData settleFuel (((h.settle m.pav m.line).onMem f).send m) m.agent m.pav m.line
  ite _ (h _) ((h _).settle _ _)

theorem request (h : Accessed pv d0 d) (m : CohMsg) : Accessed pv d0 (d.request m) :=
  have h := h.settle m.pav m.line
  ((ite _ (h.onMem _) h).send m).settle _ _

theorem obtainOwned (h : Accessed pv d0 d) (a p l : Nat) (s : Bool) : Accessed pv d0 (d.obtainOwned a p l s) := by
  have h := h.settle p l
  unfold Dev.obtainOwned
  dsimp only
  split
  · exact h
  · exact h
  · exact h.requestOwned _
  · exact h.requestOwned _

/-! ### Stores performed -/

theorem bankCleared (h : Accessed pv d0 d) (b : Nat) : Accessed pv d0 (d.bankCleared b) := by
  unfold Dev.bankCleared
  split
  · exact ((h.onMem _).setBank _ _).count (by decide) _ _
  · exact h

theorem awaitBanks (h : Accessed pv d0 d) (l : Nat) : Accessed pv d0 (d.awaitBanks l) :=
  h.foldl (fun d i h => by
    split
    · exact h.bankCleared _
    · exact h) _

theorem spadWrite (h : Accessed pv d0 d) (p l : Nat) (m : BitVec 64) (x : BitVec 512) (t : BitVec 4) :
    Accessed pv d0 (d.spadWrite p l m x t) := by
  unfold Dev.spadWrite
  exact ((h.awaitBanks l).note _ _ _ _).onMem _

theorem winWrite (h : Accessed pv d0 d) (w p l : Nat) (m : BitVec 64) (x : BitVec 512) : Accessed pv d0 (d.winWrite w p l m x) := by
  unfold Dev.winWrite
  exact (h.note _ _ _ _).onMem _
/-! ### Device agents -/

theorem obtainShared (h : Accessed pv d0 d) (a p l : Nat) (s : Bool) : Accessed pv d0 (d.obtainShared a p l s) :=
  have h := h.settle p l
  ite _ (h.request _) h

theorem writeHeld (h : Accessed pv d0 d) (a p l : Nat) (f : Line → Line) : Accessed pv d0 (d.writeHeld a p l f) := by
  unfold Dev.writeHeld
  split
  · exact (h.note _ _ _ _).setHeld _ _
  · exact h

theorem agentRead (h : Accessed pv d0 d) (a p l : Nat) : Accessed pv d0 (d.agentRead a p l).2 := by
  have h := h.obtainShared a p l false
  unfold Dev.agentRead
  dsimp only
  split
  · exact h.setHeld _ _
  · exact h

theorem agentWrite (h : Accessed pv d0 d) (a p l : Nat) (f : Line → Line) : Accessed pv d0 (d.agentWrite a p l f) := by
  have h := (h.obtainOwned a p l false).writeHeld a p l f
  unfold Dev.agentWrite
  dsimp only
  split
  · exact ((h.setHeld _ _).sendWb _ _).settle _ _
  · exact h

theorem dmaPort (h : Accessed pv d0 d) (l : Nat) (m : BitVec 64) : Accessed pv d0 (d.dmaPort l m) := by
  unfold Dev.dmaPort
  dsimp only
  split
  · exact h
  · exact h.draw.onMem _

theorem dmaDiscard (h : Accessed pv d0 d) (a l : Nat) (m : BitVec 64) : Accessed pv d0 (d.dmaDiscard a pv l m).2 := by
  unfold Dev.dmaDiscard
  split
  · exact h
  · refine h.foldl (fun d i h => ?_) _
    dsimp only
    split
    · exact ((h.onMem _).count (by decide) _ _).bump (by decide) _ (.inr rfl) _
    · exact h.onMem _

theorem devPiece (h : Accessed pv d0 d) (a p x n : Nat) : Accessed pv d0 (d.devPiece a p x n).2.2.2 := by
  unfold Dev.devPiece
  split
  · exact h.agentRead _ _ _
  · exact (h.awaitBanks _).dmaPort _ _
  · exact h

theorem devPieces (a p : Nat) (l : List (Nat × Nat)) (h : Accessed pv d0 d) (b : Bytes) (x : Bool) :
    Accessed pv d0 (devPieces a p l d b x).2.2 := by
  induction l generalizing d b x with
  | nil => exact h
  | cons e l ih => exact ih (h.devPiece _ _ _ _) _ _

theorem devRead (h : Accessed pv d0 d) (p x n : Nat) (a : Nat) : Accessed pv d0 (d.devRead p x n a).2.2 := devPieces _ _ _ h _ _

theorem devPut (h : Accessed pv d0 d) (a x : Nat) (b : Bytes) : Accessed pv d0 (d.devPut a pv x b) := by
  unfold Dev.devPut
  dsimp only
  split
  · exact h.agentWrite _ _ _ _
  · exact ((h.dmaDiscard _ _ _).dmaPort _ _).spadWrite _ _ _ _ _
  · exact h.winWrite _ _ _ _ _

theorem devPuts (a : Nat) (l : List (Nat × Nat)) (h : Accessed pv d0 d) (b : Bytes) : Accessed pv d0 (devPuts a pv l d b) := by
  induction l generalizing d b with
  | nil => exact h
  | cons e l ih => exact ih (h.devPut _ _ _) _

theorem devWrite (h : Accessed pv d0 d) (x : Nat) (b : Bytes) (a : Nat) : Accessed pv d0 (d.devWrite pv x b a) := devPuts _ _ h _

theorem flushWay (h : Accessed pv d0 d) (c k : Nat) (f : Nat → Bool) : Accessed pv d0 (d.flushWay c k f) :=
  h.foldl (fun _ _ h => ite _ (h.settle _ _) (((h.settle _ _).evict _ _).settle _ _)) _

/-! ### What follows -/

variable {t : Dev}

theorem rest (h : Accessed pv d t) : { t with mem := d.mem, cores := d.cores, dict := d.dict, fresh := d.fresh } = d := by
  induction h with
  | refl => rfl
  | onMem _ _ ih | onCore _ _ _ ih | setBank _ _ _ ih | draw _ ih | bump _ _ _ _ _ ih => exact ih

theorem net (h : Accessed pv d t) : t.net = d.net := (congrArg Dev.net h.rest :)
theorem plat (h : Accessed pv d t) : t.plat = d.plat := (congrArg Dev.plat h.rest :)
theorem time (h : Accessed pv d t) : t.time = d.time := (congrArg Dev.time h.rest :)

/-- The value of an entry that is no tally. -/
theorem rd (h : Accessed pv d t) (hpv : pv < 64) {e : Entry} (he : e.Stays) (i : Nat) {p : Nat} (hp : p < 64) : t.rd e i p = d.rd e i p := by
  induction h with
  | refl => rfl
  | @bump u _ k hk j r hr n ih =>
    have bound : r < 64 := by omega
    exact (Dev.rd_wr_ne _ _ (Entry.Stays.key_ne hk he bound hp)).trans ih
  | onMem _ _ ih | onCore _ _ _ ih | setBank _ _ _ ih | draw _ ih => exact ih

end Dev.Accessed

end Sys2Proof.Machine
end

section
/-! PROOFS. REQUEST: its repeats, its refusals and its journal record (R91, R98, R146). -/

namespace Sys2Proof.Machine

/-! ## Checks in their order -/

/-- The reason of the first of a list of checks that fails, 0 where none does. -/
theorem firstReason_of_checks {l : List (Bool × Nat)} (reasons : ∀ k ∈ l, k.2 ≠ 0) :
    firstReason (l.map fun k => refuse k.1 k.2) = ((l.find? fun k => !k.1).map (·.2)).getD 0 := by
  induction l with
  | nil => rfl
  | cons k l ih =>
    obtain ⟨reason, rest⟩ := List.forall_mem_cons.mp reasons
    obtain ⟨ok, n⟩ := k
    cases ok
    case false => simp [firstReason, refuse, show n ≠ 0 from reason]
    case true =>
      have tail : firstReason ((l.map fun k => refuse k.1 k.2)) = _ := ih rest
      simpa [firstReason, refuse] using tail

/-! ## REQUEST -/

theorem exec_request (o : Rx) (s : State) : exec (.request o) s = execRequest o s := rfl

section
variable {q : List Instr} {d d3 : Dev} {o : Rx} {s0 s : Session}

/-- A repeat gets its outcome again where it asks for it, unless its record is not complete. -/
theorem request_repeated {e : Nat × Nat} (running : d.thermalStop = false) (hears : d.Hears o 0x03 d3 s0)
    (found : (d3.acknowledge o.msg.session.toNat o.msg.ack []).sess o.msg.session.toNat = some s)
    (known : s.outcomes.find? (fun e => decide (e.1 = o.msg.seq)) = some e) :
    Answers (.request o) q d (if msgResend o.msg && !s.unaccepted o.msg.seq then
      (d3.acknowledge o.msg.session.toNat o.msg.ack []).sendOutcome o.msg.session.toNat o.msg.seq e.2 4
      else d3.acknowledge o.msg.session.toNat o.msg.ack []) := by
  refine answers_of_act _ (exec_request o _) running ((Dev.sessRx_of_hears _ hears).trans ((Dev.withSess_of_sess _ found).trans ?_))
  have turned (a b : Bool) : (!a || b) = true ↔ ¬ (a && !b) = true := by cases a <;> cases b <;> decide
  simp only [known]
  rw [if_congr (turned _ _) rfl rfl, ite_not]
  rfl

/-- A new sequence is below the window, or its REQUEST is judged. -/
theorem request_new (running : d.thermalStop = false) (hears : d.Hears o 0x03 d3 s0)
    (found : (d3.acknowledge o.msg.session.toNat o.msg.ack []).sess o.msg.session.toNat = some s)
    (new : s.outcomes.find? (fun e => decide (e.1 = o.msg.seq)) = none) :
    Answers (.request o) q d (if belowWindow s.outcomes s.floor o.msg.seq then
      (d3.acknowledge o.msg.session.toNat o.msg.ack []).sendNak o.msg.session.toNat o.msg.seq 2 false
      else (d3.acknowledge o.msg.session.toNat o.msg.ack []).newRequest o o.msg.session.toNat) := by
  refine answers_of_act _ (exec_request o _) running ((Dev.sessRx_of_hears _ hears).trans ((Dev.withSess_of_sess _ found).trans ?_))
  simp only [new]

end

/-- The checks of a new REQUEST, in R91's order. -/
def Dev.requestChecks (d : Dev) (s : Session) (seq n : Nat) : List (Bool × Nat) :=
  [(decide (d.rd R.pav_STATE s.pav ≠ 5), 0x0204), (decide (s.st = .open), 0x0203), (decide (seq ≤ s.limit), 0x0505),
    (decide (n ≤ fieldLE s.desc 8 2), 0x0105), (d.roomFor s.pav (64 + 16 * ceilDiv n 16), 0x0305)]

theorem Dev.requestChecks_reasons (d : Dev) (s : Session) (seq n : Nat) : ∀ k ∈ d.requestChecks s seq n, k.2 ≠ 0 := by
  simp [Dev.requestChecks]

theorem Dev.rejectReason_eq (d : Dev) (s : Session) (seq n : Nat) :
    d.rejectReason s seq n = (((d.requestChecks s seq n).find? fun k => !k.1).map (·.2)).getD 0 := by
  rw [← firstReason_of_checks (d.requestChecks_reasons s seq n)]
  have living : (!d.destroying s.pav) = decide (d.rd R.pav_STATE s.pav ≠ 5) := (decide_not (p := d.rd R.pav_STATE s.pav = 5)).symm
  simp only [Dev.rejectReason, Dev.requestChecks, living, List.map_cons, List.map_nil, cdMaxRequest]
  rfl

section
variable {d : Dev} {o : Rx} {s : Session}

/-- A new REQUEST that a check turns away gets the check's reason as its outcome, and a REJECT. -/
theorem Dev.newRequest_refused {b : Bool × Nat} (found : d.sess o.msg.session.toNat = some s)
    (fails : ((d.advanceTail s.pav).requestChecks s o.msg.seq o.msg.payload.length).find? (fun k => !k.1) = some b) :
    d.newRequest o o.msg.session.toNat = ((d.advanceTail s.pav).onSess o.msg.session.toNat fun x => (x.setOutcome o.msg.seq b.2).advance).sendMsg
      o.msg.session.toNat 0x05 o.msg.seq 0 (leBytes 2 b.2 ++ zeros 2) := by
  have reason : (d.advanceTail s.pav).rejectReason s o.msg.seq o.msg.payload.length = b.2 := by
    rw [Dev.rejectReason_eq, fails]
    rfl
  have some : b.2 ≠ 0 := Dev.requestChecks_reasons _ _ _ _ b (List.mem_of_find?_eq_some fails)
  unfold Dev.newRequest
  rw [Dev.withSess_of_sess _ found]
  simp only [reason, if_pos some, Dev.sendOutcome, if_neg some]

/-- The device with a REQUEST's record at the head of the ring. -/
def Dev.journaled (d : Dev) (o : Rx) (s : Session) (due fl : Nat) : Dev :=
  d.append s.pav (.req o.msg.session.toNat s.handle o.msg.seq o.t due fl o.msg.payload) false

/-- The request as the session holds it. -/
def heldReq (o : Rx) (due fl : Nat) : HostReq := { seq := o.msg.seq, arrival := o.t, due := due, rxflags := fl, payload := o.msg.payload }

/-- The session with a REQUEST accepted. -/
def Session.taking (s : Session) (o : Rx) (due fl : Nat) : Session :=
  { s.setOutcome o.msg.seq 0 with reqs := s.reqs ++ [heldReq o due fl] }

theorem Session.taking_id (s : Session) (o : Rx) (due fl : Nat) : (s.taking o due fl).id = s.id := by
  unfold Session.taking Session.setOutcome
  rfl

theorem Dev.newRequest_accepted (found : d.sess o.msg.session.toNat = some s)
    (passes : ((d.advanceTail s.pav).requestChecks s o.msg.seq o.msg.payload.length).find? (fun k => !k.1) = none) :
    let due := if cdTimed s.desc then o.t + fieldLE s.desc 0 4 else 0
    let fl := (if o.port.val = 1 then 1 else 0) ||| (if s.twin then 2 else 0) ||| (if o.msg.flags.getLsbD 0 then 4 else 0)
    d.newRequest o o.msg.session.toNat = ((d.advanceTail s.pav).journaled o s due fl).onSess o.msg.session.toNat
      (·.taking o due fl) := by
  have reason : (d.advanceTail s.pav).rejectReason s o.msg.seq o.msg.payload.length = 0 := by
    rw [Dev.rejectReason_eq, passes]
    rfl
  unfold Dev.newRequest
  rw [Dev.withSess_of_sess _ found]
  simp only [reason, ne_eq, not_true_eq_false, if_false]
  rfl

/-- A record is written behind the ring's others. -/
theorem Ring.push_recs (x : Ring) (r size : Nat) (b : RecBody) : (x.push r size b false false).recs = x.recs ++
    [{ body := b, complete := false, carried := false, off := x.head, lap := x.lap }] := rfl

theorem Dev.append_last (d : Dev) (r : Nat) (b : RecBody) : (((d.append r b false).hring r).recs.getLast?).map (·.body) = some b := by
  unfold Dev.append
  extract_lets x size y
  have ring : ((d.setRing r (y.push r size b false false)).bump R.hearth_BYTES_WRITTEN (n := b.length)).hring r = y.push r size b false false :=
    (d.hring_setRing r r _).trans (if_pos rfl)
  rw [ring, Ring.push_recs, List.getLast?_concat]
  rfl

theorem Dev.append_apart (d : Dev) (r : Nat) (b : RecBody) (x y : Bool) :
    { d.append r b x y with hearth := d.hearth, dict := d.dict } = d := rfl

/-- What the accepted REQUEST leaves: the request held, its record behind the ring's others, and nothing else changed. -/
theorem Dev.journaled_spec {e : Dev} {due fl : Nat} (found : e.sess o.msg.session.toNat = some s) :
    ((e.journaled o s due fl).onSess o.msg.session.toNat (·.taking o due fl)).sess o.msg.session.toNat = some (s.taking o due fl) ∧
      (((e.journaled o s due fl).onSess o.msg.session.toNat (·.taking o due fl)).hring s.pav).recs.getLast?.map (·.body) =
        some (.req o.msg.session.toNat s.handle o.msg.seq o.t due fl o.msg.payload) ∧
      { (e.journaled o s due fl).onSess o.msg.session.toNat (·.taking o due fl) with net := e.net, hearth := e.hearth, dict := e.dict } = e := by
  have named := (Dev.sess_eq_some found).2
  have net : (e.journaled o s due fl).net = e.net := (Dev.Rings.refl.append _ _ _ _).net
  refine ⟨?_, e.append_last s.pav _, ?_⟩
  · rw [← named] at found ⊢
    exact Dev.sess_onSess_self (f := (·.taking o due fl)) (by rw [Dev.sess, net]; exact found) (Session.taking_id · o due fl)
  · have apart : { e.journaled o s due fl with hearth := e.hearth, dict := e.dict } = e := e.append_apart _ _ _ _
    generalize e.journaled o s due fl = u at apart
    exact congrArg (fun t : Dev => { t with net := e.net }) apart

end

end Sys2Proof.Machine
end

section
/-! PROOFS. A request whose record is complete, and one that is sent again (R94, R102, R146). -/

namespace Sys2Proof.Machine

/-! ## The inbound ring and the sessions -/

theorem Dev.inFull_accessed (d : Dev) (p k : Nat) : Dev.Accessed p d (d.inFull p k).2 := by
  have read := (Dev.Accessed.refl (pv := p) (d := d)).devRead p (d.inEntry p k + 33) 1 hubAgent
  unfold Dev.inFull
  generalize d.devRead p (d.inEntry p k + 33) 1 = x at read ⊢
  exact read

theorem Dev.inFull_net (d : Dev) (p k : Nat) : (d.inFull p k).2.net = d.net := (d.inFull_accessed p k).net

namespace Dev.KeepsReqs

variable {d0 d : Dev}

theorem refl (d : Dev) : d.KeepsReqs d := of_sessions rfl

theorem inFull (h : d0.KeepsReqs d) (p k : Nat) : d0.KeepsReqs (d.inFull p k).2 := h.trans (of_sessions (by rw [Dev.inFull_net]))

theorem inRefresh (h : d0.KeepsReqs d) (p : Nat) : d0.KeepsReqs (d.inRefresh p) := by
  unfold Dev.inRefresh
  refine foldl_keeps (P := fun acc : Bool × Dev => d0.KeepsReqs acc.2) _ (fun acc e h => ?_) _ h
  have read : d0.KeepsReqs (acc.2.inFull p e.index).2 := inFull h p e.index
  split
  · exact h
  · generalize acc.2.inFull p e.index = x at read ⊢
    obtain ⟨full, t⟩ := x
    show d0.KeepsReqs (if full then (true, t) else (false, t.onNet fun n => { n with inRing := n.inRing.erase e })).2
    split
    · exact read
    · exact read.trans (of_sessions rfl)

theorem onSess (h : d0.KeepsReqs d) (id : Nat) {f : Session → Session} (hf : ∀ s, (f s).Goes s) : d0.KeepsReqs (d.onSess id f) := by
  refine h.trans (of_map (f := fun s => if s.id = id then f s else s) (fun s => ?_) rfl)
  split
  · exact hf s
  · exact .refl s

theorem devWrite (h : d0.KeepsReqs d) (p a : Nat) (b : Bytes) : d0.KeepsReqs (d.devWrite p a b) :=
  h.trans (of_sessions (by rw [(Dev.Accessed.refl.devWrite _ _ _).net]))

theorem placeNow (h : d0.KeepsReqs d) (q : Placing) : d0.KeepsReqs (d.placeNow q) := by
  unfold Dev.placeNow
  extract_lets p k a body d1 d2 d3
  have written : d0.KeepsReqs d2 := ((h.devWrite _ _ _).devWrite p a q.head).trans (of_sessions rfl)
  refine (written.trans (u := d3) (of_sessions rfl)).onSess _ fun s => ?_
  exact .of_map rfl (HostReq.goes_ite (fun x => x.seq = q.seq ∧ q.kind = 1) (g := fun x => { x with placed := true })
    fun _ => ⟨rfl, id, id, id⟩) rfl rfl

theorem placeOne (h : d0.KeepsReqs d) (p : Nat) : d0.KeepsReqs (d.placeOne p).2 := by
  unfold Dev.placeOne
  have read := (h.inRefresh p).inFull p (Table.get 0 (d.inRefresh p).net.inIndex p)
  extract_lets entries e used
  split
  · exact h
  · split
    next full t place =>
    rw [place] at read
    split
    · exact read
    · split
      · exact read
      · exact read.placeNow _

theorem placeLoop (n : Nat) (h : d0.KeepsReqs d) (p : Nat) : d0.KeepsReqs (placeLoop n d p) := by
  induction n generalizing d with
  | zero => exact h
  | succ n ih =>
    have placed := h.placeOne p
    unfold Machine.placeLoop
    split
    next more t place =>
    rw [place] at placed
    split
    · exact ih placed
    · exact placed

theorem enqueueIn (h : d0.KeepsReqs d) (q : Placing) : d0.KeepsReqs (d.enqueueIn q) :=
  have queued := h.trans (t := d) (u := d.onNet fun n => { n with inQ := n.inQ ++ [q] }) (of_sessions rfl)
  (queued.placeLoop _ _).trans (of_sessions rfl)

end Dev.KeepsReqs

/-! ## The record complete -/

theorem exec_reqRecordComplete (o : OpSeqT) (s : State) : exec (.reqRecordComplete o) s = execReqRecordComplete o s := rfl

theorem le_runUp (f : Nat → Bool) (k n : Nat) : n ≤ runUp f k n := by
  induction k generalizing n with
  | zero => exact le_rfl
  | succ k ih =>
    unfold runUp
    split
    · exact (Nat.le_succ n).trans (ih (n + 1))
    · exact le_rfl

/-- The session once the request's record is complete. -/
def Session.completed (s : Session) (d : Dev) (seq : Nat) : Session :=
  Session.advance { s with reqs := s.reqs.map fun r => if r.seq = seq then d.acceptReq r else r }

theorem HostReq.goes_acceptReq (d : Dev) : HostReq.Goes d.acceptReq := fun _ =>
  ⟨rfl, fun _ => rfl, fun h => Bool.or_eq_true_iff.mpr (.inl h), fun h => Bool.or_eq_true_iff.mpr (.inl h)⟩

theorem Session.completed_goes (s : Session) (d : Dev) (seq : Nat) : (s.completed d seq).Goes s :=
  ⟨rfl, ⟨_, HostReq.goes_ite (fun r => r.seq = seq) (HostReq.goes_acceptReq d), rfl⟩, le_runUp _ _ _⟩

/-- The request is accepted, marked where a coast or a deficit holds. -/
theorem Session.completed_accepts (s : Session) (d : Dev) {seq : Nat} {r : HostReq} (mem : r ∈ (s.completed d seq).reqs) (named : r.seq = seq) :
    r.accepted = true ∧ (d.plat.coast = true → r.unverified = true) ∧ (d.plat.deficit = true → r.inDeficit = true) := by
  obtain ⟨r0, -, rfl⟩ := List.mem_map.mp mem
  have here : r0.seq = seq := by
    split at named
    · assumption
    · exact named
  rw [if_pos here]
  exact ⟨rfl, fun h => Bool.or_eq_true_iff.mpr (.inr h), fun h => Bool.or_eq_true_iff.mpr (.inr h)⟩

/-- The device once the record is complete: the request is accepted and ACCEPT leaves. -/
def Dev.recordDone (d : Dev) (s : Session) (seq : Nat) : Dev :=
  let e := d.completeRec s.pav fun b => match b with
    | .req i _ q .. => decide (i = s.id) && decide (q = seq)
    | _ => false
  (e.onSess s.id fun s => s.completed e seq).sendOutcome s.id seq 0 0

theorem Dev.completeRec_parts (d : Dev) (r : Nat) (f : RecBody → Bool) : (d.completeRec r f).net = d.net ∧ (d.completeRec r f).plat = d.plat := by
  unfold Dev.completeRec
  dsimp only
  split
  · exact ⟨rfl, rfl⟩
  · exact ⟨rfl, rfl⟩

/-- The session that holds the request then: the marks are those of the device. -/
theorem Dev.recordDone_session {d : Dev} {s : Session} {seq : Nat} (found : d.sess s.id = some s) (held : s.reqs ≠ []) :
    ∃ y, (d.recordDone s seq).sess s.id = some y ∧ y.Goes (s.completed d seq) := by
  unfold Dev.recordDone
  extract_lets e
  have parts : e.net = d.net ∧ e.plat = d.plat := Dev.completeRec_parts _ _ _
  have same : (fun s : Session => s.completed e seq) = fun s => s.completed d seq := by
    funext s
    unfold Session.completed Dev.acceptReq
    rw [parts.2]
  have found' : (e.onSess s.id fun s => s.completed e seq).sess s.id = some (s.completed d seq) := by
    rw [same]
    exact Dev.sess_onSess_self (by rw [Dev.sess, parts.1]; exact found) fun _ => rfl
  exact ((Dev.Sent.refl _).sendMsg _ _ _ _ _).reqs _ _ found' ((s.completed_goes d seq).nonempty held)

/-- What the session of a completed request holds after its placing. -/
theorem Session.Goes.of_completed {y s : Session} {d : Dev} {seq : Nat} (goes : y.Goes (s.completed d seq)) :
    (∀ r ∈ y.reqs, r.seq = seq → r.accepted = true ∧ (d.plat.coast = true → r.unverified = true) ∧
      (d.plat.deficit = true → r.inDeficit = true)) ∧ y.reqs.map (·.seq) = s.reqs.map (·.seq) ∧ s.answered ≤ y.answered := by
  obtain ⟨-, ⟨g, hg, reqs⟩, answered⟩ := goes.trans (s.completed_goes d seq)
  refine ⟨fun r mem named => ?_, ?_, answered⟩
  · obtain ⟨-, ⟨g, hg, reqs⟩, -⟩ := goes
    rw [reqs] at mem
    obtain ⟨r0, mem0, rfl⟩ := List.mem_map.mp mem
    obtain ⟨seq0, accepted, unverified, inDeficit⟩ := hg r0
    obtain ⟨done, coast, deficit⟩ := s.completed_accepts d mem0 (seq0 ▸ named)
    exact ⟨accepted done, fun h => unverified (coast h), fun h => inDeficit (deficit h)⟩
  · rw [reqs, List.map_map]
    exact List.map_congr_left fun r _ => (hg r).1

/-- A request that waits for its record is one of the session's. -/
theorem Session.find_of_unaccepted {s : Session} {seq : Nat} (waits : s.unaccepted seq = true) :
    ∃ r, s.reqs.find? (fun r => decide (r.seq = seq)) = some r := by
  obtain ⟨r, mem, named⟩ := List.any_eq_true.mp waits
  exact Option.isSome_iff_exists.mp (List.find?_isSome.mpr ⟨r, mem, (Bool.and_eq_true_iff.mp named).1⟩)

section
variable {q : List Instr} {d : Dev} {o : OpSeqT} {s : Session}

theorem reqRecordComplete_answers {r : HostReq} (running : d.thermalStop = false) (found : (d.netAt o.t).sess o.session.toNat = some s)
    (waits : s.unaccepted o.seq = true) (request : s.reqs.find? (fun r => decide (r.seq = o.seq)) = some r) :
    Answers (.reqRecordComplete o) q d (((d.netAt o.t).recordDone s o.seq).enqueueIn (s.placing r 1)) := by
  refine answers_of_act _ (exec_reqRecordComplete o _) running ?_
  refine (Dev.withSess_of_sess _ found).trans ?_
  have id := (Dev.sess_eq_some found).2
  simp only [waits, Bool.not_true, Bool.false_eq_true, if_false, request, ← id]
  rfl

theorem reqRecordComplete_stays (running : d.thermalStop = false) (found : (d.netAt o.t).sess o.session.toNat = some s)
    (complete : s.unaccepted o.seq = false) : Answers (.reqRecordComplete o) q d (d.netAt o.t) := by
  refine answers_of_act _ (exec_reqRecordComplete o _) running ?_
  refine (Dev.withSess_of_sess _ found).trans ?_
  simp only [complete, Bool.not_false, if_true]

end

/-! ## A DELIVER sent again -/

theorem exec_deliverResend (o : OpSeqT) (s : State) : exec (.deliverResend o) s = execDeliverResend o s := rfl

section
variable {q : List Instr} {d : Dev} {o : OpSeqT} {s : Session} {r : HostReq} {b : Bytes × Nat}

theorem deliverResend_due (running : d.thermalStop = false) (found : (d.netAt o.t).sess o.session.toNat = some s)
    (request : s.reqs.find? (fun r => decide (r.seq = o.seq) && r.sent.isSome) = some r) (can : (d.netAt o.t).canSend s = true)
    (due : r.lastSent + r.interval ≤ (d.netAt o.t).time) : Answers (.deliverResend o) q d ((d.netAt o.t).resendDeliver o.session.toNat r
      (min (2 * r.interval) ((d.netAt o.t).rd R.amn_RESEND_CAP * 1000))) := by
  refine answers_of_act _ (exec_deliverResend o _) running ?_
  refine (Dev.withSess_of_sess _ found).trans ?_
  simp only [request, can, due, and_self, if_true]

theorem deliverResend_early (running : d.thermalStop = false) (found : (d.netAt o.t).sess o.session.toNat = some s)
    (request : s.reqs.find? (fun r => decide (r.seq = o.seq) && r.sent.isSome) = some r)
    (early : (d.netAt o.t).canSend s = false ∨ (d.netAt o.t).time < r.lastSent + r.interval) : Answers (.deliverResend o) q d (d.netAt o.t) := by
  have not : ¬ ((d.netAt o.t).canSend s = true ∧ r.lastSent + r.interval ≤ (d.netAt o.t).time) := fun ⟨can, due⟩ =>
    early.elim (fun no => by rw [no] at can; cases can) (Nat.not_lt.mpr due)
  refine answers_of_act _ (exec_deliverResend o _) running ?_
  refine (Dev.withSess_of_sess _ found).trans ?_
  simp only [request, if_neg not]

end

/-- A DELIVER leaves again with the flags of its first copy. -/
theorem Dev.resendDeliver_of_deliver (d : Dev) (id : Nat) {r : HostReq} {b : Bytes × Nat} (interval : Nat) (deliver : r.deliver = some b) :
    d.resendDeliver id r interval = (d.onSess id fun s => { s with reqs := s.reqs.map fun k =>
      if k.seq = r.seq then { k with lastSent := d.time, interval := interval } else k }).sendMsg id 0x06 r.seq (r.dflags ||| 4) b.1 := by
  unfold Dev.resendDeliver
  rw [deliver]
  rfl

end Sys2Proof.Machine
end

section
/-! PROOFS. ACK, NAK, CANCEL and credit (R94, R96, R97, R113). -/

namespace Sys2Proof.Machine

theorem exec_ack (o : Rx) (s : State) : exec (.ack o) s = execAck o s := rfl
theorem exec_nak (o : Rx) (s : State) : exec (.nak o) s = execNak o s := rfl
theorem exec_cancel (o : Rx) (s : State) : exec (.cancel o) s = execCancel o s := rfl
theorem exec_credit (o : OpSessT) (s : State) : exec (.credit o) s = execCredit o s := rfl

/-! ## ACK and NAK -/

section
variable {q : List Instr} {d d3 : Dev} {o : Rx} {s s' : Session}

theorem ack_answers (running : d.thermalStop = false) (hears : d.Hears o 0x07 d3 s) :
    Answers (.ack o) q d (if msgCtl o.msg then d3 else d3.acknowledge o.msg.session.toNat o.msg.ack (ackRanges o.msg.payload)) :=
  answers_of_act _ (exec_ack o _) running (Dev.sessRx_of_hears _ hears)

theorem nak_of_control (running : d.thermalStop = false) (hears : d.Hears o 0x08 d3 s) (control : ¬ o.msg.flags.getLsbD 3 = false) :
    Answers (.nak o) q d d3 := by
  refine answers_of_act _ (exec_nak o _) running ((Dev.sessRx_of_hears _ hears).trans ?_)
  exact if_pos (Bool.not_eq_false _ ▸ control : msgCtl o.msg = true)

/-- A NAK of the data stream acknowledges first, and a DELIVER that it asks for again leaves. -/
theorem nak_of_sent {r : HostReq} (running : d.thermalStop = false) (hears : d.Hears o 0x08 d3 s) (data : o.msg.flags.getLsbD 3 = false)
    (found : (d3.acknowledge o.msg.session.toNat o.msg.ack []).sess o.msg.session.toNat = some s')
    (request : s'.reqs.find? (fun r => decide (r.seq = o.msg.seq) && r.sent.isSome) = some r) (cause : fieldLE o.msg.payload 0 1 = 1)
    (can : (d3.acknowledge o.msg.session.toNat o.msg.ack []).canSend s' = true) :
    Answers (.nak o) q d ((d3.acknowledge o.msg.session.toNat o.msg.ack []).resendDeliver o.msg.session.toNat r r.interval) := by
  refine answers_of_act _ (exec_nak o _) running ((Dev.sessRx_of_hears _ hears).trans ?_)
  simp only [show msgCtl o.msg = false from data, Bool.false_eq_true, if_false]
  rw [Dev.withSess_of_sess _ found]
  simp only [request, cause, can, and_self, if_true]

theorem nak_of_unsent (running : d.thermalStop = false) (hears : d.Hears o 0x08 d3 s) (data : o.msg.flags.getLsbD 3 = false)
    (found : (d3.acknowledge o.msg.session.toNat o.msg.ack []).sess o.msg.session.toNat = some s')
    (request : s'.reqs.find? (fun r => decide (r.seq = o.msg.seq) && r.sent.isSome) = none) :
    Answers (.nak o) q d (d3.acknowledge o.msg.session.toNat o.msg.ack []) := by
  refine answers_of_act _ (exec_nak o _) running ((Dev.sessRx_of_hears _ hears).trans ?_)
  simp only [show msgCtl o.msg = false from data, Bool.false_eq_true, if_false]
  rw [Dev.withSess_of_sess _ found]
  simp only [request]

end

/-! ## CANCEL -/

/-- A CONTROL that its session may give is performed and answered. -/
theorem Dev.controlRx_of_own {d d3 : Dev} {o : Rx} {s : Session} {op : Nat} (f : Dev → Nat → Nat → Nat × Dev) (after : Dev → Nat → Nat → Dev)
    (named : fieldLE o.msg.payload 0 1 = op) (good : controlBad o.msg.payload = false) (own : fieldLE o.msg.payload 1 1 = 0)
    (hears : d.HearsNew o 0x0A d3 s) : d.controlRx o op f after =
      (let x := f d3 o.msg.session.toNat 0
       let t := x.2.answer o.msg.session.toNat o.msg.seq 0x0A 0 (controlPayload (op + 0x80) 0 x.1 (fieldLE o.msg.payload 8 8))
       if x.1 = 0 then after t o.msg.session.toNat 0 else t) := by
  have found : d3.sess o.msg.session.toNat = some s := by
    obtain ⟨⟨-, -, -, -, -, -, found⟩, -⟩ := hears
    exact found
  have performed : ¬ (fieldLE o.msg.payload 0 1 ≠ op ∨ controlBad o.msg.payload = true) := by
    simp [named, good]
  unfold Dev.controlRx
  rw [if_neg performed, Dev.ctlRx_of_hearsNew _ hears, Dev.withSess_of_sess _ found]
  simp only [own, Nat.zero_ne_one, false_and, if_false]

section
variable {q : List Instr} {d d3 : Dev} {o : Rx} {s : Session}

/-- CANCEL of a request that is accepted and not retired: a notice joins the queue. -/
theorem cancel_of_accepted {r : HostReq} (running : d.thermalStop = false) (hears : d.HearsNew o 0x0A d3 s) (named : fieldLE o.msg.payload 0 1 = 4)
    (own : fieldLE o.msg.payload 1 1 = 0) (good : controlBad o.msg.payload = false)
    (request : s.reqs.find? (fun r => decide (r.seq = fieldLE o.msg.payload 8 8) && r.accepted) = some r) :
    Answers (.cancel o) q d ((d3.enqueueIn (s.placing r 2)).answer o.msg.session.toNat o.msg.seq 0x0A 0
      (controlPayload 0x84 0 0 (fieldLE o.msg.payload 8 8))) := by
  obtain ⟨⟨-, -, -, -, -, -, found⟩, -⟩ := id hears
  refine answers_of_act _ (exec_cancel o _) running ((Dev.controlRx_of_own _ _ named good own hears).trans ?_)
  simp only [found, request, if_true]

theorem cancel_of_unknown (running : d.thermalStop = false) (hears : d.HearsNew o 0x0A d3 s) (named : fieldLE o.msg.payload 0 1 = 4)
    (own : fieldLE o.msg.payload 1 1 = 0) (good : controlBad o.msg.payload = false)
    (request : s.reqs.find? (fun r => decide (r.seq = fieldLE o.msg.payload 8 8) && r.accepted) = none) :
    Answers (.cancel o) q d (d3.answer o.msg.session.toNat o.msg.seq 0x0A 0 (controlPayload 0x84 0 0x0208 (fieldLE o.msg.payload 8 8))) := by
  obtain ⟨⟨-, -, -, -, -, -, found⟩, -⟩ := id hears
  refine answers_of_act _ (exec_cancel o _) running ((Dev.controlRx_of_own _ _ named good own hears).trans ?_)
  simp only [found, request]
  rfl

end

/-! ## Retirement -/

theorem Dev.appendMarks_net (d : Dev) (r : Nat) (f : Nat × Nat → RecBody) (l : List (Nat × Nat)) :
    (l.foldl (fun d e => d.appendMark r (f e)) d).net = d.net :=
  (foldl_keeps (P := Dev.Rings d) _ (fun _ _ h => h.appendMark _ _) l .refl).net

/-- A session that is neither closing nor draining has nothing to send when it holds no request. -/
theorem Dev.checkEmpty_of_open {d : Dev} {id : Nat} {s : Session} (found : d.sess id = some s) (open_ : s.st ≠ .closing) (stays : s.st ≠ .draining) :
    d.checkEmpty id = d := by
  unfold Dev.checkEmpty
  rw [Dev.withSess_of_sess _ found]
  simp only [open_, stays, false_and, if_false, ite_self]

/-- A session without the requests of some sequences. -/
def Session.without (s : Session) (seqs : List Nat) : Session := { s with reqs := s.reqs.filter fun r => !seqs.contains r.seq }

theorem Session.without_nil (s : Session) : s.without [] = s := by
  unfold Session.without
  simp

theorem Dev.retire_session {d : Dev} {id : Nat} {s : Session} (found : d.sess id = some s) (open_ : s.st ≠ .closing) (stays : s.st ≠ .draining)
    (seqs : List Nat) : (d.retire id seqs).sess id = some (s.without seqs) := by
  obtain rfl := (Dev.sess_eq_some found).2
  unfold Dev.retire
  rw [Dev.withSess_of_sess _ found]
  split
  · next none => rw [List.isEmpty_iff.mp none, Session.without_nil, found]
  · extract_lets d1 d2 d3
    have retired : d1.sess s.id = some (s.without seqs) := Dev.sess_onSess_self (f := (·.without seqs)) found fun _ => rfl
    have marked : d3.sess s.id = some (s.without seqs) := by
      rw [Dev.sess, Dev.appendMarks_net]
      exact retired
    rw [Dev.checkEmpty_of_open marked open_ stays, marked]

theorem Dev.acknowledge_session {d : Dev} {id : Nat} {s : Session} (found : d.sess id = some s) (open_ : s.st ≠ .closing) (stays : s.st ≠ .draining)
    (upTo : Nat) (ranges : List (Nat × Nat)) : (d.acknowledge id upTo ranges).sess id = some (s.without
      ((s.reqs.filter fun r => r.sent.isSome && (decide (r.seq ≤ upTo) || ranges.any fun e => decide (e.1 ≤ r.seq) && decide (r.seq ≤ e.2))).map
        (·.seq))) := by
  unfold Dev.acknowledge
  rw [Dev.withSess_of_sess _ found]
  exact Dev.retire_session found open_ stays _

/-! ## Credit -/

/-- By how much LIMIT may rise now. -/
def Dev.creditNow (d : Dev) (s : Session) : Nat := min (s.answered + s.window - s.limit) ((d.time - s.limitAt) * cdRate s.desc / 1000000000)

/-- The hearth ring can take WINDOW requests. -/
def Dev.creditRoom (d : Dev) (s : Session) : Bool := d.roomFor s.pav (s.window * (64 + 16 * ceilDiv (cdMaxRequest s.desc) 16))

theorem credit_answers {q : List Instr} {d : Dev} {o : OpSessT} {s : Session} (running : d.thermalStop = false)
    (found : (d.netAt o.t).sess o.session.toNat = some s) :
    Answers (.credit o) q d (if !s.st.live ∨ (d.netAt o.t).creditNow s = 0 ∨ !(d.netAt o.t).creditRoom s then d.netAt o.t
      else ((d.netAt o.t).onSess o.session.toNat fun x =>
        { x with limit := x.limit + (d.netAt o.t).creditNow s, limitAt := (d.netAt o.t).time }).sendCredit
        o.session.toNat) :=
  answers_of_act _ (exec_credit o _) running (Dev.withSess_of_sess _ found)

end Sys2Proof.Machine
end

section
/-! PROOFS. The next entry of an inbound ring (R102). -/

namespace Sys2Proof.Machine

theorem exec_inboundPlacement (o : OpPavT) (s : State) : exec (.inboundPlacement o) s = execInboundPlacement o s := rfl

theorem INBOUND_DOORBELL_stays : R.amn_INBOUND_DOORBELL.Stays := by decide

/-- The bytes of an entry behind its header. -/
def Dev.placingBody (d : Dev) (w : Placing) : Bytes := if w.kind = 1 then ((d.placingReq w).map fun e => e.2.payload).getD [] else []

/-- The device with the next entry of pavilion `p` written: payload and padding, then the header. -/
def Dev.entryWritten (d : Dev) (p : Nat) (w : Placing) : Dev :=
  let a := d.inEntry p (Table.get 0 d.net.inIndex p)
  (d.devWrite p (a + 64) (padTo (d.rd R.amn_INBOUND_SLOT 0 p - 64) (d.placingBody w))).devWrite p a w.head

theorem Dev.entryWritten_net (d : Dev) (p : Nat) (w : Placing) : (d.entryWritten p w).net = d.net :=
  ((Dev.Accessed.refl.devWrite (pv := p) _ _ _).devWrite _ _ _).net

/-- The doorbell of a pavilion is the one it had before the entry was written. -/
theorem Dev.placeNow_eq {d : Dev} {w : Placing} (hp : w.pav < 64) : d.placeNow w =
    (((d.entryWritten w.pav w).ring w.pav ((d.entryWritten w.pav w).rd R.amn_INBOUND_DOORBELL 0 w.pav)).onNet fun n => { n with
      inIndex := Table.set 0 n.inIndex w.pav (Table.get 0 d.net.inIndex w.pav + 1)
      inRing := n.inRing ++ [{ pav := w.pav, index := Table.get 0 d.net.inIndex w.pav, session := w.session, kind := w.kind }]
      inQ := n.inQ.erase w }).onSess w.session fun s => { s with reqs := s.reqs.map fun x =>
        if x.seq = w.seq ∧ w.kind = 1 then { x with placed := true } else x } := by
  have doorbell : ∀ (e : Dev) a b, (e.devWrite w.pav a b).rd R.amn_INBOUND_DOORBELL 0 w.pav = e.rd R.amn_INBOUND_DOORBELL 0 w.pav :=
    fun e a b => (Dev.Accessed.refl.devWrite a b hubAgent).rd hp INBOUND_DOORBELL_stays 0 hp
  unfold Dev.placeNow Dev.entryWritten
  extract_lets
  rw [doorbell]
  rfl

/-! ## The next entry -/

/-- The entries of a pavilion's ring in use. -/
def Dev.inUsed (d : Dev) (p : Nat) : Nat := (d.net.inRing.filter fun e => decide (e.pav = p)).length

/-- What waits first for a pavilion's ring and may take an entry of `entries`. -/
def Dev.inFirst (d : Dev) (p entries : Nat) : Option Placing :=
  d.net.inQ.find? fun q => decide (q.pav = p) && (q.timed || decide (d.inNeed p < entries - d.inUsed p))

theorem Dev.placeOne_of_no_ring {d : Dev} {p : Nat} (none : d.rd R.amn_INBOUND_ENTRIES 0 p = 0) : (d.placeOne p).2 = d := by
  unfold Dev.placeOne
  rw [if_pos none]

section
variable {d t : Dev} {p : Nat} {full : Bool} (ring : d.rd R.amn_INBOUND_ENTRIES 0 p ≠ 0)
  (next : (d.inRefresh p).inFull p (Table.get 0 (d.inRefresh p).net.inIndex p) = (full, t))

include next in
/-- To look at FULL changes no ring. -/
theorem Dev.inUsed_of_inFull : (d.inRefresh p).inUsed p = t.inUsed p := by
  have net := Dev.inFull_net (d.inRefresh p) p (Table.get 0 (d.inRefresh p).net.inIndex p)
  rw [next] at net
  rw [Dev.inUsed, Dev.inUsed, ← net]

include ring next

/-- The next entry is in use, or all are. -/
theorem Dev.placeOne_of_used (used : full = true ∨ d.rd R.amn_INBOUND_ENTRIES 0 p ≤ t.inUsed p) : (d.placeOne p).2 = t := by
  rw [← Dev.inUsed_of_inFull next, Dev.inUsed] at used
  unfold Dev.placeOne
  simp only [if_neg ring, next, if_pos used]

/-- Nothing that waits may take it. -/
theorem Dev.placeOne_of_no_first (free : full = false) (room : t.inUsed p < d.rd R.amn_INBOUND_ENTRIES 0 p)
    (none : t.inFirst p (d.rd R.amn_INBOUND_ENTRIES 0 p) = none) : (d.placeOne p).2 = t := by
  have unused : ¬ (full = true ∨ d.rd R.amn_INBOUND_ENTRIES 0 p ≤ (d.inRefresh p).inUsed p) := by
    rw [Dev.inUsed_of_inFull next, free]
    simp [room]
  rw [Dev.inFirst, ← Dev.inUsed_of_inFull next] at none
  unfold Dev.inUsed at unused none
  unfold Dev.placeOne
  simp only [if_neg ring, next, if_neg unused, none]

/-- The first that may take it is placed. -/
theorem Dev.placeOne_of_first {w : Placing} (free : full = false) (room : t.inUsed p < d.rd R.amn_INBOUND_ENTRIES 0 p)
    (first : t.inFirst p (d.rd R.amn_INBOUND_ENTRIES 0 p) = some w) : (d.placeOne p).2 = t.placeNow w := by
  have unused : ¬ (full = true ∨ d.rd R.amn_INBOUND_ENTRIES 0 p ≤ (d.inRefresh p).inUsed p) := by
    rw [Dev.inUsed_of_inFull next, free]
    simp [room]
  rw [Dev.inFirst, ← Dev.inUsed_of_inFull next] at first
  unfold Dev.inUsed at unused first
  unfold Dev.placeOne
  simp only [if_neg ring, next, if_neg unused, first]

end

theorem Dev.inFirst_pav {d : Dev} {p n : Nat} {w : Placing} (first : d.inFirst p n = some w) : w.pav = p := by
  have here := List.find?_some first
  exact of_decide_eq_true (Bool.and_eq_true_iff.mp here).1

theorem inboundPlacement_answers {q : List Instr} {d : Dev} {o : OpPavT} (running : d.thermalStop = false) :
    Answers (.inboundPlacement o) q d ((d.netAt o.t).placeOne o.pav.val).2 :=
  answers_of_act _ (exec_inboundPlacement o _) running rfl

/-- An entry placed: its bytes and doorbell, and the ring's index, entries and queue. -/
theorem Dev.placeNow_spec {d : Dev} {p : Nat} {w : Placing} (here : w.pav = p) (hp : p < 64) :
    { d.placeNow w with net := (d.entryWritten p w).net } = (d.entryWritten p w).ring p ((d.entryWritten p w).rd R.amn_INBOUND_DOORBELL 0 p) ∧
      Table.get 0 (d.placeNow w).net.inIndex p = Table.get 0 d.net.inIndex p + 1 ∧ (d.placeNow w).net.inQ = d.net.inQ.erase w ∧
      (d.placeNow w).net.inRing = d.net.inRing ++ [{ pav := p, index := Table.get 0 d.net.inIndex p, session := w.session, kind := w.kind }] := by
  subst here
  have net := d.entryWritten_net w.pav w
  rw [Dev.placeNow_eq hp]
  generalize d.entryWritten w.pav w = e at net
  refine ⟨rfl, ?_, ?_, ?_⟩
  · show Table.get 0 (Table.set 0 e.net.inIndex w.pav (Table.get 0 d.net.inIndex w.pav + 1)) w.pav = _
    exact Table.get_set_self 0 _ _ _
  · rw [← net]
    rfl
  · rw [← net]
    rfl

end Sys2Proof.Machine
end

section
namespace Sys2Proof
open Machine

/-- Settles O38: each command by the branches of its meaning; a request complete is followed through the sending of its ACCEPT (`Dev.Sent`) and
its placing (`Dev.KeepsReqs`), and an entry placed keeps the doorbell and the queue (`Dev.Accessed`). -/
theorem requests : Obligations.Requests := by
  unfold Obligations.Requests
  refine ⟨?request, ?complete, ?answers, ?placing, ?acknowledge, ?place, ?credit⟩
  case request =>
    intro q d d3 o s0 s running id seq n d4 hears found
    refine ⟨fun e known => request_repeated running hears found known, fun new => ⟨fun below => ?_, fun within => ?_⟩⟩
    · have answers := request_new (q := q) running hears found new
      rw [if_pos below] at answers
      exact answers
    · have answers := request_new (q := q) running hears found new
      rw [if_neg (by rw [within]; decide)] at answers
      intro d5 checks
      refine ⟨fun b fails => ?_, fun passes => ?_⟩
      · rw [Dev.newRequest_refused found fails] at answers
        exact answers
      · rw [Dev.newRequest_accepted found passes] at answers
        have net : d5.net = d4.net := (Dev.Rings.refl.advanceTail _).net
        obtain ⟨sess, record, apart⟩ := Dev.journaled_spec (o := o) (s := s) (e := d5) (by rw [Dev.sess, net]; exact found)
        exact ⟨_, _, answers, sess, rfl, record, apart⟩
  case complete =>
    intro q d o s running d1 id found
    have named : s.id = id := (Dev.sess_eq_some found).2
    refine ⟨fun waits => ?_, fun complete => reqRecordComplete_stays running found complete, fun r b request deliver => ?_⟩
    · obtain ⟨r, request⟩ := Session.find_of_unaccepted waits
      have held : s.reqs ≠ [] := fun none => by
        rw [none] at request
        cases request
      obtain ⟨y, sess, goes⟩ := Dev.recordDone_session (d := d1) (seq := o.seq) (by rw [named]; exact found) held
      have queued := (Dev.KeepsReqs.refl (d1.recordDone s o.seq)).enqueueIn (s.placing r 1)
      obtain ⟨z, sess', goes'⟩ := queued _ _ sess (goes.nonempty ((s.completed_goes d1 o.seq).nonempty held))
      exact ⟨_, z, reqRecordComplete_answers running found waits request, named ▸ sess', (goes'.trans goes).of_completed⟩
    · intro next
      refine ⟨fun can due => ?_, fun early => deliverResend_early running found request early⟩
      rw [← Dev.resendDeliver_of_deliver d1 id next deliver]
      exact deliverResend_due running found request can due
  case answers =>
    intro q d d3 o s running id data ranges
    refine ⟨fun hears => ⟨fun stream => ?_, fun control => ?_⟩, nak_of_control running, fun s' hears stream found => ⟨?_, ?_⟩,
      fun hears named own good => ⟨fun r request => cancel_of_accepted running hears named own good request, fun request =>
        cancel_of_unknown running hears named own good request⟩⟩
    · have answers := ack_answers (q := q) running hears
      rw [if_neg (by rw [msgCtl, stream]; decide)] at answers
      exact answers
    · have answers := ack_answers (q := q) running hears
      rw [if_pos (by rw [msgCtl]; exact Bool.not_eq_false _ ▸ control)] at answers
      exact answers
    · intro r b request deliver cause can
      rw [← Dev.resendDeliver_of_deliver _ id r.interval deliver]
      exact nak_of_sent running hears stream found request cause can
    · exact nak_of_unsent running hears stream found
  case placing => exact fun s r kind => ⟨rfl, rfl, rfl, rfl, rfl, rfl⟩
  case acknowledge => exact fun d id upTo ranges s found open_ stays => Dev.acknowledge_session found open_ stays upTo ranges
  case place =>
    intro q d o running p d1 entries
    have hp : p < 64 := o.pav.isLt
    refine ⟨fun none => ?_, fun ring => ?_⟩
    · rw [← Dev.placeOne_of_no_ring (d := d1) none]
      exact inboundPlacement_answers running
    · obtain ⟨full, d2, next⟩ : ∃ full d2, (d1.inRefresh p).inFull p (Table.get 0 (d1.inRefresh p).net.inIndex p) = (full, d2) := ⟨_, _, rfl⟩
      refine ⟨_, full, d2, next, inboundPlacement_answers running, fun used => ?_, fun free room none => ?_, fun free room w first => ?_⟩
      · exact Dev.placeOne_of_used ring next used
      · exact Dev.placeOne_of_no_first ring next free room none
      · rw [Dev.placeOne_of_first ring next free room first]
        exact Dev.placeNow_spec (Dev.inFirst_pav (d := d2) (n := entries) first) hp
  case credit =>
    intro q d o s running d1 id found n room
    have answers := credit_answers (q := q) running found
    refine ⟨fun live some fits => ?_, fun no => ?_⟩
    · have may : ¬ ((!s.st.live) = true ∨ d1.creditNow s = 0 ∨ (!d1.creditRoom s) = true) := by
        rw [live, show d1.creditRoom s = true from fits]
        exact fun no => no.elim nofun (·.elim some nofun)
      rw [if_neg may] at answers
      exact answers
    · have stays : (!s.st.live) = true ∨ d1.creditNow s = 0 ∨ (!d1.creditRoom s) = true := by
        rw [Bool.not_eq_true', Bool.not_eq_true']
        exact no
      rw [if_pos stays] at answers
      exact answers

end Sys2Proof
end

section
/-! PROOFS. Writes of entries with rules of their own: values, keys, microcode and rings (R45, R80, R100, R116, R240, R443, R456, R484, R491,
R495, R515, R536, R548, R613). -/

namespace Sys2Proof.Machine

/-! ## Verdicts -/

section
variable {i : Instr} {q : List Instr} {d d1 t : Dev} {o : Rx} {s : Session} {w : WriteOp} {row : DictRow} {apply : Dev → WriteOp → Verdict}

/-- A value set at once. -/
theorem replies_of_putNow (h : d.Writes o row d1 s w)
    (hx : exec i { pending := q, dev := d } = State.act { pending := q, dev := d } fun d => d.writeRx o row apply)
    (verdict : apply d1 w = t.putNow w) : Replies i q d o s w (t.putNow w).dev (t.putNow w).reason :=
  replies_of_verdict h hx (verdict.trans (t.putNow_eq w))

/-- A value set at once, and a change that follows where it took effect. -/
def Dev.putThen (d : Dev) (w : WriteOp) (f : Dev → Dev) : Verdict :=
  let x := d.putNow w
  { x with dev := if x.reason = 0 then f x.dev else x.dev }

theorem Dev.putThen_eq (d : Dev) (w : WriteOp) (f : Dev → Dev) :
    d.putThen w f = ⟨(d.putNow w).reason, none, if (d.putNow w).reason = 0 then f (d.putNow w).dev else (d.putNow w).dev⟩ := by
  unfold Dev.putThen
  rw [Dev.putNow_eq]

theorem replies_of_putThen {f : Dev → Dev} (h : d.Writes o row d1 s w)
    (hx : exec i { pending := q, dev := d } = State.act { pending := q, dev := d } fun d => d.writeRx o row apply)
    (verdict : apply d1 w = t.putThen w f) :
    ((t.putNow w).reason ≠ 0 → Replies i q d o s w (t.putNow w).dev (t.putNow w).reason) ∧
      ((t.putNow w).reason = 0 → Replies i q d o s w (f (t.putNow w).dev) 0) := by
  have replies := replies_of_verdict h hx (verdict.trans (t.putThen_eq w f))
  generalize t.putNow w = x at replies
  refine ⟨fun refused => ?_, fun effect => ?_⟩
  · rw [if_neg refused] at replies
    exact replies
  · rw [if_pos effect, effect] at replies
    exact replies

end

/-! ## Values -/

theorem Dev.putNow_of_plain {d : Dev} {w : WriteOp} (plain : w.entry.access ≠ .rws) : d.putNow w = taken (d.wr w.entry w.v w.i w.p) := by
  unfold Dev.putNow
  rw [if_neg plain]

theorem Dev.putNow_of_record {d t : Dev} {w : WriteOp} (rws : w.entry.access = .rws) (room : d.recordDict w.entry w.i w.p w.v = some t) :
    d.putNow w = taken (t.wr w.entry w.v w.i w.p) := by
  unfold Dev.putNow
  rw [if_pos rws, room]

theorem Dev.putNow_of_no_room {d : Dev} {w : WriteOp} (rws : w.entry.access = .rws) (none : d.recordDict w.entry w.i w.p w.v = none) :
    d.putNow w = turnedDown d 0x0305 := by
  unfold Dev.putNow
  rw [if_pos rws, none]

/-- A value set is in force, and the cores stay. -/
theorem Dev.putNow_effect {d : Dev} {w : WriteOp} (effect : (d.putNow w).reason = 0) :
    (d.putNow w).dev.rd w.entry w.i w.p = w.v ∧ (d.putNow w).dev.cores = d.cores := by
  by_cases rws : w.entry.access = .rws
  · cases room : d.recordDict w.entry w.i w.p w.v
    case none =>
      rw [Dev.putNow_of_no_room rws room] at effect
      exact nomatch effect
    case some t =>
      rw [Dev.putNow_of_record rws room]
      exact ⟨Dev.rd_wr_self .., (Dev.Rings.refl.recordDict room).cores⟩
  · rw [Dev.putNow_of_plain rws]
    exact ⟨Dev.rd_wr_self .., rfl⟩

/-! ## Rows -/

/-- What a write of an entry without a row of its own comes to. -/
def Dev.dictWrite (d : Dev) (w : WriteOp) : Verdict :=
  let r := d.relation w
  if r ≠ 0 then turnedDown d r
  else if w.entry.base = 0x6100 ∧ w.entry.sub = 0x03 then d.putUdpPort w
  else if w.entry.base = 0x7000 ∧ w.entry.sub = 0x10 then taken (d.wrStaged w.entry (some w.v))
  else d.putValue w

section
variable {d : Dev} {w : WriteOp}

theorem Dev.dictWrite_of_broken (broken : d.relation w ≠ 0) : d.dictWrite w = turnedDown d (d.relation w) := if_pos broken

theorem Dev.dictWrite_of_port (kept : d.relation w = 0) (base : w.entry.base = 0x6100) (sub : w.entry.sub = 0x03) :
    d.dictWrite w = taken { d with hearth := { d.hearth with stagedPort := some w.v } } := by
  unfold Dev.dictWrite
  simp only [kept, base, sub, ne_eq, not_true_eq_false, if_false, and_self, if_true]
  rfl

theorem Dev.dictWrite_of_window (kept : d.relation w = 0) (base : w.entry.base = 0x7000) (sub : w.entry.sub = 0x10) :
    d.dictWrite w = taken (d.wrStaged w.entry (some w.v)) := by
  have other : ¬ (w.entry.base = 0x6100 ∧ w.entry.sub = 0x03) := by omega
  unfold Dev.dictWrite
  simp only [kept, ne_eq, not_true_eq_false, if_false, if_neg other, if_pos (And.intro base sub)]

theorem Dev.dictWrite_of_plain (kept : d.relation w = 0) (port : ¬ (w.entry.base = 0x6100 ∧ w.entry.sub = 0x03))
    (window : ¬ (w.entry.base = 0x7000 ∧ w.entry.sub = 0x10)) : d.dictWrite w = d.putValue w := by
  unfold Dev.dictWrite
  simp only [kept, ne_eq, not_true_eq_false, if_false, if_neg port, if_neg window]

end

theorem exec_dictWrite (o : Rx) (s : State) : exec (.dictWrite o) s = State.act s fun d => d.writeRx o .write Dev.dictWrite := rfl

/-! ### Keys -/

/-- A key record loaded: its kind, bytes and counters. -/
theorem Dev.loadKey_spec (d : Dev) (p n : Nat) (r : Bytes) :
    let kind := fieldLE r 0 1
    let t := d.loadKey p n r
    (t.keySlot p n).kind = kind ∧ (t.keySlot p n).key = slice r 16 (keyLen kind) ∧ (t.keySlot p n).next = 1 ∧
      (kind ≤ 2 → (t.keySlot p n).fix = fieldLE r 4 4 ∧ (t.keySlot p n).limit = if fieldLE r 8 8 = 0 then 2 ^ 40 else fieldLE r 8 8) ∧
      { t with eng := d.eng } = d := by
  intro kind t
  have slot : t.keySlot p n = {
      kind := kind
      fix := if decide (kind ≤ 2) then fieldLE r 4 4 else 0
      limit := if decide (kind ≤ 2) then (if fieldLE r 8 8 = 0 then counterMax else fieldLE r 8 8) else 0
      next := 1
      key := slice r 16 (keyLen kind) } := Table.get_set_self _ d.eng.keys _ _
  rw [slot]
  exact ⟨rfl, rfl, rfl, fun gcm => ⟨if_pos (decide_eq_true gcm), if_pos (decide_eq_true gcm)⟩, rfl⟩

/-- What a KEY_WRITE that waits for no job comes to. -/
def Dev.keyWrite (d : Dev) (w : WriteOp) : Verdict :=
  let n := fieldLE w.raw 0 2
  let key := slice w.raw 2 80
  if !d.holdsSlot w.p n then turnedDown d 0x0603
  else
    let r := d.keyRefused w.p n key
    if r ≠ 0 then turnedDown d r else taken (d.loadKey w.p n key)

theorem exec_keyWrite (o : Rx) (s : State) : exec (.keyWrite o) s = execKeyWrite o s := rfl

theorem keyWrite_replies {q : List Instr} {d d1 : Dev} {o : Rx} {s : Session} {w : WriteOp} (h : d.Writes o .keyWrite d1 s w)
    (ready : (d.netAt o.t).keyWriteWaits o = false) :
    Replies (.keyWrite o) q d o s w (d1.keyWrite w).dev (d1.keyWrite w).reason (d1.keyWrite w).off := by
  refine answers_of_act _ (exec_keyWrite o _) h.runs ?_
  rw [if_neg (by rw [ready]; decide)]
  refine (Dev.writeRx_of_writes _ (fun d _ => d) h).trans ?_
  exact ite_self _

/-! ### Microcode -/

/-- What a write of UCODE_IMAGE comes to. -/
def Dev.ucodeWrite (d : Dev) (w : WriteOp) : Verdict :=
  let release := fieldLE w.raw 8 4
  if !ucodeImageOk w.raw then turnedDown d 0x010A
  else if release < d.rd R.dev_UCODE_RELEASE then turnedDown d 0x010B
  else
    let d := { d with hearth := { d.hearth with ucodeStaged := w.raw } }
    taken (d.wr R.dev_UCODE_STAGED release)

theorem exec_ucodeImage (o : Rx) (s : State) : exec (.ucodeImage o) s = State.act s fun d => d.writeRx o .ucode Dev.ucodeWrite := rfl

/-! ### The bootstrap key -/

theorem exec_eck (o : Rx) (s : State) : exec (.eck o) s = execEck o s := rfl

/-! ### Power, alerts and density -/

theorem exec_powerCap (o : Rx) (s : State) : exec (.powerCap o) s = State.act s fun d => d.writeRx o .powerCap Dev.putPowerCap := rfl

/-- What a write of ALERT_ACK comes to. -/
def Dev.ackAlert (d : Dev) (w : WriteOp) : Verdict := taken (if w.v = 1 then { d with alertOpen := false } else d)

theorem exec_alertAck (o : Rx) (s : State) : exec (.alertAck o) s = State.act s fun d => d.writeRx o .alertAck Dev.ackAlert := rfl

/-- What a write of DENSITY comes to. -/
def Dev.putDensity (d : Dev) (w : WriteOp) : Verdict :=
  if engineFits (d.classesOf w.p) (elem 1 (d.rd R.pav_SHARES w.p) 3) w.v then d.putNow w else turnedDown d 0x0507

theorem exec_density (o : Rx) (s : State) : exec (.density o) s = State.act s fun d => d.writeRx o .density Dev.putDensity := rfl

/-! ### Rings -/

/-- An endpoint's completion ring starts again at its first entry. -/
def Dev.restartCq (d : Dev) (k : Nat) : Dev := d.onChan fun y => { y with cqIndex := Table.set 0 y.cqIndex k 0 }

/-- A mover's ring, of a cluster and a pavilion, starts again at its first entry. -/
def Dev.restartMover (d : Dev) (k : Nat) : Dev := d.onMem fun y => { y with moverIndex := Table.set 0 y.moverIndex k 0 }

/-- A pavilion's ring of the cipher engines starts again at its first entry. -/
def Dev.restartCipherCq (d : Dev) (k : Nat) : Dev := d.onEng fun y => { y with cipherIndex := Table.set 0 y.cipherIndex k 0 }

/-- A pavilion's ring of the compression engines starts again at its first entry. -/
def Dev.restartCompCq (d : Dev) (k : Nat) : Dev := d.onEng fun y => { y with compIndex := Table.set 0 y.compIndex k 0 }

/-- A pavilion's inbound ring starts again at its first entry. -/
def Dev.restartInbound (d : Dev) (k : Nat) : Dev := d.onNet fun y => { y with inIndex := Table.set 0 y.inIndex k 0 }

section
variable (d : Dev) (k : Nat)

theorem Dev.restartCq_index : Table.get 0 (d.restartCq k).chan.cqIndex k = 0 := Table.get_set_self 0 d.chan.cqIndex k 0

theorem Dev.restartMover_index : Table.get 0 (d.restartMover k).mem.moverIndex k = 0 := Table.get_set_self 0 d.mem.moverIndex k 0

theorem Dev.restartCipherCq_index : Table.get 0 (d.restartCipherCq k).eng.cipherIndex k = 0 := Table.get_set_self 0 d.eng.cipherIndex k 0

theorem Dev.restartCompCq_index : Table.get 0 (d.restartCompCq k).eng.compIndex k = 0 := Table.get_set_self 0 d.eng.compIndex k 0

theorem Dev.restartInbound_index : Table.get 0 (d.restartInbound k).net.inIndex k = 0 := Table.get_set_self 0 d.net.inIndex k 0

end

/-- What a write of an endpoint's completion ring comes to. -/
def Dev.putCq (d : Dev) (w : WriteOp) : Verdict :=
  if (d.chan.ops.any fun x => decide (x.ep = w.i) && (x.isOpen || !x.posted && decide (x.st = .done))) || !(d.postedOf w.i).isEmpty then
    turnedDown d 0x020D
  else d.putThen w fun d => d.restartCq w.i

theorem exec_cqConfig (o : Rx) (s : State) : exec (.cqConfig o) s = State.act s fun d => d.writeRx o .cq Dev.putCq := rfl

/-- What a write of a mover's entries comes to. -/
def Dev.putMover (d : Dev) (w : WriteOp) : Verdict :=
  let n := d.wr w.entry w.v w.i w.p
  let ring := n.moverRing w.i w.p
  if decide (w.entry.sub ≠ 0x13) && ((d.moverJob w.i w.p).isSome || !n.ringMapped w.p ring.1 ring.2) then turnedDown d 0x020D
  else d.putThen w fun d => d.restartMover (w.i * 64 + w.p)

theorem exec_moverConfig (o : Rx) (s : State) : exec (.moverConfig o) s = State.act s fun d => d.writeRx o .mover Dev.putMover := rfl

/-- What a write of the cipher engines' completion ring comes to. -/
def Dev.putCipherCq (d : Dev) (w : WriteOp) : Verdict :=
  if d.cipherCount w.p ≠ 0 then turnedDown d 0x020D
  else d.putThen w fun d => d.restartCipherCq w.p

theorem exec_cipherCqConfig (o : Rx) (s : State) : exec (.cipherCqConfig o) s = State.act s fun d => d.writeRx o .cipherCq Dev.putCipherCq := rfl

/-- What a write of the compression engines' completion ring comes to. -/
def Dev.putCompCq (d : Dev) (w : WriteOp) : Verdict :=
  if d.compCount w.p ≠ 0 then turnedDown d 0x020D
  else d.putThen w fun d => d.restartCompCq w.p

theorem exec_compressionCqConfig (o : Rx) (s : State) :
    exec (.compressionCqConfig o) s = State.act s fun d => d.writeRx o .compCq Dev.putCompCq := rfl

/-- The checks of a write of an inbound ring's entry, in their order; `full` where an entry holds a request. -/
def Dev.inboundChecks (d : Dev) (w : WriteOp) (full : Bool) : List (Bool × Nat) :=
  let n := d.wr w.entry w.v 0 w.p
  let entries := n.rd R.amn_INBOUND_ENTRIES 0 w.p
  [(!full && !(d.net.inQ.any fun q => decide (q.pav = w.p) && decide (q.kind = 1)), 0x020D),
    (n.ringMapped w.p (n.rd R.amn_INBOUND_BASE 0 w.p) (n.rd R.amn_INBOUND_SLOT 0 w.p * entries), 0x0108),
    (decide (d.rd R.amn_INBOUND_ENTRIES 0 w.p ≤ entries) || decide (d.windowSum w.p ≤ entries), 0x0309),
    (decide (w.entry.sub ≠ 0x22) || (d.pavSessions w.p).all fun s => !cdData s.desc || decide (cdMaxRequest s.desc + 64 ≤ w.v), 0x0105)]

/-- What a write of an inbound ring's entry comes to. -/
def Dev.putInbound (d : Dev) (w : WriteOp) : Verdict :=
  let (full, d) := (d.inRefresh w.p).anyFull w.p
  let r := firstReason ((d.inboundChecks w full).map fun k => refuse k.1 k.2)
  if r ≠ 0 then turnedDown d r
  else d.putThen w fun d => d.restartInbound w.p

theorem exec_inboundConfig (o : Rx) (s : State) : exec (.inboundConfig o) s = State.act s fun d => d.writeRx o .inbound Dev.putInbound := rfl

end Sys2Proof.Machine
end

section
/-! PROOFS. Twin pairs formed and dissolved (R471). -/

namespace Sys2Proof.Machine

/-! ## Elements of TWIN_PARTNER -/

theorem Dev.twinPartner_set (d : Dev) (c v j : Nat) : (d.setTwinPartner c v).twinPartner j = if j = c then v % 65536 else d.twinPartner j := by
  unfold Dev.setTwinPartner Dev.twinPartner
  by_cases here : j / 16 = c / 16
  · rw [here, Dev.rd_wr_self]
    split
    · next same =>
      rw [same]
      exact elem_withElem_self ..
    · next apart => exact elem_withElem_ne _ _ _ (by omega)
  · have apart : R.clu_TWIN_PARTNER.key (j / 16) 0 ≠ R.clu_TWIN_PARTNER.key (c / 16) 0 := fun same => here (by
      have keys := congrArg (· / 64) same
      simp only [Entry.key_div _ _ (by decide : 0 < 64)] at keys
      omega)
    rw [Dev.rd_wr_ne _ _ apart, if_neg fun same => here (congrArg (· / 16) same)]

theorem Dev.twinPartner_lt (d : Dev) (c : Nat) : d.twinPartner c < 65536 := Nat.mod_lt _ (by decide)

/-- The elements that the holder of a core sees are the partners of its cores. -/
theorem Dev.reported_twin {d : Dev} {p i k : Nat} (hk : k < 16) (owned : d.coreOwner (16 * i + k) = some p) :
    elem 2 ((d.reported p 0x3000 0x20 i).getD 0) k = d.twinPartner (16 * i + k) := by
  have shown : (d.reported p 0x3000 0x20 i).getD 0 = ofElems 2 ((List.range 16).map fun k =>
      if d.coreOwner (16 * i + k) = some p then elem 2 (d.rd R.clu_TWIN_PARTNER i) k else 0xFFFF) := rfl
  have place : (16 * i + k) / 16 = i ∧ (16 * i + k) % 16 = k := by omega
  rw [shown, elem_ofElems, List.getD_eq_getElem _ _ (by simpa using hk), List.getElem_map, List.getElem_range, if_pos owned, Dev.twinPartner, place.1,
    place.2]
  exact Nat.mod_eq_of_lt (Nat.mod_lt _ (by decide))

/-! ## One element written -/

section
variable {d : Dev} {p i v seen k : Nat}

/-- Elements that stay change no pair. -/
theorem pairChanges_of_same {l : List Nat} (same : ∀ j ∈ l, elem 2 v j = elem 2 seen j) : pairChanges p i v seen l d = .ok d := by
  induction l with
  | nil => rfl
  | cons j l ih =>
    obtain ⟨here, rest⟩ := List.forall_mem_cons.mp same
    rw [pairChanges]
    simp only [if_pos here]
    exact ih rest

/-- A pair dissolved, in both elements. -/
theorem Dev.dissolvePair_spec (d : Dev) {c : Nat} (paired : d.twinPartner c ≠ 0xFFFF) :
    (d.dissolvePair c).twinPartner c = 0xFFFF ∧ (d.dissolvePair c).twinPartner (d.twinPartner c) = 0xFFFF ∧ (d.dissolvePair c).cores = d.cores := by
  unfold Dev.dissolvePair
  simp only [if_neg paired, Dev.twinPartner_set, if_true]
  exact ⟨ite_self _, trivial, rfl⟩

/-- What the change of one element comes to. -/
def Dev.pairChange (d : Dev) (p c x : Nat) : Except Nat Dev :=
  if d.coreOwner c ≠ some p then .error 0x0401
  else if x = 0xFFFF then .ok (d.dissolvePair c)
  else if 256 ≤ x then .error 0x0101
  else if d.pairRefused p c x ≠ 0 then .error (d.pairRefused p c x) else .ok ((d.setTwinPartner c x).setTwinPartner x c)

/-- The one element that changes decides. -/
theorem pairChanges_of_one {l : List Nat} (nodup : l.Nodup) (mem : k ∈ l) (others : ∀ j ∈ l, j ≠ k → elem 2 v j = elem 2 seen j)
    (changed : elem 2 v k ≠ elem 2 seen k) : pairChanges p i v seen l d = d.pairChange p (16 * i + k) (elem 2 v k) := by
  induction l with
  | nil => exact nomatch mem
  | cons j l ih =>
    obtain ⟨fresh, nodup⟩ := List.nodup_cons.mp nodup
    obtain ⟨here, rest⟩ := List.forall_mem_cons.mp others
    by_cases same : j = k
    · subst same
      have stays : ∀ t : Dev, pairChanges p i v seen l t = .ok t := fun t =>
        pairChanges_of_same fun m hm => rest m hm fun same => fresh (same ▸ hm)
      rw [pairChanges]
      simp only [if_neg changed, stays]
      rfl
    · rw [pairChanges]
      simp only [if_pos (here same)]
      exact ih nodup ((List.mem_cons.mp mem).resolve_left (Ne.symm same)) rest

end

/-- The first check of a list decides where it fails. -/
theorem firstReason_cons (ok : Bool) {n : Nat} (reason : n ≠ 0) (l : List Nat) :
    firstReason (refuse ok n :: l) = if ok = true then firstReason l else n := by
  cases ok
  · simp [firstReason, refuse, reason]
  · simp [firstReason, refuse]

/-- The checks of a pair, in their order. -/
theorem Dev.pairRefused_eq (d : Dev) (p c x : Nat) : d.pairRefused p c x =
    if ¬ (d.rd R.pav_TWIN_PERMIT p = 1 ∧ d.coreOwner c = some p ∧ d.coreOwner x = some p) then 0x0401
    else if ¬ (clusterOf c ≠ clusterOf x ∧ d.twinPartner c = 0xFFFF ∧ d.twinPartner x = 0xFFFF) then 0x0210
    else if ¬ ((d.core c).run ≠ .lost ∧ (d.core x).run ≠ .lost) then 0x0211 else 0 := by
  unfold Dev.pairRefused
  rw [firstReason_cons _ (by decide), firstReason_cons _ (by decide), firstReason_cons _ (by decide)]
  simp only [Bool.and_eq_true, decide_eq_true_eq, and_assoc, ite_not]
  rfl

/-! ## TWIN_PARTNER -/

/-- What a write of TWIN_PARTNER comes to. -/
def Dev.putTwin (d : Dev) (w : WriteOp) : Verdict :=
  let seen := (d.reported w.p 0x3000 0x20 w.i).getD 0
  match pairChanges w.p w.i w.v seen (List.range 16) d with
  | .ok d => taken d
  | .error r => turnedDown d r

theorem exec_twinPartner (o : Rx) (s : State) : exec (.twinPartner o) s = State.act s fun d => d.writeRx o .twin Dev.putTwin := rfl

section
variable {d : Dev} {w : WriteOp} {t : Dev} {r : Nat}

theorem Dev.putTwin_of_ok (changed : pairChanges w.p w.i w.v ((d.reported w.p 0x3000 0x20 w.i).getD 0) (List.range 16) d = .ok t) :
    d.putTwin w = taken t := by
  unfold Dev.putTwin
  simp only [changed]

theorem Dev.putTwin_of_error (refused : pairChanges w.p w.i w.v ((d.reported w.p 0x3000 0x20 w.i).getD 0) (List.range 16) d = .error r) :
    d.putTwin w = turnedDown d r := by
  unfold Dev.putTwin
  simp only [refused]

end

end Sys2Proof.Machine
end

section
/-! PROOFS. Cache control: lines invalidated by range, and ways locked (R411 to R414). -/

namespace Sys2Proof.Machine

/-! ## RANGE_INVAL -/

/-- The lines held are those that some cache or a transfer holds in a valid state. -/
theorem Dev.mem_heldLines {d : Dev} {p lo hi l : Nat} : l ∈ d.heldLines p lo hi ↔ lo ≤ l ∧ l < hi ∧
    ∃ x, (x ∈ d.mem.l2.map (·.2) ∨ x ∈ d.mem.xfer.map (·.2)) ∧ x.st ≠ .i ∧ x.pav = p ∧ x.line = l := by
  unfold Dev.heldLines
  rw [List.mem_eraseDups, List.mem_filterMap]
  constructor
  · rintro ⟨x, mem, kept⟩
    obtain ⟨cond, here⟩ := Option.ite_none_right_eq_some.mp kept
    obtain rfl := Option.some.inj here
    simp only [Bool.and_eq_true, decide_eq_true_eq] at cond
    obtain ⟨⟨⟨valid, pav⟩, low⟩, high⟩ := cond
    exact ⟨low, high, x, List.mem_append.mp mem, valid, pav, rfl⟩
  · rintro ⟨low, high, x, mem, valid, pav, rfl⟩
    refine ⟨x, List.mem_append.mpr mem, if_pos ?_⟩
    simp only [Bool.and_eq_true, decide_eq_true_eq]
    exact ⟨⟨⟨valid, pav⟩, low⟩, high⟩

/-- What a write of RANGE_INVAL comes to. -/
def Dev.invalidate (d : Dev) (w : WriteOp) : Verdict :=
  let base := fieldLE w.raw 0 8
  let n := fieldLE w.raw 8 8
  if n = 0 then taken d
  else
    let ls := d.heldLines w.p (base / 64) ((base + n - 1) / 64 + 1)
    let d := if ls.any (d.lockedLine w.p) then d.bump R.coh_LOCKED_INVAL else d
    taken (ls.foldl (fun d l => d.flushLine w.p l false) d)

theorem exec_rangeInval (o : Rx) (s : State) : exec (.rangeInval o) s = State.act s fun d => d.writeRx o .rangeInval Dev.invalidate := rfl

/-! ## WAY_LOCK: its checks -/

theorem length_eraseDups_le (l : List Nat) : l.eraseDups.length ≤ l.length := by
  match l with
  | [] => exact le_rfl
  | a :: l =>
    have shorter : (l.filter fun b => !b == a).length ≤ l.length := List.length_filter_le ..
    have rest := length_eraseDups_le (l.filter fun b => !b == a)
    rw [List.eraseDups_cons, List.length_cons, List.length_cons]
    omega
termination_by l.length
decreasing_by exact Nat.lt_succ_of_le (List.length_filter_le ..)

/-- Repeats make a list shorter when they are left out. -/
theorem length_eraseDups_eq_iff {l : List Nat} : l.eraseDups.length = l.length ↔ l.Nodup := by
  induction l with
  | nil => simp
  | cons a l ih =>
    rw [List.eraseDups_cons, List.length_cons, List.length_cons, List.nodup_cons]
    have rest := length_eraseDups_le (l.filter fun b => !b == a)
    by_cases mem : a ∈ l
    · have shorter : (l.filter fun b => !b == a).length < l.length :=
        List.length_filter_lt_length_iff_exists.mpr ⟨a, mem, by simp⟩
      exact iff_of_false (by omega) fun both => both.1 mem
    · have same : (l.filter fun b => !b == a) = l := List.filter_eq_self.mpr fun b hb => by
        simp only [Bool.not_eq_true', beq_eq_false_iff_ne]
        exact fun here => mem (here ▸ hb)
      rw [same, Nat.add_right_cancel_iff, ih]
      exact (and_iff_right mem).symm

/-- What a write of WAY_LOCK comes to. -/
def Dev.putWayLocks (d : Dev) (w : WriteOp) : Verdict :=
  let c := w.i
  let own := d.ownWays c w.p
  let seen := (d.reported w.p 0x3410 0x03 c).getD 0
  let locked := own.filter fun k => bitOf (elem 8 w.v k) 63
  let regions := locked.map fun k => elem 8 w.v k % 2 ^ 18
  if (List.range 16).any fun k => !own.contains k && decide (elem 8 w.v k ≠ elem 8 seen k) then turnedDown d 0x0401
  else if regions.eraseDups.length ≠ regions.length then turnedDown d 0x0101
  else if !locked.isEmpty && decide (locked.length = own.length) then turnedDown d 0x0303
  else taken (own.foldl (fun d k =>
    let v := elem 8 w.v k
    if v = d.wayLock c k then d
    else if bitOf v 63 then d.lockWay c w.p k v
    else d.wr R.l2_WAY_LOCK (withElem 8 (d.rd R.l2_WAY_LOCK c) k v) c) d)

theorem exec_wayLock (o : Rx) (s : State) : exec (.wayLock o) s = State.act s fun d => d.writeRx o .wayLock Dev.putWayLocks := rfl

/-- A write changes an element of a way that is not the writer's. -/
theorem alienLock_iff {own : List Nat} {v seen : Nat} :
    ((List.range 16).any fun k => !own.contains k && decide (elem 8 v k ≠ elem 8 seen k)) = true ↔
      ∃ k < 16, k ∉ own ∧ elem 8 v k ≠ elem 8 seen k := by
  simp only [List.any_eq_true, List.mem_range, Bool.and_eq_true, Bool.not_eq_true', List.contains_eq_mem, decide_eq_false_iff_not, decide_eq_true_eq]

theorem Dev.nodup_ownWays (d : Dev) (c p : Nat) : (d.ownWays c p).Nodup := by
  unfold Dev.ownWays
  split
  · exact List.nodup_range.filter _
  · exact List.nodup_nil

/-- Two ways lock the same region. -/
theorem regions_repeat_iff {own : List Nat} {v : Nat} (nodup : own.Nodup) :
    ((own.filter fun k => bitOf (elem 8 v k) 63).map fun k => elem 8 v k % 2 ^ 18).eraseDups.length ≠
      ((own.filter fun k => bitOf (elem 8 v k) 63).map fun k => elem 8 v k % 2 ^ 18).length ↔
      ∃ j ∈ own, ∃ k ∈ own, j ≠ k ∧ bitOf (elem 8 v j) 63 = true ∧ bitOf (elem 8 v k) 63 = true ∧
        elem 8 v j % 2 ^ 18 = elem 8 v k % 2 ^ 18 := by
  rw [ne_eq, length_eraseDups_eq_iff, List.nodup_map_iff_inj_on (nodup.filter _)]
  simp only [List.mem_filter, not_forall]
  constructor
  · rintro ⟨j, ⟨memj, lockj⟩, k, ⟨memk, lockk⟩, same, apart⟩
    exact ⟨j, memj, k, memk, apart, lockj, lockk, same⟩
  · rintro ⟨j, memj, k, memk, apart, lockj, lockk, same⟩
    exact ⟨j, ⟨memj, lockj⟩, k, ⟨memk, lockk⟩, same, apart⟩

/-- Every way of the writer is locked. -/
theorem allLocked_iff {own : List Nat} {f : Nat → Bool} :
    (!(own.filter f).isEmpty && decide ((own.filter f).length = own.length)) = true ↔ own ≠ [] ∧ ∀ k ∈ own, f k = true := by
  simp only [Bool.and_eq_true, Bool.not_eq_true', decide_eq_true_eq, List.length_filter_eq_length_iff]
  constructor
  · rintro ⟨some, all⟩
    refine ⟨fun none => ?_, all⟩
    subst none
    exact nomatch some
  · rintro ⟨some, all⟩
    rw [List.filter_eq_self.mpr all]
    exact ⟨List.isEmpty_eq_false_iff.mpr some, all⟩

/-! ## WAY_LOCK: its effect -/

theorem WAY_LOCK_stays : R.l2_WAY_LOCK.Stays := by decide

/-- An element written. -/
theorem Dev.wayLock_wr (d : Dev) (c k v j : Nat) :
    (d.wr R.l2_WAY_LOCK (withElem 8 (d.rd R.l2_WAY_LOCK c) k v) c).wayLock c j = if j = k then v % 2 ^ 64 else d.wayLock c j := by
  unfold Dev.wayLock
  rw [Dev.rd_wr_self]
  split
  · next same =>
    rw [same]
    exact elem_withElem_self ..
  · next apart => exact elem_withElem_ne _ _ _ apart

/-- The lines that leave for a locked way change no lock. -/
theorem Dev.lockWay_wayLock (d : Dev) (c p k v j : Nat) :
    (d.lockWay c p k v).wayLock c j = if j = k then v % 2 ^ 64 else d.wayLock c j := by
  unfold Dev.lockWay
  extract_lets e ks u
  have flushed : Dev.Accessed 0 d e := Dev.Accessed.refl.flushWay _ _ _
  have left : Dev.Accessed 0 d u := flushed.foldl (fun t k h => (h.evict _ _).settle _ _) ks
  rw [Dev.wayLock_wr, Dev.wayLock, left.rd (by decide) WAY_LOCK_stays c (by decide), ← Dev.wayLock]

/-- One way of the writer's follows its element. -/
def Dev.followLock (c p v : Nat) (d : Dev) (k : Nat) : Dev :=
  if elem 8 v k = d.wayLock c k then d
  else if bitOf (elem 8 v k) 63 then d.lockWay c p k (elem 8 v k)
  else d.wr R.l2_WAY_LOCK (withElem 8 (d.rd R.l2_WAY_LOCK c) k (elem 8 v k)) c

theorem Dev.followLock_wayLock (d : Dev) (c p v k j : Nat) :
    (d.followLock c p v k).wayLock c j = if j = k then elem 8 v k else d.wayLock c j := by
  have low : elem 8 v k % 2 ^ 64 = elem 8 v k := Nat.mod_eq_of_lt (Nat.mod_lt _ (by decide))
  unfold Dev.followLock
  split
  · next same =>
    split
    · next here => rw [here, same]
    · rfl
  · split
    · rw [Dev.lockWay_wayLock, low]
    · rw [Dev.wayLock_wr, low]

theorem Dev.followLocks_wayLock (c p v j : Nat) (l : List Nat) (d : Dev) :
    (l.foldl (Dev.followLock c p v) d).wayLock c j = if j ∈ l then elem 8 v j else d.wayLock c j := by
  induction l generalizing d with
  | nil => rfl
  | cons k l ih =>
    rw [List.foldl_cons, ih, Dev.followLock_wayLock]
    by_cases here : j = k
    · subst here
      simp
    · simp [here]

/-! ## WAY_LOCK: what a write comes to -/

/-- The write changes an element of a way that is not the writer's. -/
def Dev.AlienLock (d : Dev) (w : WriteOp) : Prop :=
  ∃ k < 16, k ∉ d.ownWays w.i w.p ∧ elem 8 w.v k ≠ elem 8 ((d.reported w.p 0x3410 0x03 w.i).getD 0) k

/-- It locks two ways to one region. -/
def Dev.TwiceLocked (d : Dev) (w : WriteOp) : Prop :=
  ∃ j ∈ d.ownWays w.i w.p, ∃ k ∈ d.ownWays w.i w.p, j ≠ k ∧ bitOf (elem 8 w.v j) 63 = true ∧ bitOf (elem 8 w.v k) 63 = true ∧
    elem 8 w.v j % 2 ^ 18 = elem 8 w.v k % 2 ^ 18

/-- It locks every way of the writer. -/
def Dev.AllLocked (d : Dev) (w : WriteOp) : Prop := d.ownWays w.i w.p ≠ [] ∧ ∀ k ∈ d.ownWays w.i w.p, bitOf (elem 8 w.v k) 63 = true

section
variable {d : Dev} {w : WriteOp}

theorem Dev.putWayLocks_of_alien (alien : d.AlienLock w) : d.putWayLocks w = turnedDown d 0x0401 := if_pos (alienLock_iff.mpr alien)

theorem Dev.putWayLocks_of_twice (own : ¬ d.AlienLock w) (twice : d.TwiceLocked w) : d.putWayLocks w = turnedDown d 0x0101 :=
  (if_neg (mt alienLock_iff.mp own)).trans (if_pos ((regions_repeat_iff (d.nodup_ownWays w.i w.p)).mpr twice))

theorem Dev.putWayLocks_of_full (own : ¬ d.AlienLock w) (once : ¬ d.TwiceLocked w) (full : d.AllLocked w) :
    d.putWayLocks w = turnedDown d 0x0303 :=
  (if_neg (mt alienLock_iff.mp own)).trans ((if_neg (mt (regions_repeat_iff (d.nodup_ownWays w.i w.p)).mp once)).trans
    (if_pos (allLocked_iff.mpr full)))

theorem Dev.putWayLocks_of_good (own : ¬ d.AlienLock w) (once : ¬ d.TwiceLocked w) (some : ¬ d.AllLocked w) :
    d.putWayLocks w = taken ((d.ownWays w.i w.p).foldl (Dev.followLock w.i w.p w.v) d) :=
  (if_neg (mt alienLock_iff.mp own)).trans ((if_neg (mt (regions_repeat_iff (d.nodup_ownWays w.i w.p)).mp once)).trans
    (if_neg (mt allLocked_iff.mp some)))

end

end Sys2Proof.Machine
end

section
/-! PROOFS. The rows' verdicts, and the writes of entries with rules of their own (R45, R102, R116, R126, R240, R456, R471, R484). -/

namespace Sys2Proof.Machine

/-! ## TWIN_PARTNER: one element changed -/

section
variable {d : Dev} {p c x : Nat}

theorem Dev.pairChange_of_stranger (other : d.coreOwner c ≠ some p) : d.pairChange p c x = .error 0x0401 := if_pos other

theorem Dev.pairChange_of_owner (own : d.coreOwner c = some p) : d.pairChange p c x =
    if x = 0xFFFF then .ok (d.dissolvePair c) else if 256 ≤ x then .error 0x0101
    else if d.pairRefused p c x ≠ 0 then .error (d.pairRefused p c x) else .ok ((d.setTwinPartner c x).setTwinPartner x c) :=
  if_neg (not_not.mpr own)

theorem Dev.pairChange_of_core (own : d.coreOwner c = some p) (core : x < 256) : d.pairChange p c x =
    if d.pairRefused p c x ≠ 0 then .error (d.pairRefused p c x) else .ok ((d.setTwinPartner c x).setTwinPartner x c) := by
  rw [Dev.pairChange_of_owner own, if_neg (by omega), if_neg (by omega)]

theorem Dev.pairChange_of_refused {r : Nat} (own : d.coreOwner c = some p) (core : x < 256) (refused : d.pairRefused p c x = r) (reason : r ≠ 0) :
    d.pairChange p c x = .error r := by
  rw [Dev.pairChange_of_core own core, refused, if_pos reason]

theorem Dev.pairChange_of_pair (own : d.coreOwner c = some p) (core : x < 256) (good : d.pairRefused p c x = 0) :
    d.pairChange p c x = .ok ((d.setTwinPartner c x).setTwinPartner x c) := by
  rw [Dev.pairChange_of_core own core, good, if_neg (not_not.mpr rfl)]

/-- A pair formed, in both elements. -/
theorem Dev.formPair_spec (d : Dev) (apart : c ≠ x) (hc : c < 256) (hx : x < 256) :
    let t := (d.setTwinPartner c x).setTwinPartner x c
    t.twinPartner c = x ∧ t.twinPartner x = c ∧ t.cores = d.cores := by
  intro t
  refine ⟨?_, ?_, rfl⟩
  · rw [Dev.twinPartner_set, if_neg apart, Dev.twinPartner_set, if_pos rfl]
    exact Nat.mod_eq_of_lt (by omega)
  · rw [Dev.twinPartner_set, if_pos rfl]
    exact Nat.mod_eq_of_lt (by omega)

end

/-- A write that changes no element of TWIN_PARTNER changes nothing. -/
theorem Dev.putTwin_of_same {d : Dev} {w : WriteOp} (same : ∀ k < 16, elem 2 w.v k = elem 2 ((d.reported w.p 0x3000 0x20 w.i).getD 0) k) :
    d.putTwin w = taken d :=
  Dev.putTwin_of_ok (pairChanges_of_same fun k mem => same k (List.mem_range.mp mem))

/-- The write changes element `k` of TWIN_PARTNER and no other. -/
def Dev.ChangesPartner (d : Dev) (w : WriteOp) (k : Nat) : Prop :=
  k < 16 ∧ (∀ j < 16, j ≠ k → elem 2 w.v j = elem 2 ((d.reported w.p 0x3000 0x20 w.i).getD 0) j) ∧
    elem 2 w.v k ≠ elem 2 ((d.reported w.p 0x3000 0x20 w.i).getD 0) k

section
variable {d : Dev} {w : WriteOp} {k : Nat}

theorem Dev.ChangesPartner.decides (one : d.ChangesPartner w k) :
    pairChanges w.p w.i w.v ((d.reported w.p 0x3000 0x20 w.i).getD 0) (List.range 16) d = d.pairChange w.p (16 * w.i + k) (elem 2 w.v k) := by
  obtain ⟨hk, others, changed⟩ := one
  exact pairChanges_of_one List.nodup_range (List.mem_range.mpr hk) (fun j mem => others j (List.mem_range.mp mem)) changed

theorem Dev.ChangesPartner.taken {t : Dev} (one : d.ChangesPartner w k) (ok : d.pairChange w.p (16 * w.i + k) (elem 2 w.v k) = .ok t) :
    d.putTwin w = Machine.taken t := Dev.putTwin_of_ok (one.decides.trans ok)

theorem Dev.ChangesPartner.refused {r : Nat} (one : d.ChangesPartner w k)
    (error : d.pairChange w.p (16 * w.i + k) (elem 2 w.v k) = .error r) : d.putTwin w = turnedDown d r := Dev.putTwin_of_error (one.decides.trans error)

/-- An element that changes to 0xFFFF named a partner. -/
theorem Dev.ChangesPartner.paired (one : d.ChangesPartner w k) (own : d.coreOwner (16 * w.i + k) = some w.p) (none : elem 2 w.v k = 0xFFFF) :
    d.twinPartner (16 * w.i + k) ≠ 0xFFFF := by
  obtain ⟨hk, -, changed⟩ := one
  rw [Dev.reported_twin hk own, none] at changed
  exact changed.symm

end

/-! ## Rings -/

/-- A ring's entry is refused while the ring is in use, and set with its index put back else. -/
theorem replies_of_ring {i : Instr} {q : List Instr} {d d1 : Dev} {o : Rx} {s : Session} {w : WriteOp} {row : DictRow}
    {apply : Dev → WriteOp → Verdict} {busy : Prop} [Decidable busy] {f : Dev → Dev} (h : d.Writes o row d1 s w)
    (hx : exec i { pending := q, dev := d } = State.act { pending := q, dev := d } fun d => d.writeRx o row apply)
    (verdict : apply d1 w = if busy then turnedDown d1 0x020D else d1.putThen w f) :
    (busy → Replies i q d o s w d1 0x020D) ∧
      (¬ busy → ((d1.putNow w).reason ≠ 0 → Replies i q d o s w (d1.putNow w).dev (d1.putNow w).reason) ∧
        ((d1.putNow w).reason = 0 → Replies i q d o s w (f (d1.putNow w).dev) 0)) :=
  ⟨fun used => replies_of_verdict h hx (verdict.trans (if_pos used)), fun free => replies_of_putThen h hx (verdict.trans (if_neg free))⟩

/-- The reason of a write of an inbound ring's entry, from the first of its checks that fails. -/
theorem Dev.inboundReason_eq (d : Dev) (w : WriteOp) (full : Bool) :
    let n := d.wr w.entry w.v 0 w.p
    let entries := n.rd R.amn_INBOUND_ENTRIES 0 w.p
    firstReason ((d.inboundChecks w full).map fun k => refuse k.1 k.2) =
      if full = true ∨ ∃ x ∈ d.net.inQ, x.pav = w.p ∧ x.kind = 1 then 0x020D
      else if ¬ n.ringMapped w.p (n.rd R.amn_INBOUND_BASE 0 w.p) (n.rd R.amn_INBOUND_SLOT 0 w.p * entries) = true then 0x0108
      else if ¬ (d.rd R.amn_INBOUND_ENTRIES 0 w.p ≤ entries ∨ d.windowSum w.p ≤ entries) then 0x0309
      else if ¬ (w.entry.sub = 0x22 → ∀ s ∈ d.pavSessions w.p, cdData s.desc = true → cdMaxRequest s.desc + 64 ≤ w.v) then 0x0105 else 0 := by
  intro n entries
  have free : (!full && !(d.net.inQ.any fun q => decide (q.pav = w.p) && decide (q.kind = 1))) = true ↔
      ¬ (full = true ∨ ∃ x ∈ d.net.inQ, x.pav = w.p ∧ x.kind = 1) := by
    simp only [Bool.and_eq_true, Bool.not_eq_true', List.any_eq_false, decide_eq_true_eq, not_or, not_exists, not_and, Bool.not_eq_true]
  have long : (decide (w.entry.sub ≠ 0x22) || (d.pavSessions w.p).all fun s => !cdData s.desc || decide (cdMaxRequest s.desc + 64 ≤ w.v)) = true ↔
      (w.entry.sub = 0x22 → ∀ s ∈ d.pavSessions w.p, cdData s.desc = true → cdMaxRequest s.desc + 64 ≤ w.v) := by
    simp only [Bool.or_eq_true, decide_eq_true_eq, List.all_eq_true, Bool.not_eq_true', ← Bool.not_eq_true, ne_eq, ← imp_iff_not_or]
  unfold Dev.inboundChecks
  simp only [List.map_cons, List.map_nil]
  rw [firstReason_cons _ (by decide), firstReason_cons _ (by decide), firstReason_cons _ (by decide), firstReason_cons _ (by decide)]
  simp only [free, long, Bool.or_eq_true, decide_eq_true_eq, ite_not]
  rfl

theorem Dev.putInbound_eq {d d2 : Dev} {w : WriteOp} {full : Bool} (next : (d.inRefresh w.p).anyFull w.p = (full, d2)) : d.putInbound w =
    (let r := firstReason ((d2.inboundChecks w full).map fun k => refuse k.1 k.2)
     if r ≠ 0 then turnedDown d2 r else d2.putThen w fun d => d.restartInbound w.p) := by
  unfold Dev.putInbound
  rw [next]

section
variable {d d2 : Dev} {w : WriteOp} {full : Bool} {r : Nat}

theorem Dev.putInbound_of_refused (next : (d.inRefresh w.p).anyFull w.p = (full, d2))
    (refused : firstReason ((d2.inboundChecks w full).map fun k => refuse k.1 k.2) = r) (reason : r ≠ 0) : d.putInbound w = turnedDown d2 r := by
  rw [Dev.putInbound_eq next, refused]
  exact if_pos reason

theorem Dev.putInbound_of_good (next : (d.inRefresh w.p).anyFull w.p = (full, d2))
    (good : firstReason ((d2.inboundChecks w full).map fun k => refuse k.1 k.2) = 0) :
    d.putInbound w = d2.putThen w fun d => d.restartInbound w.p := by
  rw [Dev.putInbound_eq next, good]
  exact if_neg (not_not.mpr rfl)

end

/-- The completion ring of an endpoint is in use: an operation whose record is owed, or records posted. -/
def Dev.CqBusy (d : Dev) (e : Nat) : Prop :=
  (∃ x ∈ d.chan.ops, x.ep = e ∧ (x.isOpen = true ∨ (x.posted = false ∧ x.st = .done))) ∨ d.postedOf e ≠ []

theorem Dev.cqBusy_iff {d : Dev} {e : Nat} :
    ((d.chan.ops.any fun x => decide (x.ep = e) && (x.isOpen || !x.posted && decide (x.st = .done))) || !(d.postedOf e).isEmpty) = true ↔
      d.CqBusy e := by
  unfold Dev.CqBusy
  simp only [Bool.or_eq_true, List.any_eq_true, Bool.and_eq_true, decide_eq_true_eq, Bool.not_eq_true', List.isEmpty_eq_false_iff, ne_eq]

/-- An entry of a mover may not change: the mover has a job, or its ring would not be mapped. -/
theorem moverBusy_iff {sub : Nat} {job mapped : Bool} :
    (decide (sub ≠ 0x13) && (job || !mapped)) = true ↔ sub ≠ 0x13 ∧ (job = true ∨ mapped = false) := by
  simp only [Bool.and_eq_true, decide_eq_true_eq, Bool.or_eq_true, Bool.not_eq_true']

end Sys2Proof.Machine
end

section
/-! PROOFS. Settings (R45, R89, R103, R116, R126, R240, R411, R414, R443, R456, R471, R483, R484, R536, R548). -/

namespace Sys2Proof

open Machine

/-- Settles O51: each row's verdict, branch by branch; a reply carries the verdict's device and reason. -/
theorem settings : Obligations.Settings := by
  refine ⟨fun d w => ⟨fun plain => ?plain, fun rws => ⟨fun t room => ?record, fun none => ?full⟩, ?off, Dev.putNow_effect⟩, ?rows⟩
  case plain =>
    rw [Dev.putNow_of_plain plain]
    exact ⟨rfl, rfl⟩
  case record =>
    rw [Dev.putNow_of_record rws room]
    exact ⟨rfl, rfl⟩
  case full =>
    rw [Dev.putNow_of_no_room rws none]
    exact ⟨rfl, rfl⟩
  case off => rw [Dev.putNow_eq]
  case rows =>
  intro q d d1 o s w row v
  refine ⟨?write, ?key, ?ucode, ?eck, ?twin, ?power, ?alert, ?range, ?ways, ?inbound, ?cq, ?mover, ?cipher, ?comp, ?density⟩
  case write =>
    intro h
    have replies := fun {t r off} => @replies_of_verdict _ q _ _ _ _ _ _ _ t r off h (exec_dictWrite o _)
    refine ⟨fun broken => replies (Dev.dictWrite_of_broken broken), fun kept => ⟨fun plain staged => ?_, fun plain now => ?_,
      fun base sub => replies (Dev.dictWrite_of_window kept base sub), fun base sub => replies (Dev.dictWrite_of_port kept base sub)⟩⟩
    · exact replies ((Dev.dictWrite_of_plain kept plain.1 plain.2).trans (if_pos staged))
    · exact replies_of_putNow h (exec_dictWrite o _) ((Dev.dictWrite_of_plain kept plain.1 plain.2).trans (if_neg now))
  case key =>
    intro h ready n key kind
    have replies : ∀ {t r off}, d1.keyWrite w = ⟨r, off, t⟩ → Replies (.keyWrite o) q d o s w t r off := fun {t r off} verdict => by
      have answers := keyWrite_replies (q := q) h ready
      rw [verdict] at answers
      exact answers
    refine ⟨fun other => replies (if_pos (by rw [other]; rfl)), fun own refused => replies ((if_neg (by rw [own]; decide)).trans (if_pos refused)),
      fun own good => ?_⟩
    obtain ⟨kindIs, keyIs, next, counters, rest⟩ := d1.loadKey_spec w.p n key
    exact ⟨_, replies ((if_neg (by rw [own]; decide)).trans (if_neg (not_not.mpr good))), kindIs, keyIs, next, counters, rest⟩
  case ucode =>
    intro h release
    have replies := fun {t r off} => @replies_of_verdict _ q _ _ _ _ _ _ _ t r off h (exec_ucodeImage o _)
    refine ⟨fun bad => replies (if_pos (by rw [bad]; rfl)), fun good lower => replies ((if_neg (by rw [good]; decide)).trans (if_pos lower)),
      fun good fits => ⟨_, replies ((if_neg (by rw [good]; decide)).trans (if_neg (not_lt.mpr fits))), rfl, Dev.rd_wr_self .., ?_, rfl⟩⟩
    exact Dev.rd_wr_ne _ _ (by decide)
  case eck =>
    intro h
    exact answers_of_act _ (exec_eck o _) h.runs (Dev.writeRx_of_writes _ _ h)
  case twin =>
    intro h seen
    have replies := fun {t r off} => @replies_of_verdict _ q _ _ _ _ _ _ _ t r off h (exec_twinPartner o _)
    refine ⟨fun same => replies (Dev.putTwin_of_same same), ?_⟩
    intro k hk others changed c x free
    have one : d1.ChangesPartner w k := ⟨hk, others, changed⟩
    refine ⟨fun other => replies (one.refused (Dev.pairChange_of_stranger other)),
      fun own => ⟨fun none => ?_, fun high some => ?_, fun core => ?_⟩⟩
    · have ok := (Dev.pairChange_of_owner (x := x) own).trans (if_pos none)
      exact ⟨_, replies (one.taken ok), d1.dissolvePair_spec (one.paired own none)⟩
    · exact replies (one.refused ((Dev.pairChange_of_owner own).trans ((if_neg some).trans (if_pos high))))
    · have checks := d1.pairRefused_eq w.p c x
      have refused := fun {r} good reason => replies (one.refused (Dev.pairChange_of_refused (r := r) own core good reason))
      refine ⟨fun no => refused (checks.trans (if_pos ?_)) (by decide), fun permit both => ?_⟩
      · rintro ⟨permit, -, both⟩
        exact no.elim (· permit) (· both)
      · rw [if_neg (not_not.mpr ⟨permit, own, both⟩)] at checks
        refine ⟨fun no => refused (checks.trans (if_pos ?_)) (by decide), fun apart freeC freeX => ?_⟩
        · rintro ⟨apart, freeC, freeX⟩
          exact no.elim apart (·.elim (· freeC) (· freeX))
        · rw [if_neg (not_not.mpr ⟨apart, freeC, freeX⟩)] at checks
          refine ⟨fun lost => refused (checks.trans (if_pos ?_)) (by decide), fun hereC hereX small => ?_⟩
          · rintro ⟨hereC, hereX⟩
            exact lost.elim hereC hereX
          · rw [if_neg (not_not.mpr ⟨hereC, hereX⟩)] at checks
            exact ⟨_, replies (one.taken (Dev.pairChange_of_pair own core checks)),
              d1.formPair_spec (fun same => apart (congrArg clusterOf same)) small core⟩
  case power =>
    intro h
    exact ⟨fun low => replies_of_verdict h (exec_powerCap o _) (if_pos low), fun fits => replies_of_putNow h (exec_powerCap o _) (if_neg (by omega))⟩
  case alert =>
    intro h
    have replies := fun {t r off} => @replies_of_verdict _ q _ _ _ _ _ _ _ t r off h (exec_alertAck o _)
    exact ⟨fun one => replies (congrArg taken (if_pos one)), fun other => replies (congrArg taken (if_neg other))⟩
  case range =>
    intro h base n ls
    have replies := fun {t r off} => @replies_of_verdict _ q _ _ _ _ _ _ _ t r off h (exec_rangeInval o _)
    refine ⟨fun none => replies (if_pos none), fun some => ⟨fun l => ?_, fun none => ?_, fun lines => replies (if_neg some)⟩⟩
    · rw [Dev.mem_heldLines, Nat.lt_succ_iff]
    · have verdict : d1.invalidate w = taken (ls.foldl (fun d l => d.flushLine w.p l false)
          (if ls.any (d1.lockedLine w.p) then d1.bump R.coh_LOCKED_INVAL else d1)) := if_neg some
      rw [none] at verdict
      exact replies verdict
  case ways =>
    intro h seen own locks alien twice full
    have replies := fun {t r off} => @replies_of_verdict _ q _ _ _ _ _ _ _ t r off h (exec_wayLock o _)
    refine ⟨fun other => replies (Dev.putWayLocks_of_alien other), fun mine two => replies (Dev.putWayLocks_of_twice mine two),
      fun mine one all => replies (Dev.putWayLocks_of_full mine one all),
      fun mine one some => ⟨_, replies (Dev.putWayLocks_of_good mine one some), fun k mem => ?_, fun k hk other => ?_⟩⟩
    · rw [Dev.followLocks_wayLock, if_pos mem]
    · rw [Dev.followLocks_wayLock, if_neg other]
  case inbound =>
    intro h d2 n entries busy mapped wide long
    have next : (d1.inRefresh w.p).anyFull w.p = (((d1.inRefresh w.p).anyFull w.p).1, d2) := rfl
    have checks := d2.inboundReason_eq w ((d1.inRefresh w.p).anyFull w.p).1
    have refused := fun {r} reason nonzero =>
      replies_of_verdict (q := q) h (exec_inboundConfig o _) (Dev.putInbound_of_refused (r := r) next reason nonzero)
    refine ⟨fun used => refused (checks.trans (if_pos used)) (by decide), fun free out => ?_, fun free fits low => ?_, fun free fits high short => ?_,
      fun free fits high far => ?_⟩
    · exact refused (checks.trans ((if_neg free).trans (if_pos out))) (by decide)
    · exact refused (checks.trans ((if_neg free).trans ((if_neg (not_not.mpr fits)).trans (if_pos low)))) (by decide)
    · exact refused (checks.trans ((if_neg free).trans ((if_neg (not_not.mpr fits)).trans ((if_neg (not_not.mpr high)).trans (if_pos short)))))
        (by decide)
    · have good := checks.trans ((if_neg free).trans ((if_neg (not_not.mpr fits)).trans ((if_neg (not_not.mpr high)).trans (if_neg (not_not.mpr far)))))
      obtain ⟨turned, set⟩ := replies_of_putThen (q := q) h (exec_inboundConfig o _) (Dev.putInbound_of_good next good)
      exact ⟨turned, fun effect => ⟨_, set effect, Dev.restartInbound_index .., rfl⟩⟩
  case cq =>
    intro h busy
    have replies := replies_of_ring (q := q) h (exec_cqConfig o _) rfl
    refine ⟨fun used => replies.1 (Dev.cqBusy_iff.mpr used), fun free => ?_⟩
    obtain ⟨turned, set⟩ := replies.2 (mt Dev.cqBusy_iff.mp free)
    exact ⟨turned, fun effect => ⟨_, set effect, Dev.restartCq_index .., rfl⟩⟩
  case mover =>
    intro h n bad
    have replies := replies_of_ring (q := q) h (exec_moverConfig o _) rfl
    refine ⟨fun used => replies.1 (moverBusy_iff.mpr used), fun free => ?_⟩
    obtain ⟨turned, set⟩ := replies.2 (mt moverBusy_iff.mp free)
    exact ⟨turned, fun effect => ⟨_, set effect, Dev.restartMover_index .., rfl⟩⟩
  case cipher =>
    intro h
    obtain ⟨busy, free⟩ := replies_of_ring (q := q) h (exec_cipherCqConfig o _) rfl
    refine ⟨busy, fun none => ?_⟩
    obtain ⟨turned, set⟩ := free (not_not.mpr none)
    exact ⟨turned, fun effect => ⟨_, set effect, Dev.restartCipherCq_index .., rfl⟩⟩
  case comp =>
    intro h
    obtain ⟨busy, free⟩ := replies_of_ring (q := q) h (exec_compressionCqConfig o _) rfl
    refine ⟨busy, fun none => ?_⟩
    obtain ⟨turned, set⟩ := free (not_not.mpr none)
    exact ⟨turned, fun effect => ⟨_, set effect, Dev.restartCompCq_index .., rfl⟩⟩
  case density =>
    intro h fits
    exact ⟨fun room => replies_of_putNow h (exec_density o _) (if_pos room),
      fun none => replies_of_verdict h (exec_density o _) (if_neg (Bool.eq_false_iff.mp none))⟩

end Sys2Proof
end

section
/-! PROOFS. Keys of entries in different blocks or with different subindexes, and devices of which only values, or only the memory system, have
changed. -/

namespace Sys2Proof.Machine

/-! ## Keys of entries -/

/-- Entries with different subindexes have different keys. -/
theorem Entry.key_ne_of_sub {e k : Entry} (he : e.sub < 256) (hk : k.sub < 256) (subs : e.sub ≠ k.sub) (i j : Nat) : e.key i 0 ≠ k.key j 0 := by
  intro same
  have keys := congrArg (· / 64) same
  simp only [Entry.key_div _ _ (by decide : 0 < 64)] at keys
  omega

/-- Entries of blocks one below the other have different keys. -/
theorem Entry.key_ne_of_base {e k : Entry} {i j : Nat} (hs : e.sub < 256) (below : e.base + i < k.base) : k.key j 0 ≠ e.key i 0 := by
  have upper := Entry.key_lt e i hs (by decide : 0 < 64)
  have lower := Entry.base_le_key k j 0
  have : (e.base + i + 1) * 2 ^ 14 ≤ k.base * 2 ^ 14 := Nat.mul_le_mul_right _ below
  omega

/-! ## Values alone changed -/

/-- From `d` to `t` only values have changed. -/
def Dev.SameButValues (t d : Dev) : Prop := { t with dict := d.dict } = d

namespace Dev.SameButValues

variable {t d : Dev}

theorem refl : d.SameButValues d := rfl
theorem wr (h : t.SameButValues d) (e : Entry) (v i p : Nat) : (t.wr e v i p).SameButValues d := h
theorem plat (h : t.SameButValues d) : t.plat = d.plat := (congrArg Dev.plat h :)
theorem time (h : t.SameButValues d) : t.time = d.time := (congrArg Dev.time h :)
theorem cores (h : t.SameButValues d) : t.cores = d.cores := (congrArg Dev.cores h :)
theorem mem (h : t.SameButValues d) : t.mem = d.mem := (congrArg Dev.mem h :)

end Dev.SameButValues

/-! ## The memory system alone changed -/

/-- From `d` to `t` only the memory system has changed, which holds the doorbells. -/
def Dev.SameButMem (t d : Dev) : Prop := { t with mem := d.mem } = d

namespace Dev.SameButMem

variable {t d : Dev}

theorem ring (h : t.SameButMem d) (p a : Nat) : (t.ring p a).SameButMem d := h
theorem plat (h : t.SameButMem d) : t.plat = d.plat := (congrArg Dev.plat h :)
theorem net (h : t.SameButMem d) : t.net = d.net := (congrArg Dev.net h :)
theorem alerts (h : t.SameButMem d) : t.alerts = d.alerts := (congrArg Dev.alerts h :)
theorem cores (h : t.SameButMem d) : t.cores = d.cores := (congrArg Dev.cores h :)
theorem rd (h : t.SameButMem d) (e : Entry) (i p : Nat) : t.rd e i p = d.rd e i p := (congrArg (fun t : Dev => t.rd e i p) h :)

end Dev.SameButMem

end Sys2Proof.Machine
end

section
/-! PROOFS. The bytes of an I2C write transfer and the window (R543 to R546). -/

namespace Sys2Proof.Machine

theorem exec_i2cWriteTransfer (o : OpI2cWrite) (s : State) : exec (.i2cWriteTransfer o) s = execI2cWriteTransfer o s := rfl
theorem exec_i2cReadTransfer (o : OpI2cRead) (s : State) : exec (.i2cReadTransfer o) s = execI2cReadTransfer o s := rfl
theorem exec_i2cWindowRefresh (o : OpT0) (s : State) : exec (.i2cWindowRefresh o) s = execI2cWindowRefresh o s := rfl
theorem exec_i2cAlertAck (o : OpT0) (s : State) : exec (.i2cAlertAck o) s = execI2cAlertAck o s := rfl
theorem exec_i2cPowerCap (o : OpI2cCap) (s : State) : exec (.i2cPowerCap o) s = execI2cPowerCap o s := rfl

/-! ## The bytes of a write transfer (R544, R546) -/

/-- The byte that a write transfer from offset `a` has for register `k`. -/
def i2cByteFor (a : Nat) (b : Bytes) (k : Nat) : Option Byte := b[(k + 256 - a) % 256]?

/-- One byte more is for the register after those of the bytes before it. -/
theorem i2cByteFor_concat {a k : Nat} {b : Bytes} (x : Byte) (ha : a < 256) (hk : k < 256) (room : b.length < 256) :
    i2cByteFor a (b ++ [x]) k = if k = (a + b.length) % 256 then some x else i2cByteFor a b k := by
  unfold i2cByteFor
  have last : (k + 256 - a) % 256 = b.length ↔ k = (a + b.length) % 256 := by omega
  split
  case isTrue at_ => rw [last.mpr at_, List.getElem?_concat_length]
  case isFalse off =>
    rw [List.getElem?_append]
    split
    case isTrue => rfl
    case isFalse past =>
      rw [List.getElem?_eq_none (Nat.le_of_not_lt past), List.getElem?_eq_none]
      rw [List.length_singleton]
      have := mt last.mp off
      omega

/-- The bytes before it have none for that register. -/
theorem i2cByteFor_next {a : Nat} {b : Bytes} (ha : a < 256) (room : b.length < 256) : i2cByteFor a b ((a + b.length) % 256) = none :=
  List.getElem?_eq_none (by omega)

/-- A register of the window that takes no write. -/
abbrev I2cFixed (k : Nat) : Prop := k ≠ 0x08 ∧ k ≠ 0x09 ∧ k ≠ 0x0E

/-- What one byte writes: a byte of POWER_CAP, the acknowledgement of alerts, or the refusal of a register that takes none. -/
theorem Dev.i2cByte_spec (d : Dev) (r : Nat) (b : Byte) :
    (d.i2cByte r b).plat.capBytes =
      (if 0x08 = r then some b.toNat else d.plat.capBytes.1, if 0x09 = r then some b.toNat else d.plat.capBytes.2) ∧
    (d.i2cByte r b).alertOpen = (if 0x0E = r ∧ b = 1 then false else d.alertOpen) ∧
    (d.i2cByte r b).plat.i2cResult = (if I2cFixed r then 0x0109 else d.plat.i2cResult) ∧
    (d.i2cByte r b).plat.i2cOffset = d.plat.i2cOffset ∧ ∀ x y, { d.i2cByte r b with plat := x, alertOpen := y } = { d with plat := x, alertOpen := y } := by
  unfold Dev.i2cByte
  split
  case h_1 => exact ⟨rfl, rfl, rfl, rfl, fun _ _ => rfl⟩
  case h_2 => exact ⟨rfl, rfl, rfl, rfl, fun _ _ => rfl⟩
  case h_3 =>
    by_cases ack : b = 1
    · rw [if_pos ack]
      exact ⟨rfl, (if_pos ⟨rfl, ack⟩).symm, rfl, rfl, fun _ _ => rfl⟩
    · rw [if_neg ack]
      exact ⟨rfl, (if_neg fun both => ack both.2).symm, rfl, rfl, fun _ _ => rfl⟩
  case h_4 low high ack =>
    rw [if_neg (Ne.symm low), if_neg (Ne.symm high), if_neg fun both => ack both.1.symm, if_pos ⟨low, high, ack⟩]
    exact ⟨rfl, rfl, rfl, rfl, fun _ _ => rfl⟩

/-- From `d` to `t` the bytes `b` have been written from offset `a` on. -/
structure Dev.I2cWritten (d : Dev) (a : Nat) (b : Bytes) (t : Dev) : Prop where
  cap : d.plat.capBytes = (none, none) →
    t.plat.capBytes = ((i2cByteFor a b 0x08).map BitVec.toNat, (i2cByteFor a b 0x09).map BitVec.toNat)
  ack : t.alertOpen = if i2cByteFor a b 0x0E = some 1 then false else d.alertOpen
  refused : (∃ k < 256, i2cByteFor a b k ≠ none ∧ I2cFixed k) → t.plat.i2cResult = 0x0109
  passed : (∀ k < 256, i2cByteFor a b k ≠ none → ¬ I2cFixed k) → t.plat.i2cResult = d.plat.i2cResult
  offset : t.plat.i2cOffset = d.plat.i2cOffset
  apart : { t with plat := d.plat, alertOpen := d.alertOpen } = d

/-- The bytes of a write transfer, each written to its register. -/
def Dev.i2cBytes (d : Dev) (a : Nat) (b : Bytes) : Dev := b.zipIdx.foldl (fun d e => d.i2cByte ((a + e.2) % 256) e.1) d

theorem Dev.i2cBytes_concat (d : Dev) (a : Nat) (b : Bytes) (x : Byte) :
    d.i2cBytes a (b ++ [x]) = (d.i2cBytes a b).i2cByte ((a + b.length) % 256) x := by
  unfold Dev.i2cBytes
  rw [List.zipIdx_append, List.foldl_append]
  simp

/-- A byte more, for a register that has none yet. -/
theorem Dev.I2cWritten.concat {d t : Dev} {a : Nat} {b : Bytes} (h : d.I2cWritten a b t) (x : Byte) (ha : a < 256) (room : b.length < 256) :
    d.I2cWritten a (b ++ [x]) (t.i2cByte ((a + b.length) % 256) x) := by
  have next := i2cByteFor_next ha room
  have byteFor := fun k (hk : k < 256) => i2cByteFor_concat (k := k) x ha hk room
  have bound : (a + b.length) % 256 < 256 := Nat.mod_lt _ (by decide)
  generalize (a + b.length) % 256 = r at next byteFor bound
  obtain ⟨cap, ack, result, offset, apart⟩ := t.i2cByte_spec r x
  refine ⟨fun none => ?_, ?_, fun ⟨k, hk, held, fixed⟩ => ?_, fun all => ?_, offset.trans h.offset, (apart _ _).trans h.apart⟩
  · rw [cap, h.cap none, byteFor 0x08 (by decide), byteFor 0x09 (by decide), apply_ite (Option.map _), apply_ite (Option.map _)]
    rfl
  · rw [ack, byteFor 0x0E (by decide), h.ack]
    by_cases at_ : 0x0E = r
    · rw [at_, next]
      simp
    · simp only [at_, false_and, if_false]
  · rw [result]
    split
    · rfl
    · refine h.refused ⟨k, hk, ?_, fixed⟩
      rwa [byteFor k hk, if_neg (fun at_ : k = r => absurd (at_ ▸ fixed) ‹_›)] at held
  · have new : i2cByteFor a (b ++ [x]) r ≠ none := by simp [byteFor r bound]
    rw [result, if_neg (all r bound new)]
    refine h.passed fun k hk held => all k hk ?_
    rw [byteFor k hk]
    split
    · exact Option.some_ne_none x
    · exact held

/-- Each byte goes to the register after that of the byte before it. -/
theorem Dev.i2cBytes_written (d : Dev) {a : Nat} (b : Bytes) (ha : a < 256) (room : b.length ≤ 256) : d.I2cWritten a b (d.i2cBytes a b) := by
  induction b using List.reverseRecOn with
  | nil => exact ⟨fun none => none, rfl, fun ⟨_, _, held, _⟩ => absurd rfl held, fun _ => rfl, rfl, rfl⟩
  | append_singleton b x ih =>
    rw [List.length_append, List.length_singleton] at room
    rw [Dev.i2cBytes_concat]
    exact (ih (by omega)).concat x ha (by omega)

/-! ## Transfers and the window (R544, R545) -/

variable {q : List Instr} {d : Dev}

theorem i2cWriteTransfer_early {o : OpI2cWrite} (running : d.thermalStop = false) (early : d.plat.step < 6) :
    Answers (.i2cWriteTransfer o) q d (d.at o.t) := answers_of_act _ (exec_i2cWriteTransfer o _) running (if_pos early)

/-- The device as a write transfer to offset `a` of `n` bytes meets it. -/
def Dev.i2cAddressed (d : Dev) (a n : Nat) : Dev := d.onPlat fun x => { x with capBytes := (none, none), i2cOffset := (a + n) % 256 }

theorem i2cWriteTransfer_answers {o : OpI2cWrite} (running : d.thermalStop = false) (served : 6 ≤ d.plat.step) :
    Answers (.i2cWriteTransfer o) q d (((d.at o.t).i2cAddressed o.offset.toNat o.bytes.length).i2cBytes o.offset.toNat o.bytes) :=
  answers_of_act _ (exec_i2cWriteTransfer o _) running (if_neg (Nat.not_lt.mpr served))

theorem i2cReadTransfer_early {o : OpI2cRead} (running : d.thermalStop = false) (early : d.plat.step < 6) :
    Answers (.i2cReadTransfer o) q d (d.at o.t) := answers_of_act _ (exec_i2cReadTransfer o _) running (if_pos early)

/-- The device after a read transfer of `n` bytes. -/
def Dev.i2cRead (d : Dev) (n : Nat) : Dev := d.onPlat fun x => { x with
  i2cOut := (List.range n).map fun k => x.window.getD ((x.i2cOffset + k) % 256) 0xFF
  i2cOffset := (x.i2cOffset + n) % 256 }

theorem i2cReadTransfer_answers {o : OpI2cRead} (running : d.thermalStop = false) (served : 6 ≤ d.plat.step) :
    Answers (.i2cReadTransfer o) q d ((d.at o.t).i2cRead o.count) :=
  answers_of_act _ (exec_i2cReadTransfer o _) running (if_neg (Nat.not_lt.mpr served))

theorem Dev.i2cRead_out (d : Dev) (n : Nat) : (d.i2cRead n).plat.i2cOut.length = n ∧
    ∀ k < n, (d.i2cRead n).plat.i2cOut[k]? = some (d.plat.window.getD ((d.plat.i2cOffset + k) % 256) 0xFF) := by
  refine ⟨(List.length_map _).trans List.length_range, fun k hk => ?_⟩
  show ((List.range n).map _)[k]? = _
  rw [List.getElem?_map, List.getElem?_range hk]
  rfl

theorem i2cAlertAck_early {o : OpT0} (running : d.thermalStop = false) (early : d.plat.step < 6) : Answers (.i2cAlertAck o) q d (d.at o.t) :=
  answers_of_act _ (exec_i2cAlertAck o _) running (if_pos early)

theorem i2cAlertAck_answers {o : OpT0} (running : d.thermalStop = false) (served : 6 ≤ d.plat.step) :
    Answers (.i2cAlertAck o) q d { d.at o.t with alertOpen := false } :=
  answers_of_act _ (exec_i2cAlertAck o _) running (if_neg (Nat.not_lt.mpr served))

theorem i2cWindowRefresh_early {o : OpT0} (running : d.thermalStop = false) (early : d.plat.step < 6) :
    Answers (.i2cWindowRefresh o) q d (d.at o.t) := answers_of_act _ (exec_i2cWindowRefresh o _) running (if_pos early)

theorem i2cWindowRefresh_answers {o : OpT0} (running : d.thermalStop = false) (served : 6 ≤ d.plat.step) :
    Answers (.i2cWindowRefresh o) q d ((d.at o.t).onPlat fun x => { x with window := (d.at o.t).windowNow }) :=
  answers_of_act _ (exec_i2cWindowRefresh o _) running (if_neg (Nat.not_lt.mpr served))

/-- The window has 64 bytes (Table 19.10). -/
theorem Dev.length_windowNow (d : Dev) : d.windowNow.length = 64 := by
  simp [Dev.windowNow, zeros]

/-! ## POWER_CAP through the window (R546) -/

/-- A refusal with no other offending entry, in the 0x7F00 entries of the estate (R541). -/
theorem Dev.noteRefusal_estate (d : Dev) (reason index sub source session : Nat) :
    let t := d.noteRefusal 0 reason index sub none source session
    t.rd R.refusal_REASON = reason ∧ t.rd R.refusal_INDEX = index ∧ t.rd R.refusal_SUB = sub ∧ t.rd R.refusal_SOURCE = source ∧
      t.rd R.refusal_TIME = d.time ∧ t.rd R.refusal_COUNT = min (d.rd R.refusal_COUNT + 1) (256 ^ R.refusal_COUNT.size - 1) ∧
      t.rd R.pow_POWER_CAP = d.rd R.pow_POWER_CAP ∧ t.plat = d.plat := by
  intro t
  refine ⟨?_, ?_, ?_, ?_, ?_, ?_, ?_, rfl⟩
  all_goals
    simp (disch := decide) only [t, Dev.noteRefusal, Dev.rd_bump_ne, Dev.rd_bump_self, Dev.rd_wr_ne, Dev.rd_wr_self, Dev.wr_time, Option.getD_none]

/-- What a write of `v` to POWER_CAP through the window comes to. -/
def Dev.i2cCapReason (d : Dev) (v : Nat) : Nat :=
  if d.rd R.i2c_I2C_WRITES = 0 then 0x0401 else if v < 350 ∨ 780 < v then 0x0101
    else if v < d.pAdmit d.deadlineClusters then 0x0503 else if d.recordDict R.pow_POWER_CAP 0 0 v = none then 0x0305 else 0

/-- Either a refusal, which changes nothing, or a write recorded and in force. -/
theorem Dev.i2cCap_spec (d : Dev) (v : Nat) :
    (d.i2cCapReason v ≠ 0 ∧ d.i2cCap v = turnedDown d (d.i2cCapReason v)) ∨
      (d.i2cCapReason v = 0 ∧ ∃ t, d.recordDict R.pow_POWER_CAP 0 0 v = some t ∧ d.i2cCap v = taken (t.wr R.pow_POWER_CAP v)) := by
  unfold Dev.i2cCap Dev.i2cCapReason
  by_cases locked : d.rd R.i2c_I2C_WRITES = 0
  · exact .inl (by simp [locked])
  have range : (!d.inRange 0 R.pow_POWER_CAP 0 v) = true ↔ v < 350 ∨ 780 < v := by
    simp only [Dev.inRange, R.pow_POWER_CAP, Bool.not_eq_true', Bool.and_eq_false_iff, decide_eq_false_iff_not, Nat.not_le]
  by_cases outside : v < 350 ∨ 780 < v
  · exact .inl (by simp [locked, outside, range.mpr outside])
  simp only [if_neg locked, if_neg outside, if_neg (mt range.mp outside), Dev.putPowerCap]
  by_cases admitted : v < d.pAdmit d.deadlineClusters
  · exact .inl (by simp [admitted])
  simp only [if_neg admitted]
  cases room : d.recordDict R.pow_POWER_CAP 0 0 v
  case none => exact .inl ⟨by decide, Dev.putNow_of_no_room rfl room⟩
  case some t => exact .inr ⟨by simp, t, rfl, Dev.putNow_of_record rfl room⟩

/-- The transfer wrote other bytes than the two of POWER_CAP. -/
theorem i2cPowerCap_other {o : OpI2cCap} (running : d.thermalStop = false)
    (other : d.plat.capBytes ≠ (some (o.watts.toNat % 256), some (o.watts.toNat / 256))) : Answers (.i2cPowerCap o) q d (d.at o.t) :=
  answers_of_act _ (exec_i2cPowerCap o _) running (if_pos other)

/-- A value recorded leaves the platform. -/
theorem Dev.Rings.plat {d t : Dev} (h : d.Rings t) : t.plat = d.plat := (congrArg Dev.plat h.rest :)

/-- The device with POWER_CAP's bytes taken from the transfer. -/
def Dev.i2cStopped (d : Dev) : Dev := d.onPlat fun y => { y with capBytes := (none, none) }

/-- The device with the verdict of a write of POWER_CAP at WRITE_RESULT, and a refusal recorded. -/
def Dev.i2cVerdict (x : Verdict) : Dev :=
  (if x.reason = 0 then x.dev else x.dev.noteRefusal 0 x.reason 0x1100 0x03 none 1 0).onPlat fun y => { y with i2cResult := x.reason }

theorem i2cPowerCap_whole {o : OpI2cCap} (running : d.thermalStop = false)
    (whole : d.plat.capBytes = (some (o.watts.toNat % 256), some (o.watts.toNat / 256))) :
    Answers (.i2cPowerCap o) q d (Dev.i2cVerdict ((d.at o.t).i2cStopped.i2cCap o.watts.toNat)) :=
  answers_of_act _ (exec_i2cPowerCap o _) running (if_neg (not_not.mpr whole))

/-- A refusal is at WRITE_RESULT and in the 0x7F00 entries, and POWER_CAP stays. -/
theorem Dev.i2cVerdict_refused (d : Dev) {r : Nat} (refused : r ≠ 0) :
    let t := Dev.i2cVerdict (turnedDown d r)
    t.plat = { d.plat with i2cResult := r } ∧ t.rd R.pow_POWER_CAP = d.rd R.pow_POWER_CAP ∧ t.rd R.refusal_REASON = r ∧
      t.rd R.refusal_INDEX = 0x1100 ∧ t.rd R.refusal_SUB = 0x03 ∧ t.rd R.refusal_SOURCE = 1 ∧ t.rd R.refusal_TIME = d.time ∧
      t.rd R.refusal_COUNT = min (d.rd R.refusal_COUNT + 1) (256 ^ R.refusal_COUNT.size - 1) := by
  intro t
  have verdict : t = (d.noteRefusal 0 r 0x1100 0x03 none 1 0).onPlat fun y => { y with i2cResult := r } := by
    show Dev.onPlat (if r = 0 then _ else _) _ = _
    rw [if_neg refused]
    rfl
  obtain ⟨value, index, sub, source, time, count, cap, plat⟩ := d.noteRefusal_estate r 0x1100 0x03 1 0
  rw [verdict, Dev.onPlat_plat, plat]
  refine ⟨rfl, ?_⟩
  simp only [Dev.rd_onPlat]
  exact ⟨cap, value, index, sub, source, time, count⟩

end Sys2Proof.Machine
end

section
/-! PROOFS. Temperature and the TAP (R585, R586, R600). -/

namespace Sys2Proof.Machine

theorem exec_thermAssert (o : OpTherm) (s : State) : exec (.thermAssert o) s = execThermAssert o s := rfl
theorem exec_thermRelease (o : OpTherm) (s : State) : exec (.thermRelease o) s = execThermRelease o s := rfl
theorem exec_thermalStop (o : OpTherm) (s : State) : exec (.thermalStop o) s = execThermalStop o s := rfl
theorem exec_tapInstruction (o : OpTap) (s : State) : exec (.tapInstruction o) s = execTapInstruction o s := rfl

/-! ## A die's reading -/

/-- The readings of single clusters, free values, leave TJ and all but the values and the counter of free values. -/
theorem Dev.readTj_tj (d : Dev) (die : Nat) (tj : Int) :
    (d.readTj die tj).rd R.dev_TJ = withElem 2 (d.rd R.dev_TJ) die (i16 tj) ∧ { d.readTj die tj with dict := d.dict, fresh := d.fresh } = d := by
  unfold Dev.readTj
  dsimp only
  split
  · refine foldl_keeps (P := fun t : Dev => t.rd R.dev_TJ = withElem 2 (d.rd R.dev_TJ) die (i16 tj) ∧ { t with dict := d.dict, fresh := d.fresh } = d)
      _ (fun t k h => ?_) _ ⟨Dev.rd_wr_self .., rfl⟩
    obtain ⟨reading, apart⟩ := h
    exact ⟨(Dev.rd_wr_ne _ _ (Entry.key_ne_of_sub (by decide) (by decide) (by decide) _ _)).trans reading, apart⟩
  · exact ⟨Dev.rd_wr_self .., rfl⟩

/-- The element of TJ that a reading writes, and the others. -/
theorem Dev.readTj_elem (d : Dev) (die : Nat) (tj : Int) (k : Nat) :
    elem 2 ((d.readTj die tj).rd R.dev_TJ) k = if k = die then (tj % 65536).toNat else elem 2 (d.rd R.dev_TJ) k := by
  rw [(d.readTj_tj die tj).1]
  split
  case isTrue same =>
    rw [same, elem_withElem_self, i16]
    omega
  case isFalse other => exact elem_withElem_ne _ _ _ other

theorem Dev.readTj_apart (d : Dev) (die : Nat) (tj : Int) : { d.readTj die tj with dict := d.dict, fresh := d.fresh } = d := (d.readTj_tj die tj).2

theorem Dev.readTj_plat (d : Dev) (die : Nat) (tj : Int) : (d.readTj die tj).plat = d.plat := (congrArg Dev.plat (d.readTj_apart die tj) :)
theorem Dev.readTj_cores (d : Dev) (die : Nat) (tj : Int) : (d.readTj die tj).cores = d.cores := (congrArg Dev.cores (d.readTj_apart die tj) :)
theorem Dev.readTj_mem (d : Dev) (die : Nat) (tj : Int) : (d.readTj die tj).mem = d.mem := (congrArg Dev.mem (d.readTj_apart die tj) :)
theorem Dev.readTj_hearth (d : Dev) (die : Nat) (tj : Int) : (d.readTj die tj).hearth = d.hearth := (congrArg Dev.hearth (d.readTj_apart die tj) :)

/-! ## The thermal thresholds -/

variable {q : List Instr} {d : Dev} {o : OpTherm}

/-- The device with the command's reading in. -/
abbrev Dev.reads (d : Dev) (o : OpTherm) : Dev := (d.at o.t).readTj o.die o.tj

theorem Dev.reads_plat (d : Dev) (o : OpTherm) : (d.reads o).plat = d.plat := Dev.readTj_plat ..

theorem thermAssert_quiet (running : d.thermalStop = false) (quiet : ¬ (5 ≤ d.plat.step ∧ d.plat.therm = false ∧ 1150 ≤ (d.reads o).tjMax)) :
    Answers (.thermAssert o) q d (d.reads o) := by
  refine answers_of_act _ (exec_thermAssert o _) running (if_pos ?_)
  rw [Dev.reads_plat]
  by_contra rises
  simp only [not_or, Nat.not_lt, Bool.not_eq_true, Int.not_lt] at rises
  exact quiet rises

/-- The device with THERM_L asserted, counted and alerted. -/
def Dev.thermRises (d : Dev) : Dev :=
  ((d.onPlat fun x => { x with therm := true }).bump R.dev_THERM_EVENTS).alert 0x1000 0x0C 0xFF (i16 d.tjMax)

theorem thermAssert_rises (running : d.thermalStop = false) (powered : 5 ≤ d.plat.step) (cool : d.plat.therm = false)
    (hot : 1150 ≤ (d.reads o).tjMax) : Answers (.thermAssert o) q d (d.reads o).thermRises := by
  refine answers_of_act _ (exec_thermAssert o _) running (if_neg ?_)
  rw [Dev.reads_plat]
  simp only [not_or, Nat.not_lt, Bool.not_eq_true, Int.not_lt]
  exact ⟨powered, cool, hot⟩

theorem thermRelease_warm (running : d.thermalStop = false) (warm : 1100 < (d.reads o).tjMax) : Answers (.thermRelease o) q d (d.reads o) :=
  answers_of_act _ (exec_thermRelease o _) running (if_neg (Int.not_le.mpr warm))

theorem thermRelease_cool (running : d.thermalStop = false) (cool : (d.reads o).tjMax ≤ 1100) :
    Answers (.thermRelease o) q d ((d.reads o).onPlat fun x => { x with therm := false }) :=
  answers_of_act _ (exec_thermRelease o _) running (if_pos cool)

theorem thermalStop_quiet (running : d.thermalStop = false) (quiet : ¬ (5 ≤ d.plat.step ∧ 1250 ≤ (d.reads o).tjMax)) :
    Answers (.thermalStop o) q d (d.reads o) := by
  refine answers_of_act _ (exec_thermalStop o _) running (if_pos ?_)
  rw [Dev.reads_plat]
  by_contra stops
  simp only [not_or, Nat.not_lt, Int.not_lt] at stops
  exact quiet stops

/-- The device stopped, with a record in the device area. -/
def Dev.thermallyStops (d : Dev) : Dev := { d with thermalStop := true, hearth := { d.hearth with thermal := true } }

theorem thermalStop_stops (running : d.thermalStop = false) (powered : 5 ≤ d.plat.step) (hot : 1250 ≤ (d.reads o).tjMax) :
    Answers (.thermalStop o) q d (d.reads o).thermallyStops := by
  refine answers_of_act _ (exec_thermalStop o _) running (if_neg ?_)
  rw [Dev.reads_plat]
  simp only [not_or, Nat.not_lt, Int.not_lt]
  exact ⟨powered, hot⟩

/-! ## The TAP -/

theorem tapInstruction_unpowered {o : OpTap} (unpowered : d.plat.vin = false) : Answers (.tapInstruction o) q d d :=
  answers_of_board _ (exec_tapInstruction o _) (if_neg (by rw [unpowered]; decide))

theorem tapInstruction_powered {o : OpTap} (powered : d.plat.vin = true) :
    Answers (.tapInstruction o) q d (d.onPlat fun x => { x with tap := tapLoads x.resetLow o.instr }) :=
  answers_of_board _ (exec_tapInstruction o _) (if_pos powered)

end Sys2Proof.Machine
end

section
namespace Sys2Proof
open Machine

/-- Settles O55. A write transfer is followed byte by byte (`Dev.I2cWritten`); each other command by the branches of its meaning. -/
theorem windowAndTemperature : Obligations.WindowAndTemperature := by
  unfold Obligations.WindowAndTemperature
  intro more
  refine ⟨?writes, ?reads, ?refresh, ?cap, ?reading, ?thresholds, ?tap⟩
  case writes =>
    intro q d o running d1 a byteAt
    refine ⟨fun early => i2cWriteTransfer_early running early, fun served room => ⟨_, i2cWriteTransfer_answers running served, ?_⟩⟩
    have written := ((d.at o.t).i2cAddressed a o.bytes.length).i2cBytes_written o.bytes o.offset.isLt room
    refine ⟨written.offset, written.cap rfl, written.ack, written.refused, fun open_ => written.passed fun k hk held => ?_, ?_⟩
    · have reg := open_ k hk held
      rintro ⟨low, high, ack⟩
      exact reg.elim low (·.elim high ack)
    · have apart := written.apart
      exact congrArg (fun t : Dev => ({ t with plat := d1.plat } : Dev)) apart
  case reads =>
    intro q d o running d1
    refine ⟨fun early => i2cReadTransfer_early running early, fun served => ⟨_, i2cReadTransfer_answers running served, ?_⟩⟩
    obtain ⟨length, bytes⟩ := (d.at o.t).i2cRead_out o.count
    exact ⟨length, bytes, rfl, rfl⟩
  case refresh =>
    intro q d o running d1
    exact ⟨fun early => ⟨i2cWindowRefresh_early running early, i2cAlertAck_early running early⟩, fun served => ⟨i2cAlertAck_answers running served,
      _, i2cWindowRefresh_answers running served, rfl, d1.length_windowNow, rfl⟩⟩
  case cap =>
    intro q d o running v whole d1 reason
    refine ⟨fun other => i2cPowerCap_other running other, fun both => ?_⟩
    have answers := i2cPowerCap_whole (q := q) running both
    rcases d1.i2cCap_spec v with ⟨refused, verdict⟩ | ⟨passes, t, room, verdict⟩
    · have refusal := d1.i2cVerdict_refused refused
      rw [← verdict] at refusal
      obtain ⟨plat, cap, recorded⟩ := refusal
      exact ⟨_, answers, congrArg Plat.i2cResult plat, congrArg Plat.capBytes plat, fun zero => absurd zero refused, fun _ => ⟨cap, recorded⟩⟩
    · have plat : (Dev.i2cVerdict (d1.i2cCap v)).plat = { d1.plat with i2cResult := 0 } := by
        rw [verdict]
        exact congrArg (fun x : Plat => { x with i2cResult := 0 }) (Dev.Rings.refl.recordDict room).plat
      refine ⟨_, answers, (congrArg Plat.i2cResult plat).trans passes.symm, congrArg Plat.capBytes plat, fun _ => ?_, fun refused => absurd passes refused⟩
      show (Dev.i2cVerdict (d1.i2cCap v)).rd R.pow_POWER_CAP = v
      rw [verdict]
      exact Dev.rd_wr_self ..
  case reading =>
    intro d die tj t
    exact ⟨fun k _ => d.readTj_elem die tj k, d.readTj_apart die tj⟩
  case thresholds =>
    intro q d o running d2 rises stops
    refine ⟨fun quiet => thermAssert_quiet running quiet, ?_, fun warm => thermRelease_warm running warm,
      fun cool => ⟨_, thermRelease_cool running cool, rfl, rfl⟩, fun quiet => thermalStop_quiet running quiet, ?_⟩
    · rintro ⟨powered, cool, hot⟩
      refine ⟨_, thermAssert_rises running powered cool hot, rfl, ?_, Dev.rd_bump_self .., rfl, rfl, Dev.readTj_cores .., Dev.readTj_mem ..⟩
      have step : 5 ≤ (d.reads o).plat.step := (congrArg Plat.step (d.reads_plat o)).ge.trans' powered
      rw [Dev.thermL, Bool.or_eq_true, Bool.and_eq_true, decide_eq_true_eq]
      exact .inr ⟨step, rfl⟩
    · rintro ⟨powered, hot⟩
      refine ⟨_, thermalStop_stops running powered hot, rfl, ?_, rfl, rfl, rfl, ?_, rfl⟩
      · exact Bool.and_false _
      · exact (congrArg (fun h : Hearth => ({ h with thermal := d.hearth.thermal } : Hearth)) (Dev.readTj_hearth (d.at o.t) o.die o.tj) :)
  case tap =>
    intro q d o i pins
    refine ⟨fun unpowered => tapInstruction_unpowered unpowered, fun powered => ⟨_, tapInstruction_powered powered, rfl, ?_, ?_, ?_⟩⟩
    · rintro (pin | pin | pin | pin | pin) <;> exact (congrArg (tapLoads _) pin).trans (by rw [pin]; rfl)
    · rintro (loads | loads | loads) <;> exact (congrArg (tapLoads _) loads).trans loads.symm
    · exact fun other => congrArg (tapLoads _) other

end Sys2Proof
end

section
/-! PROOFS. The loss of XTAL on a device that rings a pavilion for it (R135, R565). -/

namespace Sys2Proof.Machine

theorem exec_clockLoss (o : OpClock) (s : State) : exec (.clockLoss o) s = execClockLoss o s := rfl

/-- A device past step 4 of start-up with XTAL present. Pavilion 1 exists and has an admitted deadline class. -/
def timedDevice : Dev where
  dict := [(R.pav_STATE.key 1 0, 2)]
  plat := { vin := true, step := 12, xtal := true }
  net := { sessions := [{ id := 5, pav := 1, st := .open, desc := slowClass }] }

/-- XTAL is lost. -/
def xtalLoss : OpClock where
  input := .xtal
  t := 200

/-- The device with the loss counted and TB_COAST raised. -/
def timedCoasting : Dev :=
  (((timedDevice.netAt xtalLoss.t).onPlat fun x => { x with xtal := false, xtalKept := false }).bump R.pow_XTAL_LOSSES).startCoast

theorem xtalLoss_answers : Answers (.clockLoss xtalLoss) [] timedDevice timedCoasting := by
  refine answers_of_board _ (exec_clockLoss _ _) ?_
  decide +kernel

/-- Before the loss the doorbell of pavilion 1 for the pace is clear, and the loss sets it. -/
theorem timedCoasting_rings : (timedDevice.netAt xtalLoss.t).pbit 1 0x1FFD = false ∧ timedCoasting.pbit 1 0x1FFD = true := by decide +kernel

end Sys2Proof.Machine
end

section
namespace Sys2Proof
open Machine

/-- Refutes O54 in its clause on the loss of XTAL: the clause has the memory system stay as it was, in the case in which TB_COAST rings the
pavilions with an admitted class too, and a doorbell is a bit of that memory system (`timedDevice`, R135). -/
theorem not_clocksAndTimebase : ¬ Obligations.ClocksAndTimebase := by
  unfold Obligations.ClocksAndTimebase
  intro h
  obtain ⟨clocks, -⟩ := h
  obtain ⟨xtal, -⟩ := clocks [] timedDevice xtalLoss rfl
  obtain ⟨-, lost, -⟩ := xtal rfl
  obtain ⟨t, answers, -, -, -, -, -, mem, -⟩ := lost rfl
  rw [Answers.unique answers xtalLoss_answers] at mem
  obtain ⟨clear, rung⟩ := timedCoasting_rings
  rw [Dev.pbit, mem, ← Dev.pbit] at rung
  exact Bool.false_ne_true (clear.symm.trans rung)

end Sys2Proof
end

section
/-! PROOFS. Bitmaps as sets, and which clusters hold a deadline class (R125, R551). -/

namespace Sys2Proof.Machine

/-! ## Bitmaps -/

theorem bitmap_succ (n : Nat) (p : Nat → Bool) : bitmap (n + 1) p = if p n then bitmap n p + 2 ^ n else bitmap n p := by
  simp only [bitmap, List.range_succ, List.foldl_append, List.foldl_cons, List.foldl_nil]

theorem bitmap_lt (n : Nat) (p : Nat → Bool) : bitmap n p < 2 ^ n := by
  induction n with
  | zero => simp [bitmap]
  | succ n ih =>
    rw [bitmap_succ, Nat.pow_succ]
    split <;> omega

/-- A bitmap holds the numbers below its length that satisfy its predicate. -/
theorem bitOf_bitmap (n : Nat) (p : Nat → Bool) (k : Nat) : bitOf (bitmap n p) k = (decide (k < n) && p k) := by
  induction n with
  | zero => simp [bitmap, bitOf]
  | succ n ih =>
    have top : (bitmap n p).testBit n = false := Nat.testBit_lt_two_pow (bitmap_lt n p)
    have set : bitmap (n + 1) p = if p n then withBit (bitmap n p) n true else bitmap n p := by
      rw [bitmap_succ, withBit, top]
      rfl
    rw [set]
    by_cases same : k = n
    case pos =>
      subst same
      cases member : p k
      · simp [bitOf, top]
      · simp [bitOf_withBit_true]
    case neg =>
      have below : decide (k < n + 1) = decide (k < n) := decide_eq_decide.mpr (by omega)
      rw [below, ← ih]
      split
      · rw [bitOf_withBit_true, decide_eq_false same, Bool.or_false]
      · rfl

/-- A bitmap is 0 where nothing satisfies its predicate. -/
theorem bitmap_ne_zero {n : Nat} {p : Nat → Bool} : bitmap n p ≠ 0 ↔ ∃ k < n, p k = true := by
  constructor
  · intro some
    obtain ⟨k, set⟩ := Nat.exists_testBit_of_ne_zero some
    rw [← bitOf, bitOf_bitmap, Bool.and_eq_true, decide_eq_true_eq] at set
    exact ⟨k, set⟩
  · rintro ⟨k, lt, member⟩ zero
    have set : bitOf (bitmap n p) k = true := by rw [bitOf_bitmap, member, decide_eq_true lt]; rfl
    rw [zero, bitOf, Nat.zero_testBit] at set
    exact nomatch set

theorem mem_bitList {n v k : Nat} : k ∈ bitList n v ↔ k < n ∧ bitOf v k = true := by
  rw [bitList, List.mem_filter, List.mem_range]
  rfl

/-! ## Deadline clusters (R125) -/

/-- The two devices have the same pavilions with the same cores and classes. -/
structure Dev.SameClasses (t d : Dev) : Prop where
  state : ∀ p, t.rd R.pav_STATE p = d.rd R.pav_STATE p
  cores : ∀ p, t.rd R.pav_CORES p = d.rd R.pav_CORES p
  classes : ∀ p, t.classesOf p = d.classesOf p

namespace Dev.SameClasses

variable {t d : Dev}

theorem exists_ (h : t.SameClasses d) (p : Nat) : t.pavExists p = d.pavExists p := by
  rw [Dev.pavExists, Dev.pavExists, Dev.pavState, Dev.pavState, h.state]

theorem pavCores (h : t.SameClasses d) (p : Nat) : t.pavCores p = d.pavCores p := by simp only [Dev.pavCores, h.cores]

theorem deadlineClusters (h : t.SameClasses d) : t.deadlineClusters = d.deadlineClusters := by
  simp only [Dev.deadlineClusters, h.exists_, h.pavCores, h.classes]

theorem trans {u : Dev} (h : t.SameClasses u) (g : u.SameClasses d) : t.SameClasses d :=
  ⟨fun p => (h.state p).trans (g.state p), fun p => (h.cores p).trans (g.cores p), fun p => (h.classes p).trans (g.classes p)⟩

/-- A write of an entry with a subindex of its own. -/
theorem wr (d : Dev) {e : Entry} (he : e.sub < 256 ∧ e.sub ≠ 0x00 ∧ e.sub ≠ R.pav_CORES.sub) (v i : Nat) : (d.wr e v i).SameClasses d := by
  obtain ⟨sub, state, cores⟩ := he
  exact ⟨fun p => Dev.rd_wr_ne _ _ (Entry.key_ne_of_sub (by decide) sub state.symm _ _),
    fun p => Dev.rd_wr_ne _ _ (Entry.key_ne_of_sub (by decide) sub cores.symm _ _), fun _ => rfl⟩

/-- Marks of requests leave the classes. -/
theorem markOpen (d : Dev) (f : HostReq → HostReq) : (d.markOpen f).SameClasses d := by
  refine ⟨fun _ => rfl, fun _ => rfl, fun p => ?_⟩
  simp only [Dev.classesOf, Dev.markOpen, List.filter_map, List.map_map]
  rfl

end Dev.SameClasses

end Sys2Proof.Machine
end

section
/-! PROOFS. The rules of the pace deficit: which doorbells ring, which requests are marked, and when it ends (R133, R134, R138). -/

namespace Sys2Proof.Machine

/-! ## Doorbells of the pace -/

theorem Dev.ringPace_steps (d : Dev) (f : Nat → Bool) (l : List Nat) :
    (l.foldl (fun d p => if d.pavExists p && f p then d.ring p 0x1FFD else d) d).SameButMem d :=
  foldl_keeps (P := fun t : Dev => t.SameButMem d) _ (fun t p h => by
    split
    · exact h.ring _ _
    · exact h) _ rfl

theorem Dev.ringPace_apart (d : Dev) (f : Nat → Bool) : (d.ringPace f).SameButMem d := d.ringPace_steps f _

theorem Dev.ringPace_none (d : Dev) {f : Nat → Bool} (none : ∀ p, f p = false) : d.ringPace f = d :=
  foldl_keeps (P := (· = d)) _ (fun t p h => by rw [none, Bool.and_false]; exact h) _ rfl

/-- A doorbell that is set stays set when another is rung. -/
theorem Dev.pbit_ring_of_set {d : Dev} {p a : Nat} (set : d.pbit p a = true) (k b : Nat) : (d.ring k b).pbit p a = true := by
  show Table.get false (Table.set false d.mem.bits (bitKey k b) true) (bitKey p a) = true
  rw [Table.get_set]
  split
  · rfl
  · exact set

/-- Each pavilion that is to be rung is. -/
theorem Dev.ringPace_rings (d : Dev) {f : Nat → Bool} {p : Nat} (lt : p < 64) (ex : d.pavExists p = true) (asked : f p = true) :
    (d.ringPace f).pbit p 0x1FFD = true := by
  obtain ⟨l, r, split_⟩ := List.append_of_mem (List.mem_range.mpr lt)
  unfold Dev.ringPace
  rw [split_, List.foldl_append, List.foldl_cons]
  have before : (l.foldl (fun d p => if d.pavExists p && f p then d.ring p 0x1FFD else d) d).pavExists p = true :=
    (congrArg (fun v => decide (v = 2) || decide (v = 5)) ((d.ringPace_steps f l).rd R.pav_STATE p 0)).trans ex
  refine foldl_keeps (P := fun t : Dev => t.pbit p 0x1FFD = true) _ (fun t k h => ?_) _ ?_
  · split
    · exact Dev.pbit_ring_of_set h _ _
    · exact h
  · rw [before, asked]
    exact Dev.pbit_ring_self _ _ _

/-! ## The clusters in deficit -/

/-- A deadline cluster with four low samples in a row (R133). -/
theorem Dev.bitOf_lowClusters (d : Dev) (k : Nat) :
    bitOf d.lowClusters k = true ↔ k < 16 ∧ bitOf d.deadlineClusters k = true ∧ 4 ≤ Table.get 0 d.plat.low k := by
  rw [Dev.lowClusters, bitOf_bitmap, Bool.and_eq_true, Bool.and_eq_true, decide_eq_true_eq, decide_eq_true_eq]

theorem Dev.lowClusters_ne_zero (d : Dev) :
    d.lowClusters ≠ 0 ↔ ∃ k < 16, bitOf d.deadlineClusters k = true ∧ 4 ≤ Table.get 0 d.plat.low k := by
  rw [Dev.lowClusters, bitmap_ne_zero]
  simp only [Bool.and_eq_true, decide_eq_true_eq]

theorem Dev.SameClasses.lowClusters {t d : Dev} (h : t.SameClasses d) (low : t.plat.low = d.plat.low) : t.lowClusters = d.lowClusters := by
  simp only [Dev.lowClusters, h.deadlineClusters, low]

theorem Dev.mem_starving {d : Dev} {p k : Nat} (lt : p < 64) (low : bitOf d.lowClusters k = true) (ex : d.pavExists p = true)
    (holds : ∃ x ∈ d.pavCores p, clusterOf x = k) : (p, k) ∈ d.starving := by
  have below := ((d.bitOf_lowClusters k).mp low).1
  refine List.mem_flatMap.mpr ⟨p, List.mem_range.mpr lt, List.mem_map.mpr ⟨k, List.mem_filter.mpr ⟨mem_bitList.mpr ⟨below, low⟩, ?_⟩, rfl⟩⟩
  rw [ex, Bool.true_and, List.any_eq_true]
  simpa using holds

/-! ## The rules of the deficit -/

/-- PACE_DEFICIT of a device. -/
def Dev.withDeficit (d : Dev) (b : Bool) : Dev := d.onPlat fun x => { x with deficit := b }

theorem Dev.withDeficit_self (d : Dev) : d.withDeficit d.plat.deficit = d := rfl

/-- The deficit raised or ended, before its doorbells. -/
def Dev.deficitSettled (d : Dev) : Dev :=
  if d.lowClusters ≠ 0 then (if d.plat.deficit then d else d.raiseDeficit)
  else if d.plat.deficit && (bitList 16 d.deadlineClusters).all fun k => decide (1000 ≤ Table.get 0 d.plat.clean k) then
    d.onPlat fun x => { x with deficit := false }
  else d

/-- The pavilions that starve while there is a deficit. -/
def Dev.starvingNow (d : Dev) : List (Nat × Nat) := if d.plat.deficit then d.starving else []

/-- The doorbells of the pavilions that starve and have not been rung yet, and the record of them. -/
def Dev.ringStarving (d : Dev) : Dev :=
  (d.ringPace fun p => ((d.starvingNow.filter fun e => !d.plat.paceRung.contains e).map (·.1)).contains p).onPlat fun x => { x with
    paceRung := d.starvingNow }

theorem Dev.deficitRules_eq (d : Dev) : d.deficitRules = d.deficitSettled.ringStarving := rfl

/-- Two platforms with the same samples. -/
structure Plat.SameSamples (x y : Plat) : Prop where
  low : x.low = y.low
  clean : x.clean = y.clean
  log : x.paceLog = y.paceLog
  last : x.sampleAt = y.sampleAt

theorem Plat.SameSamples.trans {x y z : Plat} (h : x.SameSamples y) (g : y.SameSamples z) : x.SameSamples z :=
  ⟨h.low.trans g.low, h.clean.trans g.clean, h.log.trans g.log, h.last.trans g.last⟩

/-- The samples, the deficit, values, cores, alerts and sessions stay. -/
theorem Dev.ringStarving_frame (d : Dev) : d.ringStarving.plat.SameSamples d.plat ∧ d.ringStarving.plat.deficit = d.plat.deficit ∧
    d.ringStarving.net = d.net ∧ d.ringStarving.alerts = d.alerts ∧ d.ringStarving.cores = d.cores ∧
    ∀ e i, d.ringStarving.rd e i = d.rd e i := by
  unfold Dev.ringStarving
  generalize rung : d.ringPace _ = t
  have apart : t.SameButMem d := rung ▸ d.ringPace_apart _
  rw [Dev.onPlat_plat, apart.plat]
  exact ⟨⟨rfl, rfl, rfl, rfl⟩, rfl, apart.net, apart.alerts, apart.cores, fun e i => apart.rd e i 0⟩

theorem Dev.pbit_onPlat (d : Dev) (f : Plat → Plat) (p a : Nat) : (d.onPlat f).pbit p a = d.pbit p a := rfl

/-- A pavilion that starves and has not been rung for the cluster is rung. -/
theorem Dev.ringStarving_rings {d : Dev} {p k : Nat} (lt : p < 64) (ex : d.pavExists p = true) (starves : (p, k) ∈ d.starvingNow)
    (unrung : (p, k) ∉ d.plat.paceRung) : d.ringStarving.pbit p 0x1FFD = true := by
  refine Eq.trans (Dev.pbit_onPlat ..) (d.ringPace_rings lt ex (List.contains_iff_mem.mpr ?_))
  exact List.mem_map.mpr ⟨(p, k), List.mem_filter.mpr ⟨starves, by simpa using unrung⟩, rfl⟩

/-- Where no pavilion starves no doorbell rings. -/
theorem Dev.ringStarving_mem {d : Dev} (none : d.starvingNow = []) : d.ringStarving.mem = d.mem := by
  unfold Dev.ringStarving
  rw [Dev.onPlat_mem, d.ringPace_none fun _ => by rw [none]; rfl]

/-- No pavilion starves without a low cluster. -/
theorem Dev.starvingNow_of_high {d : Dev} (high : d.lowClusters = 0) : d.starvingNow = [] := by
  unfold Dev.starvingNow Dev.starving
  rw [high]
  simp [bitList]

/-- What raising the deficit does (R133, R134, R138). -/
theorem Dev.raiseDeficit_sameClasses (d : Dev) : d.raiseDeficit.SameClasses d := by
  have counted : ((d.onPlat fun x => { x with deficit := true }).bump R.pow_DEFICIT_EVENTS).SameClasses d := by
    have h := Dev.SameClasses.wr (d.onPlat fun x => { x with deficit := true }) (e := R.pow_DEFICIT_EVENTS) (by decide)
      (min (d.rd R.pow_DEFICIT_EVENTS + 1) (256 ^ R.pow_DEFICIT_EVENTS.size - 1)) 0
    exact ⟨h.state, h.cores, h.classes⟩
  have marked := (Dev.SameClasses.markOpen ((d.onPlat fun x => { x with deficit := true }).bump R.pow_DEFICIT_EVENTS) (·.starved)).trans counted
  exact ⟨marked.state, marked.cores, marked.classes⟩

/-- Raising the deficit writes its flag, its counter, the marks and an alert. -/
theorem Dev.raiseDeficit_spec (d : Dev) :
    d.raiseDeficit.plat = { d.plat with deficit := true } ∧
    d.raiseDeficit.alerts.head? = some { time := d.time, index := 0x1100, sub := 0x07, pav := 0xFF, detail := d.lowClusters } ∧
    (∀ e i, d.raiseDeficit.rd e i = (d.bump R.pow_DEFICIT_EVENTS).rd e i) ∧
    d.raiseDeficit.net.sessions = d.net.sessions.map (fun s => { s with reqs := s.reqs.map (·.starved) }) ∧
    d.raiseDeficit.cores = d.cores ∧ d.raiseDeficit.mem = d.mem := by
  have same : ((d.onPlat fun x => { x with deficit := true }).bump R.pow_DEFICIT_EVENTS).lowClusters = d.lowClusters := by
    have h := Dev.SameClasses.wr (d.onPlat fun x => { x with deficit := true }) (e := R.pow_DEFICIT_EVENTS) (by decide)
      (min (d.rd R.pow_DEFICIT_EVENTS + 1) (256 ^ R.pow_DEFICIT_EVENTS.size - 1)) 0
    exact Dev.SameClasses.lowClusters ⟨h.state, h.cores, h.classes⟩ rfl
  refine ⟨rfl, ?_, fun _ _ => rfl, rfl, rfl, rfl⟩
  rw [← same]
  rfl

end Sys2Proof.Machine
end

section
/-! PROOFS. Samples and reports of the pace (R129, R133, R134). -/

namespace Sys2Proof.Machine

theorem exec_paceSample (o : OpPace) (s : State) : exec (.paceSample o) s = execPaceSample o s := rfl
theorem exec_paceReport (o : OpT0) (s : State) : exec (.paceReport o) s = execPaceReport o s := rfl

/-! ## What settling the deficit leaves -/

theorem Dev.deficitSettled_of_standing {d : Dev} (low : d.lowClusters ≠ 0) (standing : d.plat.deficit = true) : d.deficitSettled = d := by
  rw [Dev.deficitSettled, if_pos low, if_pos standing]

theorem Dev.deficitSettled_of_new {d : Dev} (low : d.lowClusters ≠ 0) (calm : d.plat.deficit = false) : d.deficitSettled = d.raiseDeficit := by
  rw [Dev.deficitSettled, if_pos low, calm]
  rfl

/-- With no cluster low, a deficit ends where every deadline cluster has 1,000 clean samples. -/
theorem Dev.deficitSettled_of_high {d : Dev} (high : d.lowClusters = 0) : d.deficitSettled = d.withDeficit
    (d.plat.deficit && !(bitList 16 d.deadlineClusters).all fun k => decide (1000 ≤ Table.get 0 d.plat.clean k)) := by
  rw [Dev.deficitSettled, if_neg (not_not.mpr high)]
  have self := d.withDeficit_self
  cases deficit : d.plat.deficit
  · rw [deficit] at self
    exact self.symm
  · rw [deficit] at self
    rw [Bool.true_and, Bool.true_and]
    split
    case isTrue clean => rw [clean]; rfl
    case isFalse unclean => rw [Bool.eq_false_iff.mpr unclean]; exact self.symm

/-- The samples, what has been rung, the classes and every value but the counter stay. -/
theorem Dev.deficitSettled_frame (d : Dev) : d.deficitSettled.plat.SameSamples d.plat ∧ d.deficitSettled.plat.paceRung = d.plat.paceRung ∧
    d.deficitSettled.SameClasses d ∧ d.deficitSettled.cores = d.cores ∧
    ∀ (e : Entry) (i : Nat), e.key i 0 ≠ R.pow_DEFICIT_EVENTS.key 0 0 → d.deficitSettled.rd e i = d.rd e i := by
  by_cases low : d.lowClusters = 0
  · rw [Dev.deficitSettled_of_high low]
    exact ⟨⟨rfl, rfl, rfl, rfl⟩, rfl, ⟨fun _ => rfl, fun _ => rfl, fun _ => rfl⟩, rfl, fun _ _ _ => rfl⟩
  · cases deficit : d.plat.deficit
    · rw [Dev.deficitSettled_of_new low deficit]
      obtain ⟨plat, -, values, -, cores, -⟩ := d.raiseDeficit_spec
      rw [plat]
      exact ⟨⟨rfl, rfl, rfl, rfl⟩, rfl, d.raiseDeficit_sameClasses, cores, fun e i other => (values e i).trans (Dev.rd_bump_ne _ other)⟩
    · rw [Dev.deficitSettled_of_standing low deficit]
      exact ⟨⟨rfl, rfl, rfl, rfl⟩, rfl, ⟨fun _ => rfl, fun _ => rfl, fun _ => rfl⟩, rfl, fun _ _ _ => rfl⟩

/-- The rules of the deficit keep the samples, the cores and every value but their counter. -/
theorem Dev.deficitRules_frame (d : Dev) : d.deficitRules.plat.SameSamples d.plat ∧ d.deficitRules.cores = d.cores ∧
    ∀ (e : Entry) (i : Nat), e.key i 0 ≠ R.pow_DEFICIT_EVENTS.key 0 0 → d.deficitRules.rd e i = d.rd e i := by
  obtain ⟨samples, -, -, cores, values⟩ := d.deficitSettled_frame
  obtain ⟨rungSamples, -, -, -, rungCores, rungValues⟩ := d.deficitSettled.ringStarving_frame
  rw [Dev.deficitRules_eq]
  exact ⟨rungSamples.trans samples, rungCores.trans cores, fun e i other => (rungValues e i).trans (values e i other)⟩

/-- In deficit: the flag stands, and each pavilion that starves is rung once. -/
theorem Dev.deficitRules_deficit {d : Dev} (low : d.lowClusters ≠ 0) : d.deficitRules.plat.deficit = true ∧
    ∀ p < 64, ∀ k, bitOf d.lowClusters k = true → d.pavExists p = true → (∃ x ∈ d.pavCores p, clusterOf x = k) → (p, k) ∉ d.plat.paceRung →
      d.deficitRules.pbit p 0x1FFD = true := by
  have standing : d.deficitSettled.plat.deficit = true := by
    cases deficit : d.plat.deficit
    · rw [Dev.deficitSettled_of_new low deficit, d.raiseDeficit_spec.1]
    · rw [Dev.deficitSettled_of_standing low deficit, deficit]
  obtain ⟨samples, record, same, -⟩ := d.deficitSettled_frame
  obtain ⟨-, kept, -⟩ := d.deficitSettled.ringStarving_frame
  rw [Dev.deficitRules_eq, kept]
  refine ⟨standing, fun p lt k lowK ex holds unrung => Dev.ringStarving_rings (k := k) lt ((same.exists_ p).trans ex) ?_ ?_⟩
  · rw [Dev.starvingNow, if_pos standing]
    exact Dev.mem_starving lt ((same.lowClusters samples.low).symm ▸ lowK) ((same.exists_ p).trans ex) (same.pavCores p ▸ holds)
  · rw [record]
    exact unrung

/-- A new deficit is counted and alerted, with the clusters in it. -/
theorem Dev.deficitRules_new {d : Dev} (low : d.lowClusters ≠ 0) (calm : d.plat.deficit = false) :
    d.deficitRules.alerts.head? = some { time := d.time, index := 0x1100, sub := 0x07, pav := 0xFF, detail := d.lowClusters } ∧
    d.deficitRules.rd R.pow_DEFICIT_EVENTS = min (d.rd R.pow_DEFICIT_EVENTS + 1) (256 ^ R.pow_DEFICIT_EVENTS.size - 1) := by
  obtain ⟨-, alert, values, -⟩ := d.raiseDeficit_spec
  obtain ⟨-, -, -, alerts, -, rungValues⟩ := d.raiseDeficit.ringStarving_frame
  rw [Dev.deficitRules_eq, Dev.deficitSettled_of_new low calm]
  exact ⟨alerts.symm ▸ alert, (rungValues _ _).trans ((values _ _).trans (Dev.rd_bump_self ..))⟩

/-- One that stands already is neither. -/
theorem Dev.deficitRules_standing {d : Dev} (low : d.lowClusters ≠ 0) (standing : d.plat.deficit = true) :
    d.deficitRules.net = d.net ∧ d.deficitRules.alerts = d.alerts := by
  obtain ⟨-, -, net, alerts, -⟩ := d.ringStarving_frame
  rw [Dev.deficitRules_eq, Dev.deficitSettled_of_standing low standing]
  exact ⟨net, alerts⟩

/-- With no cluster low nothing is marked or rung, and the deficit ends where every deadline cluster is clean. -/
theorem Dev.deficitRules_high {d : Dev} (high : d.lowClusters = 0) : d.deficitRules.net = d.net ∧ d.deficitRules.mem = d.mem ∧
    d.deficitRules.plat.deficit =
      (d.plat.deficit && !(bitList 16 d.deadlineClusters).all fun k => decide (1000 ≤ Table.get 0 d.plat.clean k)) := by
  rw [Dev.deficitRules_eq, Dev.deficitSettled_of_high high]
  generalize (d.plat.deficit && _) = b
  obtain ⟨-, deficit, net, -⟩ := (d.withDeficit b).ringStarving_frame
  exact ⟨net, Dev.ringStarving_mem (Dev.starvingNow_of_high high), deficit⟩

/-! ## A sample -/

/-- The least of the cluster's four oscillators. -/
def leastRing (o : OpPace) : Nat := min (min o.r0 o.r1) (min o.r2 o.r3)

/-- The effective pace of a sample: that of the slowest oscillator, times the issue fraction. -/
def Dev.effPace (d : Dev) (o : OpPace) : Nat := leastRing o * d.rd R.clu_ISSUE_FRACTION o.cluster.val / 100

/-- A sample at `t` follows the one at `last`, with the latest step of the timebase at `stepAt` (R133, R570). -/
def paceFollows (t last stepAt : Nat) : Bool := decide (t = last + 1000) || decide (last < stepAt)

/-- The entries of cluster `c` after a sample of measured pace `pace` and effective pace `eff`. -/
def Dev.paceMeasured (d : Dev) (c pace eff : Nat) : Dev :=
  let t := d.wr R.clu_PACE_MEASURED (min pace 65535) c
  let t := t.wr R.clu_PACE_MIN (min (t.rd R.clu_PACE_MIN c) eff) c
  if decide (eff < 2000) then t.bump R.clu_BELOW_FLOOR c else t

/-- The samples of cluster `c` with one of effective pace `eff` at `t` that follows the one before it or does not. -/
def Plat.sampled (x : Plat) (c eff t : Nat) (follows : Bool) : Plat :=
  let run := fun (t : Table Nat) => if follows then Table.get 0 t c else 0
  { x with
    sampleAt := Table.set 0 x.sampleAt c t
    paceLog := Table.set [] x.paceLog c ((eff :: Table.get [] x.paceLog c).take 1000)
    low := Table.set 0 x.low c (if decide (eff < 2000) then run x.low + 1 else 0)
    clean := Table.set 0 x.clean c (if decide (eff < 2000) then 0 else min 1000 (run x.clean + 1)) }

/-- The runs of low and of clean samples, where `follows` says whether the sample follows the one before it. -/
theorem Plat.sampled_runs (x : Plat) (c eff t : Nat) {f : Bool} {follows : Prop} [Decidable follows] (h : f = true ↔ follows) (k : Nat) :
    Table.get 0 (x.sampled c eff t f).low k =
      (if k = c then (if eff < 2000 then (if follows then Table.get 0 x.low c else 0) + 1 else 0) else Table.get 0 x.low k) ∧
    Table.get 0 (x.sampled c eff t f).clean k =
      (if k = c then (if eff < 2000 then 0 else min 1000 ((if follows then Table.get 0 x.clean c else 0) + 1)) else Table.get 0 x.clean k) := by
  simp only [Plat.sampled, Table.get_set, decide_eq_true_eq, h]
  exact ⟨trivial, trivial⟩

/-- The log and the moment of the latest sample. -/
theorem Plat.sampled_latest (x : Plat) (c eff t : Nat) (f : Bool) :
    Table.get [] (x.sampled c eff t f).paceLog c = (eff :: Table.get [] x.paceLog c).take 1000 ∧ Table.get 0 (x.sampled c eff t f).sampleAt c = t := by
  simp only [Plat.sampled, Table.get_set_self, and_self]

/-- The device after a sample, before the rules of the deficit. -/
def Dev.paceSampled (d : Dev) (o : OpPace) : Dev :=
  let t := d.paceMeasured o.cluster.val (leastRing o) (d.effPace o)
  t.onPlat fun x => x.sampled o.cluster.val (d.effPace o) o.t (paceFollows o.t (Table.get 0 d.plat.sampleAt o.cluster.val) t.plat.ptpStepAt)

variable {q : List Instr} {d : Dev} {o : OpPace}

theorem paceSample_skipped (running : d.thermalStop = false)
    (skipped : ¬ (o.t % 1000 = 0 ∧ 5 ≤ d.plat.step ∧ (Table.get 0 d.plat.sampleAt o.cluster.val = 0 ∨ Table.get 0 d.plat.sampleAt o.cluster.val < o.t) ∧
      (d.plat.ptpStepAt = 0 ∨ d.plat.ptpStepAt + 1000 ≤ (d.at o.t).time))) : Answers (.paceSample o) q d (d.at o.t) := by
  refine answers_of_act _ (exec_paceSample o _) running (if_pos ?_)
  simp only [Dev.at_plat]
  omega

theorem paceSample_taken (running : d.thermalStop = false)
    (taken : o.t % 1000 = 0 ∧ 5 ≤ d.plat.step ∧ (Table.get 0 d.plat.sampleAt o.cluster.val = 0 ∨ Table.get 0 d.plat.sampleAt o.cluster.val < o.t) ∧
      (d.plat.ptpStepAt = 0 ∨ d.plat.ptpStepAt + 1000 ≤ (d.at o.t).time)) :
    Answers (.paceSample o) q d ((d.at o.t).paceSampled o).deficitRules := by
  refine answers_of_act _ (exec_paceSample o _) running ((if_neg ?_).trans (congrArg Dev.deficitRules ?_))
  · simp only [Dev.at_plat]
    omega
  · rfl

/-- The entries that a sample writes. -/
theorem Dev.paceMeasured_values (d : Dev) (c pace eff : Nat) :
    (d.paceMeasured c pace eff).rd R.clu_PACE_MEASURED c = min pace 65535 ∧
    (d.paceMeasured c pace eff).rd R.clu_PACE_MIN c = min (d.rd R.clu_PACE_MIN c) eff ∧
    (d.paceMeasured c pace eff).rd R.clu_BELOW_FLOOR c =
      (if eff < 2000 then min (d.rd R.clu_BELOW_FLOOR c + 1) (256 ^ R.clu_BELOW_FLOOR.size - 1) else d.rd R.clu_BELOW_FLOOR c) ∧
    (d.paceMeasured c pace eff).rd R.pow_DEFICIT_EVENTS = d.rd R.pow_DEFICIT_EVENTS := by
  have m1 : R.clu_PACE_MEASURED.key c 0 ≠ R.clu_PACE_MIN.key c 0 := Entry.key_ne_of_sub (by decide) (by decide) (by decide) _ _
  have m2 : R.clu_PACE_MEASURED.key c 0 ≠ R.clu_BELOW_FLOOR.key c 0 := Entry.key_ne_of_sub (by decide) (by decide) (by decide) _ _
  have m3 : R.clu_PACE_MIN.key c 0 ≠ R.clu_BELOW_FLOOR.key c 0 := Entry.key_ne_of_sub (by decide) (by decide) (by decide) _ _
  have e1 : R.pow_DEFICIT_EVENTS.key 0 0 ≠ R.clu_PACE_MEASURED.key c 0 := (Entry.key_ne_of_base (by decide) (by decide)).symm
  have e2 : R.pow_DEFICIT_EVENTS.key 0 0 ≠ R.clu_PACE_MIN.key c 0 := (Entry.key_ne_of_base (by decide) (by decide)).symm
  have e3 : R.pow_DEFICIT_EVENTS.key 0 0 ≠ R.clu_BELOW_FLOOR.key c 0 := (Entry.key_ne_of_base (by decide) (by decide)).symm
  unfold Dev.paceMeasured
  by_cases below : eff < 2000
  · simp only [below, decide_true, if_true]
    refine ⟨?_, ?_, ?_, ?_⟩
    · rw [Dev.rd_bump_ne _ m2, Dev.rd_wr_ne _ _ m1, Dev.rd_wr_self]
    · rw [Dev.rd_bump_ne _ m3, Dev.rd_wr_self, Dev.rd_wr_ne _ _ m1.symm]
    · rw [Dev.rd_bump_self, Dev.rd_wr_ne _ _ m3.symm, Dev.rd_wr_ne _ _ m2.symm]
    · rw [Dev.rd_bump_ne _ e3, Dev.rd_wr_ne _ _ e2, Dev.rd_wr_ne _ _ e1]
  · simp only [below, decide_false, Bool.false_eq_true, if_false]
    refine ⟨?_, ?_, ?_, ?_⟩
    · rw [Dev.rd_wr_ne _ _ m1, Dev.rd_wr_self]
    · rw [Dev.rd_wr_self, Dev.rd_wr_ne _ _ m1.symm]
    · rw [Dev.rd_wr_ne _ _ m3.symm, Dev.rd_wr_ne _ _ m2.symm]
    · rw [Dev.rd_wr_ne _ _ e2, Dev.rd_wr_ne _ _ e1]

/-- It writes values, and those of no pavilion. -/
theorem Dev.paceMeasured_frame (d : Dev) (c pace eff : Nat) :
    (d.paceMeasured c pace eff).SameButValues d ∧ (d.paceMeasured c pace eff).SameClasses d := by
  let t := d.wr R.clu_PACE_MEASURED (min pace 65535) c
  let u := t.wr R.clu_PACE_MIN (min (t.rd R.clu_PACE_MIN c) eff) c
  have values : u.SameButValues d := (Dev.SameButValues.refl.wr _ _ _ _).wr _ _ _ _
  have classes : u.SameClasses d := (Dev.SameClasses.wr t (by decide) _ _).trans (Dev.SameClasses.wr d (by decide) _ _)
  show (if decide (eff < 2000) then u.bump R.clu_BELOW_FLOOR c else u).SameButValues d ∧
    (if decide (eff < 2000) then u.bump R.clu_BELOW_FLOOR c else u).SameClasses d
  split
  · exact ⟨values.wr _ _ _ _, (Dev.SameClasses.wr u (by decide) _ _).trans classes⟩
  · exact ⟨values, classes⟩

theorem Dev.paceSampled_sameClasses (d : Dev) (o : OpPace) : (d.paceSampled o).SameClasses d := by
  have h := (d.paceMeasured_frame o.cluster.val (leastRing o) (d.effPace o)).2
  exact ⟨h.state, h.cores, h.classes⟩

theorem Dev.paceSampled_apart (d : Dev) (o : OpPace) : { d.paceSampled o with dict := d.dict, plat := d.plat } = d :=
  (congrArg (fun t : Dev => ({ t with plat := d.plat } : Dev)) (d.paceMeasured_frame o.cluster.val (leastRing o) (d.effPace o)).1 :)

theorem Dev.paceSampled_plat (d : Dev) (o : OpPace) : (d.paceSampled o).plat = d.plat.sampled o.cluster.val (d.effPace o) o.t
    (paceFollows o.t (Table.get 0 d.plat.sampleAt o.cluster.val) d.plat.ptpStepAt) := by
  show (d.paceMeasured o.cluster.val (leastRing o) (d.effPace o)).plat.sampled _ _ _ (paceFollows _ _ (d.paceMeasured _ _ _).plat.ptpStepAt) = _
  rw [(d.paceMeasured_frame o.cluster.val (leastRing o) (d.effPace o)).1.plat]

/-- The entries of the cluster after a sample and the rules of the deficit. -/
theorem Dev.paceSampled_values (d : Dev) (o : OpPace) :
    let c := o.cluster.val
    let t := (d.paceSampled o).deficitRules
    t.rd R.clu_PACE_MEASURED c = min (leastRing o) 65535 ∧ t.rd R.clu_PACE_MIN c = min (d.rd R.clu_PACE_MIN c) (d.effPace o) ∧
    t.rd R.clu_BELOW_FLOOR c =
      (if d.effPace o < 2000 then min (d.rd R.clu_BELOW_FLOOR c + 1) (256 ^ R.clu_BELOW_FLOOR.size - 1) else d.rd R.clu_BELOW_FLOOR c) ∧
    (d.paceSampled o).rd R.pow_DEFICIT_EVENTS = d.rd R.pow_DEFICIT_EVENTS := by
  intro c t
  have kept : ∀ e : Entry, 0x3000 ≤ e.base → t.rd e c = (d.paceMeasured c (leastRing o) (d.effPace o)).rd e c := fun e above =>
    (d.paceSampled o).deficitRules_frame.2.2 e c (Entry.key_ne_of_base (by decide) (Nat.lt_of_lt_of_le (by decide) above))
  obtain ⟨measured, least, below, events⟩ := d.paceMeasured_values c (leastRing o) (d.effPace o)
  exact ⟨(kept _ (by decide)).trans measured, (kept _ (by decide)).trans least, (kept _ (by decide)).trans below, events⟩

/-! ## A report -/

/-- PACE of one cluster refreshed. -/
def Dev.pacePut (d : Dev) (c : Nat) : Dev :=
  let l := Table.get [] d.plat.paceLog c
  if l.isEmpty then d else d.wr R.pow_PACE (withElem 2 (d.rd R.pow_PACE) c (min 65535 (l.sum / l.length)))

/-- PACE of the first `n` clusters refreshed. -/
def Dev.pacePuts (d : Dev) (n : Nat) : Dev := (List.range n).foldl Dev.pacePut d

theorem Dev.pacePuts_succ (d : Dev) (n : Nat) : d.pacePuts (n + 1) = (d.pacePuts n).pacePut n := by
  rw [Dev.pacePuts, List.range_succ, List.foldl_append]
  rfl

theorem Dev.pacePuts_frame (d : Dev) (n : Nat) : (d.pacePuts n).SameButValues d :=
  foldl_keeps (P := fun t : Dev => t.SameButValues d) _ (fun t c h => by
    unfold Dev.pacePut
    dsimp only
    split
    · exact h
    · exact h.wr _ _ _ _) _ .refl

/-- PACE of each cluster after a report: the mean of its samples, where it has any. -/
theorem Dev.pacePuts_elem (d : Dev) (n c : Nat) :
    let l := Table.get [] d.plat.paceLog c
    elem 2 ((d.pacePuts n).rd R.pow_PACE) c = if c < n ∧ l ≠ [] then min 65535 (l.sum / l.length) else elem 2 (d.rd R.pow_PACE) c := by
  intro l
  induction n with
  | zero => simp [Dev.pacePuts]
  | succ n ih =>
    rw [Dev.pacePuts_succ, Dev.pacePut, (d.pacePuts_frame n).plat]
    by_cases same : c = n
    case pos =>
      subst same
      rw [if_neg (by omega)] at ih
      split
      case isTrue empty => rw [ih, if_neg (by simp [l, List.isEmpty_iff.mp empty])]
      case isFalse some =>
        rw [Dev.rd_wr_self, elem_withElem_self, if_pos ⟨Nat.lt_succ_self c, fun none => some (List.isEmpty_iff.mpr none)⟩]
        exact Nat.mod_eq_of_lt (by omega)
    case neg =>
      have bound : (c < n + 1 ∧ l ≠ []) = (c < n ∧ l ≠ []) := by
        rw [show (c < n + 1) = (c < n) from propext (by omega)]
      simp only [bound, ← ih]
      split
      · rfl
      · rw [Dev.rd_wr_self, elem_withElem_ne _ _ _ same]

theorem paceReport_early {o : OpT0} (running : d.thermalStop = false)
    (early : ¬ (d.plat.reportAt = 0 ∨ d.plat.reportAt + 1000000 ≤ (d.at o.t).time)) : Answers (.paceReport o) q d (d.at o.t) := by
  refine answers_of_act _ (exec_paceReport o _) running (if_pos ?_)
  simp only [Dev.at_plat]
  omega

theorem paceReport_due {o : OpT0} (running : d.thermalStop = false)
    (due : d.plat.reportAt = 0 ∨ d.plat.reportAt + 1000000 ≤ (d.at o.t).time) :
    Answers (.paceReport o) q d (((d.at o.t).pacePuts 16).onPlat fun x => { x with reportAt := ((d.at o.t).pacePuts 16).time }) := by
  refine answers_of_act _ (exec_paceReport o _) running ((if_neg ?_).trans rfl)
  simp only [Dev.at_plat]
  omega

end Sys2Proof.Machine
end

section
/-! PROOFS. The governor, the OPEN_REPLYs that wait for it, and the steps of VCORE (R41, R127, R130 to R132, R135, R139). -/

namespace Sys2Proof.Machine

theorem exec_governorEvaluation (o : OpGovern) (s : State) : exec (.governorEvaluation o) s = execGovernorEvaluation o s := rfl
theorem exec_vcoreStep (o : OpVcore) (s : State) : exec (.vcoreStep o) s = execVcoreStep o s := rfl

/-! ## VCOREs -/

/-- The grid of VCORE: steps of 10 mV within 0.60 V to 0.90 V, not below what is asked for. -/
theorem vgrid_spec (mv : Nat) : vgrid mv % 10 = 0 ∧ 600 ≤ vgrid mv ∧ vgrid mv ≤ 900 ∧ (mv ≤ 900 → mv ≤ vgrid mv) := by
  unfold vgrid ceilDiv
  omega

theorem vgrid_vgrid (mv : Nat) : vgrid (vgrid mv) = vgrid mv := by
  unfold vgrid ceilDiv
  omega

/-- The least VCORE of the grid at which the pace suffices, 900 mV where none does. -/
theorem leastMv_spec (pace : List Nat) (want : Nat) :
    let v := leastMv pace want
    v % 10 = 0 ∧ 600 ≤ v ∧ v ≤ 900 ∧ (∀ k < (v - 600) / 10, pace.getD k 0 < want) ∧ (v < 900 → want ≤ pace.getD ((v - 600) / 10) 0) := by
  intro v
  cases found : (List.range 31).find? fun k => decide (want ≤ pace.getD k 0)
  case none =>
    have top : v = 900 := by simp only [v, leastMv, found]
    rw [top]
    have short := List.find?_range_eq_none.mp found
    refine ⟨rfl, by decide, le_rfl, fun k hk => ?_, fun lt => absurd lt (lt_irrefl _)⟩
    simpa using short k (by omega)
  case some k =>
    obtain ⟨suffices_, lt, short⟩ := List.find?_range_eq_some.mp found
    have lt := List.mem_range.mp lt
    have step : v = 600 + 10 * k := by simp only [v, leastMv, found]
    rw [step]
    have index : (600 + 10 * k - 600) / 10 = k := by omega
    refine ⟨by omega, by omega, by omega, fun j hj => ?_, fun _ => ?_⟩
    · simpa using short j (index ▸ hj)
    · simpa only [index] using of_decide_eq_true suffices_

/-! ## The steps of R132 -/

/-- The first step that brings the input within the cap. -/
theorem Dev.relief_eq {d : Dev} {draw : List Nat} {k : Nat} (le : k ≤ 4) (more : ∀ j < k, d.capNow < draw.getD j 0)
    (enough : draw.getD k 0 ≤ d.capNow ∨ k = 4) : d.relief draw = k := by
  unfold Dev.relief
  have short : ∀ j < k, (!decide (draw.getD j 0 ≤ d.capNow)) = true := fun j hj => by simpa using more j hj
  by_cases within : draw.getD k 0 ≤ d.capNow
  case pos =>
    rw [List.find?_range_eq_some.mpr ⟨decide_eq_true within, List.mem_range.mpr (Nat.lt_succ_of_le le), short⟩]
    rfl
  case neg =>
    obtain rfl := enough.resolve_left within
    rw [List.find?_range_eq_none.mpr fun j hj => ?_]
    · rfl
    · rcases Nat.lt_succ_iff_lt_or_eq.mp hj with lt | rfl
      · exact short j lt
      · simpa using within

/-- A cluster with a core of a strict pavilion (R41). -/
theorem Dev.strictCluster_iff (d : Dev) (c : Nat) : d.strictCluster c = true ↔
    ∃ p < 64, d.pavExists p = true ∧ d.strict p = true ∧ ∃ x ∈ d.pavCores p, clusterOf x = c := by
  simp only [Dev.strictCluster, List.any_eq_true, List.mem_range, Bool.and_eq_true, decide_eq_true_eq, and_assoc]

/-- A deadline cluster keeps issue and its VCORE for floor pace with GUARD through the first two steps; the third takes GUARD away, and the
last takes issue (R131, R132). -/
theorem Dev.governed_timed {d : Dev} {o : OpGovern} {k : Nat} (le : k ≤ 4) (timed : bitOf d.deadlineClusters o.cluster.val = true) :
    let least := min (d.wantedMv o) (max 680 (leastMv o.pace 2000))
    (d.governed o k).2 = (if k < 4 then 100 else if d.capNow < o.draw.getD k 0 then 0 else min 100 o.pct) ∧
    (k < 3 → (d.governed o k).1 = d.wantedMv o) ∧ (k = 3 → (d.governed o k).1 = max least (min (d.wantedMv o) o.partMv)) ∧
    (k = 4 → (d.governed o k).1 = least) := by
  intro least
  unfold Dev.governed
  simp only [if_pos timed]
  refine ⟨?_, fun lt => if_pos lt, ?_, ?_⟩
  · by_cases last : k = 4
    · simp only [if_pos last, if_neg (show ¬ k < 4 by omega)]
    · simp only [if_neg last, if_pos (show k < 4 by omega)]
  · rintro rfl
    rfl
  · rintro rfl
    rfl

/-- The other clusters give up VCORE with the first step and issue with the second. -/
theorem Dev.governed_untimed {d : Dev} {o : OpGovern} {k : Nat} (untimed : bitOf d.deadlineClusters o.cluster.val = false) :
    ((k < 2 → (d.governed o k).2 = 100) ∧ (k = 2 → (d.governed o k).2 = (if d.capNow < o.draw.getD k 0 then 0 else min 100 o.pct)) ∧
      (3 ≤ k → (d.governed o k).2 = 0)) ∧
    (2 ≤ k → (d.governed o k).1 = 600) ∧ (k = 0 → (d.governed o k).1 = d.wantedMv o) ∧
    (k = 1 → (d.governed o k).1 = max 600 (min (d.wantedMv o) o.partMv)) := by
  unfold Dev.governed
  simp only [untimed, Bool.false_eq_true, if_false]
  refine ⟨⟨fun lt => if_pos lt, ?_, fun ge => ?_⟩, fun ge => ?_, ?_, ?_⟩
  · rintro rfl
    rfl
  · rw [if_neg (by omega), if_neg (by omega)]
  · rw [if_neg (by omega), if_neg (by omega)]
  · rintro rfl
    rfl
  · rintro rfl
    rfl

/-- What R131 asks for in a deadline cluster. -/
theorem Dev.wantedMv_timed {d : Dev} {o : OpGovern} (timed : bitOf d.deadlineClusters o.cluster.val = true) :
    d.wantedMv o = max (if d.plat.coast then max 800 (Table.get 0 d.plat.coastMv o.cluster.val) else 680)
      (leastMv o.pace (ceilDiv (2000 * (100 + d.rd R.pow_GUARD)) 100)) := by
  unfold Dev.wantedMv Dev.vfloor
  simp only [if_pos timed]
  congr 1
  split
  · omega
  · rfl

theorem Dev.wantedMv_strict {d : Dev} {o : OpGovern} (untimed : bitOf d.deadlineClusters o.cluster.val = false)
    (strict : d.strictCluster o.cluster.val = true) : d.wantedMv o = 600 := by
  simp only [Dev.wantedMv, untimed, Bool.false_eq_true, if_false, if_pos strict]

theorem Dev.wantedMv_shared {d : Dev} {o : OpGovern} (untimed : bitOf d.deadlineClusters o.cluster.val = false)
    (shared : ¬ d.strictCluster o.cluster.val = true) : d.wantedMv o = vgrid o.loadMv := by
  simp only [Dev.wantedMv, untimed, Bool.false_eq_true, if_false, if_neg shared]

/-! ## OPEN_REPLYs that wait (R127) -/

/-- Of the device only the host ports and sessions change. -/
theorem Dev.releaseOpens_apart (d : Dev) : { d.releaseOpens with net := d.net } = d := rfl

theorem Dev.demandMet_iff (d : Dev) (p : Nat) : d.demandMet p = true ↔ ∀ c ∈ d.pavCores p, clusterOf c ∈ d.plat.govTimed ∧
    Table.get 0 d.plat.vtarget (clusterOf c) ≤ elem 2 (d.rd R.pow_VCORE) (clusterOf c) := by
  simp only [Dev.demandMet, List.all_eq_true, Bool.and_eq_true, List.contains_iff_mem, decide_eq_true_eq]
  rfl

theorem Dev.releaseOpens_of_none {d : Dev} (none : d.net.openWait = []) : d.releaseOpens = d := by
  have waiting : d.net.openWait.filter (fun w => !d.demandMet w.pav) = d.net.openWait := by rw [none]; rfl
  have going : d.net.openWait.filter (fun w => d.demandMet w.pav) = [] := by rw [none]; rfl
  unfold Dev.releaseOpens
  simp only [waiting, going, List.map_nil, List.reverse_nil, List.nil_append, List.any_nil, Bool.false_eq_true, if_false, List.map_id']

/-- A reply whose demand is met leaves. -/
theorem Dev.releaseOpens_of_met {d : Dev} {w : OpenWait} (waits : w ∈ d.net.openWait) (met : d.demandMet w.pav = true) :
    Out.msg w.tx ∈ d.releaseOpens.net.out ∧ w ∉ d.releaseOpens.net.openWait := by
  refine ⟨List.mem_append_left _ (List.mem_reverse.mpr (List.mem_map.mpr ⟨w, List.mem_filter.mpr ⟨waits, met⟩, rfl⟩)), fun still => ?_⟩
  have unmet := (List.mem_filter.mp still).2
  rw [met] at unmet
  exact nomatch unmet

/-- The others wait on. -/
theorem Dev.releaseOpens_of_unmet {d : Dev} {w : OpenWait} (waits : w ∈ d.net.openWait) (unmet : d.demandMet w.pav = false) :
    w ∈ d.releaseOpens.net.openWait := List.mem_filter.mpr ⟨waits, by rw [unmet]; rfl⟩

/-! ## An evaluation -/

/-- The input power found by the evaluations of the last 1 ms, with that of this one under step `k`. -/
def Dev.powerSeen (d : Dev) (o : OpGovern) (k : Nat) : List (Nat × Nat) :=
  (d.time, o.draw.getD k 0) :: d.plat.power.filter fun e => decide (d.time < e.1 + 1000000)

/-- The device after an evaluation that takes step `k` of R132, before OPEN_REPLYs leave. -/
def Dev.evaluated (d : Dev) (o : OpGovern) (k : Nat) : Dev :=
  let c := o.cluster.val
  let power := d.powerSeen o k
  ((d.wr R.pow_INPUT_POWER (min 65535 ((power.map (·.2)).sum / power.length))).wr R.clu_ISSUE_FRACTION (d.governed o k).2 c).onPlat fun x => { x with
    govAt := Table.set 0 x.govAt c d.time
    vtarget := Table.set 0 x.vtarget c (vgrid (d.governed o k).1)
    power := power
    govTimed := if bitOf d.deadlineClusters c then c :: x.govTimed.filter (· ≠ c) else x.govTimed.filter (· ≠ c)
    limited := if k = 0 then x.limited.filter (· ≠ c) else if x.limited.contains c then x.limited else x.limited ++ [c] }

theorem Dev.evaluated_values (d : Dev) (o : OpGovern) (k : Nat) :
    (d.evaluated o k).rd R.pow_INPUT_POWER = min 65535 (((d.powerSeen o k).map (·.2)).sum / (d.powerSeen o k).length) ∧
    (d.evaluated o k).rd R.clu_ISSUE_FRACTION o.cluster.val = (d.governed o k).2 :=
  ⟨(Dev.rd_wr_ne _ _ (Entry.key_ne_of_sub (by decide) (by decide) (by decide) _ _)).trans (Dev.rd_wr_self ..), Dev.rd_wr_self ..⟩

theorem Dev.evaluated_limited (d : Dev) (o : OpGovern) (k : Nat) : o.cluster.val ∈ (d.evaluated o k).plat.limited ↔ k ≠ 0 := by
  show o.cluster.val ∈ (if k = 0 then d.plat.limited.filter (· ≠ o.cluster.val) else if d.plat.limited.contains o.cluster.val then d.plat.limited
    else d.plat.limited ++ [o.cluster.val]) ↔ _
  split
  case isTrue none => simp [none]
  case isFalse step =>
    split
    case isTrue already => simpa [step] using already
    case isFalse => simp [step]

theorem Dev.evaluated_govTimed (d : Dev) (o : OpGovern) (k : Nat) :
    o.cluster.val ∈ (d.evaluated o k).plat.govTimed ↔ bitOf d.deadlineClusters o.cluster.val = true := by
  show o.cluster.val ∈ (if bitOf d.deadlineClusters o.cluster.val then o.cluster.val :: d.plat.govTimed.filter (· ≠ o.cluster.val)
    else d.plat.govTimed.filter (· ≠ o.cluster.val)) ↔ _
  split
  case isTrue timed => simp [timed]
  case isFalse untimed => simp [untimed]

variable {q : List Instr} {d : Dev}

theorem governorEvaluation_early {o : OpGovern} (running : d.thermalStop = false)
    (early : ¬ (5 ≤ d.plat.step ∧ (Table.get 0 d.plat.govAt o.cluster.val = 0 ∨ Table.get 0 d.plat.govAt o.cluster.val + 10000 ≤ (d.at o.t).time))) :
    Answers (.governorEvaluation o) q d (d.at o.t) := by
  refine answers_of_act _ (exec_governorEvaluation o _) running (if_pos ?_)
  simp only [Dev.at_plat]
  omega

theorem governorEvaluation_due {o : OpGovern} {k : Nat} (running : d.thermalStop = false)
    (due : 5 ≤ d.plat.step ∧ (Table.get 0 d.plat.govAt o.cluster.val = 0 ∨ Table.get 0 d.plat.govAt o.cluster.val + 10000 ≤ (d.at o.t).time))
    (relief : (d.at o.t).relief o.draw = k) : Answers (.governorEvaluation o) q d ((d.at o.t).evaluated o k).releaseOpens := by
  subst relief
  refine answers_of_act _ (exec_governorEvaluation o _) running (if_neg ?_)
  simp only [Dev.at_plat]
  omega

/-! ## A step of VCORE (R130) -/

/-- The device after a step of VCORE, before OPEN_REPLYs leave. -/
def Dev.vcoreStepped (d : Dev) (o : OpVcore) : Dev :=
  let v := d.vcore o.cluster.val
  (d.wr R.pow_VCORE (withElem 2 (d.rd R.pow_VCORE) o.cluster.val (if o.up then v + 10 else v - 10))).onPlat fun x => { x with
    vstepAt := Table.set 0 x.vstepAt o.cluster.val d.time }

/-- Nothing moves VCORE: it is where the governor asks for it or beyond, the governor asks for none, or the last step was within 1 µs. -/
def Dev.vcoreHeld (d : Dev) (o : OpVcore) : Bool :=
  let v := d.vcore o.cluster.val
  let target := Table.get 0 d.plat.vtarget o.cluster.val
  let last := Table.get 0 d.plat.vstepAt o.cluster.val
  !(if o.up then decide (v < target) else decide (target < v)) || decide (target = 0) || (decide (last ≠ 0) && decide (d.time < last + 1000))

theorem Dev.vcoreHeld_iff (d : Dev) (o : OpVcore) : d.vcoreHeld o = true ↔
    ¬ (Table.get 0 d.plat.vtarget o.cluster.val ≠ 0 ∧
        (Table.get 0 d.plat.vstepAt o.cluster.val = 0 ∨ Table.get 0 d.plat.vstepAt o.cluster.val + 1000 ≤ d.time)) ∨
      (o.up = true ∧ Table.get 0 d.plat.vtarget o.cluster.val ≤ d.vcore o.cluster.val) ∨
      (o.up = false ∧ d.vcore o.cluster.val ≤ Table.get 0 d.plat.vtarget o.cluster.val) := by
  unfold Dev.vcoreHeld
  cases o.up
  · simp
    omega
  · simp
    omega

theorem vcoreStep_stays {o : OpVcore} (running : d.thermalStop = false) (held : (d.at o.t).vcoreHeld o = true) :
    Answers (.vcoreStep o) q d (d.at o.t) := answers_of_act _ (exec_vcoreStep o _) running (if_pos held)

theorem vcoreStep_moves {o : OpVcore} (running : d.thermalStop = false) (free : ¬ (d.at o.t).vcoreHeld o = true) :
    Answers (.vcoreStep o) q d ((d.at o.t).vcoreStepped o).releaseOpens := answers_of_act _ (exec_vcoreStep o _) running (if_neg free)

/-- The cluster's VCORE moves by 10 mV, and the others stay. -/
theorem Dev.vcoreStepped_elem (d : Dev) (o : OpVcore) (k : Nat) : elem 2 ((d.vcoreStepped o).rd R.pow_VCORE) k =
    if k = o.cluster.val then (if o.up then d.vcore k + 10 else d.vcore k - 10) % 256 ^ 2 else d.vcore k := by
  have value : (d.vcoreStepped o).rd R.pow_VCORE = withElem 2 (d.rd R.pow_VCORE) o.cluster.val
      (if o.up then d.vcore o.cluster.val + 10 else d.vcore o.cluster.val - 10) := Dev.rd_wr_self ..
  rw [value]
  by_cases same : k = o.cluster.val
  · rw [if_pos same, same, elem_withElem_self]
  · rw [if_neg same, elem_withElem_ne _ _ _ same]
    rfl

end Sys2Proof.Machine
end

section
namespace Sys2Proof
open Machine

/-- Settles O49. A sample is followed through the rules of the deficit (`Dev.deficitRules_deficit`, `Dev.deficitRules_high`), a report through the
clusters; an evaluation takes the first step of R132 that suffices, and the OPEN_REPLYs leave after it. -/
theorem paceAndGovernor : Obligations.PaceAndGovernor := by
  unfold Obligations.PaceAndGovernor
  refine ⟨?samples, ?reports, leastMv_spec, ?governor, Dev.demandMet_iff, vgrid_spec, ?steps⟩
  case samples =>
    intro q d o running d1 c i last taken follows pace eff low clean timed starves
    refine ⟨fun skipped => paceSample_skipped running skipped, fun takes => ⟨_, paceSample_taken running takes, ?_⟩⟩
    obtain ⟨measured, least, below, events⟩ := d1.paceSampled_values o
    have classes := d1.paceSampled_sameClasses o
    have apart := d1.paceSampled_apart o
    have plat := d1.paceSampled_plat o
    have follow : paceFollows o.t last d1.plat.ptpStepAt = true ↔ follows := by
      simp only [paceFollows, Bool.or_eq_true, decide_eq_true_eq]
      rfl
    have runs : ∀ k, Table.get 0 (d1.paceSampled o).plat.low k = low k ∧ Table.get 0 (d1.paceSampled o).plat.clean k = clean k := fun k => by
      rw [plat]
      exact d1.plat.sampled_runs c eff o.t follow k
    generalize (d.at o.t).paceSampled o = u at measured least below events classes apart plat runs
    have lowBit : ∀ k, bitOf u.lowClusters k = true ↔ k < 16 ∧ starves k := fun k => by
      rw [u.bitOf_lowClusters, classes.deadlineClusters, (runs k).1]
      rfl
    have starving : u.lowClusters ≠ 0 ↔ ∃ k < 16, starves k := by
      rw [u.lowClusters_ne_zero, classes.deadlineClusters]
      simp only [fun k => (runs k).1]
      rfl
    have deficit : u.plat.deficit = d.plat.deficit := by rw [plat]; rfl
    obtain ⟨samples, cores, -⟩ := u.deficitRules_frame
    refine ⟨measured, least, below, fun k => ?_, ?_, ?_, fun some => ?_, fun none => ?_, ?_⟩
    · rw [samples.low, samples.clean]
      exact runs k
    · rw [samples.log, plat]
      exact (d1.plat.sampled_latest ..).1
    · rw [samples.last, plat]
      exact (d1.plat.sampled_latest ..).2
    · have isLow := starving.mpr some
      obtain ⟨stands, rings⟩ := Dev.deficitRules_deficit isLow
      refine ⟨stands, fun p lt k below16 starvesK ex holds unrung => ?_, fun calm => ?_, fun standing => ?_⟩
      · exact rings p lt k ((lowBit k).mpr ⟨below16, starvesK⟩) ((classes.exists_ p).trans ex) (by rw [classes.pavCores]; exact holds)
          (by rw [plat]; exact unrung)
      · obtain ⟨alert, counted⟩ := Dev.deficitRules_new isLow (deficit.trans calm)
        refine ⟨⟨u.lowClusters, ?_, fun k hk => (lowBit k).trans (and_iff_right hk)⟩, ?_, ?_⟩
        · rw [alert, show u.time = d1.time from (congrArg Dev.time apart :)]
        · rw [counted, events]
          rfl
        · rw [Dev.deficitRules_raised isLow (deficit.trans calm), show u.net = d.net from (congrArg Dev.net apart :)]
          rfl
      · obtain ⟨net, alerts⟩ := Dev.deficitRules_standing isLow (deficit.trans standing)
        exact ⟨net.trans (congrArg Dev.net apart :), alerts.trans (congrArg Dev.alerts apart :)⟩
    · have high : u.lowClusters = 0 := by
        by_contra isLow
        obtain ⟨k, hk, starvesK⟩ := starving.mp isLow
        exact none k hk starvesK
      obtain ⟨net, mem, ended⟩ := Dev.deficitRules_high high
      have allClean : (bitList 16 u.deadlineClusters).all (fun k => decide (1000 ≤ Table.get 0 u.plat.clean k)) = true ↔
          ∀ k < 16, timed k → 1000 ≤ clean k := by
        simp only [List.all_eq_true, mem_bitList, classes.deadlineClusters, decide_eq_true_eq, and_imp, fun k => (runs k).2]
        rfl
      refine ⟨net.trans (congrArg Dev.net apart :), mem.trans (congrArg Dev.mem apart :), fun all => ?_, fun ⟨k, hk, timedK, dirty⟩ => ?_⟩
      · rw [ended, allClean.mpr all, Bool.not_true, Bool.and_false]
      · have unclean := Bool.eq_false_iff.mpr (mt allClean.mp fun all => absurd (all k hk timedK) (Nat.not_le.mpr dirty))
        rw [ended, unclean, Bool.not_false, Bool.and_true, deficit]
    · exact cores.trans (congrArg Dev.cores apart :)
  case reports =>
    intro q d o running d1 due
    refine ⟨fun early => paceReport_early running early, fun isDue => ⟨_, paceReport_due running isDue, ?_⟩⟩
    have frame := (d.at o.t).pacePuts_frame 16
    have elem := (d.at o.t).pacePuts_elem 16
    generalize (d.at o.t).pacePuts 16 = t at frame elem
    refine ⟨frame.time, (congrArg Plat.paceLog frame.plat :), fun c hc => ⟨fun some => ?_, fun none => ?_⟩, frame.cores, frame.mem⟩
    · exact (elem c).trans (if_pos ⟨hc, some⟩)
    · exact (elem c).trans (if_neg fun h => h.2 none)
  case governor =>
    intro q d o running d1 c i last due timed strict cap draw floor guarded least
    refine ⟨fun early => governorEvaluation_early running early, fun k le isDue more enough =>
      ⟨_, governorEvaluation_due running isDue (Dev.relief_eq le more enough), ?_⟩⟩
    intro pct v power
    obtain ⟨input, fraction⟩ := d1.evaluated_values o k
    have target : v = vgrid (d1.governed o k).1 := Table.get_set_self ..
    refine ⟨input, rfl, fun isTimed => ?_, fun untimed => ?_, d1.evaluated_limited o k, d1.evaluated_govTimed o k, Table.get_set_self .., rfl, rfl,
      fun none => ?_, fun w waits met => Dev.releaseOpens_of_met waits met, fun w waits unmet => Dev.releaseOpens_of_unmet waits unmet⟩
    · obtain ⟨issue, full, third, last_⟩ := Dev.governed_timed (d := d1) (o := o) le isTimed
      have wanted : d1.wantedMv o = guarded := Dev.wantedMv_timed isTimed
      rw [wanted] at full third last_
      exact ⟨fraction.trans issue, fun lt => target.trans (congrArg vgrid (full lt)), fun eq => target.trans (congrArg vgrid (third eq)),
        fun eq => target.trans (congrArg vgrid (last_ eq))⟩
    · obtain ⟨⟨whole, part, idle⟩, low, none, first⟩ := Dev.governed_untimed (d := d1) (o := o) (k := k) untimed
      have floor600 : vgrid 600 = 600 := rfl
      have least600 : 2 ≤ k → v = 600 := fun ge => by rw [target, low ge, floor600]
      refine ⟨fun lt => fraction.trans (whole lt), fun eq => fraction.trans (part eq), fun ge => fraction.trans (idle ge), least600,
        fun isStrict => ?_, fun shared => ⟨fun zero => ?_, fun one => ?_⟩⟩
      · have wanted := Dev.wantedMv_strict (d := d1) untimed ((d1.strictCluster_iff c).mpr isStrict)
        rw [wanted] at none first
        match k with
        | 0 => rw [target, none rfl, floor600]
        | 1 => rw [target, first rfl, Nat.max_eq_left (Nat.min_le_left _ _), floor600]
        | k + 2 => exact least600 (Nat.le_add_left _ _)
      · rw [target, none zero, Dev.wantedMv_shared (d := d1) untimed (mt (d1.strictCluster_iff c).mp shared), vgrid_vgrid]
      · rw [target, first one, Dev.wantedMv_shared (d := d1) untimed (mt (d1.strictCluster_iff c).mp shared)]
    · rw [Dev.releaseOpens_of_none (show (d1.evaluated o k).net.openWait = [] from none)]
      rfl
  case steps =>
    intro q d o running d1 c v g last free
    have held : d1.vcoreHeld o = true ↔ ¬ free ∨ (o.up = true ∧ g ≤ v) ∨ (o.up = false ∧ v ≤ g) := d1.vcoreHeld_iff o
    refine ⟨fun stays => vcoreStep_stays running (held.mpr stays), fun isFree range up down => ?_⟩
    have moves : ¬ d1.vcoreHeld o = true := by
      rw [held]
      rintro (tied | ⟨way, reached⟩ | ⟨way, reached⟩)
      · exact tied isFree
      · exact absurd (up way) (Nat.not_lt.mpr reached)
      · exact absurd (down way) (Nat.not_lt.mpr reached)
    have bound : v < 65536 := Nat.mod_lt _ (by decide)
    refine ⟨_, vcoreStep_moves running moves, ?_, fun k _ other => ?_, Table.get_set_self .., rfl, rfl⟩
    · refine (d1.vcoreStepped_elem o c).trans ((if_pos rfl).trans (Nat.mod_eq_of_lt ?_))
      show (if o.up then v + 10 else v - 10) < 65536
      split
      case isTrue way =>
        have := up way
        omega
      case isFalse => omega
    · exact (d1.vcoreStepped_elem o k).trans (if_neg other)

end Sys2Proof
end
